-- ==== Sys2Proof/Word.lean ====
section
/-! DEFINITION. The word types of the part and their plainest arithmetic (R5, R6, R7, R14). -/

namespace Sys2Proof

/-- A byte. -/
abbrev Byte := BitVec 8

/-- A 32-bit word: a register, a die word, a CRC. -/
abbrev Word := BitVec 32

/-- A command-reel descriptor: 64 bytes, byte b in bits [8b+7:8b] (R6, R81). -/
abbrev Desc := BitVec 512

/-- The die word that a parity failure is about (R439, R440): a word moved between blocks or held in a buffer of a BAR0
block, by the block's row in R25; a word of a loaded table; a context in its bank or in the mirror; a word of a scaler. -/
inductive DieWord where
  | moved (block : Nat)
  | palette (index : Nat)
  /-- Word `k` of an engine's mesh: X of control point k / 2 for even k, Y for odd k. -/
  | mesh (engine k : Nat)
  /-- Entries 2k and 2k + 1 of an engine's loaded ramps, 256 to each edge. -/
  | ramp (engine k : Nat)
  /-- Entries 2k and 2k + 1 of an engine's loaded matrix. -/
  | matrix (engine k : Nat)
  /-- Word `k` of slot `slot` of a twist table. -/
  | twist (table slot k : Nat)
  /-- Word `k` of a flow entry, counted from byte 8 of its FLOW_WRITE. -/
  | flow (entry k : Nat)
  | context (n : Nat)
  | mirror (n : Nat)
  /-- Coefficients 2k and 2k + 1 of a scaler's loaded table, horizontal or vertical. -/
  | coef (scaler : Nat) (vertical : Bool) (k : Nat)
  | lineBuffer (scaler : Nat)
  deriving DecidableEq, Repr

/-- A frame that a backbone port receives, as its MAC and parser see it (R376 to R381). -/
structure Frame where
  port : Nat
  /-- Bytes of the frame. -/
  len : Nat
  /-- FCS, length, FEC, IPv4 header checksum or UDP checksum error; a fragment, or an IPv6 extension header (R374, R376). -/
  bad : Bool := false
  /-- FEC blocks within it that were corrected, and that could not be. -/
  fecCorrected : Nat := 0
  fecUncorrected : Nat := 0
  /-- EtherType 0x88F7 to 01-80-C2-00-00-0E. -/
  gptp : Bool := false
  /-- Destination MAC address in wire order. -/
  dstMac : List Byte
  /-- VLAN ID of a tagged frame. -/
  vid : Option Nat := none
  /-- UDP over IPv4 or IPv6. -/
  udp : Bool := true
  ipv6 : Bool := false
  src : List Byte := []
  dst : List Byte := []
  sport : Nat := 0
  dport : Nat := 0
  /-- The UDP payload. -/
  payload : List Byte := []
  /-- Buffered frames that have left for the stack since the last reception, in the order of R381. -/
  left : Nat := 0
  deriving DecidableEq, Repr

/-- An 802.1AS message, with what the function of the port measures from it (R391 to R393). -/
inductive GptpMsg where
  /-- Announce of the grandmaster with this clockIdentity. -/
  | announce (clock : Nat)
  /-- A complete Sync: the offset O in ns, the residual after the servo's correction in ns, the grandmaster's rate in
  0.01 ppm, and log2 of the Sync interval. -/
  | sync (offset : Int) (residual : Nat) (rate logSync : Int)
  /-- The answer to a Pdelay_Req: meanLinkDelay in ns, and whether it is valid. -/
  | delay (ns : Nat) (valid : Bool)
  /-- A Pdelay_Req of the peer. -/
  | pdelayReq (seq : Nat)
  deriving DecidableEq, Repr

/-- A requester of the stack whose sub-request failed (R404, R411). -/
inductive StackVictim where
  /-- The block that the Flyer of an engine fetches next. -/
  | flyer (engine : Nat)
  | guardedFetch
  | otherFetch
  | canvasWrite
  /-- Warp reads of a port. -/
  | warpRead (port : Nat)
  /-- A plane write of a band of an engine's frame. -/
  | planeWrite (engine band : Nat)
  | histogramWrite (engine : Nat)
  | matrixRead (engine : Nat)
  /-- SURFACE_COPY or atlas copy of a reel. -/
  | copy (reel : Nat)
  /-- Backbone ingest of a stream context. -/
  | ingest (context : Nat)
  | readBack (reel : Nat)
  deriving DecidableEq, Repr

/-- The passing steps of a byte lane's read and write sweeps, longest run of each (R408); `lo = hi + 1` for none. -/
structure LaneSweep where
  rdLo : Nat
  rdHi : Nat
  wrLo : Nat
  wrHi : Nat
  deriving DecidableEq, Repr

/-- What the run of a self-test group found (R480 to R484). -/
structure GroupRun where
  /-- It ended before its last pattern. -/
  early : Bool := false
  /-- Fence units of the group that failed: ports, scalers, banks (16 the mirror), pseudo-channels or backbone ports. -/
  bad : List Nat := []
  /-- A core block failed. -/
  badCore : Bool := false
  /-- Patterns applied, in units of 1,024. -/
  patterns : Nat := 0
  /-- Spares newly assigned in die memories, and the object banks that took one. -/
  spares : Nat := 0
  banks : List Nat := []
  /-- Stack lanes remapped, and the pseudo-channels whose spare lanes did not suffice. -/
  lanes : Nat := 0
  shortPcs : List Nat := []
  /-- Stack rows the memory test failed: (pseudo-channel, bank, row). -/
  rows : List (Nat × Nat × Nat) := []
  /-- Of a user run of groups 10 and 11: the sweeps of the group's 64 lanes (R494). -/
  sweeps : List LaneSweep := []
  deriving DecidableEq, Repr

/-- What fuse load reads (R479): the factory's groups, the cells of TEST, FIELD and RETURN as masks of three, and for each
programmed REPAIR group whether its check word matches. -/
structure FuseRead where
  identityOk : Bool
  serial : Nat := 0
  cbusMac : Nat := 0
  bbnMac0 : Nat := 0
  bbnMac1 : Nat := 0
  cells : List Nat := [0, 0, 0]
  keyOk : Bool := false
  repairs : List Bool := []
  deriving DecidableEq, Repr

/-- What ends with a step of start-up (R476). -/
inductive StepEnd where
  | plls
  | fuses (f : FuseRead)
  | group (r : GroupRun)
  | rows
  | training (sweeps : List LaneSweep)
  deriving DecidableEq, Repr

/-- How a long operation ends (R98). -/
inductive LongEnd where
  /-- Fuse programming: cells or words programmed, and whether the last read back right (R489, R493). -/
  | fuses (done : Nat) (ok : Bool)
  /-- CAL_STORE: whether the flash answers, the steps of the calibration write and of the record write carried out (one for
  each sector erased and each byte programmed), and whether each read back right (R350, R486). -/
  | store (answers : Bool) (steps : Nat) (ok : Bool) (recSteps : Nat) (recOk : Bool)
  /-- The run of the lowest group still to run (R494). -/
  | group (r : GroupRun)
  deriving DecidableEq, Repr

/-- A rail's millisecond: mean current in mA and mean power in mW; `none` without a reading (R462, R463). -/
abbrev RailMs := Option (Nat × Nat)

/-- The reference clocks (R521). -/
inductive Clock where
  | sys
  | skn (k : Nat)
  | bbn
  | pcie
  deriving DecidableEq, Repr

/-- Bits [lo+w-1:lo] of a number (the x[msb:lsb] of R14). -/
def bitsOf (x lo w : Nat) : Nat := (x >>> lo) % 2 ^ w

/-- Bit `n` of a number as a Bool. -/
def bitOf (x n : Nat) : Bool := (x >>> n) % 2 == 1

/-- A Bool as a one-bit number. -/
def b2n (b : Bool) : Nat := if b then 1 else 0

/-- clamp of R14 over the naturals. -/
def clampN (x lo hi : Nat) : Nat := if x < lo then lo else if hi < x then hi else x

/-- clamp of R14 over the integers. -/
def clampI (x lo hi : Int) : Int := if x < lo then lo else if hi < x then hi else x

/-- ceil(a / b) of R14 for naturals; `b = 0` gives 0. -/
def ceilDiv (a b : Nat) : Nat := (a + b - 1) / b

/-- round(a / b) = floor(a / b + 1/2) of R14 for an integer `a` and a positive `b`. -/
def roundDiv (a : Int) (b : Nat) : Int := Int.fdiv (2 * a + b) (2 * b)

/-- round(a / b) of R14 for naturals. -/
def roundDivN (a b : Nat) : Nat := (2 * a + b) / (2 * b)

/-- The value of a `w`-bit two's-complement field. -/
def signedOf (x w : Nat) : Int := if x % 2 ^ w < 2 ^ (w - 1) then (x % 2 ^ w : Nat) else (x % 2 ^ w : Nat) - (2 ^ w : Nat)

/-- The `w`-bit two's-complement pattern of an integer. -/
def toField (x : Int) (w : Nat) : Nat := (x % (2 ^ w : Nat)).toNat

/-- A saturating sum at `2 ^ w - 1` (R13). -/
def satAdd (w x n : Nat) : Nat := min (x + n) (2 ^ w - 1)

/-- Little-endian bytes of a number (R6). -/
def leBytes (n : Nat) : Nat → List Byte
  | 0 => []
  | k + 1 => BitVec.ofNat 8 n :: leBytes (n / 256) k

/-- The number that little-endian bytes spell (R6). -/
def ofLeBytes : List Byte → Nat
  | [] => 0
  | b :: r => b.toNat + 256 * ofLeBytes r

/-- Exclusive-or of the bits of a number: 1 for an odd number of ones. -/
def parityOf (x : Nat) : Nat → Nat
  | 0 => 0
  | k + 1 => (x % 2 + parityOf (x / 2) k) % 2

end Sys2Proof
end

