-- ==== Sys2Proof/Syntax.lean ====
section
/-! DEFINITION. The commands of the SX1648, one constructor per row of the table of commands: what the host, the board, the
engines, the networks and the part's own engines do to it, with what each brings from outside the part.

Operands that many commands share: `r` a command reel, `v` an event reel, `e` an engine, `p` or `port` a port, `c` a canvas,
a stream context or a clock, `k` a word or a kind, `t` an interrupt target or an instant in ns, `w` the word written, `q` a
sequence number, `mac` the source address of a frame and `ok` that the frame or access was good. A descriptor's command names
only its reel: the descriptor is the one at the reel's front. -/

namespace Sys2Proof

/-- A command. -/
inductive Instr where
  /-- Descriptor that does nothing and is executed at once, optionally producing a completion record (R85). -/
  | nop (r : Nat)
  /-- Descriptor that schedules a 64-bit VALUE write to host memory in mode EXECUTED, LIT or AT_TICK (R87). -/
  | fence (r : Nat)
  /-- Descriptor that holds its reel until a relative or absolute target tick (R88). -/
  | waitTick (r : Nat)
  /-- Descriptor that copies stack, canvas, histogram, object or CRC data to host memory at C3 (R89). -/
  | readBack (r : Nat)
  /-- A READ_BACK copy finishes its last host write and the descriptor is executed (R90). -/
  | readBackEnd (r n : Nat)
  /-- Descriptor that returns a fenced pseudo-channel, engine, object bank, scaler or escalation level to service (R445). -/
  | unfence (r : Nat)
  /-- Descriptor that writes a surface descriptor, optionally loads a palette, and sets the surface not ready (R103). -/
  | surfaceDefine (r : Nat)
  /-- Descriptor that copies host pixels into a surface in RECT or IMAGE mode at C3 (R108). -/
  | surfaceCopy (r : Nat)
  /-- A SURFACE_COPY or atlas copy ends its stack write, updating the write count and ready bit (R112). -/
  | copyWriteEnd (r : Nat) (bs : List Byte)
  /-- Descriptor that queries a surface's ready state or sets it ready or not ready (R114). -/
  | surfaceState (r : Nat)
  /-- Descriptor that defines or removes an atlas entry, optionally copying its surface footprint (R111). -/
  | atlasDefine (r : Nat)
  /-- Descriptor that writes a layer slot's shadow settings (R126). -/
  | layerSet (r : Nat)
  /-- Descriptor that writes a canvas's shadow settings (R121). -/
  | canvasSet (r : Nat)
  /-- Descriptor that snapshots a canvas's shadow and is checked and admitted or rejected by the ledger (R137). -/
  | commit (r : Nat)
  /-- Descriptor that sets a canvas's guarded reservation after ledger checks (R145). -/
  | guardSet (r : Nat)
  /-- Descriptor that carries the guarded overlay setting and is admitted against the reservation (R148). -/
  | guardCommit (r : Nat)
  /-- Descriptor that writes a signature region's shadow (R446). -/
  | regionSet (r : Nat)
  /-- Descriptor that reserves a scaler or returns it to the pool and names its canvas (R167). -/
  | scalerBind (r : Nat)
  /-- Descriptor that loads one direction of a scaler's loaded kernel into its shadow (R161). -/
  | coefLoad (r : Nat)
  /-- Descriptor that stages a batch of object contexts for the next commit of a canvas (R176). -/
  | objWrite (r : Nat)
  /-- Descriptor that sets an engine's warp mode and, in MESH mode, loads its mesh table (R187). -/
  | meshLoad (r : Nat)
  /-- Descriptor that writes an engine's saddle zones, ramps, black lift and matrix shadow (R195). -/
  | saddleLoad (r : Nat)
  /-- Descriptor that writes an engine's Flyer and Spindle settings into its shadow (R246). -/
  | engineSet (r : Nat)
  /-- Descriptor that snapshots an engine's shadows and is checked and admitted or rejected (R247). -/
  | engineCommit (r : Nat)
  /-- Descriptor that reads, checks and loads one twist table (R234). -/
  | twistLoad (r : Nat)
  /-- Descriptor that writes an engine's twist-set shadow (R241). -/
  | twistSet (r : Nat)
  /-- Descriptor that writes one part of an engine's light settings: target, limits, gains or actions (R321). -/
  | lightSet (r : Nat)
  /-- Descriptor that requests calibration runs, loads a responsivity set or queries calibration state (R345). -/
  | calRequest (r : Nat)
  /-- Descriptor that writes calibration and repair records to the boot flash as a long operation (R350). -/
  | calStore (r : Nat)
  /-- Descriptor that writes one backbone flow-table entry (R379). -/
  | flowWrite (r : Nat)
  /-- BAR2 write that offers a new tail for a command reel, taken or refused (R69). -/
  | doorbell (r off : Nat) (full : Bool) (w : Word)
  /-- A reel wins the fetch arbiter and reserves completion slots and issues its descriptor read (R76). -/
  | descriptorFetch
  /-- Descriptor data returns from host memory and the descriptors are queued for execution (R70). -/
  | descriptorArrival (r : Nat) (ds : List Desc)
  /-- A host read completes with an error or times out; the descriptor or fetch fails (R84). -/
  | hostReadError (kind r : Nat)
  /-- The device writes a reel's executed count to its write-back address (R71). -/
  | headWriteBack (r : Nat)
  /-- The device reads the host's consumed count of an event reel while records wait for space (R92). -/
  | evrHeadRead (v : Nat) (count : Word)
  /-- A queued ALARM record is written into an event reel as a slot frees (R459). -/
  | alarmQueueWrite (v : Nat)
  /-- PERST, hot reset, FLR or link loss resets the host interface and disables all reels (R66). -/
  | hostInterfaceReset (flr linkDown : Bool)
  /-- The function enters D3hot and stops issuing PCIe requests, holding due writes (R67). -/
  | d3hotEntry
  /-- The function returns to D0 and writes held fences, counts and records in order (R67). -/
  | d0Return
  /-- A BAR0 write to a register without a row of its own, stored, dropped or counted by the set-up port rules (R97). -/
  | setupWrite (off n v : Nat)
  /-- Writing TICK_CTRL.ENABLE 1 takes the source settings and places the first dark tick edge (R42). -/
  | tickEnable (w : Word)
  /-- Writing TICK_CTRL.ENABLE 0 finishes the current tick dark and stops tick edges (R42). -/
  | tickDisable (w : Word)
  /-- Writing TICK_CTRL.APPLY checks and evaluates a change of period, timing or source (R43). -/
  | tickApply (w : Word)
  /-- Enabling a command reel takes its base, size, class and event reel and zeroes its counts (R68). -/
  | crEnable (r : Nat) (w : Word)
  /-- Disabling a command reel stops fetching and discards unexecuted descriptors (R72). -/
  | crDisable (r : Nat) (w : Word)
  /-- Writing RESTART resumes a halted command reel (R73). -/
  | crRestart (r : Nat)
  /-- Enabling or disabling an event reel takes its base and size and resets its counts (R91). -/
  | evrEnable (v : Nat) (w : Word)
  /-- A write to the message doorbell makes an arrival of a message source or is dropped (R419). -/
  | icMsgDoorbell (w : Nat)
  /-- A write to IC_SRC_SET makes an arrival of any source (R420). -/
  | icSrcSet (w : Nat)
  /-- A W1C write to IC_PENDk clears pending bits (R420). -/
  | icPendClear (k w : Nat)
  /-- A read of a target's claim register returns and activates its best deliverable source (R429). -/
  | icTgtClaim (t : Nat)
  /-- A write of a source number completes an active source on its target or is ignored (R430). -/
  | icTgtComplete (t w : Nat)
  /-- Writing IC_TGT_CTRL.RELEASE clears every active bit held by the target and re-arms it (R435). -/
  | release (t w : Nat)
  /-- Writing ASLEEP from 1 to 0 re-arms a target so waiting sources notify (R428). -/
  | targetWake (t w : Nat)
  /-- A rising condition of an internal source latches an arrival, counts it and writes its CONDITION record (R418). -/
  | interruptArrival (n : Nat)
  /-- A target whose arming, deliverable set and coalescing condition hold sends MSI-X or asserts IRQ_L (R425). -/
  | notify (t : Nat)
  /-- Writing SKN_PORT_CFG.ENABLE moves the port's sub-ports to TRAIN or OFF (R297). -/
  | sknPortEnable (p : Nat) (w : Word)
  /-- Writing RETRAIN sends a sub-port to TRAIN (R297). -/
  | retrain (e : Nat)
  /-- Writing ACCEPT accepts the SERIAL offered on a sub-port (R298). -/
  | accept (e : Nat)
  /-- Writing RELEASE allows a latched laser permit to return (R304). -/
  | lsafeRelease
  /-- Writing CBUS_CFG.ENABLE starts or stops the coach bus with its node ID and MAC address (R358). -/
  | cbusEnable (w : Word)
  /-- Writing LOG_CLEAR empties the stranger log (R365). -/
  | logClear
  /-- Writing VALID in an allow-list entry checks and validates it (R363). -/
  | allowValid (n : Nat) (w : Word)
  /-- Writing a backbone port's ENABLE, FEC or inversion starts, stops or reacquires its link (R375). -/
  | bbnPortConfig (p : Nat) (w : Word)
  /-- Writing a stream context's ENABLE checks and starts it, or disables it losing any open frame (R383). -/
  | streamEnable (c : Nat) (w : Word)
  /-- Writing MAP_APPLY checks and puts a new stack address mask set in force (R399). -/
  | mapApply
  /-- Writing TO_TEST requests fuse programming of the TEST life-cycle bit (R489). -/
  | toTest (w : Nat)
  /-- Writing TO_FIELD requests fuse programming of the FIELD life-cycle bit (R489). -/
  | toField (w : Nat)
  /-- Writing TO_RETURN verifies the token and requests fuse programming of the RETURN bit (R490). -/
  | toReturn (w : Nat) (sig : Bool)
  /-- Writing PROGRAM_REPAIR fuses the die-memory repairs into the next REPAIR group (R493). -/
  | programRepair
  /-- Writing START runs user self-test of the selected groups as a long operation (R494). -/
  | bistStart (w : Nat)
  /-- Writing THM_CFG.CEILING sets CEIL_HOST and lowers the ceiling at once if needed (R469). -/
  | ceilingWrite (w : Word)
  /-- Fuse programming, a boot-flash write or a self-test ends, clears BUSY and reports its result (R98). -/
  | longOperationEnd (x : LongEnd)
  /-- PORST_L falls, holding every block in reset and darkening the strands (R497). -/
  | porstLFall
  /-- PORST_L rises and start-up samples straps, loads fuses, self-tests, repairs and trains the stack (R476). -/
  | porstLRise (gpio : Nat)
  /-- PWR_OK falls: the laser permit is withdrawn, PWR_LOW set and writes interrupted or start-up held (R496). -/
  | pwrOkFall
  /-- PWR_OK rises: PWR_LOW clears, or start-up begins or resumes its interrupted step (R496). -/
  | pwrOkRise
  /-- LSAFE_IN_L stays high for 100 ns and the device withdraws the laser permit (R303). -/
  | lsafeOpen
  /-- A TICK_IN rising edge is accepted, made candidate or rejected by the PIN source logic (R37). -/
  | tickInEdge (t : Nat)
  /-- A reference clock disappears in service, losing PLL, strand or link lock (R522). -/
  | clockLoss (c : Clock)
  /-- A tick begins: the counter advances, Flyers park all bands, decide darkness, select tables and take classes (R251). -/
  | tickEdge
  /-- In the latch cycle the device examines waiting commits, takes them and re-evaluates the ledger (R59). -/
  | latchPoint
  /-- The TICK_OUT pulse ends after WIDTH_US microseconds (R41). -/
  | tickOutPulseEnd
  /-- The tick gap ends and the Flyer starts slot 0 of the selected table (R46). -/
  | tickGapEnd
  /-- A twist-table slot starts: parks, resets and queued loads are applied (R233). -/
  | slotStart (e : Nat)
  /-- The table's END is reached and every band parks until the next edge (R233). -/
  | tableEnd (e : Nat)
  /-- A notch fires one string in the tick gap for NOTCH_W (R252). -/
  | notch (e : Nat)
  /-- A queued band load begins sending its plies when the previous load ends (R235). -/
  | loadStart (e : Nat)
  /-- 100 units before a reset an incomplete load is abandoned and BAND_BLANK sent in place of the reset (R258). -/
  | bandBlank (e beta : Nat)
  /-- Missing egress data or an incomplete band aborts the engine's frame with an ABORT ply (R256). -/
  | underrun (e : Nat)
  /-- The Flyer reads band blocks at C0 into its egress buffer as the buffer frees (R253). -/
  | egressFetch (e n : Nat)
  /-- A free strand starts the highest-precedence waiting ply of its sub-port (R271). -/
  | plyTransmit (port strand : Nat)
  /-- A KEEPALIVE falls due on a strand, every 8 µs and before each tick edge (R281). -/
  | keepalive (port strand : Nat)
  /-- The compositor composes the next 8-row unit of a canvas in key order (R55). -/
  | composeUnit
  /-- A warp stage works an engine row once its canvas rows have been written (R203). -/
  | warpRow (p waited : Nat)
  /-- The stack acknowledges the last write of a band, completing it and possibly the frame and its histograms (R221). -/
  | bandComplete (e band stalled : Nat)
  /-- Staged object batches carried by taken commits are written into the banks and mirror (R178). -/
  | objApplyWindow
  /-- A region's signature completes and is compared with its expected values (R448). -/
  | regionSignature (c r : Nat)
  /-- An ACK message frees plies before NEXT_SEQ from the replay store (R291). -/
  | ack (e next : Nat)
  /-- A NAK message leads to a replay, is ignored, or exhausts the replay (R292). -/
  | nak (e q : Nat)
  /-- A STATUS message updates the engine's link and lock state and may force a retrain (R286). -/
  | rsStatus (e estate lock flags : Nat)
  /-- A SENSOR message supplies an integral for the colour loop or a calibration sample (R317). -/
  | sensor (e tag j value t16 : Nat)
  /-- A STRING message is judged as a measurement and may declare a fault or heat shutdown (R325). -/
  | string (e bank str volt cur flags t16 : Nat)
  /-- A TEMP message updates engine temperatures and sensor responsivities (R343). -/
  | temp (e array laser driver sensor : Nat)
  /-- A CRC_ECHO message is compared with the device's plane CRC (R451). -/
  | crcEcho (e t16 crc : Nat)
  /-- An IDENT message is checked and accepted, moving the sub-port to READY or HOLD (R298). -/
  | ident (e x : Nat)
  /-- An engine EVENT reports a band it parked and is counted as an engine-side BAND_BLANK (R290). -/
  | bandParked (e band t16 : Nat)
  /-- An engine accepts CONFIG and the sub-port moves to RUN (R297). -/
  | configOk (e id : Nat)
  /-- An engine rejects CONFIG and the sub-port moves to HOLD (R297). -/
  | configReject (e id cause : Nat)
  /-- An engine MSG event is written to the message doorbell or dropped (R290). -/
  | engineMsg (e source : Nat)
  /-- An engine reports a timed record received after its instant (R290). -/
  | late (e seq : Nat)
  /-- An engine reports its darkness timer and the sub-port retrains (R297). -/
  | darkTimer (e strand : Nat)
  /-- An engine reports an unknown event record and it is counted (R290). -/
  | badRecord (e code arg : Nat)
  /-- A return-strand message with a code, check, length, type or SUB error is discarded and counted (R285). -/
  | rsBadMessage (p kind : Nat)
  /-- No valid message for 20 µs sends every live sub-port of the port to TRAIN (R299). -/
  | returnStrandLost (p : Nat)
  /-- 10 ms in TRAIN and IDENT, or eight edges in CONFIG, pass without progress and the sub-port retrains (R297). -/
  | skeinNoAnswer (e : Nat)
  /-- No echo arrives within 200 µs of the edge and the tick is recorded MISSING (R451). -/
  | crcEchoMissing (e : Nat)
  /-- At a loop edge the colour loop updates each bank's shares and stages changed tables (R319). -/
  | loopEdge
  /-- Samples not all in within TIMEOUT × 16 ticks abandon the calibration (R342). -/
  | calibrationTimeout (e b : Nat)
  /-- A HEAT_OFF string that has reported no heat for HEAT_HOLD returns to ACTIVE (R329). -/
  | heatHoldExpiry (e i : Nat)
  /-- An escalation window starts, resetting counts and lowering WATCH levels without errors (R441). -/
  | escalationWindow (k : Nat)
  /-- A die word fails parity and is requested again up to three times, then taken as zero (R439). -/
  | dieParityFail (w : DieWord) (third : Bool)
  /-- A driver board acknowledges a stored or refused set-point table (R367). -/
  | tableAck (mac : Nat) (ok : Bool) (e result id : Nat)
  /-- A driver board answers a SWITCH as applying, late or lacking the table (R369). -/
  | switchAck (mac : Nat) (ok : Bool) (e result id : Nat)
  /-- A driver board's STATUS frame may restage its engine's table for resynchronisation (R370). -/
  | cbusStatus (mac : Nat) (ok : Bool) (e flags id : Nat)
  /-- An AMBIENT frame's illuminance is stored in its allow-list entry (R366). -/
  | ambient (mac : Nat) (ok : Bool) (lux : Nat)
  /-- A listed node's MSG frame is written to the message doorbell or refused (R366). -/
  | cbusMsg (mac : Nat) (ok : Bool) (source : Nat)
  /-- A frame from an unlisted source is dropped, counted and logged (R365). -/
  | stranger (mac : Nat)
  /-- A receive fault, collision or duplicate coordinator is counted on the coach bus (R357). -/
  | cbusRxFault (kind : Nat)
  /-- RETRY_MS passes without TABLE_ACK and the TABLE is sent again or withdrawn (R367). -/
  | tableRetry (e : Nat)
  /-- RETRY_MS passes with boards unanswered and the SWITCH is broadcast again (R368). -/
  | switchRetry
  /-- PLCA becomes active or inactive on the coach bus (R356). -/
  | plcaActiveChange (active : Bool)
  /-- In its transmit opportunity the device sends its highest-ranked waiting frame (R371). -/
  | cbusTransmit
  /-- A backbone frame is checked and sent to 802.1AS, a stream context, or dropped (R376). -/
  | bbnFrameRx (x : Frame)
  /-- The last write of a stream frame is acknowledged and the surface becomes ready (R384). -/
  | streamFrameComplete (c ns : Nat)
  /-- A stream frame not complete within FRAME_TIMEOUT_MS is lost (R385). -/
  | streamFrameTimeout (c : Nat)
  /-- An 802.1AS message updates the offset, rate and lock state (R392). -/
  | gptpMessage (p : Nat) (m : GptpMsg)
  /-- Sync or Announce intervals pass without message and the 802.1AS state becomes LOST (R393). -/
  | gptpLost (p : Nat)
  /-- The peer-delay interval expires and a Pdelay_Req is transmitted (R391). -/
  | pdelayReq (p : Nat)
  /-- A backbone port gains or loses link (R394). -/
  | bbnLinkChange (p : Nat) (block fec : Bool)
  /-- The stack temperature is read and the refresh state may change (R405). -/
  | stackTempRead (ok : Bool) (reading : Int)
  /-- A refresh schedule boundary raises debt and may force a round (R406). -/
  | refreshBoundary (pc rounds : Nat) (c0 : Bool)
  /-- A new 10 µs C3 accounting window starts on an arbiter (R403). -/
  | c3Window (pc issued : Nat)
  /-- A C2 or C3 sub-request reaches its age limit and joins the aged tier (R402). -/
  | agedTierJoin (pc req arrival issued : Nat) (classA : Bool)
  /-- Every 100 µs the tracker moves a lane's delays toward its drifting centre (R409). -/
  | laneTrack (lane : Nat) (up : Bool)
  /-- A stack read, write or command parity failure is replayed and logged (R410). -/
  | stackParityFail (v : StackVictim) (a n : Nat)
  /-- Retraining of an unfenced pseudo-channel ends, returning it or keeping it fenced (R414). -/
  | pcRetrainEnd (pc : Nat) (ws : List LaneSweep)
  /-- Each millisecond rail powers are formed and the thermal model and hotspots updated (R467). -/
  | thermalModelUpdate (rails : List RailMs)
  /-- Every 10 ms the case sensor is read over I²C, succeeding or failing (R465). -/
  | caseSensorRead (ok : Bool) (value : Int)
  /-- At each decision interval the power ceiling is lowered, raised or held (R469). -/
  | ceilingDecision
  /-- The host data read of a MESH_LOAD, SADDLE_LOAD, COEF_LOAD, TWIST_LOAD, OBJ_WRITE, palette or RESP_LOAD ends, and the
  descriptor is checked, stored and executed (R187). -/
  | hostDataReadEnd (r : Nat) (bs : List Byte)
  /-- A step of start-up (PLL lock, fuse load, a self-test group run, row repair, training) ends and the next begins, the
  last one reaching READY (R528). -/
  | startUpStepEnd (x : StepEnd)
  /-- A reference clock that was absent appears again, so strands retrain, backbone ports relock, the PCIe link can train or
  start-up leaves step 1 (R522). -/
  | clockReturn (c : Clock)
  /-- LSAFE_IN_L goes low, clearing IN_OPEN and starting the HOLD_MS time after which a tick edge may grant the permit
  (R304). -/
  | lsafeClose
  /-- The PCIe data link layer comes up after PERST_L rises or after a link loss, setting HIF_STATUS.LINK_UP and letting
  MSI-X targets notify again (R426). -/
  | pcieLinkUp (speed width : Nat)
  /-- A PCIe configuration write changes MSI-X Enable or Function Mask, stopping or allowing notifications (R426). -/
  | msixEnableWrite (enable mask : Bool)
  /-- The return strand gains or loses 8b/10b lock, changing SKN_PORT_STATUS.RS_LOCK and the condition for TRAIN to IDENT
  (R297). -/
  | returnStrandLock (p : Nat) (lock : Bool)
  /-- In TRAIN, after 100 µs of electrical idle, a HELLO falls due on every strand every 1 µs (R296). -/
  | hello (port strand : Nat)
  deriving DecidableEq, Repr

end Sys2Proof
end

