-- ==== Sys2Proof/Decode.lean ====
section
/-! DEFINITION. The decoder of the host's question: the table of commands gives no row bits, so no word spells a command. -/

namespace Sys2Proof

def decodeTableWord (_ _ : Nat) : Option Instr := none

end Sys2Proof
end

