-- ==== Sys2Proof/Machine/Hank.lean ====
section
/-! DEFINITION. Hank compression: one 16 x 16 block decoded (R115 to R119). -/

namespace Sys2Proof.Machine

/-- Channel widths of a format, in coding order (R116): format 0 PX32_RGBA8, 1 PX32_RGB10A2, 7 A8. -/
def hankWidths (fmt : Nat) : List Nat :=
  if fmt = 0 then [8, 8, 8, 8] else if fmt = 1 then [10, 10, 10, 2] else [8]

/-- RAW of R115: 1,024 for the PX32 formats, 256 for A8. -/
def hankRaw (fmt : Nat) : Nat := if fmt = 7 then 256 else 1024

/-- The prediction of R117 for a channel of `n` bits from the neighbours that exist. -/
def hankPredict (n x y a b c : Nat) : Nat :=
  if x = 0 ∧ y = 0 then 2 ^ (n - 1)
  else if y = 0 then a
  else if x = 0 then b
  else if c ≥ max a b then min a b
  else if c ≤ min a b then max a b
  else a + b - c

/-- The signed residual of a zig-zag code (R117). -/
def unZigzag (z : Nat) : Int := if z % 2 = 0 then (z / 2 : Nat) else -(((z + 1) / 2 : Nat) : Int)

/-- Bits of a byte, bit 7 first (R118). -/
def byteBits (b : Byte) : List Bool := (List.range 8).map fun i => bitOf b.toNat (7 - i)

/-- Read `k` bits, most significant first; `none` past the end (R118, R119). -/
def readBits : Nat → List Bool → Option (Nat × List Bool)
  | 0, s => some (0, s)
  | _ + 1, [] => none
  | k + 1, b :: s =>
    match readBits k s with
    | some (v, r) => some ((if b then 2 ^ k else 0) + v, r)
    | none => none

/-- The unary part of a Rice code: at most `fuel` one-bits, and the zero that ends a shorter run (R118). -/
def readUnary : Nat → Nat → List Bool → Option (Nat × List Bool)
  | 0, q, s => some (q, s)
  | _ + 1, _, [] => none
  | f + 1, q, b :: s => if b then readUnary f (q + 1) s else some (q, s)

/-- One Rice or escape code of an `n`-bit channel with parameter `k` (R118). -/
def readRice (n k : Nat) (s : List Bool) : Option (Nat × List Bool) :=
  match readUnary 12 0 s with
  | none => none
  | some (q, s1) =>
    if q = 12 then readBits n s1
    else match readBits k s1 with
      | none => none
      | some (low, s2) => some (q * 2 ^ k + low, s2)

/-- The parameters k[ch][s], 16 fields of 3 bits for each channel (R118). -/
def readParams : Nat → List Bool → Option (List Nat × List Bool)
  | 0, s => some ([], s)
  | c + 1, s =>
    match readBits 3 s with
    | none => none
    | some (k, s1) =>
      match readParams c s1 with
      | none => none
      | some (ks, s2) => some (k :: ks, s2)


/-- Decode the remaining codes; `i` counts codes in pixel-major order and `acc` holds the values newest first. -/
def decodeCodes (widths ks : List Nat) : Nat → Nat → List Nat → List Bool → Option (List Nat)
  | 0, _, acc, _ => some acc.reverse
  | f + 1, i, acc, s =>
    let nch := widths.length
    let p := i / nch
    let ch := i % nch
    let x := p % 16
    let y := p / 16
    let n := widths.getD ch 8
    let k := ks.getD (16 * ch + 4 * (y / 4) + x / 4) 0
    match readRice n k s with
    | none => none
    | some (z, s1) =>
      let a := acc.getD (nch - 1) 0
      let b := acc.getD (16 * nch - 1) 0
      let c := acc.getD (17 * nch - 1) 0
      let v := (((hankPredict n x y a b c : Nat) : Int) + unZigzag z) % ((2 ^ n : Nat) : Int)
      decodeCodes widths ks f (i + 1) (v.toNat :: acc) s1

/-- The raw element of `n` bytes as its channels (R105). -/
def rawChannels (fmt e : Nat) : List Nat :=
  if fmt = 0 then [bitsOf e 0 8, bitsOf e 8 8, bitsOf e 16 8, bitsOf e 24 8]
  else if fmt = 1 then [bitsOf e 0 10, bitsOf e 10 10, bitsOf e 20 10, bitsOf e 30 2]
  else [bitsOf e 0 8]

/-- The channels of every pixel of a block in raster order, and whether the block has a decode error (R115, R119).
`entry` is its header entry and `slot` the 1 KiB of its slot. -/
def decodeBlock (fmt entry : Nat) (slot : List Byte) : List Nat × Bool :=
  let widths := hankWidths fmt
  let nch := widths.length
  let zeros := List.replicate (256 * nch) 0
  let len := bitsOf entry 0 11
  if entry ≥ 2048 ∨ len > hankRaw fmt then (zeros, true)
  else if len = 0 then (zeros, false)
  else if len = hankRaw fmt then
    let sz := if fmt = 7 then 1 else 4
    ((List.range 256).flatMap fun i => rawChannels fmt (ofLeBytes ((slot.drop (sz * i)).take sz)), false)
  else
    match readParams (16 * nch) ((slot.take len).flatMap byteBits) with
    | none => (zeros, true)
    | some (ks, s) =>
      match decodeCodes widths ks (256 * nch) 0 [] s with
      | none => (zeros, true)
      | some vs => (vs, false)

end Sys2Proof.Machine
end

