-- ==== Sys2Proof/Config.lean ====
section
/-! DEFINITION. The values the spec leaves open: opaque functions with no body, applied to the free-value counter that
State holds (or to the operands they depend on). No proof can see a value of theirs. -/

namespace Sys2Proof.Config

/-- The random challenge of SELF_CHALLENGE at each power-up (R490): a fresh value for each count. -/
opaque freeChallenge : Nat → BitVec 64

/-- A byte whose value the spec leaves open. -/
opaque freeByte : Nat → BitVec 8

/-- A 32-bit word whose value the spec leaves open. -/
opaque freeWord : Nat → BitVec 32

end Sys2Proof.Config
end

