-- ==== Sys2Proof/Machine/Tbl.lean ====
section
/-! DEFINITION. Sparse tables in one canonical form: keys strictly rising and no entry equal to what an unlisted key
reads as. The stack memory, the register file and every array of blocks' entries are such tables. -/

namespace Sys2Proof.Machine

/-- A sparse table from keys to values. What an unlisted key reads as is given to every operation. -/
abbrev Tbl (α : Type) := List (Nat × α)

/-- The value at key `k`; `d k` where nothing is listed. -/
def Tbl.get {α : Type} (d : Nat → α) : Tbl α → Nat → α
  | [], k => d k
  | (i, v) :: r, k => if i = k then v else if k < i then d k else Tbl.get d r k

/-- List `v` at key `k`, keeping the keys rising; nothing is dropped here. -/
def Tbl.insert {α : Type} (k : Nat) (v : α) : Tbl α → Tbl α
  | [] => [(k, v)]
  | (i, u) :: r => if i = k then (k, v) :: r else if k < i then (k, v) :: (i, u) :: r else (i, u) :: Tbl.insert k v r

/-- Remove the entry of key `k`. -/
def Tbl.erase {α : Type} (k : Nat) : Tbl α → Tbl α
  | [] => []
  | (i, u) :: r => if i = k then r else if k < i then (i, u) :: r else (i, u) :: Tbl.erase k r

/-- Write `v` at key `k`: an entry equal to what the unlisted key reads as is removed. -/
def Tbl.put {α : Type} [DecidableEq α] (d : Nat → α) (k : Nat) (v : α) (t : Tbl α) : Tbl α :=
  if v = d k then Tbl.erase k t else Tbl.insert k v t

/-- Keys strictly rise from above `lo`, and no entry equals its unlisted value. -/
def Tbl.wfFrom {α : Type} [DecidableEq α] (d : Nat → α) : Option Nat → Tbl α → Bool
  | _, [] => true
  | lo, (i, v) :: r => (match lo with | none => true | some l => decide (l < i)) && decide (v ≠ d i) && Tbl.wfFrom d (some i) r

/-- The canonical form. -/
def Tbl.wf {α : Type} [DecidableEq α] (d : Nat → α) (t : Tbl α) : Bool := Tbl.wfFrom d none t

end Sys2Proof.Machine
end

