-- ==== Sys2Proof/Machine/PartsHost.lean ====
section
/-! DEFINITION. The state of the host interface, the interrupt controller and the integrity block beyond their registers
(chapters Host interface and reels, Interrupt controller, Integrity). -/

namespace Sys2Proof.Machine

/-! ### Host interface and reels -/

/-- What holds the descriptor at the front of a command reel in execution (R71). -/
inductive Busy where
  /-- A WAIT_TICK with its target tick and AT_LATCH (R88). -/
  | waitTick (target : Nat) (atLatch : Bool)
  /-- A FENCE that waits for one of the 64 pending places (R87). -/
  | fenceFull
  /-- A host data read of the descriptor is in flight (HOST_DATA_READ_END ends it). -/
  | hostData
  /-- A READ_BACK copy with the bytes it has written; `running` is false while a CANVAS_LIT copy waits for the tick edge
  that starts it; `whole` holds the histograms, taken whole as their copy starts (R89, R90, R224). -/
  | readBack (running : Bool) (done : Nat) (whole : List Byte)
  /-- A SURFACE_COPY or atlas copy in progress (COPY_WRITE_END ends it). -/
  | copy
  /-- An UNFENCE whose resource is not yet back in service (R445). -/
  | unfence
  /-- A CAL_STORE whose boot-flash write runs (R350). -/
  | store
  deriving DecidableEq, Repr

/-- The descriptor a record belongs to (R86, R94), with its reel's class and event reel. -/
structure Origin where
  reel : Nat
  evr : Nat
  cls : Nat
  seq : Nat
  opcode : Nat
  tag : Nat
  cmpl : Bool
  irq : Bool
  /-- A host-interface reset has discarded the records still owed to it (R66). -/
  dead : Bool := false
  deriving DecidableEq, Repr

/-- Command reel `r`: what the spec gives it beyond its registers (R68 to R77). -/
structure CmdReel where
  /-- Class taken at enable: 0 GUARDED, 1 NORMAL, 2 BULK (R68, R74). -/
  cls : Nat := 1
  base : Nat := 0
  sizeLog2 : Nat := 4
  evr : Nat := 0
  /-- Fetch count: descriptors granted a fetch since enable, mod 2^32 (R69). -/
  fetchCount : Nat := 0
  /-- Descriptors of fetch grants whose data has not arrived (R70). -/
  inFlight : Nat := 0
  /-- Descriptors received and not executed, oldest first (R77). -/
  fetched : List Desc := []
  /-- What the front descriptor waits for, if it is in execution. -/
  busy : Option Busy := none
  /-- The front descriptor is still in execution from before the latest enable: its SEQ, event reel and class. -/
  carry : Option (Nat × Nat × Nat) := none
  /-- The present reservation wait is already counted in RESERVE_STALLS (R77). -/
  stallCounted : Bool := false
  /-- Doorbells taken whose descriptors are not all fetched, oldest first: (tail, device time) (R76). -/
  doorbells : List (Nat × Nat) := []
  /-- NORMAL grants that a BULK request has waited through (R76). -/
  bulkWait : Nat := 0
  /-- An executed count is due for write-back (R71). -/
  wbDue : Bool := false
  /-- Device time of the latest write-back (R71). -/
  lastWb : Option Nat := none
  /-- The latest tick whose edge begins a frame containing a commit taken for this reel (R87 LIT). -/
  litTick : Nat := 0
  deriving DecidableEq, Repr

/-- A pending LIT or AT_TICK fence (R87): it is written at the first tick edge at or after `tick` once every commit of
`waits` has been taken. -/
structure PendingFence where
  origin : Origin
  addr : Nat
  value : Nat
  waits : List Nat
  tick : Nat
  deriving DecidableEq, Repr

/-- An event record before it is numbered (R94, R453): bytes 2 to 15 as one number, and the header fields. -/
structure Record where
  kind : Nat
  sev : Nat
  /-- Bytes 2 to 15, byte 2 in bits [7:0]. -/
  body : Nat
  time : Nat
  tick : Nat
  /-- A completion whose descriptor has IRQ = 1 (R99). -/
  irq : Bool := false
  deriving DecidableEq, Repr

/-- The identity of an ALARM record for merging (R459). -/
inductive Ident where
  | condition (source : Nat)
  | escalation (kind inst : Nat)
  | signature (canvas region : Nat)
  | planeCrc (engine : Nat)
  /-- GUARDED-reel completions and notices: they never merge. -/
  | single
  deriving DecidableEq, Repr

/-- An ALARM record with its identity and the number of records it stands for (R459). -/
structure Alarm where
  ident : Ident
  record : Record
  count : Nat
  deriving DecidableEq, Repr

/-- The pending drop summary of an event reel (R458). -/
structure DropSummary where
  dropped : Nat := 0
  firstTick : Nat := 0
  /-- Drops of kinds 0x01 to 0x05. -/
  kinds : List Nat := [0, 0, 0, 0, 0]
  deriving DecidableEq, Repr

/-- Event reel `v`: what the spec gives it beyond its registers (R91, R456 to R459). -/
structure EvReel where
  base : Nat := 0
  sizeLog2 : Nat := 6
  /-- R: completion slots reserved (R77). -/
  reserved : Nat := 0
  /-- Records other than ALARM taken this tick, by quota class CONDITION, SIGNATURE, PLANE_CRC, OTHER (R457). -/
  used : List Nat := [0, 0, 0, 0]
  summary : Option DropSummary := none
  /-- Tick edge passed since the first drop of the summary (R458). -/
  summaryRipe : Bool := false
  /-- The alarm queue, oldest first (R459). -/
  queue : List Alarm := []
  /-- Identities whose ALARM record of this tick is written, with the follow-up being gathered (R459). -/
  followUps : List Alarm := []
  /-- Device time of the latest read of the consumed count (R92). -/
  lastHeadRead : Option Nat := none
  deriving DecidableEq, Repr

/-- A posted write to host memory: `len` bytes of `data`, least significant byte first, at `addr`. -/
structure HostWrite where
  addr : Nat
  len : Nat
  data : Nat
  deriving DecidableEq, Repr

/-- The host interface beyond its registers. -/
structure HifState where
  reels : Tbl CmdReel := []
  evrs : Tbl EvReel := []
  fences : List PendingFence := []
  /-- Posted writes made, oldest first. -/
  out : List HostWrite := []
  /-- Posted writes held in D3hot, oldest first (R67). -/
  held : List HostWrite := []
  /-- MSI-X messages sent, oldest first: the vector of each (R426). -/
  msix : List Nat := []
  /-- MSI-X table words, 4 per vector (R64). -/
  msixTable : Tbl Word := []
  /-- PBA bits (R64, R426). -/
  pba : Nat := 0
  msixEnable : Bool := false
  msixMask : Bool := false
  /-- The function is in D3hot (R67). -/
  d3hot : Bool := false
  /-- High words captured by low-word reads, by register offset (R97). -/
  captured : Tbl Word := []
  /-- Low words held for the next high write, by register offset (R97). -/
  heldLow : List (Nat × Word) := []
  deriving DecidableEq, Repr

/-! ### Interrupt controller -/

/-- A condition that has risen and whose arrival comes in the next core cycle (R418, R527), with the CODE of its
CONDITION record (R453). -/
structure Raised where
  source : Nat
  code : Nat
  deriving DecidableEq, Repr

/-- Target `t` of the interrupt controller beyond its registers (R425). -/
structure IcTarget where
  /-- Arrivals of enabled sources since the last notification. -/
  arrivals : Nat := 0
  /-- Device time of the first such arrival. -/
  firstAt : Option Nat := none
  /-- Arrival number at the last notification: a pending bit set at or before it is a leftover. -/
  notifyMark : Nat := 0
  /-- Smallest group priority deliverable at the last notification; 256 for none. -/
  notifyGroup : Nat := 256
  /-- The sources deliverable at the last notification. -/
  notifySet : List Nat := []
  /-- The target has notified since reset. -/
  notified : Bool := false
  deriving DecidableEq, Repr

/-- The interrupt controller beyond its registers. -/
structure IcState where
  /-- Conditions risen and not yet arrived, oldest first. -/
  raised : List Raised := []
  /-- Number of arrivals so far; orders pending bits (R424). -/
  clock : Nat := 0
  /-- Arrival number at which a source's pending bit last went from 0 to 1 (R424). -/
  pendSince : Tbl Nat := []
  targets : Tbl IcTarget := []
  /-- The value the latest IC_TGT_CLAIM read returned (R429). -/
  claimed : Word := 0
  deriving DecidableEq, Repr

/-! ### Integrity -/

/-- One error instance of R441. -/
structure ErrInst where
  /-- C, the window count. -/
  count : Nat := 0
  /-- L: 0 CLEAR, 1 WATCH, 2 FENCED. -/
  level : Nat := 0
  /-- Errors since PORST_L, saturating at 2^32 - 1. -/
  total : Nat := 0
  /-- An error fell in the present window. -/
  hit : Bool := false
  deriving DecidableEq, Repr

/-- A signature region's settings (R446). -/
structure Region where
  enable : Bool := false
  guarded : Bool := false
  freeze : Bool := false
  nexp : Nat := 0
  x : Nat := 0
  y : Nat := 0
  w : Nat := 0
  h : Nat := 0
  failCount : Nat := 0
  freezeTicks : Nat := 0
  expect : List Nat := []
  /-- Counts the REGION_SETs of this region, so that a setting taken anew is told apart (R447). -/
  stamp : Nat := 0
  deriving DecidableEq, Repr

/-- One entry of an engine's plane CRC history (R452). -/
structure CrcEntry where
  tick : Nat := 0
  /-- 0 MATCH, 1 MISMATCH, 2 MISSING, 3 NOT_COMPARED, 4 AWAITED. -/
  status : Nat := 3
  crc : Nat := 0
  echo : Nat := 0
  /-- Device time of the edge that ended the tick. -/
  endAt : Nat := 0
  deriving DecidableEq, Repr

/-- The integrity block beyond its registers. -/
structure SigState where
  /-- Error instances, keyed 64 * kind + instance. -/
  errs : Tbl ErrInst := []
  /-- WINDOW in force of each kind; the written value is taken at a window start (R441). -/
  windows : Tbl Nat := []
  /-- Region shadows, keyed 64 * canvas + region. -/
  shadow : Tbl Region := []
  /-- Regions taken at the latch points, keyed alike: the setting of frame N + 2 (R447). -/
  taken : Tbl Region := []
  /-- Regions in force for the frame being checked, keyed alike. -/
  force : Tbl Region := []
  /-- The previous frame's signature of each FREEZE region, once one is complete (R450). -/
  prevCrc : Tbl (Option Nat) := []
  /-- Canvases whose mismatch source was raised in the present frame, and those whose frame is counted as one with a mismatch
  (R448). -/
  mismatchRaised : List Nat := []
  mismatched : List Nat := []
  /-- Regions whose signature of the present frame is complete, keyed alike. -/
  checked : List Nat := []
  /-- Plane CRC history of each engine, newest first (R452). -/
  crcs : Tbl (List CrcEntry) := []
  /-- Engines fenced by escalation (R442). -/
  engFenced : List Nat := []
  /-- Resources fenced by escalation: (RTYPE of R444, instance) (SIG_STATUS.FENCED). -/
  escFenced : List (Nat × Nat) := []
  /-- Kinds whose window starts at the present tick edge and is not yet started (R441). -/
  windowDue : List Nat := []
  /-- UNFENCEs waiting for their instant: (reel, RTYPE, instance) (R445). -/
  unfences : List (Nat × Nat × Nat) := []
  deriving DecidableEq, Repr

end Sys2Proof.Machine
end

