-- ==== Sys2Proof/Machine/PartsPixel.lean ====
section
/-! DEFINITION. The state of surfaces, composition, scalers, objects and warp beyond their registers (chapters Surfaces,
Composition, Scalers and objects, Canvas mapping and warp). -/

namespace Sys2Proof.Machine


/-! ### Surfaces -/

/-- A surface descriptor with its ready state (R100, R101, R112). -/
structure Surface where
  base : Nat := 0
  /-- 0: the undefined surface (R100). -/
  width : Nat := 0
  height : Nat := 0
  format : Nat := 0
  /-- 0 LINEAR, 1 TILED, 2 HANK. -/
  layout : Nat := 0
  palSlot : Nat := 0
  pitch : Nat := 0
  ready : Bool := false
  /-- Writes in progress (R112). -/
  writes : Nat := 0
  deriving DecidableEq, Repr

/-- An atlas entry (R111). -/
structure Atlas where
  valid : Bool := false
  guarded : Bool := false
  surface : Nat := 0
  deriving DecidableEq, Repr

/-- A copy into a surface in progress for a reel (R108, R111): the surface descriptor it started with, the bytes
still to come, and whether its first stack write has begun. -/
structure CopyJob where
  surface : Nat
  desc : Surface
  /-- IMAGE copies: byte offset in the footprint; RECT copies: `none`. -/
  image : Option Nat
  x : Nat
  y : Nat
  w : Nat
  h : Nat
  length : Nat
  done : Nat
  began : Bool
  deriving DecidableEq, Repr

/-- Surfaces, palettes, atlases and copies. -/
structure SurfState where
  surfs : Tbl Surface := []
  /-- Palette entries, keyed 256 * slot + index (R109). -/
  palettes : Tbl Word := []
  atlases : Tbl Atlas := []
  /-- Copies in progress, keyed by reel. -/
  copies : Tbl (Option CopyJob) := []
  /-- Blocks whose decode error is counted in this tick: (surface base, block) (R119). -/
  hankBad : List (Nat × Nat) := []
  deriving DecidableEq, Repr

/-! ### Composition -/

/-- Three 16-bit linear components. -/
structure Rgb where
  r : Nat := 0
  g : Nat := 0
  b : Nat := 0
  deriving DecidableEq, Repr

/-- A canvas's settings (R121). -/
structure CanvasCfg where
  base : Nat := 0
  width : Nat := 0
  height : Nat := 0
  enable : Bool := false
  objEnable : Bool := false
  pqWhite : Nat := 0
  bg : Rgb := {}
  deriving DecidableEq, Repr

/-- How layer pixels become linear light (R126 bytes 28 to 37, R128 to R133). -/
structure ColourCfg where
  blend : Nat := 0
  transfer : Nat := 0
  matrix : Nat := 0
  primaries : Nat := 0
  range : Nat := 0
  premult : Bool := false
  chromaH : Bool := false
  chromaV : Bool := false
  alpha : Nat := 0
  colour : Rgb := {}
  deriving DecidableEq, Repr

/-- A layer slot's settings (R126). -/
structure Layer where
  canvas : Nat := 0
  enable : Bool := false
  rank : Nat := 0
  z : Nat := 0
  surface : Nat := 0
  srcX : Nat := 0
  srcY : Nat := 0
  srcW : Nat := 0
  srcH : Nat := 0
  dstX : Int := 0
  dstY : Int := 0
  dstW : Nat := 0
  dstH : Nat := 0
  col : ColourCfg := {}
  /-- SCALE_CFG, bytes 40 to 47 (R166). -/
  scale : Nat := 0
  deriving DecidableEq, Repr

/-- A guarded overlay's settings (R147). -/
structure Overlay where
  enable : Bool := false
  surface : Nat := 0
  srcX : Nat := 0
  srcY : Nat := 0
  dstX : Nat := 0
  dstY : Nat := 0
  w : Nat := 0
  h : Nat := 0
  col : ColourCfg := {}
  deriving DecidableEq, Repr

/-- A guarded reservation (R145); `w = 0` or `h = 0` is none. -/
structure Reservation where
  x : Nat := 0
  y : Nat := 0
  w : Nat := 0
  h : Nat := 0
  format : Nat := 0
  fallback : Nat := 0
  atlasBytes : Nat := 0
  objPixels : Nat := 0
  colour : Rgb := {}
  deriving DecidableEq, Repr

/-! ### Scalers and objects -/

/-- A scaler's shadow (R161, R167). A table that is `none` is the identity of R161. -/
structure ScalerShadow where
  reserve : Bool := false
  canvas : Nat := 0
  coefH : Option (List Int) := none
  coefV : Option (List Int) := none
  deriving DecidableEq, Repr

/-- What a scaled layer in force is served with (R168, R170): its kernels and the scaler FIRST whose loaded tables it
uses. -/
structure ScaleServe where
  slot : Nat
  kernelH : Nat
  kernelV : Nat
  first : Nat
  coefH : Option (List Int)
  coefV : Option (List Int)
  deriving DecidableEq, Repr

/-- A staged batch of object contexts (R175, R177). -/
structure ObjBatch where
  /-- Order of the OBJ_WRITE executions (R179). -/
  order : Nat
  guarded : Bool
  canvas : Nat
  first : Nat
  ctxs : List (BitVec 256)
  /-- The admitted commit that carries it, if one does. -/
  carrier : Option Nat
  /-- The carrying commit was taken: the batch awaits the apply window (R178). -/
  taken : Bool
  deriving DecidableEq, Repr

/-- Scalers and the object engine beyond their registers. -/
structure SclObjState where
  shadow : Tbl ScalerShadow := []
  /-- Reservation and loaded tables in force (R161, R167); `canvas` is unused here. -/
  force : Tbl ScalerShadow := []
  /-- Scalers fenced (R170). -/
  fenced : List Nat := []
  /-- Bank contexts, keyed by context number (R171). -/
  ctxs : Tbl (BitVec 256) := []
  /-- The guarded mirror, keyed by context number (R180). -/
  mirror : Tbl (BitVec 256) := []
  batches : List ObjBatch := []
  nextOrder : Nat := 0
  /-- Banks unfenced and to be restored from the mirror in the next apply window (R183). -/
  restoring : List Nat := []
  /-- Banks that a user self-test run returned, and whose guarded contexts the next apply window restores (R494); 16 the
  mirror. -/
  refill : List Nat := []
  deriving DecidableEq, Repr

/-! ### Warp -/

/-- The warp settings of one engine (R187, R195). -/
structure WarpCfg where
  /-- 0 UNMAPPED, 1 RECT, 2 MESH, 3 CLONE. -/
  mode : Nat := 0
  canvas : Nat := 0
  cloneSrc : Nat := 0
  x0 : Int := 0
  y0 : Int := 0
  wc : Nat := 0
  hc : Nat := 0
  /-- MESH: the 65 x 37 control points, point (i, j) at 65 * j + i (R188). -/
  mesh : List (Int × Int) := []
  /-- Zone widths of the edges left, right, top, bottom. -/
  zones : List Nat := [0, 0, 0, 0]
  /-- Ramp kinds: 0 NONE, 1 LINEAR, 2 SMOOTH, 3 LOADED. -/
  ramps : List Nat := [0, 0, 0, 0]
  /-- The host's ramp entries, 256 per edge. -/
  loaded : List Nat := []
  liftN : Nat := 0
  steps : List Nat := [0, 0, 0]
  /-- Row-major 3 x 3 matrix (R194). -/
  matrix : List Int := [16384, 0, 0, 0, 16384, 0, 0, 0, 16384]
  deriving DecidableEq, Repr

end Sys2Proof.Machine
end

