-- ==== Sys2Proof/Machine/Pixel.lean ====
section
/-! DEFINITION. From layer codes to 16-bit linear light, and the canvas code (R123, R128 to R135), exactly. -/

namespace Sys2Proof.Machine

/-- The greatest `x` in [lo, lo + 2^fuel) with `p x`, for a `p` that holds up to some point from `lo`. -/
def searchUp (p : Nat → Bool) : Nat → Nat → Nat
  | 0, lo => lo
  | f + 1, lo => if p (lo + 2 ^ f) then searchUp p f (lo + 2 ^ f) else searchUp p f lo

/-- round(65535 × (n / d)^2.4), evaluated exactly by comparing fifth powers (R123, R131): y is reached when
y - 1/2 ≤ 65535 × (n/d)^(12/5). -/
def pow24 (n d : Nat) : Nat :=
  if n ≥ d then 65535
  else searchUp (fun y => (2 * y - 1) ^ 5 * d ^ 12 ≤ (2 * 65535) ^ 5 * n ^ 12 && y ≤ 65535) 16 0

/-- D(c) of R123. -/
def canvasD (c : Nat) : Nat := pow24 c 1023

/-- The least code c, at most 1023, with D(c) ≥ v. -/
def leastCode (v : Nat) : Nat := if v = 0 then 0 else searchUp (fun c => c ≤ 1023 && canvasD (c - 1) < v) 10 0

/-- E(L) of R123: the code whose D is nearest to L, the lower one of two equally near. -/
def canvasE (l : Nat) : Nat :=
  let a := leastCode l
  if a = 0 then 0
  else
    let b := leastCode (canvasD (a - 1))
    if l - canvasD b ≤ canvasD a - l then b else a

/-- Integer square root, bit by bit from bit `k` down: the largest r with r² ≤ n. -/
def isqrtFrom (n : Nat) : Nat → Nat → Nat
  | 0, r => r
  | k + 1, r => if (r + 2 ^ k) ^ 2 ≤ n then isqrtFrom n k (r + 2 ^ k) else isqrtFrom n k r

/-- isqrt of R223 for numbers below 2^64. -/
def isqrt (n : Nat) : Nat := isqrtFrom n 32 0

/-- Fixed-point precision of the irrational ST 2084 exponents, in bits. DEDUCED. -/
def fixBits : Nat := 256

/-- `x`^(1/2^k) for a fixed-point x in [0, 1]. -/
def fixRoot (x : Nat) : Nat → Nat
  | 0 => x
  | k + 1 => fixRoot (isqrtFrom (x * 2 ^ fixBits) (fixBits + 1) 0) k

/-- `x`^e for a fixed-point x and a natural e, by repeated products. -/
def fixPow (x : Nat) : Nat → Nat
  | 0 => 2 ^ fixBits
  | e + 1 => fixPow x e * x / 2 ^ fixBits

/-- ST 2084 (R131): whether code `v` of `m` reaches the linear value y - 1/2 out of 65535 at PQ_WHITE `w`.
With q = ((2y - 1) / 131070) × w / 10000, it does when V ≥ ((c₁ + c₂ q^m₁) / (1 + c₃ q^m₁))^m₂. -/
def pqReaches (v m w y : Nat) : Bool :=
  if y = 0 then true
  else
    let q := (2 * y - 1) * w * 2 ^ fixBits / (131070 * 10000)
    if q ≥ 2 ^ fixBits then false
    else
      let qm := fixPow (fixRoot q 13) 1305
      let num := 3424 * 2 ^ fixBits + (2413 * 32) * qm
      let den := 4096 * 2 ^ fixBits + (2392 * 32) * qm
      let e := num * 2 ^ fixBits / den
      -- V^32 ≥ E^2523
      fixPow (v * 2 ^ fixBits / m) 32 ≥ fixPow e 2523

/-- L16 of R131 for a code `v` of `m` (V = v / m). -/
def linear16 (transfer pqWhite v m : Nat) : Nat :=
  if transfer = 0 then min 65535 (roundDivN (65535 * v) m)
  else if transfer = 1 then
    if 100000 * v ≤ 4045 * m then roundDivN (65535 * 100 * v) (1292 * m)
    else pow24 (1000 * v + 55 * m) (1055 * m)
  else if transfer = 2 then pow24 v m
  else searchUp (fun y => y ≤ 65535 && pqReaches v m pqWhite y) 16 0

/-- L16 of a binary16 value (R131): NaN and negative values give 0, +∞ gives 65535. -/
def half16 (h : Nat) : Nat :=
  let e := bitsOf h 10 5
  let f := bitsOf h 0 10
  if bitOf h 15 then 0
  else if e = 31 then (if f = 0 then 65535 else 0)
  else
    let num := if e = 0 then f else (1024 + f) * 2 ^ (e - 1)
    min 65535 (roundDivN (65535 * num) (2 ^ 24))

/-- K_R and K_B of R129 in ten-thousandths, by MATRIX. -/
def ycConsts (matrix : Nat) : Nat × Nat :=
  if matrix = 0 then (2990, 1140) else if matrix = 1 then (2126, 722) else (2627, 593)

/-- k = clamp(round(4095 × X), 0, 4095) for a rational X = num / den (R129). -/
def ycCode (num : Int) (den : Nat) : Nat := (clampI (roundDiv (4095 * num) den) 0 4095).toNat

/-- R′, G′ and B′ of a YC pixel as codes of 4095 (R129). -/
def ycToRgb (matrix range n y cb cr : Nat) : Nat × Nat × Nat :=
  let (kr, kb) := ycConsts matrix
  let kg := 10000 - kr - kb
  let s := 2 ^ (n - 8)
  -- Y′ = yn / yd, C′ = c / cd
  let yn : Int := if range = 0 then (y : Int) - (16 * s : Nat) else y
  let yd : Nat := if range = 0 then 219 * s else 2 ^ n - 1
  let cd : Nat := if range = 0 then 224 * s else 2 ^ n - 1
  let pb : Int := (cb : Int) - (2 ^ (n - 1) : Nat)
  let pr : Int := (cr : Int) - (2 ^ (n - 1) : Nat)
  -- over the common denominator yd × cd × 10000
  let d := yd * cd * 10000
  let r : Int := yn * (cd * 10000 : Nat) + 2 * (10000 - kr : Nat) * pr * (yd : Nat)
  let b : Int := yn * (cd * 10000 : Nat) + 2 * (10000 - kb : Nat) * pb * (yd : Nat)
  let g : Int := 10000 * (yn * (cd * 10000 : Nat)) - kr * r - kb * b
  (ycCode r d, ycCode g (d * kg), ycCode b d)

/-- R132: BT.709 primaries to BT.2020. -/
def toBt2020 (r g b : Nat) : Nat × Nat × Nat :=
  let f (m0 m1 m2 : Nat) := min 65535 (roundDivN (m0 * r + m1 * g + m2 * b) 16384)
  (f 10280 5395 709, f 1132 15065 187, f 269 1442 14673)

/-- A premultiplied 16-bit linear pixel. -/
structure Px where
  r : Nat := 0
  g : Nat := 0
  b : Nat := 0
  a : Nat := 0
  deriving DecidableEq, Repr

/-- R133: α and the premultiplied colour from linear L, source alpha a, global alpha g and PREMULT. -/
def premultiply (premult : Bool) (g r gg b a : Nat) : Px :=
  let al := roundDivN (a * g) 65535
  let f (l : Nat) := if premult then roundDivN (l * g) 65535 else roundDivN (l * al) 65535
  { r := f r, g := f gg, b := f b, a := al }

/-- R135 for one channel: 0 OVER, 1 ADD, 2 REPLACE. -/
def blendCh (blend d c a : Nat) : Nat :=
  if blend = 0 then min 65535 (c + roundDivN (d * (65535 - a)) 65535)
  else if blend = 1 then min 65535 (d + c)
  else c

/-- R135 for a pixel; the result carries no alpha of its own. -/
def blendPx (blend : Nat) (d c : Px) : Px :=
  { r := blendCh blend d.r c.r c.a, g := blendCh blend d.g c.g c.a, b := blendCh blend d.b c.b c.a, a := 0 }

/-- The canvas word of a blended pixel (R123). -/
def canvasWord (p : Px) : Nat := canvasE p.r + canvasE p.g * 2 ^ 10 + canvasE p.b * 2 ^ 20

/-- One bit of the CRC-32 of R295 (reflected polynomial 0xEDB88320). -/
def crcBits : Nat → Nat → Nat
  | 0, c => c
  | k + 1, c => crcBits k (if c % 2 = 1 then (c / 2) ^^^ 0xEDB88320 else c / 2)

/-- The CRC register after one byte. -/
def crcByte (c b : Nat) : Nat := crcBits 8 (c ^^^ b)

/-- The CRC register after bytes, least significant byte first. -/
def crcBytes (c : Nat) (bs : List Byte) : Nat := bs.foldl (fun c b => crcByte c b.toNat) c

end Sys2Proof.Machine
end

