-- ==== Sys2Proof/Machine/Scale.lean ====
section
/-! DEFINITION. Scaler kernels, coefficient tables and the scaling of one layer pixel (R155 to R165). -/

namespace Sys2Proof.Machine

/-- Fixed-point precision of the sine and exponential series of LANCZOS3 and GAUSS, in bits. DEDUCED. -/
def serBits : Nat := 192

/-- pi times 2^192, rounded down. -/
def piFix : Nat := 19720096697726538562396133364228268891463450865190089732560

/-- Taylor terms of sin x for a fixed-point x: `term` is the running term, `k` the next even factor. -/
def sinSeries (x2 : Int) : Nat → Nat → Int → Int
  | 0, _, term => term
  | f + 1, k, term => term + sinSeries x2 f (k + 2) (-(term * x2 / (2 ^ serBits : Nat)) / ((k * (k + 1) : Nat) : Int))

/-- sin(pi × n / d) for 0 ≤ n ≤ d, as a fixed-point number. -/
def sinPi (n d : Nat) : Int :=
  let x : Int := (piFix * n / d : Nat)
  sinSeries (x * x / (2 ^ serBits : Nat)) 48 2 x

/-- Taylor terms of exp x for a fixed-point x ≥ 0. -/
def expSeries (x : Nat) : Nat → Nat → Nat → Nat
  | 0, _, term => term
  | f + 1, k, term => term + expSeries x f (k + 1) (term * x / 2 ^ serBits / k)

/-- exp(-n / d) as a fixed-point number. -/
def expNeg (n d : Nat) : Nat :=
  2 ^ serBits * 2 ^ serBits / expSeries (n * 2 ^ serBits / d) 120 1 (2 ^ serBits)

/-- The weight of kernel `code` at distance n / d, up to one positive factor common to all taps of a phase whose
distances share `d` (R159). -/
def kernelWeight (code : Nat) (n : Int) (d : Nat) : Int :=
  let m : Int := n.natAbs
  let e : Int := d
  if code = 0 then
    if m < e then 3 * m ^ 3 - 5 * m ^ 2 * e + 2 * e ^ 3
    else if m < 2 * e then -(m ^ 3) + 5 * m ^ 2 * e - 8 * m * e ^ 2 + 4 * e ^ 3 else 0
  else if code = 1 then if -e ≤ 2 * n ∧ 2 * n < e then 1 else 0
  else if code = 2 then max 0 (e - m)
  else if code = 3 then
    if m < e then 21 * m ^ 3 - 36 * m ^ 2 * e + 16 * e ^ 3
    else if m < 2 * e then -7 * m ^ 3 + 36 * m ^ 2 * e - 60 * m * e ^ 2 + 32 * e ^ 3 else 0
  else if code = 4 then
    -- sin(pi d) sin(pi d / 3) / d²; d = 0 occurs only in phase 0, where every other tap weighs 0
    if m = 0 then 1
    else if m ≥ 3 * e then 0
    else
      let k := m.toNat
      let s := if (k / d) % 2 = 0 then sinPi (k % d) d else -(sinPi (k % d) d)
      s * sinPi k (3 * d) / (m * m)
  else if m < 2 * e then (expNeg (2 * m.toNat ^ 2) (d ^ 2) : Nat) else 0

/-- The lowest index of the greatest element. -/
def argMaxFrom : List Int → Nat → Nat → Int → Nat
  | [], _, best, _ => best
  | w :: r, i, best, v => if w > v then argMaxFrom r (i + 1) i w else argMaxFrom r (i + 1) best v

def argMax : List Int → Nat
  | [] => 0
  | w :: r => argMaxFrom r 1 0 w

/-- R160 with `total` for 256: the coefficients of one phase from its weights. -/
def normalise (total : Nat) (ws : List Int) : List Int :=
  let sum := ws.foldl (· + ·) 0
  let cs := ws.map fun w => roundDiv ((total : Int) * w) sum.toNat
  let i := argMax ws
  cs.set i (cs.getD i 0 + (total : Int) - cs.foldl (· + ·) 0)

/-- s × 16 of R159: the stretch of a preset; 16 for an unstretched kernel. `cap` is 32 or 24. -/
def stretch16 (code src dst cap : Nat) : Nat :=
  if code = 1 ∨ code = 4 then 16 else clampN (roundDivN (16 * src) dst) 16 cap

/-- The coefficients of phase `ph` of a preset with `taps` taps, tap `centre` at distance -ph/64 (R155, R160). -/
def presetCoefs (code taps centre s16 ph : Nat) : List Int :=
  normalise 256 ((List.range taps).map fun (t : Nat) =>
    kernelWeight code (64 * ((t : Int) - (centre : Int)) - (ph : Int)) (4 * s16))

/-- The fold of R164: horizontal taps kept 2 to 5, vertical 1 to 4. -/
def foldTaps (cs : List Int) : List Int :=
  match cs with
  | [a, b, c, d, e, f, g, h] => [0, 0, a + b + c, d, e, f + g + h, 0, 0]
  | [a, b, c, d, e, f] => [0, a + b, c, d, e + f, 0]
  | _ => cs

/-- The identity of R161 with `taps` taps: 256 at tap `centre`. -/
def identityCoefs (taps centre : Nat) : List Int := (List.replicate taps 0).set centre 256

/-- One filter output (R156). -/
def filterOut (cs : List Int) (ss : List Nat) : Nat :=
  (clampI (((List.zipWith (fun c (s : Nat) => c * (s : Int)) cs ss).foldl (· + ·) 0 + 128) >>> 8) 0 65535).toNat

/-- A filter over pixels, channel by channel. -/
def filterPx (cs : List Int) (ps : List Px) : Px :=
  { r := filterOut cs (ps.map (·.r)), g := filterOut cs (ps.map (·.g)), b := filterOut cs (ps.map (·.b)),
    a := filterOut cs (ps.map (·.a)) }

/-- pos(i) of R155 in 1/65536 source units. -/
def scalePos (src0 src dst i : Nat) : Int :=
  let step := roundDivN (65536 * src) dst
  65536 * (src0 : Int) + (((2 * i + 1) * step / 2 : Nat) : Int) - 32768

/-- One scaled layer pixel: `src` gives the premultiplied source pixel, `ch` and `cv` the coefficients by phase
(R155, R156). A direction of equal sizes is not filtered. -/
def scalePx (src : Nat → Nat → Px) (ch cv : Nat → List Int) (sx sy sw sh dw dh i j : Nat) : Px :=
  let cl (v : Int) (lo n : Nat) : Nat := (clampI v lo ((lo + n - 1 : Nat) : Int)).toNat
  let row (y : Nat) : Px :=
    if sw = dw then src (sx + i) y
    else
      let p := scalePos sx sw dw i
      let ix := p.fdiv 65536
      let ph := ((p % 65536) / 1024).toNat
      filterPx (ch ph) ((List.range 8).map fun (t : Nat) => src (cl (ix - 3 + t) sx sw) y)
  let o :=
    if sh = dh then row (sy + j)
    else
      let p := scalePos sy sh dh j
      let iy := p.fdiv 65536
      let ph := ((p % 65536) / 1024).toNat
      filterPx (cv ph) ((List.range 6).map fun (t : Nat) => row (cl (iy - 2 + t) sy sh))
  { r := min o.r o.a, g := min o.g o.a, b := min o.b o.a, a := o.a }

end Sys2Proof.Machine
end

