-- ==== Sys2Proof/Machine/WarpMath.lean ====
section
/-! DEFINITION. Warp arithmetic: mesh, position, bicubic sampling, matrix, saddles and lift (R188 to R198), and the
Spindle's code, dither, histogram and staple-class arithmetic (R211 to R226). -/

namespace Sys2Proof.Machine

/-- Control point (i, j) of the mesh RECT mode builds (R189). -/
def rectPoint (x0 y0 : Int) (wc hc i j : Nat) : Int × Int :=
  (64 * x0 + ((i * wc : Nat) : Int) - 32, 64 * y0 + ((roundDivN (j * hc * 64) 36 : Nat) : Int) - 32)

/-- One coordinate of R190, from the four corner values. -/
def meshMix (fu fv : Nat) (p00 p10 p01 p11 : Int) : Int :=
  roundDiv (((65536 - fu) * (65536 - fv) : Nat) * p00 + ((fu * (65536 - fv) : Nat) : Int) * p10 +
    (((65536 - fu) * fv : Nat) : Int) * p01 + ((fu * fv : Nat) : Int) * p11) (2 ^ 32)

/-- U and V of R190. -/
def meshU (x w : Nat) : Nat := (2 * x + 1) * 64 * 65536 / (2 * w)
def meshV (y h : Nat) : Nat := (2 * y + 1) * 36 * 65536 / (2 * h)

/-- The sampling position of engine pixel (x, y) (R190). -/
def meshPos (pt : Nat → Nat → Int × Int) (w h x y : Nat) : Int × Int :=
  let u := meshU x w
  let v := meshV y h
  let i := u / 65536
  let j := v / 65536
  let fu := u % 65536
  let fv := v % 65536
  let a := pt i j
  let b := pt (i + 1) j
  let c := pt i (j + 1)
  let d := pt (i + 1) (j + 1)
  (meshMix fu fv a.1 b.1 c.1 d.1, meshMix fu fv a.2 b.2 c.2 d.2)

/-- cw[f] of R193. -/
def warpCoefs (f : Nat) : List Int :=
  normalise 1024 ((List.range 4).map fun (t : Nat) => kernelWeight 0 (64 * ((t : Int) - 1) - (f : Int)) 64)

/-- R192 for one channel: `code` reads the stored code at a clamped canvas pixel. -/
def bicubic (code : Nat → Nat → Nat) (width height : Nat) (x y : Int) : Nat :=
  if x < -32 ∨ x ≥ 64 * (width : Int) - 32 ∨ y < -32 ∨ y ≥ 64 * (height : Int) - 32 then 0
  else
    let ix := x.fdiv 64
    let iy := y.fdiv 64
    let cx := warpCoefs (x % 64).toNat
    let cy := warpCoefs (y % 64).toNat
    let cl (v : Int) (n : Nat) : Nat := (clampI v 0 ((n - 1 : Nat) : Int)).toNat
    let row (r : Nat) : Int :=
      ((List.range 4).map fun (t : Nat) =>
        cx.getD t 0 * ((canvasD (code (cl (ix - 1 + t) width) (cl (iy - 1 + r) height)) : Nat) : Int)).foldl (· + ·) 0
    let s := ((List.range 4).map fun (r : Nat) => cy.getD r 0 * row r).foldl (· + ·) 0
    (clampI ((s + 2 ^ 19) >>> 20) 0 65535).toNat

/-- m[b] of R194 from a row-major matrix. -/
def matrixOut (m : List Int) (b r g bl : Nat) : Nat :=
  (clampI (roundDiv (m.getD (3 * b) 0 * r + m.getD (3 * b + 1) 0 * g + m.getD (3 * b + 2) 0 * bl) 16384) 0 65535).toNat

/-- Entry `k` of a ramp (R195): 0 NONE, 1 LINEAR, 2 SMOOTH, 3 LOADED with the host's entries. -/
def rampEntry (kind : Nat) (loaded : Nat → Nat) (k : Nat) : Nat :=
  if kind = 0 then 65535
  else if kind = 1 then 257 * k
  else if kind = 2 then roundDivN (65535 * (3 * k ^ 2 * 255 - 2 * k ^ 3)) (255 ^ 3)
  else loaded k

/-- g_edge of R196 at distance `d` in a zone of width `z` > 0. -/
def edgeGain (ramp : Nat → Nat) (d z : Nat) : Nat :=
  let pos := (2 * d + 1) * 255 * 256 / (2 * z)
  let i := pos / 256
  let f := pos % 256
  ((ramp i : Int) + roundDiv (((ramp (i + 1) : Int) - ramp i) * (f : Nat)) 256).toNat

/-- The gain and the number of containing edges of R196, over edges given as (distance, zone, ramp). -/
def saddleGain : List (Nat × Nat × (Nat → Nat)) → Nat × Nat → Nat × Nat
  | [], acc => acc
  | (d, z, ramp) :: r, (g, n) =>
    if z > 0 ∧ d < z then saddleGain r (roundDivN (g * edgeGain ramp d z) 65535, n + 1) else saddleGain r (g, n)

/-- out[b] of R197. -/
def liftOut (step liftN n v : Nat) : Nat :=
  let lift := step * (liftN - n)
  lift + roundDivN (v * (65535 - lift)) 65535

/-! ### Spindle -/

/-- c of R211. -/
def spinC (out np d : Nat) : Nat := roundDivN (out * (2 ^ np - 1) * 2 ^ d) 65535

/-- q of R211 from the matrix entry `t`. -/
def spinQ (ditherOn : Bool) (d t : Nat) : Nat :=
  if d = 0 then 0 else if ditherOn then t >>> (12 - d) else 2 ^ (d - 1)

/-- s of R211. -/
def spinS (out np d q : Nat) : Nat := (spinC out np d + q) >>> d

/-- The matrix index 64 × row + col of R212. -/
def ditherIndex (state b x y : Nat) : Nat :=
  let col := (x + state % 64 + 41 * b) % 64
  let row := (y + state / 64 % 64 + 23 * b) % 64
  64 * row + col

/-- lfsr_step of R213. -/
def lfsrStep (s : Nat) : Nat :=
  let fb := (bitsOf s 11 1 + bitsOf s 5 1 + bitsOf s 3 1 + bitsOf s 0 1) % 2
  (2 * s + fb) % 4096

/-- The seed of R213 for engine `e`. -/
def seedOf (e seed : Nat) : Nat := if seed = 0 then (e + 1) * 2531 % 4096 else seed

/-- The lowest index of the least element among cells not yet ranked. -/
def argMinFree : List (Nat × Bool) → Nat → Option (Nat × Nat) → Option Nat
  | [], _, best => best.map (·.1)
  | (e, taken) :: r, i, best =>
    if taken then argMinFree r (i + 1) best
    else match best with
      | none => argMinFree r (i + 1) (some (i, e))
      | some (j, v) => if e < v then argMinFree r (i + 1) (some (i, e)) else argMinFree r (i + 1) (some (j, v))

/-- The energy that a rank placed at cell `p` adds at cell `q` of the 64 × 64 torus (R214). -/
def voidEnergy (p q : Nat) : Nat :=
  let dx : Int := ((((q % 64 : Nat) : Int) - (p % 64 : Nat) + 32) % 64) - 32
  let dy : Int := ((((q / 64 : Nat) : Int) - (p / 64 : Nat) + 32) % 64) - 32
  1048576 / (1 + (dx * dx + dy * dy).toNat) ^ 2

/-- The cells placed by `builtin_matrix`, in rank order, newest first (R214). -/
def voidPlace : Nat → List (Nat × Bool) → List Nat → List Nat
  | 0, _, acc => acc
  | f + 1, cells, acc =>
    match argMinFree cells 0 none with
    | none => acc
    | some p =>
      voidPlace f (cells.mapIdx fun q c => (c.1 + voidEnergy p q, c.2 || q == p)) (p :: acc)

/-- The built-in matrix of R214: entry 64 × y + x is the rank of that cell. -/
def builtinMatrix : List Nat :=
  let order := (voidPlace 4096 (List.replicate 4096 (0, false)) []).reverse
  (order.zipIdx.foldl (fun (m : Array Nat) (p : Nat × Nat) => m.setIfInBounds p.1 p.2)
    (Array.replicate 4096 0)).toList

/-- Y of R223. -/
def spinLuma (wr wg wb r g b : Nat) : Nat := min 65535 ((wr * r + wg * g + wb * b + 32768) >>> 16)

/-- The bin of R223. -/
def spinBin (y : Nat) : Nat := isqrt y >>> 3

/-- score_β of R225. -/
def bandScore (wt : Nat → Nat) (hist : Nat → Nat) (w hb : Nat) : Nat :=
  256 * ((List.range 32).map fun i => wt i * hist i).foldl (· + ·) 0 / (w * hb)

/-- The new class of R225 from the score, the hysteresis, the thresholds THR[1] to THR[7] and the class in force. -/
def classOf (score hyst : Nat) (thr : List Nat) (p : Nat) : Nat × Nat :=
  let up := (thr.filter fun t => score ≥ t).length
  let down := (thr.filter fun t => score + hyst ≥ t).length
  (up, if up > p then up else if down < p then down else p)

/-- S_blk of R218. -/
def blockBytes (w h bands : Nat) : Nat := ceilDiv (w / 8 * (h / bands)) 1024 * 1024

/-- S_buf of R218. -/
def planeBufBytes (w h bands np : Nat) : Nat := 3 * np * bands * blockBytes w h bands

/-- The byte address of plane (b, k), band β, row r, byte column x8 of frame buffer f (R218). -/
def planeAddr (base w h bands np f b k beta r x8 : Nat) : Nat :=
  base + f * planeBufBytes w h bands np + ((b * np + k) * bands + beta) * blockBytes w h bands + r * (w / 8) + x8

/-- The footprint of R220. -/
def planeFootprint (w h bands np : Nat) : Nat := 2 * planeBufBytes w h bands np + 4096

end Sys2Proof.Machine
end

