-- ==== Sys2Proof/Machine/Twist.lean ====
section
/-! DEFINITION. Twist tables: layout, load timing, the checker, weights, and the preset generator (R231 to R245). -/

namespace Sys2Proof.Machine

/-- One slot of a twist table (R232). -/
structure TwistSlot where
  start : Nat := 0
  bank : Nat := 0
  plane : Nat := 0
  load : Nat := 0
  reset : Nat := 0
  park : Nat := 0
  pulseBank : Nat := 0
  level : Nat := 0
  ofs : Nat := 0
  width : Nat := 0
  /-- A reserved bit of the slot is set. -/
  bad : Bool := false
  deriving DecidableEq, Repr

/-- A twist table (R231) with the first light that the checker records (R239). -/
structure TwistTable where
  bands : Nat := 0
  planes : Nat := 0
  lit : Nat := 0
  end_ : Nat := 0
  slots : List TwistSlot := []
  firstLight : Nat := 0
  deriving DecidableEq, Repr

/-- The number that bytes [from, from + n) of host data spell. -/
def leAt (bs : List Byte) (from_ n : Nat) : Nat := ofLeBytes ((bs.drop from_).take n)

/-- Slot `i` of table data (R232). -/
def parseSlot (bs : List Byte) (i : Nat) : TwistSlot :=
  let o := 64 + 16 * i
  let b3 := leAt bs (o + 3) 1
  let b10 := leAt bs (o + 10) 1
  let p := leAt bs (o + 11) 5
  { start := leAt bs o 3, bank := bitsOf b3 0 2, plane := bitsOf b3 2 4, load := leAt bs (o + 4) 2,
    reset := leAt bs (o + 6) 2, park := leAt bs (o + 8) 2, pulseBank := bitsOf b10 0 2, level := bitsOf b10 2 3,
    ofs := bitsOf p 0 20, width := bitsOf p 20 20, bad := bitsOf b3 6 2 ≠ 0 || bitsOf b10 5 3 ≠ 0 }

/-- The table that host data spell, for a descriptor COUNT (R231). -/
def parseTable (bs : List Byte) (count : Nat) : TwistTable :=
  let b3 := leAt bs 3 1
  { bands := bitsOf (leAt bs 2 1) 0 5, planes := bitsOf b3 0 4, lit := bitsOf b3 4 4, end_ := leAt bs 4 3,
    slots := (List.range count).map (parseSlot bs) }

/-- The header conditions of R239, order 1. -/
def headerBad (bs : List Byte) (count : Nat) (t : TwistTable) : Bool :=
  leAt bs 0 2 ≠ count || leAt bs 2 1 ≥ 32 || t.bands < 1 || t.bands > 16 || t.planes < 6 || t.planes > 12 ||
  t.lit < 1 || t.lit > t.planes || t.end_ > 8333333 || leAt bs 7 57 ≠ 0

/-- End of slot `i`: the next START, or END. -/
def slotEnd (t : TwistTable) (i : Nat) : Nat :=
  match t.slots[i + 1]? with
  | some s => s.start
  | none => t.end_

/-- The slot conditions of R239, order 1. -/
def slotBad (t : TwistTable) (i : Nat) (s : TwistSlot) : Bool :=
  let m := 2 ^ t.bands
  (if i = 0 then s.start ≠ 0 else s.start ≤ (t.slots.getD (i - 1) {}).start) ||
  (i + 1 = t.slots.length && t.end_ ≤ s.start) ||
  s.bank = 3 || s.pulseBank = 3 || s.plane ≥ t.planes || s.load ≥ m || s.reset ≥ m || s.park ≥ m ||
  (s.reset &&& s.park) ≠ 0 || s.start + s.ofs + s.width > slotEnd t i ||
  (s.load = 0 && (s.bank ≠ 0 || s.plane ≠ 0)) ||
  (s.width = 0 && (s.pulseBank ≠ 0 || s.level ≠ 0 || s.ofs ≠ 0)) || s.bad

/-- A band during the checker's tick: what it shows, what its cells hold, and whether they were loaded since its
latest reset. -/
structure BandSim where
  shows : Option (Nat × Nat) := none
  cells : Option (Nat × Nat) := none
  fresh : Bool := false
  /-- First instant of light on a shown plane. -/
  first : Option Nat := none
  deriving DecidableEq, Repr

/-- One slot applied to a band: park, reset, load, pulse (R233). -/
def bandStep (s : TwistSlot) (beta : Nat) (b : BandSim) : BandSim :=
  let b := if bitOf s.park beta then { b with shows := none } else b
  let b := if bitOf s.reset beta then { b with shows := b.cells, fresh := false } else b
  let b := if bitOf s.load beta then { b with cells := some (s.bank, s.plane), fresh := true } else b
  if s.width > 0 ∧ b.shows.isSome ∧ b.first.isNone then { b with first := some (s.start + s.ofs) } else b

/-- The first of orders 1 to 4 of R239 that slot `i` fails. -/
def slotCode (t : TwistTable) (i : Nat) (s : TwistSlot) (bands : List BandSim) : Option Nat :=
  let after := bands.mapIdx fun beta b => bandStep s beta b
  if slotBad t i s then some 0x30
  else if (bands.mapIdx fun beta b => bitOf s.reset beta && !b.fresh).any id then some 0x32
  else if (bands.mapIdx fun beta b => bitOf s.load beta && b.fresh && !bitOf s.reset beta).any id then some 0x33
  else if s.width > 0 ∧ after.any (fun b => match b.shows with | some p => p.1 ≠ s.pulseBank | none => false) then
    some 0x31
  else none

/-- Orders 1 to 4 over the slots, earliest slot first; `Sum.inl` is a code and its slot. -/
def slotsRun (t : TwistTable) : Nat → List TwistSlot → List BandSim → Sum (Nat × Nat) (List BandSim)
  | _, [], bands => .inr bands
  | i, s :: r, bands =>
    match slotCode t i s bands with
    | some c => .inl (c, i)
    | none => slotsRun t (i + 1) r (bands.mapIdx fun beta b => bandStep s beta b)

/-- W[β][b][k] of R236 in 1/128 units, over the slots in order. -/
def weightOf (beta b k : Nat) : List TwistSlot → BandSim → Nat
  | [], _ => 0
  | s :: r, st =>
    let st' := bandStep s beta st
    (if s.width > 0 ∧ s.pulseBank = b ∧ st'.shows = some (b, k) then s.width * 2 ^ (7 - s.level) else 0) +
      weightOf beta b k r st'

/-- W[β][b][k] of a table. -/
def TwistTable.weight (t : TwistTable) (beta b k : Nat) : Nat := weightOf beta b k t.slots {}

/-- Ŵ[β][b] of R236. -/
def TwistTable.top (t : TwistTable) (beta b : Nat) : Nat := t.weight beta b (t.planes - 1)

/-- The WEIGHT condition of R239 for one plane. -/
def planeBad (t : TwistTable) (beta b k : Nat) : Bool :=
  let top : Int := t.top beta b
  let w : Int := t.weight beta b k
  if k + t.lit ≥ t.planes then (w * 2 ^ (t.planes + 4) - top * 2 ^ (k + 5)).natAbs > top.natAbs else w ≠ 0

/-- The pairs (β, bank) of a table, in order. -/
def TwistTable.pairs (t : TwistTable) : List (Nat × Nat) :=
  (List.range t.bands).flatMap fun beta => (List.range 3).map fun b => (beta, b)

/-- Order 5 of R239: the DETAIL of the first failing weight. -/
def weightFail (t : TwistTable) : Option Nat :=
  t.pairs.findSome? fun (beta, b) =>
    if t.top beta b = 0 then some (beta * 256 + b * 16 + (t.planes - 1))
    else ((List.range t.planes).find? fun k => planeBad t beta b k).map fun k => beta * 256 + b * 16 + k

/-- |x - y| > y × 2^-10. -/
def offBy1024 (x y : Nat) : Bool := (((x : Int) - y).natAbs) * 1024 > y

/-- Order 6 of R239. -/
def uniformFail (t : TwistTable) : Option Nat :=
  (t.pairs.find? fun (beta, b) => offBy1024 (t.top beta b) (t.top 0 b)).map fun (beta, b) => beta * 256 + b * 16

/-- The checker of R239: a code and its DETAIL, or the table with its first light. -/
def checkTable (bs : List Byte) (count : Nat) : Sum (Nat × Nat) TwistTable :=
  let t := parseTable bs count
  if headerBad bs count t then .inl (0x30, 0xFFFF)
  else match slotsRun t 0 t.slots (List.replicate t.bands {}) with
    | .inl e => .inl e
    | .inr bands =>
      match weightFail t with
      | some d => .inl (0x34, d)
      | none =>
        match uniformFail t with
        | some d => .inl (0x35, d)
        | none => .inr { t with firstLight := bands.foldl (fun m b => max m (b.first.getD 0)) 0 }

/-! ### Load timing -/

/-- One band load of a table: slot, band, plane and its interval on the link, in units after the tick gap (R235). -/
structure LoadTime where
  slot : Nat
  band : Nat
  bank : Nat
  plane : Nat
  q : Nat
  e : Nat
  deriving DecidableEq, Repr

/-- t_band of R235. -/
def tBand (split : Bool) (w h bands : Nat) : Nat := ceilDiv (w * h) (bands * if split then 250 else 500)

/-- The loads of one slot, in ascending band order, from the end of the load before. -/
def slotLoads (tb : Nat) (bands i : Nat) (s : TwistSlot) : Nat → Nat → List LoadTime
  | 0, _ => []
  | f + 1, prev =>
    let beta := bands - (f + 1)
    if bitOf s.load beta then
      let q := max s.start prev
      ⟨i, beta, s.bank, s.plane, q, q + tb⟩ :: slotLoads tb bands i s f (q + tb)
    else slotLoads tb bands i s f prev

/-- Every load of the slots from `i` on (R235). -/
def loadsFrom (tb bands : Nat) : Nat → List TwistSlot → Nat → List LoadTime
  | _, [], _ => []
  | i, s :: r, prev =>
    let ls := slotLoads tb bands i s bands prev
    ls ++ loadsFrom tb bands (i + 1) r ((ls.getLast?.map (·.e)).getD prev)

/-- Every load of a table (R235). -/
def TwistTable.loads (t : TwistTable) (tb : Nat) : List LoadTime := loadsFrom tb t.bands 0 t.slots 0

/-- START of the first slot after slot `i` that resets band `beta`. -/
def TwistTable.resetAfter (t : TwistTable) (i beta : Nat) : Option Nat :=
  ((t.slots.drop (i + 1)).find? fun s => bitOf s.reset beta).map (·.start)

/-- R240, order 4: the slot of the first late load. -/
def TwistTable.lateLoad (t : TwistTable) (tb : Nat) : Option Nat :=
  ((t.loads tb).find? fun l =>
    l.e > t.end_ || (match t.resetAfter l.slot l.band with | some st => l.e + 100 > st | none => false)).map (·.slot)

/-- Bands loaded per tick of a table. -/
def TwistTable.bandLoads (t : TwistTable) : Nat :=
  t.slots.foldl (fun n s => n + ((List.range t.bands).filter fun b => bitOf s.load b).length) 0

/-! ### Presets -/

/-- The planes of one field, top first: (plane, level, width) (R244). -/
def fieldPlanes (np lit f t : Nat) : List (Nat × Nat × Nat) :=
  (List.range lit).map fun i =>
    let k := np - 1 - i
    let lv := np - 8 - k
    (k, lv, t * 2 ^ (k + lv) / (2 ^ (np - 1) * f))

/-- The plane shows of a table in order: (bank, plane, level, width). -/
def presetShows (np lit f t : Nat) : List (Nat × Nat × Nat × Nat) :=
  (List.range (3 * f)).flatMap fun fld => (fieldPlanes np lit f t).map fun (k, lv, x) => (fld % 3, k, lv, x)

/-- The slots of R244's build after slot 0. -/
def presetSlots (bands s : Nat) : Nat → List (Nat × Nat × Nat × Nat) → List TwistSlot × Nat
  | at_, [] => ([], at_)
  | at_, (b, _, lv, x) :: r =>
    let all := 2 ^ bands - 1
    let nxt := r.head?
    let sl : TwistSlot :=
      { start := at_, reset := all, load := if nxt.isSome then all else 0,
        bank := (nxt.map (·.1)).getD 0, plane := (nxt.map (·.2.1)).getD 0,
        pulseBank := if x = 0 then 0 else b, level := lv, ofs := 40, width := x }
    let rest := presetSlots bands s (at_ + max s (x + 80)) r
    (sl :: rest.1, rest.2)

/-- build(lit, f, t) of R244. -/
def presetBuild (bands np tb lit f t : Nat) : TwistTable :=
  let s := bands * tb + 100
  let shows := presetShows np lit f t
  let first : TwistSlot := { load := 2 ^ bands - 1, bank := 0, plane := np - 1 }
  let r := presetSlots bands s s shows
  { bands := bands, planes := np, lit := lit, end_ := r.2, slots := first :: r.1, firstLight := s + 40 }

/-- END of build(lit, f, t), without building it. -/
def presetEnd (bands np tb lit f t : Nat) : Nat :=
  let s := bands * tb + 100
  s + 3 * f * ((fieldPlanes np lit f t).foldl (fun n (p : Nat × Nat × Nat) => n + max s (p.2.2 + 80)) 0)

/-- What a preset is generated from: geometry, port mode, planes, and P_min, G and T_RP in ns. -/
structure PresetArgs where
  bands : Nat
  w : Nat
  h : Nat
  np : Nat
  split : Bool
  pmin : Nat
  gap : Nat
  trp : Nat
  deriving DecidableEq, Repr

/-- fits(lit, f, t) of R244. -/
def presetFits (a : PresetArgs) (lit f t : Nat) : Bool :=
  let tb := tBand a.split a.w a.h a.bands
  presetEnd a.bands a.np tb lit f t ≤ (a.pmin - a.gap) / 5 &&
  3 * f * lit * a.bands * a.w * (a.h / a.bands) + (a.gap + 2560 + a.trp) * (if a.split then 50 else 100)
    ≤ a.pmin * (if a.split then 50 else 100)

/-- F₀ and SPAN of R243. -/
def presetKind (preset : Nat) : Nat × Nat := if preset = 1 then (1, 0) else if preset = 2 then (2, 4) else (3, 6)

/-- t and the (lit, f) of each variant of R244; `none` where no m ≥ 1 fits (R245). -/
def presetPlan (a : PresetArgs) (preset : Nat) : Option (Nat × List (Nat × Nat)) :=
  let (f0, span) := presetKind preset
  let m := searchUp (fun m => presetFits a a.np f0 (1536 * m)) 13 0
  if m = 0 then none
  else
    let t := 1536 * m
    some (t, (List.range 8).map fun c =>
      let lit := max 1 (a.np - span + min c span)
      (lit, ((List.range 5).filter fun f => f ≥ f0 && presetFits a lit f t).foldl max f0))

/-- The eight variants of a plan. -/
def presetTables (a : PresetArgs) (plan : Nat × List (Nat × Nat)) : List TwistTable :=
  plan.2.map fun (lit, f) => presetBuild a.bands a.np (tBand a.split a.w a.h a.bands) lit f plan.1

end Sys2Proof.Machine
end

