-- ==== Sys2Proof/Machine/PartsEngine.lean ====
section
/-! DEFINITION. The state of the engines beyond their registers: Spindle, Flyer and Skein sub-ports (chapters Spindle plane
formatter, Flyer sequencer and twist tables, Skein link). -/

namespace Sys2Proof.Machine

/-! ### Settings -/

/-- Engine settings of ENGINE_SET (R206, R246). -/
structure EngCfg where
  enable : Bool := false
  split : Bool := false
  bands : Nat := 1
  width : Nat := 0
  height : Nat := 0
  planeBase : Nat := 0
  ditherAddr : Nat := 0
  /-- n_p; 0 until an ENGINE_SET writes it. -/
  planes : Nat := 0
  depth : Nat := 0
  ditherOn : Bool := false
  ditherLoaded : Bool := false
  temporal : Bool := false
  seed : Nat := 0
  deriving DecidableEq, Repr

/-- A twist set (R241). -/
structure TwistSel where
  /-- MODE PRESET with PRESET 1, 2 or 3; 0 for MODE TABLES. -/
  preset : Nat := 2
  valid : Nat := 0
  tables : List Nat := [0, 0, 0, 0, 0, 0, 0, 0]
  deriving DecidableEq, Repr

/-- Everything an ENGINE_COMMIT carries (R247), with what the device forms when it is taken. -/
structure EngBundle where
  cfg : EngCfg := {}
  sel : TwistSel := {}
  warp : WarpCfg := {}
  /-- t and (lit, f) of each variant of the generated presets (R244). -/
  plan : Option (Nat × List (Nat × Nat)) := none
  /-- The loaded matrix that governs; `none` for the built-in one (R215, R216). -/
  matrix : Option (List Nat) := none
  /-- The random state the commit loads, where it loads one (R213). -/
  seedLoad : Option Nat := none
  deriving DecidableEq, Repr

/-! ### The tick of an engine -/

/-- One band load of the tick (R233, R235). -/
structure LoadRun where
  at_ : LoadTime
  /-- The band's block has been sent for: bytes fetched into the egress buffer (R253). -/
  data : List Byte := []
  /-- Its slot has started and it waits in the queue (R233). -/
  queued : Bool := false
  /-- It has begun (R235). -/
  started : Bool := false
  /-- Its LOAD record has been sent and FIRST_SEQ taken (R278). -/
  firstSeq : Option Nat := none
  lastSeq : Nat := 0
  /-- DATA plies sent. -/
  sent : Nat := 0
  /-- SEQ of each DATA ply sent whose replay is asked for and not yet sent (R258). -/
  asked : List Nat := []
  /-- A ply of it was lost by replay exhaustion (R294). -/
  lost : Bool := false
  abandoned : Bool := false
  /-- A reset of its band has shown it (R228). -/
  shown : Bool := false
  /-- It was parked by BAND_BLANK or by the engine (R295). -/
  parked : Bool := false
  /-- The stack could not read its block (R411): its data never comes. -/
  dead : Bool := false
  deriving DecidableEq, Repr

/-- A timed record waiting to be sent, with its instant in device time (R273, R274). -/
structure TimedRec where
  at_ : Nat
  op : Nat
  arg3 : Nat
  arg47 : Nat
  deriving DecidableEq, Repr

/-- A notch granted for the tick (R252, R328). -/
structure NotchRun where
  n : Nat
  /-- Bank, string and level fired. -/
  bank : Nat
  string : Nat
  level : Nat
  /-- Calibration sample index; `none` for a diagnosis notch. -/
  cal : Option Nat
  fired : Bool := false
  deriving DecidableEq, Repr

/-- The Flyer's tick on one engine (R251). -/
structure FlyRun where
  /-- The table in use; `none` in a dark tick (R242). -/
  table : Option TwistTable := none
  lit : Bool := false
  /-- The tick was ended early: by an abort, or by R294, R300 or R442. -/
  aborted : Bool := false
  ended : Bool := false
  gapDone : Bool := false
  /-- The next slot to start. -/
  slot : Nat := 0
  loads : List LoadRun := []
  /-- Per band: the load its cells hold, and the load it shows (indices of `loads`). -/
  cells : List (Option Nat) := []
  shows : List (Option Nat) := []
  /-- Bands whose next reset is replaced by BAND_BLANK (R258). -/
  blanked : List Nat := []
  timed : List TimedRec := []
  notches : List NotchRun := []
  deriving DecidableEq, Repr

/-- What the device keeps of a tick for the colour loop, diagnosis and calibration (R317, R324, R338). -/
structure LightTick where
  tick : Nat := 0
  /-- Device time of its edge. -/
  edge : Nat := 0
  /-- Fire mask bit and codes of each string by the table in force on the driver board. -/
  plan : List (Bool × List Nat) := []
  lit : Bool := false
  aborted : Bool := false
  /-- X_b in 1/128 units. -/
  xs : List Nat := [0, 0, 0]
  /-- Per bank, the earliest longest pulse of the tick: (width, level). -/
  longest : List (Nat × Nat) := [(0, 0), (0, 0), (0, 0)]
  notches : List NotchRun := []
  /-- STATUS reported a sensor fault in the tick. -/
  fault : Bool := false
  /-- Excluded by R329. -/
  excluded : Bool := false
  /-- VALUE × RESP of the SENSOR messages: (tag, sensor, product). -/
  sensed : List (Nat × Nat × Nat) := []
  /-- Voltages of strings measured good: (27-string index, mV). -/
  good : List (Nat × Nat) := []
  deriving DecidableEq, Repr

/-! ### Skein sub-ports -/

/-- A ply (R267, R268). The header fields that belong to the moment of sending are in `SentPly`. -/
structure Ply where
  kind : Nat
  seq : Nat := 0
  /-- The 32 payload words, word 0 in bits [31:0]. -/
  payload : Nat := 0
  /-- The timed records an EVENT ply carries, for the DELAYs of a replay (R276). -/
  recs : List TimedRec := []
  /-- DATA: index of the load in the tick; EVENT with a LOAD record likewise. -/
  load : Option Nat := none
  /-- DATA: the tick it belongs to. -/
  tick : Nat := 0
  replay : Bool := false
  deriving DecidableEq, Repr

/-- A ply as it went out on a strand (R268). -/
structure SentPly where
  port : Nat
  strand : Nat
  /-- Device time of its start. -/
  time : Nat
  header : Nat
  payload : Nat
  deriving DecidableEq, Repr

/-- A ply of the replay store with the replays it has had (R291). -/
structure Stored where
  ply : Ply
  replays : Nat := 0
  deriving DecidableEq, Repr

/-- A sub-port, keyed by its engine (R265). -/
structure SubPort where
  /-- The number the next numbered ply takes (R269). -/
  nextSeq : Nat := 0
  configId : Nat := 0
  store : List Stored := []
  /-- Plies waiting, by precedence class of R271: ABORT, BAND_BLANK, EVENT replays, EVENT and CONFIG, DATA replays. -/
  aborts : List Ply := []
  blanks : List Ply := []
  evReplays : List Ply := []
  events : List Ply := []
  dataReplays : List Ply := []
  /-- Strands on which a KEEPALIVE, or a HELLO, is due. -/
  kaDue : List Nat := []
  helloDue : List Nat := []
  /-- Device time of the latest entry to TRAIN (R297). -/
  trainAt : Nat := 0
  /-- Tick edges passed in CONFIG without an answer (R297). -/
  configEdges : Nat := 0
  /-- SERIAL of the last engine that reached READY (R298). -/
  held : Option Nat := none
  /-- IDENT payload offered and refused by R298, for ACCEPT. -/
  offered : Option Nat := none
  /-- CONFIG_ID of the latest CONFIG ply; `none` before the first. -/
  asked : Option Nat := none
  /-- Latest STATUS reported a sensor fault. -/
  sensorFault : Bool := false
  deriving DecidableEq, Repr

/-- A Skein port beyond its registers. -/
structure PortLink where
  /-- Device time of the latest valid message (R299). -/
  lastMsg : Nat := 0
  /-- The return strand is counted lost until a message arrives. -/
  lost : Bool := true
  /-- The port's group is under a user self-test run (R297, R494). -/
  testing : Bool := false
  deriving DecidableEq, Repr

/-! ### An engine -/

/-- Engine `e` beyond its registers. -/
structure EngState where
  shadow : EngBundle := {}
  /-- Taken at the latest latch point; governs the frame after next (R209, R247). -/
  lat : EngBundle := {}
  /-- Governs the frame being written. -/
  spin : EngBundle := {}
  /-- Governs the frame being lit. -/
  fly : EngBundle := {}
  /-- An engine mode change was taken at the latest latch point, or at the one before: the dark tick of a mode change
  begins two tick edges, or one, after the latest latch point (R249). -/
  modeLat : Bool := false
  modeSpin : Bool := false
  /-- The present tick is the dark tick of a mode change (R249). -/
  modeDark : Bool := false
  /-- The matrix read of a commit taken at the latest latch point, and whether it is served; `none` where none is
  outstanding (R215, R216). -/
  matrixRead : Option Bool := none
  /-- Next row of the warp stage in the frame being written; `none` when the engine's frame is not worked. -/
  row : Option Nat := none
  /-- Complete bands of the frame being written (R221). -/
  acked : List Nat := []
  /-- Bands of the frame being written with a plane write that the stack could not carry out (R411): never complete. -/
  lostBands : List Nat := []
  /-- Luminance weights of the frame being written (R223). -/
  luma : List Nat := [13933, 46871, 4732]
  /-- Counts of the frame being written, 32 per band (R223). -/
  hist : List Nat := []
  /-- Histograms and their geometry (w, h, bands) of the latest complete frame (R224). -/
  histDone : List Nat := []
  histGeom : Nat × Nat × Nat := (0, 0, 0)
  /-- The frame just written was complete (R226). -/
  frameOk : Bool := false
  /-- Complete bands of the frame being lit (R222). -/
  bandsOk : List Nat := []
  run : FlyRun := {}
  /-- The run of the tick before, whose plane CRC may still lose a load (R295). -/
  lastRun : FlyRun := {}
  /-- Ticks kept for the light chapters, newest first. -/
  ticks : List LightTick := []
  link : SubPort := {}
  deriving DecidableEq, Repr

/-- Engines, ports, twist tables and the laser interlock beyond their registers. -/
structure EngSt where
  engs : Tbl EngState := []
  ports : Tbl PortLink := []
  /-- Twist tables 0 to 63; `none` where not loaded (R231). -/
  tables : Tbl (Option TwistTable) := []
  /-- Plies sent, oldest first. -/
  sent : List SentPly := []
  /-- LSAFE_IN_L has been low since this device time (R304). -/
  lsafeLowAt : Option Nat := none
  /-- RELEASE has been written since the latest opening, or there was none (R304). -/
  released : Bool := true
  /-- RECT or MESH engines mapping a disabled canvas at the previous latch point (R205). -/
  mapDisabled : List Nat := []
  deriving DecidableEq, Repr

end Sys2Proof.Machine
end

