-- ==== Sys2Proof/Machine/PartsFrame.lean ====
section
/-! DEFINITION. Waiting commits and the configuration of a frame (chapters The tick and the ledger, Composition and commits). -/

namespace Sys2Proof.Machine

/-- What an admitted commit carries (R136, R147, R247). -/
inductive CommitBody where
  /-- A canvas's settings, its layer slots (slot, settings), the object batches it carries, by order, and the scaler
  shadows it carries (scaler, shadow). -/
  | canvas (c : Nat) (cfg : CanvasCfg) (layers : List (Nat × Layer)) (batches : List Nat)
      (scalers : List (Nat × ScalerShadow))
  /-- A guarded overlay, ACK_FALLBACK and the guarded object batches (R147). -/
  | guarded (c : Nat) (overlay : Overlay) (ack : Bool) (batches : List Nat)
  /-- An engine's settings (R247). -/
  | engine (e : Nat) (b : EngBundle)
  deriving DecidableEq, Repr

/-- An admitted commit that no latch point has taken (R59). -/
structure WaitCommit where
  id : Nat
  origin : Origin
  body : CommitBody
  /-- Every reel whose LIT fences wait on it, superseded commits' reels included (R87). -/
  owners : List Nat
  /-- Latch points that deferred it (R142). -/
  defers : Nat := 0
  /-- Its own first deferral is over (R86, R142). -/
  told : Bool := false
  deriving DecidableEq, Repr

/-- The configuration a canvas frame is composed under (R136 to R150). -/
structure FrameCfg where
  canvases : Tbl CanvasCfg := []
  layers : Tbl Layer := []
  overlays : Tbl Overlay := []
  reserves : Tbl Reservation := []
  /-- Surface descriptors, palette entries and atlases as the latch point took them (R110, R111). -/
  surfs : Tbl Surface := []
  palettes : Tbl Word := []
  atlases : Tbl Atlas := []
  /-- Slots kept with an earlier content because a surface was not ready (R143): their settings stand in `layers`. -/
  kept : List Nat := []
  /-- The shed steps in force, latest first (R30, R472). -/
  shedSteps : List Nat := []
  /-- Step 1 sheds every layer of this rank or above; 16 for none (R30, R31). -/
  shedRank : Nat := 16
  /-- The slots that are shed (R30, R31). -/
  shed : List Nat := []
  /-- Canvases held (R60). -/
  held : List Nat := []
  /-- Canvases in fallback (R150). -/
  fallback : List Nat := []
  serve : List ScaleServe := []
  /-- The order of the frame's units (R54). -/
  order : List (Nat × Nat) := []
  /-- Object banks fenced as the frame's composition begins, bit 16 the mirror (R183). -/
  banks : Nat := 0
  deriving DecidableEq, Repr

/-- Composition beyond its registers. -/
structure CompSt where
  shadowC : Tbl CanvasCfg := []
  shadowL : Tbl Layer := []
  waiting : List WaitCommit := []
  nextId : Nat := 0
  latched : FrameCfg := {}
  composing : FrameCfg := {}
  /-- Units composed of the frame being composed, and those still to compose in their order: (canvas, unit) (R54). -/
  done : List (Nat × Nat) := []
  todo : List (Nat × Nat) := []
  /-- Words of the units composed, as issued to the stack, keyed 512 * canvas + unit (R448). -/
  words : Tbl (List Nat) := []
  /-- Contexts whose bank copy, or mirror copy, failed parity in the unit being worked (R183). -/
  badBank : List Nat := []
  badMirror : List Nat := []
  /-- Canvas settings of the frame being lit (CANVAS_LIT, R89). -/
  lit : Tbl CanvasCfg := []
  /-- Reservations accepted; composition takes them at the latch point (R145). -/
  shadowR : Tbl Reservation := []
  /-- 1 + the number of the commit that put a slot's settings in force (R168); 0 for none. -/
  arrive : Tbl Nat := []
  /-- Canvases whose guarded regions failed and await acknowledgement (R150). -/
  failed : List Nat := []
  deriving DecidableEq, Repr

end Sys2Proof.Machine
end

