-- ==== Sys2Proof/Machine/PartsLight.lean ====
section
/-! DEFINITION. The state of light strings, self-calibration and the coach bus beyond their registers (chapters Light strings
and colour, Self-calibration, Coach bus). -/

namespace Sys2Proof.Machine

/-- A string's model (R333, R334): G in 2^-28, TH, and the count, T_run and last-run time of its latest calibration. -/
structure StrModel where
  g : Nat := 1048576
  th : Nat := 0
  count : Nat := 0
  /-- T_run as its 16-bit pattern. -/
  tRun : Nat := 0
  last : Nat := 0
  deriving DecidableEq, Repr

/-- What a set-point table settles for one string (R308, R311): state, share in 2^-16, the string a spare stands for,
gain, and the codes of levels 0 to 7. -/
structure StrPlan where
  state : Nat := 0
  share : Nat := 0
  spareFor : Nat := 15
  k : Nat := 16
  codes : List Nat := [0, 0, 0, 0, 0, 0, 0, 0]
  deriving DecidableEq, Repr

/-- A set-point table of an engine (R311), strings 9b + s. -/
structure BoardTable where
  id : Nat
  strs : List StrPlan
  /-- Strings whose new model takes effect with this table (R340), with that model. -/
  models : List (Nat × StrModel) := []
  deriving DecidableEq, Repr

/-- A staged table and its delivery (R367). -/
structure Staged where
  table : BoardTable
  acked : Bool := false
  sends : Nat := 0
  /-- Device time of the latest send. -/
  lastSend : Nat := 0
  /-- A TABLE frame is waiting to be sent. -/
  due : Bool := true
  /-- Sent again under R315 (R371). -/
  again : Bool := false
  /-- Order of staging (R371). -/
  order : Nat := 0
  /-- The sends are exhausted or the board refused (R367). -/
  failed : Bool := false
  deriving DecidableEq, Repr

/-- One engine of an outstanding SWITCH, with the board's answer (R368, R369). -/
structure SwitchEntry where
  engine : Nat
  table : BoardTable
  answer : Option Nat := none
  deriving DecidableEq, Repr

/-- An outstanding SWITCH (R313, R368). -/
structure Switch where
  id : Nat
  tick : Nat
  entries : List SwitchEntry
  lastSend : Nat := 0
  due : Bool := true
  deriving DecidableEq, Repr

/-- Light settings of an engine (R321). -/
structure LightSet where
  group : Nat := 0
  follow : Bool := true
  loopOn : Bool := true
  targets : List Nat := [0, 0, 0]
  codeMax : List Nat := [3686, 3686, 3686]
  fsMa : List Nat := [0, 0, 0]
  faultCount : Nat := 3
  iOpen : Nat := 50
  vOpen : Nat := 125
  short : Nat := 75
  notchEnable : Bool := true
  notchLevel : Nat := 0
  notchW : Nat := 2
  notchInterval : Nat := 16
  heatHold : Nat := 50
  kb : List Nat := [64, 64, 64]
  gains : List Nat := List.replicate 27 16
  deriving DecidableEq, Repr

/-- A pending notch request (R328). `cal` is the sample index of a calibration request. -/
structure NotchReq where
  cal : Option Nat
  tick : Nat
  /-- 9 × bank + string. -/
  str : Nat
  level : Nat
  deriving DecidableEq, Repr

/-- A calibration in progress on a bank (R336 to R340). -/
structure CalRun where
  /-- 9 × bank + string. -/
  str : Nat
  /-- The string is lent; else measured in place (R337). -/
  lent : Bool
  /-- Tick of the start. -/
  start : Nat
  /-- Measurement has begun (R337). -/
  measuring : Bool := false
  /-- REPEATS of the run, once its notch requests are raised (R338). -/
  reps : Option Nat := none
  /-- Samples: index, code, and φ as a numerator and a denominator. -/
  samples : List (Nat × Nat × Nat × Nat) := []
  /-- LASER values of the sample ticks. -/
  laser : List Int := []
  /-- The fitted model, staged and awaiting its SWITCH edge (R340). -/
  fit : Option StrModel := none
  deriving DecidableEq, Repr

/-- A pending calibration request (R335). -/
structure CalReq where
  str : Nat
  host : Bool
  tick : Nat
  deriving DecidableEq, Repr

/-- The light and calibration state of an engine beyond its registers. -/
structure LightEng where
  /-- The settings as LIGHT_SET last wrote them, and as they act (R321). -/
  written : LightSet := {}
  act : LightSet := {}
  /-- The string states, shares and codes the device computes with. -/
  plan : List StrPlan := List.replicate 27 {}
  models : List StrModel := List.replicate 27 {}
  staged : Option Staged := none
  /-- The table in force on the driver board by the device's count (R315). -/
  force : Option BoardTable := none
  nextId : Nat := 0
  /-- Resends of R315 without an acknowledgement. -/
  resends : Nat := 0
  /-- An IDENT has been accepted (R307). -/
  known : Bool := false
  strings : Nat := 0
  spare : Bool := false
  sensors : Nat := 0
  serial : Nat := 0
  /-- Effective targets of the latest update (R319). -/
  effPrev : List Nat := [0, 0, 0]
  /-- φ̄ of the latest valid window in 2^-16, with F_cmd at that update (R318). -/
  meas : List (Option (Nat × Nat)) := [none, none, none]
  /-- Tick of the latest SWITCH edge of the engine (R319). -/
  switchTick : Nat := 0
  /-- Consecutive valid ticks in which a sensor deviates (R317). -/
  deviant : Tbl Nat := []
  /-- Tick from which ticks are excluded until the acting SWITCH edge (R329). -/
  excludeFrom : Option Nat := none
  /-- Device time of the latest heat report of each HEAT_OFF string (R329). -/
  heatAt : Tbl Nat := []
  /-- Own voltage of each string at its latest good measurement is LGT_STR_TELEM; strings with one (R325). -/
  telem : List Nat := []
  /-- By bank: one more than the tick in which the spare latest took the share of a string that R326 or R329 put out of service
  (R330). -/
  spareTick : List Nat := [0, 0, 0]
  notchReqs : List NotchReq := []
  calReqs : List CalReq := []
  cals : Tbl (Option CalRun) := []
  /-- RESP points: T_k, and RESP_j,k at 5j + k; empty until loaded (R343). -/
  respT : List Int := []
  resp : List Nat := []
  /-- A RESP_LOAD stored and taking effect at the next tick edge (R344). -/
  respNext : Option (List Int × List Nat) := none
  /-- RESP_j by the latest TEMP, and in use since the tick edge (R343). -/
  respTemp : Tbl Nat := []
  respNow : Tbl Nat := []
  respLoaded : Bool := false
  fromStore : Bool := false
  deriving DecidableEq, Repr

/-- An engine record of the boot-flash store (R348). -/
structure StoreRec where
  serial : Nat := 0
  sensors : Nat := 0
  respLoaded : Bool := false
  respT : List Int := []
  resp : List Nat := []
  models : List StrModel := []
  deriving DecidableEq, Repr

/-- Calibration as a whole beyond its registers: the boot flash and the records held (R348 to R351). -/
structure CalSt where
  /-- CAL_CFG as taken at the latest tick edge. -/
  cfg : Nat := 0x102403
  /-- The boot flash, by byte; erased bytes read 0xFF. -/
  flash : Tbl (BitVec 8) := []
  /-- Records held. -/
  held : List StoreRec := []
  /-- CAL_STORE in progress: (slot, bytes to program) (R350). -/
  writing : Option (Nat × List (BitVec 8)) := none
  /-- Its records (R350). -/
  planned : List StoreRec := []
  /-- A model changed after the store's records were formed (R350). -/
  changed : Bool := false
  /-- CAL_CLOCK counts from this device time (CAL_CLOCK). -/
  clockAt : Nat := 0
  deriving DecidableEq, Repr

/-- A coach-bus frame the device sent (R359, R360). -/
structure CbusFrame where
  dst : Nat
  kind : Nat
  seq : Nat
  body : List Byte
  deriving DecidableEq, Repr

/-- Light, calibration and the coach bus. -/
structure LightSt where
  engs : Tbl LightEng := []
  switch : Option Switch := none
  nextSwitch : Nat := 0
  nextOrder : Nat := 0
  /-- A loop edge waits for its update (R319). -/
  loopDue : Bool := false
  /-- σ_g in 2^-16, by group (R318). -/
  sigma : List Nat := [65536, 65536, 65536, 65536, 65536, 65536, 65536, 65536]
  /-- LGT_LOOP_CFG as taken at the latest tick edge. -/
  loopCfg : Nat := 0x308
  cal : CalSt := {}
  /-- Coach bus: node ID and MAC taken at the enable (R358). -/
  nodeId : Nat := 0
  mac : Nat := 0
  seq : Nat := 0
  frames : List CbusFrame := []
  deriving DecidableEq, Repr

end Sys2Proof.Machine
end

