-- ==== Sys2Proof/Machine/PartsSite.lean ====
section
/-! DEFINITION. The state of the backbone, the memory stack, the thermal model, start-up, self-test, life cycle and pins
beyond their registers (chapters Backbone ingest and time, In-package memory stack, Thermal model, Power-up). -/

namespace Sys2Proof.Machine

/-! ### Backbone -/

/-- A flow-table entry (R377). -/
structure Flow where
  valid : Bool := false
  port0 : Bool := false
  port1 : Bool := false
  full : Bool := false
  cls : Nat := 0
  stream : Nat := 0
  dport : Nat := 0
  sport : Nat := 0
  vid : Nat := 0
  vidM : Bool := false
  untagged : Bool := false
  ipv6 : Bool := false
  srcM : Bool := false
  dstM : Bool := false
  sportM : Bool := false
  macM : Bool := false
  srcPrefix : Nat := 0
  dstPrefix : Nat := 0
  srcAddr : List Byte := []
  dstAddr : List Byte := []
  dstMac : List Byte := []
  rate : Nat := 0
  burst : Nat := 0
  /-- Policer tokens in 1/8000 byte, and the device time they were counted at (R382). -/
  tokens : Nat := 0
  tokensAt : Nat := 0
  deriving DecidableEq, Repr

/-- A stream context beyond its registers (R383 to R389). -/
structure StreamCtx where
  /-- BBN_SC_CFG and BBN_SC_SURF as taken at the enable, and the timeout in ms. -/
  cfg : Nat := 0
  surf : Nat := 0
  timeout : Nat := 100
  /-- The sequence number the next packet must carry; `none` before the first. -/
  nextSeq : Option Nat := none
  /-- The next RFC 4175 packet starts a frame (R386). -/
  starts : Bool := true
  /-- Of the open frame: its surface's side (0 A, 1 B), index and descriptor, when it began, its KEY, its class and port. -/
  side : Nat := 0
  target : Nat := 0
  desc : Surface := {}
  began : Nat := 0
  key : Bool := false
  cls : Nat := 0
  port : Nat := 0
  /-- The last packet has been written; the frame completes at the acknowledgement. -/
  lastSeen : Bool := false
  deriving DecidableEq, Repr

/-- An 802.1AS function (R391 to R393). -/
structure Gptp where
  /-- Consecutive Syncs with a residual of at most 100 ns. -/
  good : Nat := 0
  /-- Sequence number of the next Pdelay_Req. -/
  pdelaySeq : Nat := 0
  /-- An Announce of the grandmaster has been heard. -/
  heard : Bool := false
  deriving DecidableEq, Repr

/-- A frame in the ingest buffer (R381). -/
structure Buffered where
  flow : Nat
  cls : Nat
  port : Nat
  bytes : Nat
  /-- It lies in its Class A entry's reservation. -/
  reserved : Bool
  deriving DecidableEq, Repr

structure BbnSt where
  flows : Tbl Flow := []
  streams : Tbl StreamCtx := []
  gptp : Tbl Gptp := []
  /-- The ingest buffer, in arrival order. -/
  buffered : List Buffered := []
  /-- Peer-delay frames sent: (port, kind, sequence); 0 Pdelay_Req, 1 Pdelay_Resp, 2 Pdelay_Resp_Follow_Up. -/
  sent : List (Nat × Nat × Nat) := []
  deriving DecidableEq, Repr

/-! ### Memory stack -/

/-- The memory stack beyond its registers. -/
structure StkSt where
  /-- The bytes of the stack by location, in canonical form; an unlisted byte is 0 (R408). -/
  mem : List Host.Cell := []
  /-- Masks in force: PC_MASK_0 to 4, BA_MASK_0 to 3 (R397). -/
  masks : List Nat := [0x80100, 0x100200, 0x200400, 0x400800, 0x801000, 0x1008000, 0x2010000, 0x4020000, 0x8040000]
  /-- Debt D of each pseudo-channel in ns (R406). -/
  debt : Tbl Int := []
  /-- A change to hot has been paid in this tick (R407). -/
  paid : Bool := false
  /-- Device time of the next schedule boundary of each pseudo-channel; `none` before its first. -/
  boundary : Tbl (Option Nat) := []
  /-- C3 bytes moved in the present window, by pseudo-channel (R403). -/
  c3 : Tbl Nat := []
  /-- Sub-requests in the aged tier, in the order of R27: pseudo-channel, requester of R404, arrival (R402). -/
  aged : List (Nat × Nat × Nat) := []
  /-- Bursts of exhausted sub-requests that the next unit or row meets: (0 guarded fetch, 1 other fetch, 2 canvas write,
  16 + p warp read of port p; burst address) (R411). -/
  lost : List (Nat × Nat) := []
  /-- Pseudo-channels being retrained by an UNFENCE (R414). -/
  retraining : List Nat := []
  deriving DecidableEq, Repr

/-! ### Thermal model -/

structure ThmSt where
  /-- Exact node temperatures in °C, as numerators over `den`, a multiple of 256 (R467). -/
  nodes : List Int := [0, 0, 0, 0, 0, 0]
  den : Nat := 256
  started : Bool := false
  /-- Power of each rail used by the model in the latest millisecond, mW (R462). -/
  rails : List Nat := [0, 0, 0, 0, 0, 0, 0, 0, 0, 0]
  /-- Milliseconds without a good reading, by rail (R463). -/
  missed : List Nat := [0, 0, 0, 0, 0, 0, 0, 0, 0, 0]
  /-- Exact hotspot temperatures in °C, as numerators over 100,000 × `den` (R468). -/
  hots : List Int := [0, 0, 0, 0, 0, 0, 0, 0]
  /-- Sum of P_total over the present interval, mW, and its milliseconds (R469). -/
  powerSum : Nat := 0
  powerN : Nat := 0
  /-- T_hot was at or above 125 °C at the latest update (R473). -/
  tooHot : Bool := false
  /-- Latest case value, 1/256 °C; device time of the latest read; it succeeded; consecutive failures (R465). -/
  case : Int := 0
  caseAt : Option Nat := none
  caseOk : Bool := false
  caseFails : Nat := 0
  /-- Device time of the latest decision that lowered C (R471). -/
  loweredAt : Option Nat := none
  /-- The shed order in force (R472). -/
  order : List Nat := [1, 2, 3, 4, 5]
  deriving DecidableEq, Repr

/-! ### Start-up, self-test, life cycle and pins -/

/-- The long operation that runs (R98): what LONG_OPERATION_END ends. -/
inductive LongOp where
  /-- A life-cycle transition to bit 0, 1 or 2 (R489). -/
  | lifeCycle (bit : Nat)
  /-- Fuse repair (R493). -/
  | repair
  /-- CAL_STORE of a reel (R350); 64 where the host-interface reset took the descriptor. -/
  | store (reel : Nat)
  /-- User self-test of the groups still to run, lowest first (R494). -/
  | bist (groups : List Nat)
  deriving DecidableEq, Repr

/-- What the device knows of its fuses, and what they hold (R479). -/
structure Fuses where
  /-- Cells of TEST, FIELD and RETURN, as masks of three. -/
  cells : List Nat := [0, 0, 0]
  keyOk : Bool := false
  /-- REPAIR groups programmed, and per group whether its check word matches. -/
  repairs : List Bool := []
  deriving DecidableEq, Repr

structure PwrSt where
  /-- Pins. -/
  porst : Bool := false
  pwrOk : Bool := false
  gpio : Nat := 0
  lsafeHigh : Bool := true
  tickIn : Bool := false
  readyOut : Bool := false
  irqLow : Bool := false
  lsafeOut : Bool := false
  /-- Clocks present: SYS_CLK, SKN_REFCLK 0 to 3, BBN_REFCLK, PCIE_REFCLK (R521). -/
  sysClk : Bool := true
  sknClk : Nat := 15
  bbnClk : Bool := true
  pcieClk : Bool := true
  /-- Start-up step in progress, 1 to 5; 0 outside start-up (R476). -/
  step : Nat := 0
  /-- Self-test groups of step 3 that have ended (R476). -/
  group : Nat := 0
  /-- SYS_CLK was lost in service: nothing resumes before the next rise of PORST_L (R522). -/
  dead : Bool := false
  fuses : Fuses := {}
  long : Option LongOp := none
  /-- The result under which a request to program fuses was refused (R489, R493). -/
  refusal : Option Nat := none
  /-- Why a fuse or flash write stops before its next cell or sector: 0 it does not, 1 WRITE_OK fell, 2 PWR_OK fell
  (R474, R491, R496). -/
  stop : Nat := 0
  /-- Results of the self-test groups that READY acts on: units that failed, by group (R482, R487). -/
  bad : List (Nat × Nat) := []
  badCore : Bool := false
  /-- Pseudo-channels that lack spare lanes or failed training (R484, R408). -/
  badPcs : List Nat := []
  /-- Stack rows that the memory test failed: (pseudo-channel, bank, row) (R484). -/
  badRows : List (Nat × Nat × Nat) := []
  /-- Object banks and scalers fenced as at power-up: (2 bank, 16 the mirror; or 3 scaler, instance) (R445, R487). -/
  puFenced : List (Nat × Nat) := []
  /-- The repair record in use: entries in the STK_ROWLOG layout (R485). -/
  record : List Nat := []
  /-- Rows left in service unrepaired: (pseudo-channel, bank, row) (R484). -/
  unrepaired : List (Nat × Nat × Nat) := []
  deriving DecidableEq, Repr

end Sys2Proof.Machine
end

