-- ==== Sys2Proof/Machine/PartsTick.lean ====
section
/-! DEFINITION. The state of the tick logic beyond its registers (chapter The tick and the ledger). -/

namespace Sys2Proof.Machine


/-! ### Tick -/

/-- The values an APPLY puts in force (R43). -/
structure ApplyVals where
  period : Nat
  gap : Nat
  guard : Nat
  source : Nat
  port : Nat
  tol : Nat
  trp : Nat
  deriving DecidableEq, Repr

/-- The tick logic beyond its registers. -/
structure TickState where
  /-- Tick edges are being placed (R42). -/
  running : Bool := false
  /-- Predicted instant of the next tick edge, on the 5 ns grid (R34, R47). -/
  nextEdge : Nat := 0
  /-- E0 of R36 and the number of periods placed since it. -/
  e0 : Nat := 0
  n : Nat := 0
  /-- TOL in force, in 0.05 % steps (R45). -/
  tol : Nat := 10
  /-- T_RP in force, in ns (R43, R52), and c₃ in force, in % (R52). -/
  trp : Nat := 2000
  c3 : Nat := 10
  /-- GPTP_PORT in force (R45). -/
  port : Nat := 0
  /-- The previous accepted TICK_IN edge and the candidate edge (R37). -/
  accepted : Option Nat := none
  candidate : Option Nat := none
  /-- The accepted edge that was paired last (R37). -/
  paired : Option Nat := none
  /-- The last accepted interval (R37); `none` before any edge has been accepted, when it is P. -/
  lastInterval : Option Nat := none
  /-- The pairing of the latest edge is settled, and with it the length of its tick (R37). -/
  settled : Bool := true
  /-- Consecutive flywheeled edges (R37). -/
  flywheels : Nat := 0
  /-- Consecutive edges with |e| at most 1 us (R39). -/
  lockRun : Nat := 0
  /-- The next measured error is the first of an ACQUIRING state (R40). -/
  firstMeasure : Bool := false
  /-- The tick that begins at the next edge is dark for every engine (R40, R42, R44). -/
  darkNext : Bool := false
  /-- The next edge is the first after an enable: it is placed, not flywheeled (R42). -/
  fresh : Bool := false
  /-- The values of an admitted APPLY that waits (R43). -/
  apply : Option ApplyVals := none
  /-- The latch point that admits the pending APPLY has passed: it applies at the next edge (R43). -/
  applyRipe : Bool := false
  /-- The latch point of the present tick has passed. -/
  latched : Bool := false
  /-- TICK_OUT level and the instant its pulse ends (R41). -/
  out : Bool := false
  outEnd : Nat := 0
  deriving DecidableEq, Repr

end Sys2Proof.Machine
end

