-- ==== Sys2Proof/Machine/RegMap.lean ====
section
/-! DEFINITION. The set-up register map (R25, R26 and the field tables of every chapter): one row per register with
its offset, its instances, its fields, their access codes (R9, R10) and their reset values (R8), and one named field
reference per field. A reserved field has no entry: it reads zero and a write stores zero there (R10). -/

namespace Sys2Proof.Machine

/-- The access codes of R9. `act` marks a readable field that only a command with a row of its own writes
(TICK_ENABLE, CR_ENABLE and so on); SETUP_WRITE leaves it as it is. A WO field is never stored. -/
inductive Access where
  | rw | ro | w1c | w1s | wo | rc | act
  deriving DecidableEq, Repr

/-- One field of a register: bits [hi:lo], its access code and its reset value. -/
structure FieldRow where
  hi : Nat
  lo : Nat
  acc : Access
  reset : Nat
  deriving DecidableEq, Repr

/-- One register, or an array of alike registers: the offset of instance (i, j) is `base + s1 * i + s2 * j`.
`wide` marks a 64-bit register, whose high word lies 4 above its low word. -/
structure RegRow where
  name : String
  base : Nat
  s1 : Nat
  c1 : Nat
  s2 : Nat
  c2 : Nat
  wide : Bool
  fields : List FieldRow
  deriving DecidableEq, Repr

/-- A reference to a field: the offset of its register and its bits [hi:lo]. -/
structure Fld where
  off : Nat
  hi : Nat
  lo : Nat
  deriving DecidableEq, Repr

/-! ### Block DEV -/

def DEV_ID.PART : Fld := ⟨0x000000, 15, 0⟩
def DEV_ID.STEPPING : Fld := ⟨0x000000, 23, 16⟩
def DEV_ID.FAMILY : Fld := ⟨0x000000, 31, 24⟩
def DEV_STATUS.BUSY : Fld := ⟨0x000004, 0, 0⟩
def DEV_STATUS.READY : Fld := ⟨0x000004, 1, 1⟩
def DEV_STATUS.LC : Fld := ⟨0x000004, 3, 2⟩
def DEV_STATUS.LONG_OP : Fld := ⟨0x000004, 6, 4⟩
def DEV_STATUS.DEGRADED : Fld := ⟨0x000004, 7, 7⟩
def DEV_STATUS.CORE_FAULT : Fld := ⟨0x000004, 8, 8⟩
def DEV_STATUS.PWR_LOW : Fld := ⟨0x000004, 9, 9⟩
def DEV_STRAPS.STRAPS : Fld := ⟨0x000008, 3, 0⟩
def DEV_SETUP_DROPPED.COUNT : Fld := ⟨0x00000C, 31, 0⟩
def DEV_UNMAPPED.COUNT : Fld := ⟨0x000010, 31, 0⟩
def DEV_SERIAL.SERIAL : Fld := ⟨0x000018, 63, 0⟩
def DEV_RESOURCES.PORTS : Fld := ⟨0x000020, 4, 0⟩
def DEV_RESOURCES.SCALERS : Fld := ⟨0x000020, 10, 5⟩
def DEV_RESOURCES.OBJ_BANKS : Fld := ⟨0x000020, 15, 11⟩
def DEV_RESOURCES.PCS : Fld := ⟨0x000020, 21, 16⟩
def DEV_RESOURCES.BACKBONE : Fld := ⟨0x000020, 23, 22⟩
def DEV_PU_FENCED.PORTS : Fld := ⟨0x000024, 15, 0⟩
def DEV_PU_FENCED.BACKBONE : Fld := ⟨0x000024, 17, 16⟩
def DEV_GPIO_OUT.OUT : Fld := ⟨0x000030, 15, 0⟩
def DEV_GPIO_OE.OE : Fld := ⟨0x000034, 15, 0⟩
def DEV_GPIO_IN.IN : Fld := ⟨0x000038, 15, 0⟩

def regRowsDEV0 : List RegRow :=
  [ ⟨"DEV_ID", 0x000000, 0x4000000, 1, 0x4000000, 1, false,
      [⟨15, 0, .ro, 0x1648⟩, ⟨23, 16, .ro, 0x1⟩, ⟨31, 24, .ro, 0x1⟩]⟩,
    ⟨"DEV_STATUS", 0x000004, 0x4000000, 1, 0x4000000, 1, false,
      [⟨0, 0, .ro, 0x0⟩, ⟨1, 1, .ro, 0x0⟩, ⟨3, 2, .ro, 0x0⟩, ⟨6, 4, .ro, 0x0⟩, ⟨7, 7, .ro, 0x0⟩, ⟨8, 8, .ro, 0x0⟩, ⟨9, 9, .ro, 0x0⟩]⟩,
    ⟨"DEV_STRAPS", 0x000008, 0x4000000, 1, 0x4000000, 1, false,
      [⟨3, 0, .ro, 0x0⟩]⟩,
    ⟨"DEV_SETUP_DROPPED", 0x00000C, 0x4000000, 1, 0x4000000, 1, false,
      [⟨31, 0, .rc, 0x0⟩]⟩,
    ⟨"DEV_UNMAPPED", 0x000010, 0x4000000, 1, 0x4000000, 1, false,
      [⟨31, 0, .rc, 0x0⟩]⟩,
    ⟨"DEV_SERIAL", 0x000018, 0x4000000, 1, 0x4000000, 1, true,
      [⟨63, 0, .ro, 0x0⟩]⟩,
    ⟨"DEV_RESOURCES", 0x000020, 0x4000000, 1, 0x4000000, 1, false,
      [⟨4, 0, .ro, 0x10⟩, ⟨10, 5, .ro, 0x20⟩, ⟨15, 11, .ro, 0x10⟩, ⟨21, 16, .ro, 0x20⟩, ⟨23, 22, .ro, 0x2⟩]⟩,
    ⟨"DEV_PU_FENCED", 0x000024, 0x4000000, 1, 0x4000000, 1, false,
      [⟨15, 0, .ro, 0x0⟩, ⟨17, 16, .ro, 0x0⟩]⟩,
    ⟨"DEV_GPIO_OUT", 0x000030, 0x4000000, 1, 0x4000000, 1, false,
      [⟨15, 0, .rw, 0x0⟩]⟩,
    ⟨"DEV_GPIO_OE", 0x000034, 0x4000000, 1, 0x4000000, 1, false,
      [⟨15, 0, .rw, 0x0⟩]⟩,
    ⟨"DEV_GPIO_IN", 0x000038, 0x4000000, 1, 0x4000000, 1, false,
      [⟨15, 0, .ro, 0x0⟩]⟩ ]

/-- Every register of block DEV. -/
def regRowsDEV : List RegRow := regRowsDEV0

/-! ### Block TICK -/

def TICK_CTRL.ENABLE : Fld := ⟨0x010000, 0, 0⟩
def TICK_CTRL.SOURCE : Fld := ⟨0x010000, 2, 1⟩
def TICK_CTRL.GPTP_PORT : Fld := ⟨0x010000, 3, 3⟩
def TICK_CTRL.PRESET : Fld := ⟨0x010000, 7, 4⟩
def TICK_CTRL.APPLY : Fld := ⟨0x010000, 8, 8⟩
def TICK_PERIOD.PERIOD_NS : Fld := ⟨0x010004, 31, 0⟩
def TICK_NEXT_PERIOD.PERIOD_NS : Fld := ⟨0x010008, 31, 0⟩
def TICK_TIMING.GAP_US : Fld := ⟨0x01000C, 7, 0⟩
def TICK_TIMING.LATCH_GUARD_US : Fld := ⟨0x01000C, 24, 16⟩
def TICK_NEXT_TIMING.GAP_US : Fld := ⟨0x010010, 7, 0⟩
def TICK_NEXT_TIMING.LATCH_GUARD_US : Fld := ⟨0x010010, 24, 16⟩
def TICK_STATUS.LOCK : Fld := ⟨0x010014, 1, 0⟩
def TICK_STATUS.SOURCE : Fld := ⟨0x010014, 3, 2⟩
def TICK_STATUS.APPLY_PENDING : Fld := ⟨0x010014, 4, 4⟩
def TICK_STATUS.APPLY_REASON : Fld := ⟨0x010014, 15, 8⟩
def TICK_PIN_CFG.TOL : Fld := ⟨0x010018, 3, 0⟩
def TICK_PIN_OFFSET.OFFSET_NS : Fld := ⟨0x01001C, 31, 0⟩
def TICK_GPTP_PHASE.PHASE_NS : Fld := ⟨0x010020, 31, 0⟩
def TICK_OUT_CFG.ENABLE : Fld := ⟨0x010024, 0, 0⟩
def TICK_OUT_CFG.WIDTH_US : Fld := ⟨0x010024, 15, 8⟩
def TICK_PIN_STATS.REJECTED : Fld := ⟨0x010028, 15, 0⟩
def TICK_PIN_STATS.FLYWHEELED : Fld := ⟨0x010028, 31, 16⟩
def TICK_PHASE_ERR.ERR_NS : Fld := ⟨0x01002C, 31, 0⟩
def TICK_LEDGER_CTRL.C3_SHARE : Fld := ⟨0x010100, 7, 0⟩
def TICK_LEDGER_CTRL.REPLAY_NS : Fld := ⟨0x010100, 23, 8⟩
def TICK_LEDGER_KAPPA.KAPPA : Fld := ⟨0x010104, 8, 0⟩
def TICK_LEDGER_KAPPA.KAPPA_MIN : Fld := ⟨0x010104, 24, 16⟩
def TICK_LEDGER_LAST.CODE : Fld := ⟨0x010130, 7, 0⟩
def TICK_LEDGER_LAST.INDEX : Fld := ⟨0x010130, 15, 8⟩
def TICK_LEDGER_LAST.REEL : Fld := ⟨0x010130, 21, 16⟩
def TICK_LEDGER_REJECTS.COUNT : Fld := ⟨0x010134, 31, 0⟩
def TICK_SHED.STEP : Fld := ⟨0x010140, 2, 0⟩
def TICK_SHED.RANK : Fld := ⟨0x010140, 7, 4⟩
def TICK_SHED.HELD : Fld := ⟨0x010140, 15, 8⟩
def TICK_COUNT.COUNT : Fld := ⟨0x010030, 47, 0⟩
def TICK_EDGE_TIME.TIME_NS : Fld := ⟨0x010038, 63, 0⟩
def TICK_DEVICE_TIME.TIME_NS : Fld := ⟨0x010040, 63, 0⟩
def TICK_GPTP_INDEX.INDEX : Fld := ⟨0x010048, 47, 0⟩
def TICK_LEDGER_USE.USE (i : Nat) : Fld := ⟨0x010110 + 0x4 * i, 15, 0⟩

def regRowsTICK0 : List RegRow :=
  [ ⟨"TICK_CTRL", 0x010000, 0x4000000, 1, 0x4000000, 1, false,
      [⟨0, 0, .act, 0x0⟩, ⟨2, 1, .rw, 0x0⟩, ⟨3, 3, .rw, 0x0⟩, ⟨7, 4, .rw, 0xA⟩, ⟨8, 8, .wo, 0x0⟩]⟩,
    ⟨"TICK_PERIOD", 0x010004, 0x4000000, 1, 0x4000000, 1, false,
      [⟨31, 0, .ro, 0x7F2815⟩]⟩,
    ⟨"TICK_NEXT_PERIOD", 0x010008, 0x4000000, 1, 0x4000000, 1, false,
      [⟨31, 0, .rw, 0x7F2815⟩]⟩,
    ⟨"TICK_TIMING", 0x01000C, 0x4000000, 1, 0x4000000, 1, false,
      [⟨7, 0, .ro, 0x14⟩, ⟨24, 16, .ro, 0x32⟩]⟩,
    ⟨"TICK_NEXT_TIMING", 0x010010, 0x4000000, 1, 0x4000000, 1, false,
      [⟨7, 0, .rw, 0x14⟩, ⟨24, 16, .rw, 0x32⟩]⟩,
    ⟨"TICK_STATUS", 0x010014, 0x4000000, 1, 0x4000000, 1, false,
      [⟨1, 0, .ro, 0x0⟩, ⟨3, 2, .ro, 0x0⟩, ⟨4, 4, .ro, 0x0⟩, ⟨15, 8, .ro, 0x0⟩]⟩,
    ⟨"TICK_PIN_CFG", 0x010018, 0x4000000, 1, 0x4000000, 1, false,
      [⟨3, 0, .rw, 0xA⟩]⟩,
    ⟨"TICK_PIN_OFFSET", 0x01001C, 0x4000000, 1, 0x4000000, 1, false,
      [⟨31, 0, .rw, 0x0⟩]⟩,
    ⟨"TICK_GPTP_PHASE", 0x010020, 0x4000000, 1, 0x4000000, 1, false,
      [⟨31, 0, .rw, 0x0⟩]⟩,
    ⟨"TICK_OUT_CFG", 0x010024, 0x4000000, 1, 0x4000000, 1, false,
      [⟨0, 0, .rw, 0x1⟩, ⟨15, 8, .rw, 0x1⟩]⟩,
    ⟨"TICK_PIN_STATS", 0x010028, 0x4000000, 1, 0x4000000, 1, false,
      [⟨15, 0, .rc, 0x0⟩, ⟨31, 16, .rc, 0x0⟩]⟩,
    ⟨"TICK_PHASE_ERR", 0x01002C, 0x4000000, 1, 0x4000000, 1, false,
      [⟨31, 0, .ro, 0x0⟩]⟩,
    ⟨"TICK_LEDGER_CTRL", 0x010100, 0x4000000, 1, 0x4000000, 1, false,
      [⟨7, 0, .rw, 0xA⟩, ⟨23, 8, .rw, 0x7D0⟩]⟩,
    ⟨"TICK_LEDGER_KAPPA", 0x010104, 0x4000000, 1, 0x4000000, 1, false,
      [⟨8, 0, .ro, 0x100⟩, ⟨24, 16, .ro, 0x80⟩]⟩,
    ⟨"TICK_LEDGER_LAST", 0x010130, 0x4000000, 1, 0x4000000, 1, false,
      [⟨7, 0, .ro, 0x0⟩, ⟨15, 8, .ro, 0x0⟩, ⟨21, 16, .ro, 0x0⟩]⟩,
    ⟨"TICK_LEDGER_REJECTS", 0x010134, 0x4000000, 1, 0x4000000, 1, false,
      [⟨31, 0, .rc, 0x0⟩]⟩,
    ⟨"TICK_SHED", 0x010140, 0x4000000, 1, 0x4000000, 1, false,
      [⟨2, 0, .ro, 0x0⟩, ⟨7, 4, .ro, 0x0⟩, ⟨15, 8, .ro, 0x0⟩]⟩,
    ⟨"TICK_COUNT", 0x010030, 0x4000000, 1, 0x4000000, 1, true,
      [⟨47, 0, .ro, 0x0⟩]⟩,
    ⟨"TICK_EDGE_TIME", 0x010038, 0x4000000, 1, 0x4000000, 1, true,
      [⟨63, 0, .ro, 0x0⟩]⟩,
    ⟨"TICK_DEVICE_TIME", 0x010040, 0x4000000, 1, 0x4000000, 1, true,
      [⟨63, 0, .ro, 0x0⟩]⟩,
    ⟨"TICK_GPTP_INDEX", 0x010048, 0x4000000, 1, 0x4000000, 1, true,
      [⟨47, 0, .ro, 0x0⟩]⟩,
    ⟨"TICK_LEDGER_USE", 0x010110, 0x4, 6, 0x4000000, 1, false,
      [⟨15, 0, .ro, 0x0⟩]⟩ ]

/-- Every register of block TICK. -/
def regRowsTICK : List RegRow := regRowsTICK0

/-! ### Block HIF -/

def HIF_CFG.NOTICE_EVR : Fld := ⟨0x020000, 2, 0⟩
def HIF_CFG.CPL_TIMEOUT : Fld := ⟨0x020000, 7, 4⟩
def HIF_CFG.BULK_SHARE : Fld := ⟨0x020000, 10, 8⟩
def HIF_STATUS.LINK_UP : Fld := ⟨0x020004, 0, 0⟩
def HIF_STATUS.SPEED : Fld := ⟨0x020004, 3, 1⟩
def HIF_STATUS.WIDTH : Fld := ⟨0x020004, 7, 4⟩
def HIF_STATUS.FLR_COUNT : Fld := ⟨0x020004, 23, 16⟩
def HIF_STATUS.RESET_COUNT : Fld := ⟨0x020004, 31, 24⟩
def HIF_DB_ERRORS.REFUSED : Fld := ⟨0x020008, 15, 0⟩
def HIF_DB_ERRORS.STRAY : Fld := ⟨0x020008, 31, 16⟩
def HIF_READ_ERRORS.DESC : Fld := ⟨0x02000C, 15, 0⟩
def HIF_READ_ERRORS.DATA : Fld := ⟨0x02000C, 31, 16⟩
def HIF_CR_BASE.ADDR (i : Nat) : Fld := ⟨0x021000 + 0x40 * i, 63, 12⟩
def HIF_CR_HEAD_WB.ENABLE (i : Nat) : Fld := ⟨0x021008 + 0x40 * i, 0, 0⟩
def HIF_CR_HEAD_WB.ADDR (i : Nat) : Fld := ⟨0x021008 + 0x40 * i, 63, 2⟩
def HIF_CR_CFG.ENABLE (i : Nat) : Fld := ⟨0x021010 + 0x40 * i, 0, 0⟩
def HIF_CR_CFG.CLASS (i : Nat) : Fld := ⟨0x021010 + 0x40 * i, 2, 1⟩
def HIF_CR_CFG.SIZE_LOG2 (i : Nat) : Fld := ⟨0x021010 + 0x40 * i, 6, 3⟩
def HIF_CR_CFG.EVR (i : Nat) : Fld := ⟨0x021010 + 0x40 * i, 10, 8⟩
def HIF_CR_CFG.RESTART (i : Nat) : Fld := ⟨0x021010 + 0x40 * i, 16, 16⟩
def HIF_CR_STATUS.ACTIVE (i : Nat) : Fld := ⟨0x021014 + 0x40 * i, 0, 0⟩
def HIF_CR_STATUS.HALTED (i : Nat) : Fld := ⟨0x021014 + 0x40 * i, 1, 1⟩
def HIF_CR_STATUS.CFG_ERROR (i : Nat) : Fld := ⟨0x021014 + 0x40 * i, 2, 2⟩
def HIF_CR_STATUS.WAITING (i : Nat) : Fld := ⟨0x021014 + 0x40 * i, 3, 3⟩
def HIF_CR_STATUS.LAST_CODE (i : Nat) : Fld := ⟨0x021014 + 0x40 * i, 15, 8⟩
def HIF_CR_TAIL.TAIL (i : Nat) : Fld := ⟨0x021018 + 0x40 * i, 31, 0⟩
def HIF_CR_EXEC.EXEC (i : Nat) : Fld := ⟨0x02101C + 0x40 * i, 31, 0⟩
def HIF_EVR_BASE.ADDR (i : Nat) : Fld := ⟨0x022000 + 0x40 * i, 63, 12⟩
def HIF_EVR_HEAD_ADDR.ADDR (i : Nat) : Fld := ⟨0x022008 + 0x40 * i, 63, 2⟩
def HIF_EVR_CFG.ENABLE (i : Nat) : Fld := ⟨0x022010 + 0x40 * i, 0, 0⟩
def HIF_EVR_CFG.SIZE_LOG2 (i : Nat) : Fld := ⟨0x022010 + 0x40 * i, 4, 1⟩
def HIF_EVR_CFG.IRQ_SEV (i : Nat) : Fld := ⟨0x022010 + 0x40 * i, 6, 5⟩
def HIF_EVR_STATUS.ACTIVE (i : Nat) : Fld := ⟨0x022014 + 0x40 * i, 0, 0⟩
def HIF_EVR_STATUS.HEAD_ERROR (i : Nat) : Fld := ⟨0x022014 + 0x40 * i, 1, 1⟩
def HIF_EVR_STATUS.RESERVE_STALLS (i : Nat) : Fld := ⟨0x022014 + 0x40 * i, 31, 16⟩
def HIF_EVR_PRODUCED.PRODUCED (i : Nat) : Fld := ⟨0x022018 + 0x40 * i, 31, 0⟩
def HIF_EVR_CONSUMED.CONSUMED (i : Nat) : Fld := ⟨0x02201C + 0x40 * i, 31, 0⟩

def regRowsHIF0 : List RegRow :=
  [ ⟨"HIF_CFG", 0x020000, 0x4000000, 1, 0x4000000, 1, false,
      [⟨2, 0, .rw, 0x0⟩, ⟨7, 4, .rw, 0x5⟩, ⟨10, 8, .rw, 0x7⟩]⟩,
    ⟨"HIF_STATUS", 0x020004, 0x4000000, 1, 0x4000000, 1, false,
      [⟨0, 0, .ro, 0x0⟩, ⟨3, 1, .ro, 0x0⟩, ⟨7, 4, .ro, 0x0⟩, ⟨23, 16, .ro, 0x0⟩, ⟨31, 24, .ro, 0x0⟩]⟩,
    ⟨"HIF_DB_ERRORS", 0x020008, 0x4000000, 1, 0x4000000, 1, false,
      [⟨15, 0, .rc, 0x0⟩, ⟨31, 16, .rc, 0x0⟩]⟩,
    ⟨"HIF_READ_ERRORS", 0x02000C, 0x4000000, 1, 0x4000000, 1, false,
      [⟨15, 0, .rc, 0x0⟩, ⟨31, 16, .rc, 0x0⟩]⟩,
    ⟨"HIF_CR_BASE", 0x021000, 0x40, 64, 0x4000000, 1, true,
      [⟨63, 12, .rw, 0x0⟩]⟩,
    ⟨"HIF_CR_HEAD_WB", 0x021008, 0x40, 64, 0x4000000, 1, true,
      [⟨0, 0, .rw, 0x0⟩, ⟨63, 2, .rw, 0x0⟩]⟩,
    ⟨"HIF_CR_CFG", 0x021010, 0x40, 64, 0x4000000, 1, false,
      [⟨0, 0, .act, 0x0⟩, ⟨2, 1, .rw, 0x1⟩, ⟨6, 3, .rw, 0x4⟩, ⟨10, 8, .rw, 0x0⟩, ⟨16, 16, .wo, 0x0⟩]⟩,
    ⟨"HIF_CR_STATUS", 0x021014, 0x40, 64, 0x4000000, 1, false,
      [⟨0, 0, .ro, 0x0⟩, ⟨1, 1, .ro, 0x0⟩, ⟨2, 2, .ro, 0x0⟩, ⟨3, 3, .ro, 0x0⟩, ⟨15, 8, .ro, 0x0⟩]⟩,
    ⟨"HIF_CR_TAIL", 0x021018, 0x40, 64, 0x4000000, 1, false,
      [⟨31, 0, .ro, 0x0⟩]⟩,
    ⟨"HIF_CR_EXEC", 0x02101C, 0x40, 64, 0x4000000, 1, false,
      [⟨31, 0, .ro, 0x0⟩]⟩,
    ⟨"HIF_EVR_BASE", 0x022000, 0x40, 8, 0x4000000, 1, true,
      [⟨63, 12, .rw, 0x0⟩]⟩,
    ⟨"HIF_EVR_HEAD_ADDR", 0x022008, 0x40, 8, 0x4000000, 1, true,
      [⟨63, 2, .rw, 0x0⟩]⟩,
    ⟨"HIF_EVR_CFG", 0x022010, 0x40, 8, 0x4000000, 1, false,
      [⟨0, 0, .act, 0x0⟩, ⟨4, 1, .rw, 0x6⟩, ⟨6, 5, .rw, 0x2⟩]⟩,
    ⟨"HIF_EVR_STATUS", 0x022014, 0x40, 8, 0x4000000, 1, false,
      [⟨0, 0, .ro, 0x0⟩, ⟨1, 1, .ro, 0x0⟩, ⟨31, 16, .rc, 0x0⟩]⟩,
    ⟨"HIF_EVR_PRODUCED", 0x022018, 0x40, 8, 0x4000000, 1, false,
      [⟨31, 0, .ro, 0x0⟩]⟩,
    ⟨"HIF_EVR_CONSUMED", 0x02201C, 0x40, 8, 0x4000000, 1, false,
      [⟨31, 0, .ro, 0x0⟩]⟩ ]

/-- Every register of block HIF. -/
def regRowsHIF : List RegRow := regRowsHIF0

/-! ### Block IC -/

def IC_CFG.PRIGROUP : Fld := ⟨0x040000, 2, 0⟩
def IC_STATS.MSG_BAD : Fld := ⟨0x040004, 15, 0⟩
def IC_STATS.MSG_COUNT : Fld := ⟨0x040004, 31, 16⟩
def IC_MSG_DOORBELL.SOURCE : Fld := ⟨0x040008, 8, 0⟩
def IC_SRC_SET.SOURCE : Fld := ⟨0x04000C, 8, 0⟩
def IC_PEND.PENDING (i : Nat) : Fld := ⟨0x040100 + 0x4 * i, 31, 0⟩
def IC_ACTIVE.ACTIVE (i : Nat) : Fld := ⟨0x040200 + 0x4 * i, 31, 0⟩
def IC_TGT_CFG.KIND (i : Nat) : Fld := ⟨0x041000 + 0x20 * i, 0, 0⟩
def IC_TGT_CFG.VECTOR (i : Nat) : Fld := ⟨0x041000 + 0x20 * i, 6, 1⟩
def IC_TGT_CFG.ASLEEP (i : Nat) : Fld := ⟨0x041000 + 0x20 * i, 7, 7⟩
def IC_TGT_COAL.CO_COUNT (i : Nat) : Fld := ⟨0x041004 + 0x20 * i, 7, 0⟩
def IC_TGT_COAL.CO_TIME (i : Nat) : Fld := ⟨0x041004 + 0x20 * i, 25, 16⟩
def IC_TGT_CLAIM.SOURCE (i : Nat) : Fld := ⟨0x041008 + 0x20 * i, 8, 0⟩
def IC_TGT_CLAIM.COUNT (i : Nat) : Fld := ⟨0x041008 + 0x20 * i, 23, 16⟩
def IC_TGT_CLAIM.PRIORITY (i : Nat) : Fld := ⟨0x041008 + 0x20 * i, 31, 24⟩
def IC_TGT_COMPLETE.SOURCE (i : Nat) : Fld := ⟨0x04100C + 0x20 * i, 8, 0⟩
def IC_TGT_CTRL.RELEASE (i : Nat) : Fld := ⟨0x041010 + 0x20 * i, 0, 0⟩
def IC_TGT_STATE.RUNNING (i : Nat) : Fld := ⟨0x041014 + 0x20 * i, 8, 0⟩
def IC_TGT_STATE.DELIVERABLE (i : Nat) : Fld := ⟨0x041014 + 0x20 * i, 16, 16⟩
def IC_TGT_STATE.ARMED (i : Nat) : Fld := ⟨0x041014 + 0x20 * i, 17, 17⟩
def IC_TGT_STATE.ASSERTING (i : Nat) : Fld := ⟨0x041014 + 0x20 * i, 18, 18⟩
def IC_TGT_STATS.NOTIFY (i : Nat) : Fld := ⟨0x041018 + 0x20 * i, 15, 0⟩
def IC_TGT_STATS.BAD_COMPLETE (i : Nat) : Fld := ⟨0x041018 + 0x20 * i, 31, 16⟩
def IC_SRC_CFG.ENABLE (i : Nat) : Fld := ⟨0x042000 + 0x4 * i, 0, 0⟩
def IC_SRC_CFG.TARGET (i : Nat) : Fld := ⟨0x042000 + 0x4 * i, 4, 1⟩
def IC_SRC_CFG.PRIORITY (i : Nat) : Fld := ⟨0x042000 + 0x4 * i, 15, 8⟩
def IC_SRC_STATE.PENDING (i : Nat) : Fld := ⟨0x043000 + 0x4 * i, 0, 0⟩
def IC_SRC_STATE.ACTIVE (i : Nat) : Fld := ⟨0x043000 + 0x4 * i, 1, 1⟩
def IC_SRC_STATE.ACTIVE_TGT (i : Nat) : Fld := ⟨0x043000 + 0x4 * i, 5, 2⟩
def IC_SRC_STATE.COUNT (i : Nat) : Fld := ⟨0x043000 + 0x4 * i, 15, 8⟩

def regRowsIC0 : List RegRow :=
  [ ⟨"IC_SRC_STATE", 0x043000, 0x4, 384, 0x4000000, 1, false,
      [⟨0, 0, .ro, 0x0⟩, ⟨1, 1, .ro, 0x0⟩, ⟨5, 2, .ro, 0x0⟩, ⟨15, 8, .ro, 0x0⟩]⟩,
    ⟨"IC_CFG", 0x040000, 0x4000000, 1, 0x4000000, 1, false,
      [⟨2, 0, .rw, 0x4⟩]⟩,
    ⟨"IC_STATS", 0x040004, 0x4000000, 1, 0x4000000, 1, false,
      [⟨15, 0, .rc, 0x0⟩, ⟨31, 16, .rc, 0x0⟩]⟩,
    ⟨"IC_MSG_DOORBELL", 0x040008, 0x4000000, 1, 0x4000000, 1, false,
      [⟨8, 0, .wo, 0x0⟩]⟩,
    ⟨"IC_SRC_SET", 0x04000C, 0x4000000, 1, 0x4000000, 1, false,
      [⟨8, 0, .wo, 0x0⟩]⟩,
    ⟨"IC_PEND", 0x040100, 0x4, 12, 0x4000000, 1, false,
      [⟨31, 0, .act, 0x0⟩]⟩,
    ⟨"IC_ACTIVE", 0x040200, 0x4, 12, 0x4000000, 1, false,
      [⟨31, 0, .ro, 0x0⟩]⟩,
    ⟨"IC_TGT_CFG", 0x041000, 0x4000000, 1, 0x4000000, 1, false,
      [⟨0, 0, .rw, 0x0⟩, ⟨6, 1, .rw, 0x0⟩, ⟨7, 7, .act, 0x0⟩]⟩,
    ⟨"IC_TGT_CFG", 0x041020, 0x4000000, 1, 0x4000000, 1, false,
      [⟨0, 0, .rw, 0x0⟩, ⟨6, 1, .rw, 0x1⟩, ⟨7, 7, .act, 0x0⟩]⟩,
    ⟨"IC_TGT_CFG", 0x041040, 0x4000000, 1, 0x4000000, 1, false,
      [⟨0, 0, .rw, 0x0⟩, ⟨6, 1, .rw, 0x2⟩, ⟨7, 7, .act, 0x0⟩]⟩,
    ⟨"IC_TGT_CFG", 0x041060, 0x4000000, 1, 0x4000000, 1, false,
      [⟨0, 0, .rw, 0x0⟩, ⟨6, 1, .rw, 0x3⟩, ⟨7, 7, .act, 0x0⟩]⟩,
    ⟨"IC_TGT_CFG", 0x041080, 0x4000000, 1, 0x4000000, 1, false,
      [⟨0, 0, .rw, 0x0⟩, ⟨6, 1, .rw, 0x4⟩, ⟨7, 7, .act, 0x0⟩]⟩,
    ⟨"IC_TGT_CFG", 0x0410A0, 0x4000000, 1, 0x4000000, 1, false,
      [⟨0, 0, .rw, 0x0⟩, ⟨6, 1, .rw, 0x5⟩, ⟨7, 7, .act, 0x0⟩]⟩,
    ⟨"IC_TGT_CFG", 0x0410C0, 0x4000000, 1, 0x4000000, 1, false,
      [⟨0, 0, .rw, 0x0⟩, ⟨6, 1, .rw, 0x6⟩, ⟨7, 7, .act, 0x0⟩]⟩,
    ⟨"IC_TGT_CFG", 0x0410E0, 0x4000000, 1, 0x4000000, 1, false,
      [⟨0, 0, .rw, 0x0⟩, ⟨6, 1, .rw, 0x7⟩, ⟨7, 7, .act, 0x0⟩]⟩,
    ⟨"IC_TGT_CFG", 0x041100, 0x4000000, 1, 0x4000000, 1, false,
      [⟨0, 0, .rw, 0x0⟩, ⟨6, 1, .rw, 0x8⟩, ⟨7, 7, .act, 0x0⟩]⟩,
    ⟨"IC_TGT_CFG", 0x041120, 0x4000000, 1, 0x4000000, 1, false,
      [⟨0, 0, .rw, 0x0⟩, ⟨6, 1, .rw, 0x9⟩, ⟨7, 7, .act, 0x0⟩]⟩,
    ⟨"IC_TGT_CFG", 0x041140, 0x4000000, 1, 0x4000000, 1, false,
      [⟨0, 0, .rw, 0x0⟩, ⟨6, 1, .rw, 0xA⟩, ⟨7, 7, .act, 0x0⟩]⟩,
    ⟨"IC_TGT_CFG", 0x041160, 0x4000000, 1, 0x4000000, 1, false,
      [⟨0, 0, .rw, 0x0⟩, ⟨6, 1, .rw, 0xB⟩, ⟨7, 7, .act, 0x0⟩]⟩,
    ⟨"IC_TGT_CFG", 0x041180, 0x4000000, 1, 0x4000000, 1, false,
      [⟨0, 0, .rw, 0x0⟩, ⟨6, 1, .rw, 0xC⟩, ⟨7, 7, .act, 0x0⟩]⟩,
    ⟨"IC_TGT_CFG", 0x0411A0, 0x4000000, 1, 0x4000000, 1, false,
      [⟨0, 0, .rw, 0x0⟩, ⟨6, 1, .rw, 0xD⟩, ⟨7, 7, .act, 0x0⟩]⟩,
    ⟨"IC_TGT_CFG", 0x0411C0, 0x4000000, 1, 0x4000000, 1, false,
      [⟨0, 0, .rw, 0x0⟩, ⟨6, 1, .rw, 0xE⟩, ⟨7, 7, .act, 0x0⟩]⟩,
    ⟨"IC_TGT_CFG", 0x0411E0, 0x4000000, 1, 0x4000000, 1, false,
      [⟨0, 0, .rw, 0x0⟩, ⟨6, 1, .rw, 0xF⟩, ⟨7, 7, .act, 0x0⟩]⟩,
    ⟨"IC_TGT_COAL", 0x041004, 0x20, 16, 0x4000000, 1, false,
      [⟨7, 0, .rw, 0x1⟩, ⟨25, 16, .rw, 0x0⟩]⟩,
    ⟨"IC_TGT_CLAIM", 0x041008, 0x20, 16, 0x4000000, 1, false,
      [⟨8, 0, .ro, 0x1FF⟩, ⟨23, 16, .ro, 0x0⟩, ⟨31, 24, .ro, 0x0⟩]⟩ ]

def regRowsIC1 : List RegRow :=
  [ ⟨"IC_TGT_COMPLETE", 0x04100C, 0x20, 16, 0x4000000, 1, false,
      [⟨8, 0, .wo, 0x0⟩]⟩,
    ⟨"IC_TGT_CTRL", 0x041010, 0x20, 16, 0x4000000, 1, false,
      [⟨0, 0, .wo, 0x0⟩]⟩,
    ⟨"IC_TGT_STATE", 0x041014, 0x20, 16, 0x4000000, 1, false,
      [⟨8, 0, .ro, 0x100⟩, ⟨16, 16, .ro, 0x0⟩, ⟨17, 17, .ro, 0x1⟩, ⟨18, 18, .ro, 0x0⟩]⟩,
    ⟨"IC_TGT_STATS", 0x041018, 0x20, 16, 0x4000000, 1, false,
      [⟨15, 0, .rc, 0x0⟩, ⟨31, 16, .rc, 0x0⟩]⟩,
    ⟨"IC_SRC_CFG", 0x042000, 0x4, 8, 0x4000000, 1, false,
      [⟨0, 0, .rw, 0x1⟩, ⟨4, 1, .rw, 0x0⟩, ⟨15, 8, .rw, 0x10⟩]⟩,
    ⟨"IC_SRC_CFG", 0x042020, 0x4, 8, 0x4000000, 1, false,
      [⟨0, 0, .rw, 0x1⟩, ⟨4, 1, .rw, 0x0⟩, ⟨15, 8, .rw, 0x40⟩]⟩,
    ⟨"IC_SRC_CFG", 0x042040, 0x4, 64, 0x4000000, 1, false,
      [⟨0, 0, .rw, 0x1⟩, ⟨4, 1, .rw, 0x0⟩, ⟨15, 8, .rw, 0x20⟩]⟩,
    ⟨"IC_SRC_CFG", 0x042140, 0x4, 64, 0x4000000, 1, false,
      [⟨0, 0, .rw, 0x1⟩, ⟨4, 1, .rw, 0x0⟩, ⟨15, 8, .rw, 0x30⟩]⟩,
    ⟨"IC_SRC_CFG", 0x042240, 0x4, 64, 0x4000000, 1, false,
      [⟨0, 0, .rw, 0x1⟩, ⟨4, 1, .rw, 0x0⟩, ⟨15, 8, .rw, 0x60⟩]⟩,
    ⟨"IC_SRC_CFG", 0x042340, 0x4, 32, 0x4000000, 1, false,
      [⟨0, 0, .rw, 0x1⟩, ⟨4, 1, .rw, 0x0⟩, ⟨15, 8, .rw, 0x50⟩]⟩,
    ⟨"IC_SRC_CFG", 0x0423C0, 0x4, 16, 0x4000000, 1, false,
      [⟨0, 0, .rw, 0x1⟩, ⟨4, 1, .rw, 0x0⟩, ⟨15, 8, .rw, 0x70⟩]⟩,
    ⟨"IC_SRC_CFG", 0x042400, 0x4, 16, 0x4000000, 1, false,
      [⟨0, 0, .rw, 0x1⟩, ⟨4, 1, .rw, 0x0⟩, ⟨15, 8, .rw, 0x18⟩]⟩,
    ⟨"IC_SRC_CFG", 0x042440, 0x4, 16, 0x4000000, 1, false,
      [⟨0, 0, .rw, 0x1⟩, ⟨4, 1, .rw, 0x0⟩, ⟨15, 8, .rw, 0x20⟩]⟩,
    ⟨"IC_SRC_CFG", 0x042480, 0x4, 16, 0x4000000, 1, false,
      [⟨0, 0, .rw, 0x1⟩, ⟨4, 1, .rw, 0x0⟩, ⟨15, 8, .rw, 0x80⟩]⟩,
    ⟨"IC_SRC_CFG", 0x0424C0, 0x4, 16, 0x4000000, 1, false,
      [⟨0, 0, .rw, 0x1⟩, ⟨4, 1, .rw, 0x0⟩, ⟨15, 8, .rw, 0xFF⟩]⟩,
    ⟨"IC_SRC_CFG", 0x042500, 0x4, 64, 0x4000000, 1, false,
      [⟨0, 0, .rw, 0x1⟩, ⟨4, 1, .rw, 0x0⟩, ⟨15, 8, .rw, 0xC0⟩]⟩ ]

/-- Every register of block IC. -/
def regRowsIC : List RegRow := regRowsIC0 ++ regRowsIC1

/-! ### Block CMP -/

def CMP_DEFER_MAX.DEFER_MAX0 : Fld := ⟨0x080000, 3, 0⟩
def CMP_DEFER_MAX.DEFER_MAX1 : Fld := ⟨0x080000, 7, 4⟩
def CMP_DEFER_MAX.DEFER_MAX2 : Fld := ⟨0x080000, 11, 8⟩
def CMP_DEFER_MAX.DEFER_MAX3 : Fld := ⟨0x080000, 15, 12⟩
def CMP_DEFER_MAX.DEFER_MAX4 : Fld := ⟨0x080000, 19, 16⟩
def CMP_DEFER_MAX.DEFER_MAX5 : Fld := ⟨0x080000, 23, 20⟩
def CMP_DEFER_MAX.DEFER_MAX6 : Fld := ⟨0x080000, 27, 24⟩
def CMP_DEFER_MAX.DEFER_MAX7 : Fld := ⟨0x080000, 31, 28⟩
def CMP_STATUS.ENABLED : Fld := ⟨0x080004, 7, 0⟩
def CMP_STATUS.DEFERRED : Fld := ⟨0x080004, 15, 8⟩
def CMP_STATUS.FALLBACK : Fld := ⟨0x080004, 23, 16⟩
def CMP_STATUS.GUARD_ON : Fld := ⟨0x080004, 31, 24⟩
def CMP_AREA.AREA : Fld := ⟨0x080008, 27, 0⟩
def CMP_CV_SIZE.WIDTH (i : Nat) : Fld := ⟨0x080100 + 0x20 * i, 15, 0⟩
def CMP_CV_SIZE.HEIGHT (i : Nat) : Fld := ⟨0x080100 + 0x20 * i, 31, 16⟩
def CMP_CV_BASE.ADDR (i : Nat) : Fld := ⟨0x080108 + 0x20 * i, 63, 12⟩
def CMP_CV_STATE.DEFER_COUNT (i : Nat) : Fld := ⟨0x080110 + 0x20 * i, 3, 0⟩
def CMP_CV_STATE.LAYERS (i : Nat) : Fld := ⟨0x080110 + 0x20 * i, 8, 4⟩
def CMP_CV_STATE.OBJ_ENABLE (i : Nat) : Fld := ⟨0x080110 + 0x20 * i, 9, 9⟩
def CMP_CV_STATE.RESERVED (i : Nat) : Fld := ⟨0x080110 + 0x20 * i, 10, 10⟩
def CMP_CV_COUNTS.TAKEN (i : Nat) : Fld := ⟨0x080114 + 0x20 * i, 15, 0⟩
def CMP_CV_COUNTS.DEFERRALS (i : Nat) : Fld := ⟨0x080114 + 0x20 * i, 31, 16⟩
def CMP_CV_KEPT.KEPT (i : Nat) : Fld := ⟨0x080118 + 0x20 * i, 15, 0⟩
def CMP_CV_KEPT.FALLBACKS (i : Nat) : Fld := ⟨0x080118 + 0x20 * i, 31, 16⟩
def CMP_LAYER.CANVAS (i : Nat) : Fld := ⟨0x081000 + 0x10 * i, 2, 0⟩
def CMP_LAYER.ENABLE (i : Nat) : Fld := ⟨0x081000 + 0x10 * i, 3, 3⟩
def CMP_LAYER.SHED_RANK (i : Nat) : Fld := ⟨0x081000 + 0x10 * i, 7, 4⟩
def CMP_LAYER.Z (i : Nat) : Fld := ⟨0x081000 + 0x10 * i, 15, 8⟩
def CMP_LAYER.SURFACE (i : Nat) : Fld := ⟨0x081000 + 0x10 * i, 27, 16⟩
def CMP_LAYER.SHED (i : Nat) : Fld := ⟨0x081000 + 0x10 * i, 28, 28⟩
def CMP_LAYER.KEPT (i : Nat) : Fld := ⟨0x081000 + 0x10 * i, 29, 29⟩

def regRowsCMP0 : List RegRow :=
  [ ⟨"CMP_DEFER_MAX", 0x080000, 0x4000000, 1, 0x4000000, 1, false,
      [⟨3, 0, .rw, 0x1⟩, ⟨7, 4, .rw, 0x1⟩, ⟨11, 8, .rw, 0x1⟩, ⟨15, 12, .rw, 0x1⟩, ⟨19, 16, .rw, 0x1⟩, ⟨23, 20, .rw, 0x1⟩, ⟨27, 24, .rw, 0x1⟩, ⟨31, 28, .rw, 0x1⟩]⟩,
    ⟨"CMP_STATUS", 0x080004, 0x4000000, 1, 0x4000000, 1, false,
      [⟨7, 0, .ro, 0x0⟩, ⟨15, 8, .ro, 0x0⟩, ⟨23, 16, .ro, 0x0⟩, ⟨31, 24, .ro, 0x0⟩]⟩,
    ⟨"CMP_AREA", 0x080008, 0x4000000, 1, 0x4000000, 1, false,
      [⟨27, 0, .ro, 0x0⟩]⟩,
    ⟨"CMP_CV_SIZE", 0x080100, 0x20, 8, 0x4000000, 1, false,
      [⟨15, 0, .ro, 0x0⟩, ⟨31, 16, .ro, 0x0⟩]⟩,
    ⟨"CMP_CV_BASE", 0x080108, 0x20, 8, 0x4000000, 1, true,
      [⟨63, 12, .ro, 0x0⟩]⟩,
    ⟨"CMP_CV_STATE", 0x080110, 0x20, 8, 0x4000000, 1, false,
      [⟨3, 0, .ro, 0x0⟩, ⟨8, 4, .ro, 0x0⟩, ⟨9, 9, .ro, 0x0⟩, ⟨10, 10, .ro, 0x0⟩]⟩,
    ⟨"CMP_CV_COUNTS", 0x080114, 0x20, 8, 0x4000000, 1, false,
      [⟨15, 0, .rc, 0x0⟩, ⟨31, 16, .rc, 0x0⟩]⟩,
    ⟨"CMP_CV_KEPT", 0x080118, 0x20, 8, 0x4000000, 1, false,
      [⟨15, 0, .rc, 0x0⟩, ⟨31, 16, .rc, 0x0⟩]⟩,
    ⟨"CMP_LAYER", 0x081000, 0x10, 128, 0x4000000, 1, false,
      [⟨2, 0, .ro, 0x0⟩, ⟨3, 3, .ro, 0x0⟩, ⟨7, 4, .ro, 0x0⟩, ⟨15, 8, .ro, 0x0⟩, ⟨27, 16, .ro, 0x0⟩, ⟨28, 28, .ro, 0x0⟩, ⟨29, 29, .ro, 0x0⟩]⟩ ]

/-- Every register of block CMP. -/
def regRowsCMP : List RegRow := regRowsCMP0

/-! ### Block SCL -/

def SCL_STATUS.POOL_FREE : Fld := ⟨0x0C0000, 5, 0⟩
def SCL_STATUS.RESERVED : Fld := ⟨0x0C0000, 13, 8⟩
def SCL_STATUS.FENCED : Fld := ⟨0x0C0000, 21, 16⟩
def SCL_STATUS.TAPS4 : Fld := ⟨0x0C0000, 24, 24⟩
def SCL_FALLBACKS.FALLBACKS : Fld := ⟨0x0C0004, 15, 0⟩
def SCL_SCALER.RESERVED (i : Nat) : Fld := ⟨0x0C0100 + 0x4 * i, 0, 0⟩
def SCL_SCALER.FENCED (i : Nat) : Fld := ⟨0x0C0100 + 0x4 * i, 1, 1⟩
def SCL_SCALER.IN_USE (i : Nat) : Fld := ⟨0x0C0100 + 0x4 * i, 2, 2⟩
def SCL_SCALER.CANVAS (i : Nat) : Fld := ⟨0x0C0100 + 0x4 * i, 5, 3⟩
def SCL_SCALER.SLOT (i : Nat) : Fld := ⟨0x0C0100 + 0x4 * i, 12, 6⟩
def SCL_SCALER.ROLE (i : Nat) : Fld := ⟨0x0C0100 + 0x4 * i, 14, 13⟩
def SCL_SCALER.PART (i : Nat) : Fld := ⟨0x0C0100 + 0x4 * i, 16, 15⟩
def SCL_SCALER.KERNEL_H (i : Nat) : Fld := ⟨0x0C0100 + 0x4 * i, 20, 17⟩
def SCL_SCALER.KERNEL_V (i : Nat) : Fld := ⟨0x0C0100 + 0x4 * i, 24, 21⟩
def SCL_COEF_H.COEF_EVEN (i j : Nat) : Fld := ⟨0x0C8000 + 0x800 * i + 0x4 * j, 15, 0⟩
def SCL_COEF_H.COEF_ODD (i j : Nat) : Fld := ⟨0x0C8000 + 0x800 * i + 0x4 * j, 31, 16⟩
def SCL_COEF_V.COEF_EVEN (i j : Nat) : Fld := ⟨0x0C8400 + 0x800 * i + 0x4 * j, 15, 0⟩
def SCL_COEF_V.COEF_ODD (i j : Nat) : Fld := ⟨0x0C8400 + 0x800 * i + 0x4 * j, 31, 16⟩

def regRowsSCL0 : List RegRow :=
  [ ⟨"SCL_STATUS", 0x0C0000, 0x4000000, 1, 0x4000000, 1, false,
      [⟨5, 0, .ro, 0x20⟩, ⟨13, 8, .ro, 0x0⟩, ⟨21, 16, .ro, 0x0⟩, ⟨24, 24, .ro, 0x0⟩]⟩,
    ⟨"SCL_FALLBACKS", 0x0C0004, 0x4000000, 1, 0x4000000, 1, false,
      [⟨15, 0, .rc, 0x0⟩]⟩,
    ⟨"SCL_SCALER", 0x0C0100, 0x4, 32, 0x4000000, 1, false,
      [⟨0, 0, .ro, 0x0⟩, ⟨1, 1, .ro, 0x0⟩, ⟨2, 2, .ro, 0x0⟩, ⟨5, 3, .ro, 0x0⟩, ⟨12, 6, .ro, 0x0⟩, ⟨14, 13, .ro, 0x0⟩, ⟨16, 15, .ro, 0x0⟩, ⟨20, 17, .ro, 0x0⟩, ⟨24, 21, .ro, 0x0⟩]⟩,
    ⟨"SCL_COEF_H", 0x0C8000, 0x800, 32, 0x10, 64, false,
      [⟨15, 0, .ro, 0x0⟩, ⟨31, 16, .ro, 0x0⟩]⟩,
    ⟨"SCL_COEF_H", 0x0C8004, 0x800, 32, 0x10, 64, false,
      [⟨15, 0, .ro, 0x0⟩, ⟨31, 16, .ro, 0x100⟩]⟩,
    ⟨"SCL_COEF_H", 0x0C8008, 0x800, 32, 0x10, 64, false,
      [⟨15, 0, .ro, 0x0⟩, ⟨31, 16, .ro, 0x0⟩]⟩,
    ⟨"SCL_COEF_H", 0x0C800C, 0x800, 32, 0x10, 64, false,
      [⟨15, 0, .ro, 0x0⟩, ⟨31, 16, .ro, 0x0⟩]⟩,
    ⟨"SCL_COEF_V", 0x0C8400, 0x800, 32, 0xC, 64, false,
      [⟨15, 0, .ro, 0x0⟩, ⟨31, 16, .ro, 0x0⟩]⟩,
    ⟨"SCL_COEF_V", 0x0C8404, 0x800, 32, 0xC, 64, false,
      [⟨15, 0, .ro, 0x100⟩, ⟨31, 16, .ro, 0x0⟩]⟩,
    ⟨"SCL_COEF_V", 0x0C8408, 0x800, 32, 0xC, 64, false,
      [⟨15, 0, .ro, 0x0⟩, ⟨31, 16, .ro, 0x0⟩]⟩ ]

/-- Every register of block SCL. -/
def regRowsSCL : List RegRow := regRowsSCL0

/-! ### Block OBJ -/

def OBJ_STATUS.STAGED : Fld := ⟨0x100000, 13, 0⟩
def OBJ_STATUS.GUARDED : Fld := ⟨0x100000, 26, 16⟩
def OBJ_STATUS.MIRROR_FENCED : Fld := ⟨0x100000, 27, 27⟩
def OBJ_BANKS.FENCED : Fld := ⟨0x100004, 15, 0⟩
def OBJ_BANKS.REPAIRED : Fld := ⟨0x100004, 31, 16⟩
def OBJ_COUNTS.BATCHES : Fld := ⟨0x100008, 15, 0⟩
def OBJ_COUNTS.GUARD_DARK : Fld := ⟨0x100008, 31, 16⟩
def OBJ_ERRORS.PARITY : Fld := ⟨0x10000C, 15, 0⟩
def OBJ_ERRORS.MIRROR_USED : Fld := ⟨0x10000C, 31, 16⟩
def OBJ_CANVAS.VALID (i : Nat) : Fld := ⟨0x100100 + 0x4 * i, 18, 0⟩
def OBJ_CANVAS.GUARDED (i : Nat) : Fld := ⟨0x100100 + 0x4 * i, 29, 19⟩

def regRowsOBJ0 : List RegRow :=
  [ ⟨"OBJ_STATUS", 0x100000, 0x4000000, 1, 0x4000000, 1, false,
      [⟨13, 0, .ro, 0x0⟩, ⟨26, 16, .ro, 0x0⟩, ⟨27, 27, .ro, 0x0⟩]⟩,
    ⟨"OBJ_BANKS", 0x100004, 0x4000000, 1, 0x4000000, 1, false,
      [⟨15, 0, .ro, 0x0⟩, ⟨31, 16, .ro, 0x0⟩]⟩,
    ⟨"OBJ_COUNTS", 0x100008, 0x4000000, 1, 0x4000000, 1, false,
      [⟨15, 0, .rc, 0x0⟩, ⟨31, 16, .rc, 0x0⟩]⟩,
    ⟨"OBJ_ERRORS", 0x10000C, 0x4000000, 1, 0x4000000, 1, false,
      [⟨15, 0, .rc, 0x0⟩, ⟨31, 16, .rc, 0x0⟩]⟩,
    ⟨"OBJ_CANVAS", 0x100100, 0x4, 8, 0x4000000, 1, false,
      [⟨18, 0, .ro, 0x0⟩, ⟨29, 19, .ro, 0x0⟩]⟩ ]

/-- Every register of block OBJ. -/
def regRowsOBJ : List RegRow := regRowsOBJ0

/-! ### Block CNV -/

def CNV_CLONES.CLONE : Fld := ⟨0x140000, 31, 0⟩
def CNV_PORT_STATS.STALL_US (i : Nat) : Fld := ⟨0x140100 + 0x4 * i, 15, 0⟩
def CNV_PORT_STATS.LATE (i : Nat) : Fld := ⟨0x140100 + 0x4 * i, 31, 16⟩
def CNV_ENG_CFG.MODE (i : Nat) : Fld := ⟨0x141000 + 0x40 * i, 1, 0⟩
def CNV_ENG_CFG.CANVAS (i : Nat) : Fld := ⟨0x141000 + 0x40 * i, 4, 2⟩
def CNV_ENG_CFG.CLONE_SRC (i : Nat) : Fld := ⟨0x141000 + 0x40 * i, 9, 5⟩
def CNV_ENG_CFG.CLONE_DARK (i : Nat) : Fld := ⟨0x141000 + 0x40 * i, 10, 10⟩
def CNV_ENG_BBOX_X.LO (i : Nat) : Fld := ⟨0x141004 + 0x40 * i, 15, 0⟩
def CNV_ENG_BBOX_X.HI (i : Nat) : Fld := ⟨0x141004 + 0x40 * i, 31, 16⟩
def CNV_ENG_BBOX_Y.LO (i : Nat) : Fld := ⟨0x141008 + 0x40 * i, 15, 0⟩
def CNV_ENG_BBOX_Y.HI (i : Nat) : Fld := ⟨0x141008 + 0x40 * i, 31, 16⟩
def CNV_ENG_ZONE_LR.ZONE_A (i : Nat) : Fld := ⟨0x14100C + 0x40 * i, 11, 0⟩
def CNV_ENG_ZONE_LR.RAMP_A (i : Nat) : Fld := ⟨0x14100C + 0x40 * i, 13, 12⟩
def CNV_ENG_ZONE_LR.ZONE_B (i : Nat) : Fld := ⟨0x14100C + 0x40 * i, 27, 16⟩
def CNV_ENG_ZONE_LR.RAMP_B (i : Nat) : Fld := ⟨0x14100C + 0x40 * i, 29, 28⟩
def CNV_ENG_ZONE_TB.ZONE_A (i : Nat) : Fld := ⟨0x141010 + 0x40 * i, 11, 0⟩
def CNV_ENG_ZONE_TB.RAMP_A (i : Nat) : Fld := ⟨0x141010 + 0x40 * i, 13, 12⟩
def CNV_ENG_ZONE_TB.ZONE_B (i : Nat) : Fld := ⟨0x141010 + 0x40 * i, 27, 16⟩
def CNV_ENG_ZONE_TB.RAMP_B (i : Nat) : Fld := ⟨0x141010 + 0x40 * i, 29, 28⟩
def CNV_ENG_LIFT_RG.STEP_R (i : Nat) : Fld := ⟨0x141014 + 0x40 * i, 15, 0⟩
def CNV_ENG_LIFT_RG.STEP_G (i : Nat) : Fld := ⟨0x141014 + 0x40 * i, 31, 16⟩
def CNV_ENG_LIFT_B.STEP_B (i : Nat) : Fld := ⟨0x141018 + 0x40 * i, 15, 0⟩
def CNV_ENG_LIFT_B.LIFT_N (i : Nat) : Fld := ⟨0x141018 + 0x40 * i, 17, 16⟩
def CNV_ENG_MATRIX.COEF_EVEN (i j : Nat) : Fld := ⟨0x14101C + 0x40 * i + 0x4 * j, 15, 0⟩
def CNV_ENG_MATRIX.COEF_ODD (i j : Nat) : Fld := ⟨0x14101C + 0x40 * i + 0x4 * j, 31, 16⟩

def regRowsCNV0 : List RegRow :=
  [ ⟨"CNV_CLONES", 0x140000, 0x4000000, 1, 0x4000000, 1, false,
      [⟨31, 0, .ro, 0x0⟩]⟩,
    ⟨"CNV_PORT_STATS", 0x140100, 0x4, 16, 0x4000000, 1, false,
      [⟨15, 0, .rc, 0x0⟩, ⟨31, 16, .rc, 0x0⟩]⟩,
    ⟨"CNV_ENG_CFG", 0x141000, 0x40, 32, 0x4000000, 1, false,
      [⟨1, 0, .ro, 0x0⟩, ⟨4, 2, .ro, 0x0⟩, ⟨9, 5, .ro, 0x0⟩, ⟨10, 10, .ro, 0x0⟩]⟩,
    ⟨"CNV_ENG_BBOX_X", 0x141004, 0x40, 32, 0x4000000, 1, false,
      [⟨15, 0, .ro, 0x0⟩, ⟨31, 16, .ro, 0x0⟩]⟩,
    ⟨"CNV_ENG_BBOX_Y", 0x141008, 0x40, 32, 0x4000000, 1, false,
      [⟨15, 0, .ro, 0x0⟩, ⟨31, 16, .ro, 0x0⟩]⟩,
    ⟨"CNV_ENG_ZONE_LR", 0x14100C, 0x40, 32, 0x4000000, 1, false,
      [⟨11, 0, .ro, 0x0⟩, ⟨13, 12, .ro, 0x0⟩, ⟨27, 16, .ro, 0x0⟩, ⟨29, 28, .ro, 0x0⟩]⟩,
    ⟨"CNV_ENG_ZONE_TB", 0x141010, 0x40, 32, 0x4000000, 1, false,
      [⟨11, 0, .ro, 0x0⟩, ⟨13, 12, .ro, 0x0⟩, ⟨27, 16, .ro, 0x0⟩, ⟨29, 28, .ro, 0x0⟩]⟩,
    ⟨"CNV_ENG_LIFT_RG", 0x141014, 0x40, 32, 0x4000000, 1, false,
      [⟨15, 0, .ro, 0x0⟩, ⟨31, 16, .ro, 0x0⟩]⟩,
    ⟨"CNV_ENG_LIFT_B", 0x141018, 0x40, 32, 0x4000000, 1, false,
      [⟨15, 0, .ro, 0x0⟩, ⟨17, 16, .ro, 0x0⟩]⟩,
    ⟨"CNV_ENG_MATRIX", 0x14101C, 0x40, 32, 0x4000000, 1, false,
      [⟨15, 0, .ro, 0x4000⟩, ⟨31, 16, .ro, 0x0⟩]⟩,
    ⟨"CNV_ENG_MATRIX", 0x141020, 0x40, 32, 0x4000000, 1, false,
      [⟨15, 0, .ro, 0x0⟩, ⟨31, 16, .ro, 0x0⟩]⟩,
    ⟨"CNV_ENG_MATRIX", 0x141024, 0x40, 32, 0x4000000, 1, false,
      [⟨15, 0, .ro, 0x4000⟩, ⟨31, 16, .ro, 0x0⟩]⟩,
    ⟨"CNV_ENG_MATRIX", 0x141028, 0x40, 32, 0x4000000, 1, false,
      [⟨15, 0, .ro, 0x0⟩, ⟨31, 16, .ro, 0x0⟩]⟩,
    ⟨"CNV_ENG_MATRIX", 0x14102C, 0x40, 32, 0x4000000, 1, false,
      [⟨15, 0, .ro, 0x4000⟩]⟩ ]

/-- Every register of block CNV. -/
def regRowsCNV : List RegRow := regRowsCNV0

/-! ### Block SPN -/

def SPN_PORT_STATS.WRITE_STALL_US (i : Nat) : Fld := ⟨0x180000 + 0x1000 * i, 15, 0⟩
def SPN_CFG.PLANES (e : Nat) : Fld := ⟨0x180100 + 0x1000 * (e / 2) + 0x100 * (e % 2), 3, 0⟩
def SPN_CFG.DEPTH (e : Nat) : Fld := ⟨0x180100 + 0x1000 * (e / 2) + 0x100 * (e % 2), 7, 4⟩
def SPN_CFG.DITHER_ON (e : Nat) : Fld := ⟨0x180100 + 0x1000 * (e / 2) + 0x100 * (e % 2), 8, 8⟩
def SPN_CFG.DITHER_LOADED (e : Nat) : Fld := ⟨0x180100 + 0x1000 * (e / 2) + 0x100 * (e % 2), 9, 9⟩
def SPN_CFG.TEMPORAL (e : Nat) : Fld := ⟨0x180100 + 0x1000 * (e / 2) + 0x100 * (e % 2), 10, 10⟩
def SPN_CFG.MATRIX_FALLBACK (e : Nat) : Fld := ⟨0x180100 + 0x1000 * (e / 2) + 0x100 * (e % 2), 11, 11⟩
def SPN_CFG.SEED (e : Nat) : Fld := ⟨0x180100 + 0x1000 * (e / 2) + 0x100 * (e % 2), 27, 16⟩
def SPN_PLANE_BASE.ADDR (e : Nat) : Fld := ⟨0x180108 + 0x1000 * (e / 2) + 0x100 * (e % 2), 63, 12⟩
def SPN_DITHER_ADDR.ADDR (e : Nat) : Fld := ⟨0x180110 + 0x1000 * (e / 2) + 0x100 * (e % 2), 63, 6⟩
def SPN_LFSR.STATE (e : Nat) : Fld := ⟨0x180118 + 0x1000 * (e / 2) + 0x100 * (e % 2), 11, 0⟩
def SPN_CLASS.CLASS (e : Nat) : Fld := ⟨0x18011C + 0x1000 * (e / 2) + 0x100 * (e % 2), 2, 0⟩
def SPN_CLASS.STALE (e : Nat) : Fld := ⟨0x18011C + 0x1000 * (e / 2) + 0x100 * (e % 2), 3, 3⟩
def SPN_CLASS.RAW (e : Nat) : Fld := ⟨0x18011C + 0x1000 * (e / 2) + 0x100 * (e % 2), 6, 4⟩
def SPN_CLASS.SCORE (e : Nat) : Fld := ⟨0x18011C + 0x1000 * (e / 2) + 0x100 * (e % 2), 31, 16⟩
def SPN_LUMA_RG.WR (e : Nat) : Fld := ⟨0x180120 + 0x1000 * (e / 2) + 0x100 * (e % 2), 15, 0⟩
def SPN_LUMA_RG.WG (e : Nat) : Fld := ⟨0x180120 + 0x1000 * (e / 2) + 0x100 * (e % 2), 31, 16⟩
def SPN_LUMA_B.WB (e : Nat) : Fld := ⟨0x180124 + 0x1000 * (e / 2) + 0x100 * (e % 2), 15, 0⟩
def SPN_CLASS_CFG.HYST (e : Nat) : Fld := ⟨0x180128 + 0x1000 * (e / 2) + 0x100 * (e % 2), 15, 0⟩
def SPN_DITHER_IDX.INDEX (e : Nat) : Fld := ⟨0x180160 + 0x1000 * (e / 2) + 0x100 * (e % 2), 11, 0⟩
def SPN_DITHER_DATA.VALUE (e : Nat) : Fld := ⟨0x180164 + 0x1000 * (e / 2) + 0x100 * (e % 2), 11, 0⟩
def SPN_STATS.COMPLETE (e : Nat) : Fld := ⟨0x180168 + 0x1000 * (e / 2) + 0x100 * (e % 2), 15, 0⟩
def SPN_STATS.INCOMPLETE (e : Nat) : Fld := ⟨0x180168 + 0x1000 * (e / 2) + 0x100 * (e % 2), 31, 16⟩
def SPN_THR.THR_LO (e k : Nat) : Fld := ⟨0x180130 + 0x1000 * (e / 2) + 0x100 * (e % 2) + 4 * k, 15, 0⟩
def SPN_THR.THR_HI (e k : Nat) : Fld := ⟨0x180130 + 0x1000 * (e / 2) + 0x100 * (e % 2) + 4 * k, 31, 16⟩
def SPN_WT.WT_0 (e k : Nat) : Fld := ⟨0x180140 + 0x1000 * (e / 2) + 0x100 * (e % 2) + 4 * k, 7, 0⟩
def SPN_WT.WT_1 (e k : Nat) : Fld := ⟨0x180140 + 0x1000 * (e / 2) + 0x100 * (e % 2) + 4 * k, 15, 8⟩
def SPN_WT.WT_2 (e k : Nat) : Fld := ⟨0x180140 + 0x1000 * (e / 2) + 0x100 * (e % 2) + 4 * k, 23, 16⟩
def SPN_WT.WT_3 (e k : Nat) : Fld := ⟨0x180140 + 0x1000 * (e / 2) + 0x100 * (e % 2) + 4 * k, 31, 24⟩

def regRowsSPN0 : List RegRow :=
  [ ⟨"SPN_PORT_STATS", 0x180000, 0x1000, 16, 0x4000000, 1, false,
      [⟨15, 0, .rc, 0x0⟩]⟩,
    ⟨"SPN_CFG", 0x180100, 0x1000, 16, 0x100, 2, false,
      [⟨3, 0, .ro, 0x0⟩, ⟨7, 4, .ro, 0x0⟩, ⟨8, 8, .ro, 0x0⟩, ⟨9, 9, .ro, 0x0⟩, ⟨10, 10, .ro, 0x0⟩, ⟨11, 11, .ro, 0x0⟩, ⟨27, 16, .ro, 0x0⟩]⟩,
    ⟨"SPN_PLANE_BASE", 0x180108, 0x1000, 16, 0x100, 2, true,
      [⟨63, 12, .ro, 0x0⟩]⟩,
    ⟨"SPN_DITHER_ADDR", 0x180110, 0x1000, 16, 0x100, 2, true,
      [⟨63, 6, .ro, 0x0⟩]⟩,
    ⟨"SPN_LFSR", 0x180118, 0x1000, 16, 0x100, 2, false,
      [⟨11, 0, .ro, 0x0⟩]⟩,
    ⟨"SPN_CLASS", 0x18011C, 0x1000, 16, 0x100, 2, false,
      [⟨2, 0, .ro, 0x0⟩, ⟨3, 3, .ro, 0x0⟩, ⟨6, 4, .ro, 0x0⟩, ⟨31, 16, .ro, 0x0⟩]⟩,
    ⟨"SPN_LUMA_RG", 0x180120, 0x1000, 16, 0x100, 2, false,
      [⟨15, 0, .rw, 0x366D⟩, ⟨31, 16, .rw, 0xB717⟩]⟩,
    ⟨"SPN_LUMA_B", 0x180124, 0x1000, 16, 0x100, 2, false,
      [⟨15, 0, .rw, 0x127C⟩]⟩,
    ⟨"SPN_CLASS_CFG", 0x180128, 0x1000, 16, 0x100, 2, false,
      [⟨15, 0, .rw, 0x400⟩]⟩,
    ⟨"SPN_DITHER_IDX", 0x180160, 0x1000, 16, 0x100, 2, false,
      [⟨11, 0, .rw, 0x0⟩]⟩,
    ⟨"SPN_DITHER_DATA", 0x180164, 0x1000, 16, 0x100, 2, false,
      [⟨11, 0, .ro, 0x0⟩]⟩,
    ⟨"SPN_STATS", 0x180168, 0x1000, 16, 0x100, 2, false,
      [⟨15, 0, .rc, 0x0⟩, ⟨31, 16, .rc, 0x0⟩]⟩,
    ⟨"SPN_THR", 0x180130, 0x1000, 16, 0x100, 2, false,
      [⟨15, 0, .rw, 0x2000⟩, ⟨31, 16, .rw, 0x4000⟩]⟩,
    ⟨"SPN_THR", 0x180134, 0x1000, 16, 0x100, 2, false,
      [⟨15, 0, .rw, 0x6000⟩, ⟨31, 16, .rw, 0x8000⟩]⟩,
    ⟨"SPN_THR", 0x180138, 0x1000, 16, 0x100, 2, false,
      [⟨15, 0, .rw, 0xA000⟩, ⟨31, 16, .rw, 0xC000⟩]⟩,
    ⟨"SPN_THR", 0x18013C, 0x1000, 16, 0x100, 2, false,
      [⟨15, 0, .rw, 0xE000⟩]⟩,
    ⟨"SPN_WT", 0x180140, 0x1000, 16, 0x100, 2, false,
      [⟨7, 0, .rw, 0xFF⟩, ⟨15, 8, .rw, 0xEF⟩, ⟨23, 16, .rw, 0xDF⟩, ⟨31, 24, .rw, 0xCF⟩]⟩,
    ⟨"SPN_WT", 0x180144, 0x1000, 16, 0x100, 2, false,
      [⟨7, 0, .rw, 0xBF⟩, ⟨15, 8, .rw, 0xAF⟩, ⟨23, 16, .rw, 0x9F⟩, ⟨31, 24, .rw, 0x8F⟩]⟩,
    ⟨"SPN_WT", 0x180148, 0x1000, 16, 0x100, 2, false,
      [⟨7, 0, .rw, 0x7F⟩, ⟨15, 8, .rw, 0x6F⟩, ⟨23, 16, .rw, 0x5F⟩, ⟨31, 24, .rw, 0x4F⟩]⟩,
    ⟨"SPN_WT", 0x18014C, 0x1000, 16, 0x100, 2, false,
      [⟨7, 0, .rw, 0x3F⟩, ⟨15, 8, .rw, 0x2F⟩, ⟨23, 16, .rw, 0x1F⟩, ⟨31, 24, .rw, 0xF⟩]⟩,
    ⟨"SPN_WT", 0x180150, 0x1000, 16, 0x100, 2, false,
      [⟨7, 0, .rw, 0x0⟩, ⟨15, 8, .rw, 0x0⟩, ⟨23, 16, .rw, 0x0⟩, ⟨31, 24, .rw, 0x0⟩]⟩,
    ⟨"SPN_WT", 0x180154, 0x1000, 16, 0x100, 2, false,
      [⟨7, 0, .rw, 0x0⟩, ⟨15, 8, .rw, 0x0⟩, ⟨23, 16, .rw, 0x0⟩, ⟨31, 24, .rw, 0x0⟩]⟩,
    ⟨"SPN_WT", 0x180158, 0x1000, 16, 0x100, 2, false,
      [⟨7, 0, .rw, 0x0⟩, ⟨15, 8, .rw, 0x0⟩, ⟨23, 16, .rw, 0x0⟩, ⟨31, 24, .rw, 0x0⟩]⟩,
    ⟨"SPN_WT", 0x18015C, 0x1000, 16, 0x100, 2, false,
      [⟨7, 0, .rw, 0x0⟩, ⟨15, 8, .rw, 0x0⟩, ⟨23, 16, .rw, 0x0⟩, ⟨31, 24, .rw, 0x0⟩]⟩ ]

/-- Every register of block SPN. -/
def regRowsSPN : List RegRow := regRowsSPN0

/-! ### Block FLY -/

def FLY_PORT_STATUS.SPLIT (i : Nat) : Fld := ⟨0x1C0000 + 0x2000 * i, 0, 0⟩
def FLY_PORT_STATUS.LIT0 (i : Nat) : Fld := ⟨0x1C0000 + 0x2000 * i, 1, 1⟩
def FLY_PORT_STATUS.LIT1 (i : Nat) : Fld := ⟨0x1C0000 + 0x2000 * i, 2, 2⟩
def FLY_PORT_EGRESS.PEAK_KIB (i : Nat) : Fld := ⟨0x1C0004 + 0x2000 * i, 11, 0⟩
def FLY_ENG_CFG.ENABLE (e : Nat) : Fld := ⟨0x1C0100 + 0x2000 * (e / 2) + 0x100 * (e % 2), 0, 0⟩
def FLY_ENG_CFG.BANDS (e : Nat) : Fld := ⟨0x1C0100 + 0x2000 * (e / 2) + 0x100 * (e % 2), 5, 1⟩
def FLY_ENG_CFG.SUBPORT (e : Nat) : Fld := ⟨0x1C0100 + 0x2000 * (e / 2) + 0x100 * (e % 2), 6, 6⟩
def FLY_ENG_SIZE.WIDTH (e : Nat) : Fld := ⟨0x1C0104 + 0x2000 * (e / 2) + 0x100 * (e % 2), 15, 0⟩
def FLY_ENG_SIZE.HEIGHT (e : Nat) : Fld := ⟨0x1C0104 + 0x2000 * (e / 2) + 0x100 * (e % 2), 31, 16⟩
def FLY_ENG_TIMING.T_BAND (e : Nat) : Fld := ⟨0x1C0108 + 0x2000 * (e / 2) + 0x100 * (e % 2), 15, 0⟩
def FLY_ENG_STATE.VARIANT (e : Nat) : Fld := ⟨0x1C010C + 0x2000 * (e / 2) + 0x100 * (e % 2), 2, 0⟩
def FLY_ENG_STATE.CLASS (e : Nat) : Fld := ⟨0x1C010C + 0x2000 * (e / 2) + 0x100 * (e % 2), 5, 3⟩
def FLY_ENG_STATE.SHALLOW (e : Nat) : Fld := ⟨0x1C010C + 0x2000 * (e / 2) + 0x100 * (e % 2), 6, 6⟩
def FLY_ENG_STATE.PRESET (e : Nat) : Fld := ⟨0x1C010C + 0x2000 * (e / 2) + 0x100 * (e % 2), 7, 7⟩
def FLY_ENG_STATE.TABLE (e : Nat) : Fld := ⟨0x1C010C + 0x2000 * (e / 2) + 0x100 * (e % 2), 13, 8⟩
def FLY_ENG_STATE.DARK (e : Nat) : Fld := ⟨0x1C010C + 0x2000 * (e / 2) + 0x100 * (e % 2), 14, 14⟩
def FLY_ENG_STATE.DARK_REASON (e : Nat) : Fld := ⟨0x1C010C + 0x2000 * (e / 2) + 0x100 * (e % 2), 17, 15⟩
def FLY_ENG_STATE.ABORTED (e : Nat) : Fld := ⟨0x1C010C + 0x2000 * (e / 2) + 0x100 * (e % 2), 18, 18⟩
def FLY_ENG_TWIST.TABLE0 (e : Nat) : Fld := ⟨0x1C0110 + 0x2000 * (e / 2) + 0x100 * (e % 2), 5, 0⟩
def FLY_ENG_TWIST.TABLE1 (e : Nat) : Fld := ⟨0x1C0110 + 0x2000 * (e / 2) + 0x100 * (e % 2), 13, 8⟩
def FLY_ENG_TWIST.TABLE2 (e : Nat) : Fld := ⟨0x1C0110 + 0x2000 * (e / 2) + 0x100 * (e % 2), 21, 16⟩
def FLY_ENG_TWIST.TABLE3 (e : Nat) : Fld := ⟨0x1C0110 + 0x2000 * (e / 2) + 0x100 * (e % 2), 29, 24⟩
def FLY_ENG_TWIST.TABLE4 (e : Nat) : Fld := ⟨0x1C0110 + 0x2000 * (e / 2) + 0x100 * (e % 2), 37, 32⟩
def FLY_ENG_TWIST.TABLE5 (e : Nat) : Fld := ⟨0x1C0110 + 0x2000 * (e / 2) + 0x100 * (e % 2), 45, 40⟩
def FLY_ENG_TWIST.TABLE6 (e : Nat) : Fld := ⟨0x1C0110 + 0x2000 * (e / 2) + 0x100 * (e % 2), 53, 48⟩
def FLY_ENG_TWIST.TABLE7 (e : Nat) : Fld := ⟨0x1C0110 + 0x2000 * (e / 2) + 0x100 * (e % 2), 61, 56⟩
def FLY_ENG_TWIST.VALID0 (e : Nat) : Fld := ⟨0x1C0110 + 0x2000 * (e / 2) + 0x100 * (e % 2), 7, 7⟩
def FLY_ENG_TWIST.VALID1 (e : Nat) : Fld := ⟨0x1C0110 + 0x2000 * (e / 2) + 0x100 * (e % 2), 15, 15⟩
def FLY_ENG_TWIST.VALID2 (e : Nat) : Fld := ⟨0x1C0110 + 0x2000 * (e / 2) + 0x100 * (e % 2), 23, 23⟩
def FLY_ENG_TWIST.VALID3 (e : Nat) : Fld := ⟨0x1C0110 + 0x2000 * (e / 2) + 0x100 * (e % 2), 31, 31⟩
def FLY_ENG_TWIST.VALID4 (e : Nat) : Fld := ⟨0x1C0110 + 0x2000 * (e / 2) + 0x100 * (e % 2), 39, 39⟩
def FLY_ENG_TWIST.VALID5 (e : Nat) : Fld := ⟨0x1C0110 + 0x2000 * (e / 2) + 0x100 * (e % 2), 47, 47⟩
def FLY_ENG_TWIST.VALID6 (e : Nat) : Fld := ⟨0x1C0110 + 0x2000 * (e / 2) + 0x100 * (e % 2), 55, 55⟩
def FLY_ENG_TWIST.VALID7 (e : Nat) : Fld := ⟨0x1C0110 + 0x2000 * (e / 2) + 0x100 * (e % 2), 63, 63⟩
def FLY_ENG_TABLE_END.END (e : Nat) : Fld := ⟨0x1C0118 + 0x2000 * (e / 2) + 0x100 * (e % 2), 23, 0⟩
def FLY_ENG_FIRST_LIGHT.UNITS (e : Nat) : Fld := ⟨0x1C011C + 0x2000 * (e / 2) + 0x100 * (e % 2), 23, 0⟩
def FLY_ENG_STATS.ABORTS (e : Nat) : Fld := ⟨0x1C0120 + 0x2000 * (e / 2) + 0x100 * (e % 2), 15, 0⟩
def FLY_ENG_STATS.BLANKS (e : Nat) : Fld := ⟨0x1C0120 + 0x2000 * (e / 2) + 0x100 * (e % 2), 31, 16⟩
def FLY_ENG_LAST_ABORT.SLOT (e : Nat) : Fld := ⟨0x1C0124 + 0x2000 * (e / 2) + 0x100 * (e % 2), 7, 0⟩
def FLY_ENG_LAST_ABORT.TICK (e : Nat) : Fld := ⟨0x1C0124 + 0x2000 * (e / 2) + 0x100 * (e % 2), 23, 8⟩
def FLY_ENG_LAST_ABORT.CAUSE (e : Nat) : Fld := ⟨0x1C0124 + 0x2000 * (e / 2) + 0x100 * (e % 2), 24, 24⟩
def FLY_ENG_BLANKS.BANDS (e : Nat) : Fld := ⟨0x1C0128 + 0x2000 * (e / 2) + 0x100 * (e % 2), 15, 0⟩
def FLY_ENG_BLANKS.ENGINE_SIDE (e : Nat) : Fld := ⟨0x1C0128 + 0x2000 * (e / 2) + 0x100 * (e % 2), 31, 16⟩
def FLY_ENG_NOTCH.FIRED (e : Nat) : Fld := ⟨0x1C012C + 0x2000 * (e / 2) + 0x100 * (e % 2), 15, 0⟩
def FLY_ENG_NOTCH.CAPACITY (e : Nat) : Fld := ⟨0x1C012C + 0x2000 * (e / 2) + 0x100 * (e % 2), 20, 16⟩
def FLY_ENG_PRESET.PRESET (e : Nat) : Fld := ⟨0x1C0130 + 0x2000 * (e / 2) + 0x100 * (e % 2), 1, 0⟩
def FLY_ENG_PRESET.T (e : Nat) : Fld := ⟨0x1C0130 + 0x2000 * (e / 2) + 0x100 * (e % 2), 31, 8⟩
def FLY_TABLE.COUNT (i : Nat) : Fld := ⟨0x1C1800 + 0x10 * i, 8, 0⟩
def FLY_TABLE.BANDS (i : Nat) : Fld := ⟨0x1C1800 + 0x10 * i, 13, 9⟩
def FLY_TABLE.PLANES (i : Nat) : Fld := ⟨0x1C1800 + 0x10 * i, 17, 14⟩
def FLY_TABLE.LIT (i : Nat) : Fld := ⟨0x1C1800 + 0x10 * i, 21, 18⟩
def FLY_TABLE.IN_USE (i : Nat) : Fld := ⟨0x1C1800 + 0x10 * i, 22, 22⟩
def FLY_TABLE_END.END (i : Nat) : Fld := ⟨0x1C1804 + 0x10 * i, 23, 0⟩
def FLY_TABLE_FIRST_LIGHT.UNITS (i : Nat) : Fld := ⟨0x1C1808 + 0x10 * i, 23, 0⟩

def regRowsFLY0 : List RegRow :=
  [ ⟨"FLY_PORT_STATUS", 0x1C0000, 0x2000, 16, 0x4000000, 1, false,
      [⟨0, 0, .ro, 0x0⟩, ⟨1, 1, .ro, 0x0⟩, ⟨2, 2, .ro, 0x0⟩]⟩,
    ⟨"FLY_PORT_EGRESS", 0x1C0004, 0x2000, 16, 0x4000000, 1, false,
      [⟨11, 0, .rc, 0x0⟩]⟩,
    ⟨"FLY_ENG_CFG", 0x1C0100, 0x2000, 16, 0x100, 2, false,
      [⟨0, 0, .ro, 0x0⟩, ⟨5, 1, .ro, 0x1⟩, ⟨6, 6, .ro, 0x0⟩]⟩,
    ⟨"FLY_ENG_SIZE", 0x1C0104, 0x2000, 16, 0x100, 2, false,
      [⟨15, 0, .ro, 0x0⟩, ⟨31, 16, .ro, 0x0⟩]⟩,
    ⟨"FLY_ENG_TIMING", 0x1C0108, 0x2000, 16, 0x100, 2, false,
      [⟨15, 0, .ro, 0x0⟩]⟩,
    ⟨"FLY_ENG_STATE", 0x1C010C, 0x2000, 16, 0x100, 2, false,
      [⟨2, 0, .ro, 0x0⟩, ⟨5, 3, .ro, 0x0⟩, ⟨6, 6, .ro, 0x0⟩, ⟨7, 7, .ro, 0x0⟩, ⟨13, 8, .ro, 0x0⟩, ⟨14, 14, .ro, 0x1⟩, ⟨17, 15, .ro, 0x1⟩, ⟨18, 18, .ro, 0x0⟩]⟩,
    ⟨"FLY_ENG_TWIST", 0x1C0110, 0x2000, 16, 0x100, 2, true,
      [⟨5, 0, .ro, 0x0⟩, ⟨13, 8, .ro, 0x0⟩, ⟨21, 16, .ro, 0x0⟩, ⟨29, 24, .ro, 0x0⟩, ⟨37, 32, .ro, 0x0⟩, ⟨45, 40, .ro, 0x0⟩, ⟨53, 48, .ro, 0x0⟩, ⟨61, 56, .ro, 0x0⟩, ⟨7, 7, .ro, 0x0⟩, ⟨15, 15, .ro, 0x0⟩, ⟨23, 23, .ro, 0x0⟩, ⟨31, 31, .ro, 0x0⟩, ⟨39, 39, .ro, 0x0⟩, ⟨47, 47, .ro, 0x0⟩, ⟨55, 55, .ro, 0x0⟩, ⟨63, 63, .ro, 0x0⟩]⟩,
    ⟨"FLY_ENG_TABLE_END", 0x1C0118, 0x2000, 16, 0x100, 2, false,
      [⟨23, 0, .ro, 0x0⟩]⟩,
    ⟨"FLY_ENG_FIRST_LIGHT", 0x1C011C, 0x2000, 16, 0x100, 2, false,
      [⟨23, 0, .ro, 0x0⟩]⟩,
    ⟨"FLY_ENG_STATS", 0x1C0120, 0x2000, 16, 0x100, 2, false,
      [⟨15, 0, .rc, 0x0⟩, ⟨31, 16, .rc, 0x0⟩]⟩,
    ⟨"FLY_ENG_LAST_ABORT", 0x1C0124, 0x2000, 16, 0x100, 2, false,
      [⟨7, 0, .ro, 0x0⟩, ⟨23, 8, .ro, 0x0⟩, ⟨24, 24, .ro, 0x0⟩]⟩,
    ⟨"FLY_ENG_BLANKS", 0x1C0128, 0x2000, 16, 0x100, 2, false,
      [⟨15, 0, .rc, 0x0⟩, ⟨31, 16, .rc, 0x0⟩]⟩,
    ⟨"FLY_ENG_NOTCH", 0x1C012C, 0x2000, 16, 0x100, 2, false,
      [⟨15, 0, .rc, 0x0⟩, ⟨20, 16, .ro, 0x5⟩]⟩,
    ⟨"FLY_ENG_PRESET", 0x1C0130, 0x2000, 16, 0x100, 2, false,
      [⟨1, 0, .ro, 0x0⟩, ⟨31, 8, .ro, 0x0⟩]⟩,
    ⟨"FLY_TABLE", 0x1C1800, 0x10, 64, 0x4000000, 1, false,
      [⟨8, 0, .ro, 0x0⟩, ⟨13, 9, .ro, 0x0⟩, ⟨17, 14, .ro, 0x0⟩, ⟨21, 18, .ro, 0x0⟩, ⟨22, 22, .ro, 0x0⟩]⟩,
    ⟨"FLY_TABLE_END", 0x1C1804, 0x10, 64, 0x4000000, 1, false,
      [⟨23, 0, .ro, 0x0⟩]⟩,
    ⟨"FLY_TABLE_FIRST_LIGHT", 0x1C1808, 0x10, 64, 0x4000000, 1, false,
      [⟨23, 0, .ro, 0x0⟩]⟩ ]

/-- Every register of block FLY. -/
def regRowsFLY : List RegRow := regRowsFLY0

/-! ### Block SKN -/

def SKN_PORT_CFG.ENABLE (i : Nat) : Fld := ⟨0x200000 + 0x1000 * i, 0, 0⟩
def SKN_PORT_CFG.REPLAY_MAX (i : Nat) : Fld := ⟨0x200000 + 0x1000 * i, 3, 1⟩
def SKN_PORT_CFG.ID_LOCK (i : Nat) : Fld := ⟨0x200000 + 0x1000 * i, 4, 4⟩
def SKN_PORT_CFG.RS_INVERT (i : Nat) : Fld := ⟨0x200000 + 0x1000 * i, 5, 5⟩
def SKN_PORT_CFG.MSG_ENABLE (i : Nat) : Fld := ⟨0x200000 + 0x1000 * i, 6, 6⟩
def SKN_PORT_CFG.TX_INVERT (i : Nat) : Fld := ⟨0x200000 + 0x1000 * i, 10, 7⟩
def SKN_PORT_STATUS.STATE0 (i : Nat) : Fld := ⟨0x200004 + 0x1000 * i, 2, 0⟩
def SKN_PORT_STATUS.STATE1 (i : Nat) : Fld := ⟨0x200004 + 0x1000 * i, 5, 3⟩
def SKN_PORT_STATUS.SPLIT (i : Nat) : Fld := ⟨0x200004 + 0x1000 * i, 6, 6⟩
def SKN_PORT_STATUS.RS_LOCK (i : Nat) : Fld := ⟨0x200004 + 0x1000 * i, 7, 7⟩
def SKN_PORT_STATUS.PERMIT (i : Nat) : Fld := ⟨0x200004 + 0x1000 * i, 8, 8⟩
def SKN_PORT_CTRL.RETRAIN0 (i : Nat) : Fld := ⟨0x200008 + 0x1000 * i, 0, 0⟩
def SKN_PORT_CTRL.RETRAIN1 (i : Nat) : Fld := ⟨0x200008 + 0x1000 * i, 1, 1⟩
def SKN_PORT_CTRL.ACCEPT0 (i : Nat) : Fld := ⟨0x200008 + 0x1000 * i, 2, 2⟩
def SKN_PORT_CTRL.ACCEPT1 (i : Nat) : Fld := ⟨0x200008 + 0x1000 * i, 3, 3⟩
def SKN_PORT_REPLAY.REPLAYS (i : Nat) : Fld := ⟨0x20000C + 0x1000 * i, 15, 0⟩
def SKN_PORT_REPLAY.EXHAUSTED (i : Nat) : Fld := ⟨0x20000C + 0x1000 * i, 31, 16⟩
def SKN_PORT_LINK.RETRAINS (i : Nat) : Fld := ⟨0x200010 + 0x1000 * i, 15, 0⟩
def SKN_PORT_LINK.RS_LOSSES (i : Nat) : Fld := ⟨0x200010 + 0x1000 * i, 31, 16⟩
def SKN_PORT_RS_ERR.CODE_ERRORS (i : Nat) : Fld := ⟨0x200014 + 0x1000 * i, 15, 0⟩
def SKN_PORT_RS_ERR.CRC_ERRORS (i : Nat) : Fld := ⟨0x200014 + 0x1000 * i, 31, 16⟩
def SKN_PORT_DROPS.MSG_DROPPED (i : Nat) : Fld := ⟨0x200018 + 0x1000 * i, 15, 0⟩
def SKN_PORT_DROPS.UNKNOWN (i : Nat) : Fld := ⟨0x200018 + 0x1000 * i, 31, 16⟩
def SKN_ENG_STATUS.STATE (e : Nat) : Fld := ⟨0x200100 + 0x1000 * (e / 2) + 0x100 * (e % 2), 2, 0⟩
def SKN_ENG_STATUS.REASON (e : Nat) : Fld := ⟨0x200100 + 0x1000 * (e / 2) + 0x100 * (e % 2), 15, 8⟩
def SKN_ENG_STATUS.LOCK (e : Nat) : Fld := ⟨0x200100 + 0x1000 * (e / 2) + 0x100 * (e % 2), 19, 16⟩
def SKN_ENG_STATUS.ESTATE (e : Nat) : Fld := ⟨0x200100 + 0x1000 * (e / 2) + 0x100 * (e % 2), 22, 20⟩
def SKN_ENG_SERIAL.SERIAL (e : Nat) : Fld := ⟨0x200108 + 0x1000 * (e / 2) + 0x100 * (e % 2), 63, 0⟩
def SKN_ENG_IDENT0.MODEL (e : Nat) : Fld := ⟨0x200110 + 0x1000 * (e / 2) + 0x100 * (e % 2), 15, 0⟩
def SKN_ENG_IDENT0.FW (e : Nat) : Fld := ⟨0x200110 + 0x1000 * (e / 2) + 0x100 * (e % 2), 31, 16⟩
def SKN_ENG_IDENT1.MAX_W (e : Nat) : Fld := ⟨0x200114 + 0x1000 * (e / 2) + 0x100 * (e % 2), 15, 0⟩
def SKN_ENG_IDENT1.MAX_H (e : Nat) : Fld := ⟨0x200114 + 0x1000 * (e / 2) + 0x100 * (e % 2), 31, 16⟩
def SKN_ENG_IDENT2.MAX_BANDS (e : Nat) : Fld := ⟨0x200118 + 0x1000 * (e / 2) + 0x100 * (e % 2), 4, 0⟩
def SKN_ENG_IDENT2.STRANDS (e : Nat) : Fld := ⟨0x200118 + 0x1000 * (e / 2) + 0x100 * (e % 2), 7, 5⟩
def SKN_ENG_IDENT2.STRINGS (e : Nat) : Fld := ⟨0x200118 + 0x1000 * (e / 2) + 0x100 * (e % 2), 11, 8⟩
def SKN_ENG_IDENT2.SPARE (e : Nat) : Fld := ⟨0x200118 + 0x1000 * (e / 2) + 0x100 * (e % 2), 12, 12⟩
def SKN_ENG_IDENT2.SENSORS (e : Nat) : Fld := ⟨0x200118 + 0x1000 * (e / 2) + 0x100 * (e % 2), 19, 16⟩
def SKN_ENG_IDENT3.LATENCY_NS (e : Nat) : Fld := ⟨0x20011C + 0x1000 * (e / 2) + 0x100 * (e % 2), 15, 0⟩
def SKN_ENG_IDENT3.PROTOCOL (e : Nat) : Fld := ⟨0x20011C + 0x1000 * (e / 2) + 0x100 * (e % 2), 31, 16⟩
def SKN_ENG_ERRORS.NAKS (e : Nat) : Fld := ⟨0x200120 + 0x1000 * (e / 2) + 0x100 * (e % 2), 15, 0⟩
def SKN_ENG_ERRORS.LATE_NAKS (e : Nat) : Fld := ⟨0x200120 + 0x1000 * (e / 2) + 0x100 * (e % 2), 31, 16⟩
def SKN_ENG_EVENTS.EVENT_LOST (e : Nat) : Fld := ⟨0x200124 + 0x1000 * (e / 2) + 0x100 * (e % 2), 15, 0⟩
def SKN_ENG_EVENTS.LATE (e : Nat) : Fld := ⟨0x200124 + 0x1000 * (e / 2) + 0x100 * (e % 2), 31, 16⟩
def SKN_ENG_TEMP_A.ARRAY (e : Nat) : Fld := ⟨0x200128 + 0x1000 * (e / 2) + 0x100 * (e % 2), 15, 0⟩
def SKN_ENG_TEMP_A.LASER (e : Nat) : Fld := ⟨0x200128 + 0x1000 * (e / 2) + 0x100 * (e % 2), 31, 16⟩
def SKN_ENG_TEMP_B.DRIVER (e : Nat) : Fld := ⟨0x20012C + 0x1000 * (e / 2) + 0x100 * (e % 2), 15, 0⟩
def SKN_ENG_TEMP_B.SENSOR (e : Nat) : Fld := ⟨0x20012C + 0x1000 * (e / 2) + 0x100 * (e % 2), 31, 16⟩
def SKN_ENG_LAST_EVENT.CODE (e : Nat) : Fld := ⟨0x200130 + 0x1000 * (e / 2) + 0x100 * (e % 2), 7, 0⟩
def SKN_ENG_LAST_EVENT.ARG (e : Nat) : Fld := ⟨0x200130 + 0x1000 * (e / 2) + 0x100 * (e % 2), 31, 8⟩
def SKN_LSAFE_CFG.OUT_ENABLE : Fld := ⟨0x200F00, 0, 0⟩
def SKN_LSAFE_CFG.LATCH : Fld := ⟨0x200F00, 1, 1⟩
def SKN_LSAFE_CFG.HOLD_MS : Fld := ⟨0x200F00, 11, 2⟩
def SKN_LSAFE_STATUS.IN_OPEN : Fld := ⟨0x200F04, 0, 0⟩
def SKN_LSAFE_STATUS.PERMIT : Fld := ⟨0x200F04, 1, 1⟩
def SKN_LSAFE_STATUS.OUT : Fld := ⟨0x200F04, 2, 2⟩
def SKN_LSAFE_STATUS.AWAIT_RELEASE : Fld := ⟨0x200F04, 3, 3⟩
def SKN_LSAFE_CTRL.RELEASE : Fld := ⟨0x200F08, 0, 0⟩
def SKN_LSAFE_COUNT.OPENINGS : Fld := ⟨0x200F0C, 15, 0⟩

def regRowsSKN0 : List RegRow :=
  [ ⟨"SKN_PORT_CFG", 0x200000, 0x1000, 16, 0x4000000, 1, false,
      [⟨0, 0, .act, 0x0⟩, ⟨3, 1, .rw, 0x3⟩, ⟨4, 4, .rw, 0x0⟩, ⟨5, 5, .rw, 0x0⟩, ⟨6, 6, .rw, 0x0⟩, ⟨10, 7, .rw, 0x0⟩]⟩,
    ⟨"SKN_PORT_STATUS", 0x200004, 0x1000, 16, 0x4000000, 1, false,
      [⟨2, 0, .ro, 0x0⟩, ⟨5, 3, .ro, 0x0⟩, ⟨6, 6, .ro, 0x0⟩, ⟨7, 7, .ro, 0x0⟩, ⟨8, 8, .ro, 0x0⟩]⟩,
    ⟨"SKN_PORT_CTRL", 0x200008, 0x1000, 16, 0x4000000, 1, false,
      [⟨0, 0, .wo, 0x0⟩, ⟨1, 1, .wo, 0x0⟩, ⟨2, 2, .wo, 0x0⟩, ⟨3, 3, .wo, 0x0⟩]⟩,
    ⟨"SKN_PORT_REPLAY", 0x20000C, 0x1000, 16, 0x4000000, 1, false,
      [⟨15, 0, .rc, 0x0⟩, ⟨31, 16, .rc, 0x0⟩]⟩,
    ⟨"SKN_PORT_LINK", 0x200010, 0x1000, 16, 0x4000000, 1, false,
      [⟨15, 0, .rc, 0x0⟩, ⟨31, 16, .rc, 0x0⟩]⟩,
    ⟨"SKN_PORT_RS_ERR", 0x200014, 0x1000, 16, 0x4000000, 1, false,
      [⟨15, 0, .rc, 0x0⟩, ⟨31, 16, .rc, 0x0⟩]⟩,
    ⟨"SKN_PORT_DROPS", 0x200018, 0x1000, 16, 0x4000000, 1, false,
      [⟨15, 0, .rc, 0x0⟩, ⟨31, 16, .rc, 0x0⟩]⟩,
    ⟨"SKN_ENG_STATUS", 0x200100, 0x1000, 16, 0x100, 2, false,
      [⟨2, 0, .ro, 0x0⟩, ⟨15, 8, .ro, 0x0⟩, ⟨19, 16, .ro, 0x0⟩, ⟨22, 20, .ro, 0x0⟩]⟩,
    ⟨"SKN_ENG_SERIAL", 0x200108, 0x1000, 16, 0x100, 2, true,
      [⟨63, 0, .ro, 0x0⟩]⟩,
    ⟨"SKN_ENG_IDENT0", 0x200110, 0x1000, 16, 0x100, 2, false,
      [⟨15, 0, .ro, 0x0⟩, ⟨31, 16, .ro, 0x0⟩]⟩,
    ⟨"SKN_ENG_IDENT1", 0x200114, 0x1000, 16, 0x100, 2, false,
      [⟨15, 0, .ro, 0x0⟩, ⟨31, 16, .ro, 0x0⟩]⟩,
    ⟨"SKN_ENG_IDENT2", 0x200118, 0x1000, 16, 0x100, 2, false,
      [⟨4, 0, .ro, 0x0⟩, ⟨7, 5, .ro, 0x0⟩, ⟨11, 8, .ro, 0x0⟩, ⟨12, 12, .ro, 0x0⟩, ⟨19, 16, .ro, 0x0⟩]⟩,
    ⟨"SKN_ENG_IDENT3", 0x20011C, 0x1000, 16, 0x100, 2, false,
      [⟨15, 0, .ro, 0x0⟩, ⟨31, 16, .ro, 0x0⟩]⟩,
    ⟨"SKN_ENG_ERRORS", 0x200120, 0x1000, 16, 0x100, 2, false,
      [⟨15, 0, .rc, 0x0⟩, ⟨31, 16, .rc, 0x0⟩]⟩,
    ⟨"SKN_ENG_EVENTS", 0x200124, 0x1000, 16, 0x100, 2, false,
      [⟨15, 0, .rc, 0x0⟩, ⟨31, 16, .rc, 0x0⟩]⟩,
    ⟨"SKN_ENG_TEMP_A", 0x200128, 0x1000, 16, 0x100, 2, false,
      [⟨15, 0, .ro, 0x0⟩, ⟨31, 16, .ro, 0x0⟩]⟩,
    ⟨"SKN_ENG_TEMP_B", 0x20012C, 0x1000, 16, 0x100, 2, false,
      [⟨15, 0, .ro, 0x0⟩, ⟨31, 16, .ro, 0x0⟩]⟩,
    ⟨"SKN_ENG_LAST_EVENT", 0x200130, 0x1000, 16, 0x100, 2, false,
      [⟨7, 0, .ro, 0x0⟩, ⟨31, 8, .ro, 0x0⟩]⟩,
    ⟨"SKN_LSAFE_CFG", 0x200F00, 0x4000000, 1, 0x4000000, 1, false,
      [⟨0, 0, .rw, 0x1⟩, ⟨1, 1, .rw, 0x0⟩, ⟨11, 2, .rw, 0x64⟩]⟩,
    ⟨"SKN_LSAFE_STATUS", 0x200F04, 0x4000000, 1, 0x4000000, 1, false,
      [⟨0, 0, .ro, 0x1⟩, ⟨1, 1, .ro, 0x0⟩, ⟨2, 2, .ro, 0x0⟩, ⟨3, 3, .ro, 0x0⟩]⟩,
    ⟨"SKN_LSAFE_CTRL", 0x200F08, 0x4000000, 1, 0x4000000, 1, false,
      [⟨0, 0, .wo, 0x0⟩]⟩,
    ⟨"SKN_LSAFE_COUNT", 0x200F0C, 0x4000000, 1, 0x4000000, 1, false,
      [⟨15, 0, .rc, 0x0⟩]⟩ ]

/-- Every register of block SKN. -/
def regRowsSKN : List RegRow := regRowsSKN0

/-! ### Block LGT -/

def LGT_ENG_CFG.LOOP_ON (i : Nat) : Fld := ⟨0x240000 + 0x1000 * i, 0, 0⟩
def LGT_ENG_CFG.MATCH (i : Nat) : Fld := ⟨0x240000 + 0x1000 * i, 1, 1⟩
def LGT_ENG_CFG.GROUP (i : Nat) : Fld := ⟨0x240000 + 0x1000 * i, 4, 2⟩
def LGT_ENG_CFG.NOTCH_ENABLE (i : Nat) : Fld := ⟨0x240000 + 0x1000 * i, 5, 5⟩
def LGT_ENG_CFG.NOTCH_LEVEL (i : Nat) : Fld := ⟨0x240000 + 0x1000 * i, 8, 6⟩
def LGT_ENG_CFG.NOTCH_W (i : Nat) : Fld := ⟨0x240000 + 0x1000 * i, 12, 9⟩
def LGT_ENG_CFG.NOTCH_INTERVAL (i : Nat) : Fld := ⟨0x240000 + 0x1000 * i, 24, 14⟩
def LGT_ENG_STATUS.AT_LIMIT (i : Nat) : Fld := ⟨0x240004 + 0x1000 * i, 2, 0⟩
def LGT_ENG_STATUS.DRIVER_LOST (i : Nat) : Fld := ⟨0x240004 + 0x1000 * i, 3, 3⟩
def LGT_ENG_STATUS.SWITCH_PENDING (i : Nat) : Fld := ⟨0x240004 + 0x1000 * i, 4, 4⟩
def LGT_ENG_STATUS.TABLE_ID (i : Nat) : Fld := ⟨0x240004 + 0x1000 * i, 31, 16⟩
def LGT_ENG_COUNTS.SWITCHES (i : Nat) : Fld := ⟨0x240008 + 0x1000 * i, 15, 0⟩
def LGT_ENG_COUNTS.LATE_SWITCHES (i : Nat) : Fld := ⟨0x240008 + 0x1000 * i, 31, 16⟩
def LGT_ENG_DIAG.FAULT_COUNT (i : Nat) : Fld := ⟨0x24000C + 0x1000 * i, 3, 0⟩
def LGT_ENG_DIAG.I_OPEN_PCT (i : Nat) : Fld := ⟨0x24000C + 0x1000 * i, 10, 4⟩
def LGT_ENG_DIAG.V_OPEN_PCT (i : Nat) : Fld := ⟨0x24000C + 0x1000 * i, 18, 11⟩
def LGT_ENG_DIAG.SHORT_PCT (i : Nat) : Fld := ⟨0x24000C + 0x1000 * i, 25, 19⟩
def LGT_ENG_HEAT.HEAT_HOLD (i : Nat) : Fld := ⟨0x240010 + 0x1000 * i, 9, 0⟩
def LGT_BANK_TARGET.TARGET (i j : Nat) : Fld := ⟨0x240020 + 0x1000 * i + 0x10 * j, 31, 0⟩
def LGT_BANK_EFF.EFF (i j : Nat) : Fld := ⟨0x240024 + 0x1000 * i + 0x10 * j, 31, 0⟩
def LGT_BANK_MEAS.MEAS (i j : Nat) : Fld := ⟨0x240028 + 0x1000 * i + 0x10 * j, 31, 0⟩
def LGT_BANK_CMD.CMD (i j : Nat) : Fld := ⟨0x24002C + 0x1000 * i + 0x10 * j, 31, 0⟩
def LGT_BANK_LIMITS.CODE_MAX (i j : Nat) : Fld := ⟨0x240060 + 0x1000 * i + 0x4 * j, 11, 0⟩
def LGT_BANK_LIMITS.KB (i j : Nat) : Fld := ⟨0x240060 + 0x1000 * i + 0x4 * j, 23, 16⟩
def LGT_BANK_FS.FS_MA (i j : Nat) : Fld := ⟨0x240070 + 0x1000 * i + 0x4 * j, 15, 0⟩
def LGT_STR_STATUS.STATE (i j : Nat) : Fld := ⟨0x240100 + 0x1000 * i + 0x20 * j, 2, 0⟩
def LGT_STR_STATUS.VERIFIED (i j : Nat) : Fld := ⟨0x240100 + 0x1000 * i + 0x20 * j, 3, 3⟩
def LGT_STR_STATUS.SPARE_FOR (i j : Nat) : Fld := ⟨0x240100 + 0x1000 * i + 0x20 * j, 7, 4⟩
def LGT_STR_STATUS.K (i j : Nat) : Fld := ⟨0x240100 + 0x1000 * i + 0x20 * j, 15, 8⟩
def LGT_STR_STATUS.BAD_RUN (i j : Nat) : Fld := ⟨0x240100 + 0x1000 * i + 0x20 * j, 19, 16⟩
def LGT_STR_STATUS.AGE (i j : Nat) : Fld := ⟨0x240100 + 0x1000 * i + 0x20 * j, 31, 20⟩
def LGT_STR_CODES01.CODE_LO (i j : Nat) : Fld := ⟨0x240104 + 0x1000 * i + 0x20 * j, 11, 0⟩
def LGT_STR_CODES01.CODE_HI (i j : Nat) : Fld := ⟨0x240104 + 0x1000 * i + 0x20 * j, 27, 16⟩
def LGT_STR_CODES23.CODE_LO (i j : Nat) : Fld := ⟨0x240108 + 0x1000 * i + 0x20 * j, 11, 0⟩
def LGT_STR_CODES23.CODE_HI (i j : Nat) : Fld := ⟨0x240108 + 0x1000 * i + 0x20 * j, 27, 16⟩
def LGT_STR_CODES45.CODE_LO (i j : Nat) : Fld := ⟨0x24010C + 0x1000 * i + 0x20 * j, 11, 0⟩
def LGT_STR_CODES45.CODE_HI (i j : Nat) : Fld := ⟨0x24010C + 0x1000 * i + 0x20 * j, 27, 16⟩
def LGT_STR_CODES67.CODE_LO (i j : Nat) : Fld := ⟨0x240110 + 0x1000 * i + 0x20 * j, 11, 0⟩
def LGT_STR_CODES67.CODE_HI (i j : Nat) : Fld := ⟨0x240110 + 0x1000 * i + 0x20 * j, 27, 16⟩
def LGT_STR_TELEM.VOLT_MV (i j : Nat) : Fld := ⟨0x240114 + 0x1000 * i + 0x20 * j, 15, 0⟩
def LGT_STR_TELEM.CUR_MA (i j : Nat) : Fld := ⟨0x240114 + 0x1000 * i + 0x20 * j, 31, 16⟩
def LGT_STR_SHARE.SHARE (i j : Nat) : Fld := ⟨0x240118 + 0x1000 * i + 0x20 * j, 31, 0⟩
def LGT_STR_COUNTS.NOTCHES (i j : Nat) : Fld := ⟨0x24011C + 0x1000 * i + 0x20 * j, 15, 0⟩
def LGT_STR_COUNTS.BAD (i j : Nat) : Fld := ⟨0x24011C + 0x1000 * i + 0x20 * j, 31, 16⟩
def LGT_LOOP_CFG.LOOP_PERIOD : Fld := ⟨0x240F00, 7, 0⟩
def LGT_LOOP_CFG.SWITCH_LEAD : Fld := ⟨0x240F00, 11, 8⟩
def LGT_SWITCH_STATUS.SWITCH_ID : Fld := ⟨0x240F04, 15, 0⟩
def LGT_SWITCH_STATUS.TICK : Fld := ⟨0x240F04, 31, 16⟩
def LGT_GROUP.SIGMA (i : Nat) : Fld := ⟨0x240F10 + 0x4 * i, 16, 0⟩
def LGT_GROUP.LIMITER (i : Nat) : Fld := ⟨0x240F10 + 0x4 * i, 21, 17⟩
def LGT_GROUP.LIMITED (i : Nat) : Fld := ⟨0x240F10 + 0x4 * i, 22, 22⟩

def regRowsLGT0 : List RegRow :=
  [ ⟨"LGT_ENG_CFG", 0x240000, 0x1000, 32, 0x4000000, 1, false,
      [⟨0, 0, .ro, 0x1⟩, ⟨1, 1, .ro, 0x1⟩, ⟨4, 2, .ro, 0x0⟩, ⟨5, 5, .ro, 0x1⟩, ⟨8, 6, .ro, 0x0⟩, ⟨12, 9, .ro, 0x2⟩, ⟨24, 14, .ro, 0x10⟩]⟩,
    ⟨"LGT_ENG_STATUS", 0x240004, 0x1000, 32, 0x4000000, 1, false,
      [⟨2, 0, .ro, 0x0⟩, ⟨3, 3, .ro, 0x0⟩, ⟨4, 4, .ro, 0x0⟩, ⟨31, 16, .ro, 0x0⟩]⟩,
    ⟨"LGT_ENG_COUNTS", 0x240008, 0x1000, 32, 0x4000000, 1, false,
      [⟨15, 0, .rc, 0x0⟩, ⟨31, 16, .rc, 0x0⟩]⟩,
    ⟨"LGT_ENG_DIAG", 0x24000C, 0x1000, 32, 0x4000000, 1, false,
      [⟨3, 0, .ro, 0x3⟩, ⟨10, 4, .ro, 0x32⟩, ⟨18, 11, .ro, 0x7D⟩, ⟨25, 19, .ro, 0x4B⟩]⟩,
    ⟨"LGT_ENG_HEAT", 0x240010, 0x1000, 32, 0x4000000, 1, false,
      [⟨9, 0, .ro, 0x32⟩]⟩,
    ⟨"LGT_BANK_TARGET", 0x240020, 0x1000, 32, 0x10, 3, false,
      [⟨31, 0, .ro, 0x0⟩]⟩,
    ⟨"LGT_BANK_EFF", 0x240024, 0x1000, 32, 0x10, 3, false,
      [⟨31, 0, .ro, 0x0⟩]⟩,
    ⟨"LGT_BANK_MEAS", 0x240028, 0x1000, 32, 0x10, 3, false,
      [⟨31, 0, .ro, 0x0⟩]⟩,
    ⟨"LGT_BANK_CMD", 0x24002C, 0x1000, 32, 0x10, 3, false,
      [⟨31, 0, .ro, 0x0⟩]⟩,
    ⟨"LGT_BANK_LIMITS", 0x240060, 0x1000, 32, 0x4, 3, false,
      [⟨11, 0, .ro, 0xE66⟩, ⟨23, 16, .ro, 0x40⟩]⟩,
    ⟨"LGT_BANK_FS", 0x240070, 0x1000, 32, 0x4, 3, false,
      [⟨15, 0, .ro, 0x0⟩]⟩,
    ⟨"LGT_STR_STATUS", 0x240100, 0x1000, 32, 0x20, 27, false,
      [⟨2, 0, .ro, 0x0⟩, ⟨3, 3, .ro, 0x0⟩, ⟨7, 4, .ro, 0xF⟩, ⟨15, 8, .ro, 0x10⟩, ⟨19, 16, .ro, 0x0⟩, ⟨31, 20, .ro, 0x0⟩]⟩,
    ⟨"LGT_STR_CODES01", 0x240104, 0x1000, 32, 0x20, 27, false,
      [⟨11, 0, .ro, 0x0⟩, ⟨27, 16, .ro, 0x0⟩]⟩,
    ⟨"LGT_STR_CODES23", 0x240108, 0x1000, 32, 0x20, 27, false,
      [⟨11, 0, .ro, 0x0⟩, ⟨27, 16, .ro, 0x0⟩]⟩,
    ⟨"LGT_STR_CODES45", 0x24010C, 0x1000, 32, 0x20, 27, false,
      [⟨11, 0, .ro, 0x0⟩, ⟨27, 16, .ro, 0x0⟩]⟩,
    ⟨"LGT_STR_CODES67", 0x240110, 0x1000, 32, 0x20, 27, false,
      [⟨11, 0, .ro, 0x0⟩, ⟨27, 16, .ro, 0x0⟩]⟩,
    ⟨"LGT_STR_TELEM", 0x240114, 0x1000, 32, 0x20, 27, false,
      [⟨15, 0, .ro, 0x0⟩, ⟨31, 16, .ro, 0x0⟩]⟩,
    ⟨"LGT_STR_SHARE", 0x240118, 0x1000, 32, 0x20, 27, false,
      [⟨31, 0, .ro, 0x0⟩]⟩,
    ⟨"LGT_STR_COUNTS", 0x24011C, 0x1000, 32, 0x20, 27, false,
      [⟨15, 0, .rc, 0x0⟩, ⟨31, 16, .rc, 0x0⟩]⟩,
    ⟨"LGT_LOOP_CFG", 0x240F00, 0x4000000, 1, 0x4000000, 1, false,
      [⟨7, 0, .rw, 0x8⟩, ⟨11, 8, .rw, 0x3⟩]⟩,
    ⟨"LGT_SWITCH_STATUS", 0x240F04, 0x4000000, 1, 0x4000000, 1, false,
      [⟨15, 0, .ro, 0x0⟩, ⟨31, 16, .ro, 0x0⟩]⟩,
    ⟨"LGT_GROUP", 0x240F10, 0x4, 8, 0x4000000, 1, false,
      [⟨16, 0, .ro, 0x10000⟩, ⟨21, 17, .ro, 0x0⟩, ⟨22, 22, .ro, 0x0⟩]⟩ ]

/-- Every register of block LGT. -/
def regRowsLGT : List RegRow := regRowsLGT0

/-! ### Block CAL -/

def CAL_CFG.ENABLE : Fld := ⟨0x280000, 0, 0⟩
def CAL_CFG.LEND : Fld := ⟨0x280000, 1, 1⟩
def CAL_CFG.STEP : Fld := ⟨0x280000, 11, 4⟩
def CAL_CFG.REPEATS : Fld := ⟨0x280000, 14, 12⟩
def CAL_CFG.TIMEOUT : Fld := ⟨0x280000, 23, 16⟩
def CAL_FLASH_CFG.BASE : Fld := ⟨0x280004, 15, 0⟩
def CAL_STATUS.SLOT : Fld := ⟨0x280008, 1, 0⟩
def CAL_STATUS.DIRTY : Fld := ⟨0x280008, 2, 2⟩
def CAL_STATUS.STORE_CODE : Fld := ⟨0x280008, 15, 8⟩
def CAL_STATUS.RECORDS : Fld := ⟨0x280008, 21, 16⟩
def CAL_SEQ.SEQ : Fld := ⟨0x28000C, 31, 0⟩
def CAL_CLOCK.TIME : Fld := ⟨0x280010, 63, 0⟩
def CAL_COUNTS.COMPLETED : Fld := ⟨0x280018, 15, 0⟩
def CAL_COUNTS.ABANDONED : Fld := ⟨0x280018, 31, 16⟩
def CAL_SEL.ENGINE : Fld := ⟨0x280020, 4, 0⟩
def CAL_SEL.BANK : Fld := ⟨0x280020, 6, 5⟩
def CAL_SEL.STRING : Fld := ⟨0x280020, 10, 7⟩
def CAL_SEL.SENSOR : Fld := ⟨0x280020, 14, 11⟩
def CAL_SEL.POINT : Fld := ⟨0x280020, 17, 15⟩
def CAL_STR_STATE.TH : Fld := ⟨0x280024, 11, 0⟩
def CAL_STR_STATE.PROGRESS : Fld := ⟨0x280024, 14, 12⟩
def CAL_STR_STATE.SAMPLES : Fld := ⟨0x280024, 20, 15⟩
def CAL_STR_GAIN.G : Fld := ⟨0x280028, 31, 0⟩
def CAL_STR_INFO.COUNT : Fld := ⟨0x28002C, 15, 0⟩
def CAL_STR_INFO.T_RUN : Fld := ⟨0x28002C, 31, 16⟩
def CAL_STR_LAST.TIME : Fld := ⟨0x280030, 63, 0⟩
def CAL_RESP.RESP : Fld := ⟨0x280038, 23, 0⟩
def CAL_RESP_NOW.RESP : Fld := ⟨0x28003C, 23, 0⟩
def CAL_ENG_STATUS.RESP_LOADED : Fld := ⟨0x280040, 0, 0⟩
def CAL_ENG_STATUS.RECORD : Fld := ⟨0x280040, 1, 1⟩
def CAL_ENG_STATUS.BUSY : Fld := ⟨0x280040, 4, 2⟩
def CAL_ENG_STATUS.T_POINT : Fld := ⟨0x280040, 31, 16⟩

def regRowsCAL0 : List RegRow :=
  [ ⟨"CAL_CFG", 0x280000, 0x4000000, 1, 0x4000000, 1, false,
      [⟨0, 0, .rw, 0x1⟩, ⟨1, 1, .rw, 0x1⟩, ⟨11, 4, .rw, 0x40⟩, ⟨14, 12, .rw, 0x2⟩, ⟨23, 16, .rw, 0x10⟩]⟩,
    ⟨"CAL_FLASH_CFG", 0x280004, 0x4000000, 1, 0x4000000, 1, false,
      [⟨15, 0, .rw, 0x10⟩]⟩,
    ⟨"CAL_STATUS", 0x280008, 0x4000000, 1, 0x4000000, 1, false,
      [⟨1, 0, .ro, 0x3⟩, ⟨2, 2, .ro, 0x0⟩, ⟨15, 8, .ro, 0x0⟩, ⟨21, 16, .ro, 0x0⟩]⟩,
    ⟨"CAL_SEQ", 0x28000C, 0x4000000, 1, 0x4000000, 1, false,
      [⟨31, 0, .ro, 0x0⟩]⟩,
    ⟨"CAL_CLOCK", 0x280010, 0x4000000, 1, 0x4000000, 1, true,
      [⟨63, 0, .rw, 0x0⟩]⟩,
    ⟨"CAL_COUNTS", 0x280018, 0x4000000, 1, 0x4000000, 1, false,
      [⟨15, 0, .rc, 0x0⟩, ⟨31, 16, .rc, 0x0⟩]⟩,
    ⟨"CAL_SEL", 0x280020, 0x4000000, 1, 0x4000000, 1, false,
      [⟨4, 0, .rw, 0x0⟩, ⟨6, 5, .rw, 0x0⟩, ⟨10, 7, .rw, 0x0⟩, ⟨14, 11, .rw, 0x0⟩, ⟨17, 15, .rw, 0x0⟩]⟩,
    ⟨"CAL_STR_STATE", 0x280024, 0x4000000, 1, 0x4000000, 1, false,
      [⟨11, 0, .ro, 0x0⟩, ⟨14, 12, .ro, 0x0⟩, ⟨20, 15, .ro, 0x0⟩]⟩,
    ⟨"CAL_STR_GAIN", 0x280028, 0x4000000, 1, 0x4000000, 1, false,
      [⟨31, 0, .ro, 0x100000⟩]⟩,
    ⟨"CAL_STR_INFO", 0x28002C, 0x4000000, 1, 0x4000000, 1, false,
      [⟨15, 0, .ro, 0x0⟩, ⟨31, 16, .ro, 0x0⟩]⟩,
    ⟨"CAL_STR_LAST", 0x280030, 0x4000000, 1, 0x4000000, 1, true,
      [⟨63, 0, .ro, 0x0⟩]⟩,
    ⟨"CAL_RESP", 0x280038, 0x4000000, 1, 0x4000000, 1, false,
      [⟨23, 0, .ro, 0x100000⟩]⟩,
    ⟨"CAL_RESP_NOW", 0x28003C, 0x4000000, 1, 0x4000000, 1, false,
      [⟨23, 0, .ro, 0x100000⟩]⟩,
    ⟨"CAL_ENG_STATUS", 0x280040, 0x4000000, 1, 0x4000000, 1, false,
      [⟨0, 0, .ro, 0x0⟩, ⟨1, 1, .ro, 0x0⟩, ⟨4, 2, .ro, 0x0⟩, ⟨31, 16, .ro, 0x0⟩]⟩ ]

/-- Every register of block CAL. -/
def regRowsCAL : List RegRow := regRowsCAL0

/-! ### Block CBUS -/

def CBUS_CFG.ENABLE : Fld := ⟨0x290000, 0, 0⟩
def CBUS_CFG.NODE_ID : Fld := ⟨0x290000, 5, 1⟩
def CBUS_STATUS.PLCA_ACTIVE : Fld := ⟨0x290004, 0, 0⟩
def CBUS_STATUS.COORDINATOR : Fld := ⟨0x290004, 1, 1⟩
def CBUS_STATUS.CFG_CODE : Fld := ⟨0x290004, 15, 8⟩
def CBUS_STATUS.LOG_CLEAR : Fld := ⟨0x290004, 16, 16⟩
def CBUS_MAC_LO.MAC : Fld := ⟨0x290008, 31, 0⟩
def CBUS_MAC_HI.MAC : Fld := ⟨0x29000C, 15, 0⟩
def CBUS_PLCA.AUTO : Fld := ⟨0x290010, 0, 0⟩
def CBUS_PLCA.NODE_COUNT : Fld := ⟨0x290010, 7, 2⟩
def CBUS_PLCA.TO_TIMER : Fld := ⟨0x290010, 15, 8⟩
def CBUS_PLCA.BURST_CNT : Fld := ⟨0x290010, 18, 16⟩
def CBUS_PLCA.BURST_TIMER : Fld := ⟨0x290010, 31, 24⟩
def CBUS_TIMING.RETRY_MS : Fld := ⟨0x290014, 3, 0⟩
def CBUS_TIMING.TABLE_TRIES : Fld := ⟨0x290014, 6, 4⟩
def CBUS_ERRORS.FCS : Fld := ⟨0x290018, 11, 0⟩
def CBUS_ERRORS.COLLISIONS : Fld := ⟨0x290018, 19, 12⟩
def CBUS_ERRORS.DUP_COORD : Fld := ⟨0x290018, 23, 20⟩
def CBUS_ERRORS.CSMA_COLL : Fld := ⟨0x290018, 31, 24⟩
def CBUS_DROPS.STRANGER : Fld := ⟨0x29001C, 15, 0⟩
def CBUS_DROPS.REFUSED : Fld := ⟨0x29001C, 27, 16⟩
def CBUS_DROPS.LOG_FULL : Fld := ⟨0x29001C, 31, 28⟩
def CBUS_DELIVERY.TABLE_FAILS : Fld := ⟨0x290020, 7, 0⟩
def CBUS_DELIVERY.NO_BOARD : Fld := ⟨0x290020, 15, 8⟩
def CBUS_DELIVERY.RESYNCS : Fld := ⟨0x290020, 23, 16⟩
def CBUS_ALLOW_MAC_LO.MAC (i : Nat) : Fld := ⟨0x290100 + 0x10 * i, 31, 0⟩
def CBUS_ALLOW_MAC_HI.MAC (i : Nat) : Fld := ⟨0x290104 + 0x10 * i, 15, 0⟩
def CBUS_ALLOW_CFG.VALID (i : Nat) : Fld := ⟨0x290108 + 0x10 * i, 0, 0⟩
def CBUS_ALLOW_CFG.ROLE (i : Nat) : Fld := ⟨0x290108 + 0x10 * i, 2, 1⟩
def CBUS_ALLOW_CFG.NODE_ID (i : Nat) : Fld := ⟨0x290108 + 0x10 * i, 7, 3⟩
def CBUS_ALLOW_CFG.ENGINE (i : Nat) : Fld := ⟨0x290108 + 0x10 * i, 12, 8⟩
def CBUS_ALLOW_CFG.PAIR (i : Nat) : Fld := ⟨0x290108 + 0x10 * i, 13, 13⟩
def CBUS_ALLOW_CFG.MSG_OK (i : Nat) : Fld := ⟨0x290108 + 0x10 * i, 14, 14⟩
def CBUS_ALLOW_DATA.VALUE (i : Nat) : Fld := ⟨0x29010C + 0x10 * i, 15, 0⟩
def CBUS_ALLOW_DATA.TICK (i : Nat) : Fld := ⟨0x29010C + 0x10 * i, 31, 16⟩
def CBUS_LOG_MAC_LO.MAC (i : Nat) : Fld := ⟨0x290400 + 0x10 * i, 31, 0⟩
def CBUS_LOG_MAC_HI.MAC (i : Nat) : Fld := ⟨0x290404 + 0x10 * i, 15, 0⟩
def CBUS_LOG_MAC_HI.COUNT (i : Nat) : Fld := ⟨0x290404 + 0x10 * i, 31, 16⟩
def CBUS_LOG_TICK.TICK (i : Nat) : Fld := ⟨0x290408 + 0x10 * i, 31, 0⟩

def regRowsCBUS0 : List RegRow :=
  [ ⟨"CBUS_CFG", 0x290000, 0x4000000, 1, 0x4000000, 1, false,
      [⟨0, 0, .act, 0x0⟩, ⟨5, 1, .rw, 0x0⟩]⟩,
    ⟨"CBUS_STATUS", 0x290004, 0x4000000, 1, 0x4000000, 1, false,
      [⟨0, 0, .ro, 0x0⟩, ⟨1, 1, .ro, 0x0⟩, ⟨15, 8, .ro, 0x0⟩, ⟨16, 16, .wo, 0x0⟩]⟩,
    ⟨"CBUS_MAC_LO", 0x290008, 0x4000000, 1, 0x4000000, 1, false,
      [⟨31, 0, .rw, 0x0⟩]⟩,
    ⟨"CBUS_MAC_HI", 0x29000C, 0x4000000, 1, 0x4000000, 1, false,
      [⟨15, 0, .rw, 0x0⟩]⟩,
    ⟨"CBUS_PLCA", 0x290010, 0x4000000, 1, 0x4000000, 1, false,
      [⟨0, 0, .rw, 0x1⟩, ⟨7, 2, .rw, 0x8⟩, ⟨15, 8, .rw, 0x20⟩, ⟨18, 16, .rw, 0x0⟩, ⟨31, 24, .rw, 0x80⟩]⟩,
    ⟨"CBUS_TIMING", 0x290014, 0x4000000, 1, 0x4000000, 1, false,
      [⟨3, 0, .rw, 0x2⟩, ⟨6, 4, .rw, 0x4⟩]⟩,
    ⟨"CBUS_ERRORS", 0x290018, 0x4000000, 1, 0x4000000, 1, false,
      [⟨11, 0, .rc, 0x0⟩, ⟨19, 12, .rc, 0x0⟩, ⟨23, 20, .rc, 0x0⟩, ⟨31, 24, .rc, 0x0⟩]⟩,
    ⟨"CBUS_DROPS", 0x29001C, 0x4000000, 1, 0x4000000, 1, false,
      [⟨15, 0, .rc, 0x0⟩, ⟨27, 16, .rc, 0x0⟩, ⟨31, 28, .rc, 0x0⟩]⟩,
    ⟨"CBUS_DELIVERY", 0x290020, 0x4000000, 1, 0x4000000, 1, false,
      [⟨7, 0, .rc, 0x0⟩, ⟨15, 8, .rc, 0x0⟩, ⟨23, 16, .rc, 0x0⟩]⟩,
    ⟨"CBUS_ALLOW_MAC_LO", 0x290100, 0x10, 32, 0x4000000, 1, false,
      [⟨31, 0, .rw, 0x0⟩]⟩,
    ⟨"CBUS_ALLOW_MAC_HI", 0x290104, 0x10, 32, 0x4000000, 1, false,
      [⟨15, 0, .rw, 0x0⟩]⟩,
    ⟨"CBUS_ALLOW_CFG", 0x290108, 0x10, 32, 0x4000000, 1, false,
      [⟨0, 0, .act, 0x0⟩, ⟨2, 1, .rw, 0x0⟩, ⟨7, 3, .rw, 0x0⟩, ⟨12, 8, .rw, 0x0⟩, ⟨13, 13, .rw, 0x0⟩, ⟨14, 14, .rw, 0x0⟩]⟩,
    ⟨"CBUS_ALLOW_DATA", 0x29010C, 0x10, 32, 0x4000000, 1, false,
      [⟨15, 0, .ro, 0x0⟩, ⟨31, 16, .ro, 0x0⟩]⟩,
    ⟨"CBUS_LOG_MAC_LO", 0x290400, 0x10, 8, 0x4000000, 1, false,
      [⟨31, 0, .ro, 0x0⟩]⟩,
    ⟨"CBUS_LOG_MAC_HI", 0x290404, 0x10, 8, 0x4000000, 1, false,
      [⟨15, 0, .ro, 0x0⟩, ⟨31, 16, .ro, 0x0⟩]⟩,
    ⟨"CBUS_LOG_TICK", 0x290408, 0x10, 8, 0x4000000, 1, false,
      [⟨31, 0, .ro, 0x0⟩]⟩ ]

/-- Every register of block CBUS. -/
def regRowsCBUS : List RegRow := regRowsCBUS0

/-! ### Block BBN -/

def BBN_PORT_CFG.ENABLE (i : Nat) : Fld := ⟨0x2A0000 + 0x40 * i, 0, 0⟩
def BBN_PORT_CFG.FEC (i : Nat) : Fld := ⟨0x2A0000 + 0x40 * i, 2, 1⟩
def BBN_PORT_CFG.GPTP_ENABLE (i : Nat) : Fld := ⟨0x2A0000 + 0x40 * i, 3, 3⟩
def BBN_PORT_CFG.RX_INVERT (i : Nat) : Fld := ⟨0x2A0000 + 0x40 * i, 4, 4⟩
def BBN_PORT_CFG.TX_INVERT (i : Nat) : Fld := ⟨0x2A0000 + 0x40 * i, 5, 5⟩
def BBN_PORT_CFG.MAX_FRAME (i : Nat) : Fld := ⟨0x2A0000 + 0x40 * i, 29, 16⟩
def BBN_PORT_STATUS.LINK (i : Nat) : Fld := ⟨0x2A0004 + 0x40 * i, 0, 0⟩
def BBN_PORT_STATUS.BLOCK_LOCK (i : Nat) : Fld := ⟨0x2A0004 + 0x40 * i, 1, 1⟩
def BBN_PORT_STATUS.FEC_LOCK (i : Nat) : Fld := ⟨0x2A0004 + 0x40 * i, 2, 2⟩
def BBN_PORT_STATUS.AS_CAPABLE (i : Nat) : Fld := ⟨0x2A0004 + 0x40 * i, 3, 3⟩
def BBN_PORT_MAC_LO.MAC (i : Nat) : Fld := ⟨0x2A0008 + 0x40 * i, 31, 0⟩
def BBN_PORT_MAC_HI.MAC (i : Nat) : Fld := ⟨0x2A000C + 0x40 * i, 15, 0⟩
def BBN_PORT_RX.FRAMES (i : Nat) : Fld := ⟨0x2A0010 + 0x40 * i, 31, 0⟩
def BBN_PORT_DROPS.STRANGER (i : Nat) : Fld := ⟨0x2A0014 + 0x40 * i, 15, 0⟩
def BBN_PORT_DROPS.ERRORS (i : Nat) : Fld := ⟨0x2A0014 + 0x40 * i, 31, 16⟩
def BBN_PORT_FEC.CORRECTED (i : Nat) : Fld := ⟨0x2A0018 + 0x40 * i, 15, 0⟩
def BBN_PORT_FEC.UNCORRECTED (i : Nat) : Fld := ⟨0x2A0018 + 0x40 * i, 31, 16⟩
def BBN_GPTP_STATUS.STATE (i : Nat) : Fld := ⟨0x2A001C + 0x40 * i, 2, 0⟩
def BBN_GPTP_STATUS.LOG_SYNC (i : Nat) : Fld := ⟨0x2A001C + 0x40 * i, 15, 8⟩
def BBN_GPTP_OFFSET.OFFSET_NS (i : Nat) : Fld := ⟨0x2A0020 + 0x40 * i, 63, 0⟩
def BBN_GPTP_GM.CLOCK_ID (i : Nat) : Fld := ⟨0x2A0028 + 0x40 * i, 63, 0⟩
def BBN_GPTP_DELAY.LINK_DELAY_NS (i : Nat) : Fld := ⟨0x2A0030 + 0x40 * i, 15, 0⟩
def BBN_GPTP_DELAY.RATE (i : Nat) : Fld := ⟨0x2A0030 + 0x40 * i, 31, 16⟩
def BBN_BUF_STATUS.A_RESERVED_KIB : Fld := ⟨0x2A0100, 8, 0⟩
def BBN_BUF_STATUS.PEAK_KIB : Fld := ⟨0x2A0100, 23, 12⟩
def BBN_BUF_DROPS.CLASS_B : Fld := ⟨0x2A0104, 15, 0⟩
def BBN_BUF_DROPS.CLASS_C : Fld := ⟨0x2A0104, 31, 16⟩
def BBN_CLASS_A.WORST_NS : Fld := ⟨0x2A0108, 15, 0⟩
def BBN_CLASS_A.OVER : Fld := ⟨0x2A0108, 31, 16⟩
def BBN_SC_CFG.ENABLE (i : Nat) : Fld := ⟨0x2A1000 + 0x20 * i, 0, 0⟩
def BBN_SC_CFG.TYPE (i : Nat) : Fld := ⟨0x2A1000 + 0x20 * i, 2, 1⟩
def BBN_SC_CFG.ALT (i : Nat) : Fld := ⟨0x2A1000 + 0x20 * i, 3, 3⟩
def BBN_SC_CFG.EOF_IRQ (i : Nat) : Fld := ⟨0x2A1000 + 0x20 * i, 4, 4⟩
def BBN_SC_CFG.PT_CHECK (i : Nat) : Fld := ⟨0x2A1000 + 0x20 * i, 5, 5⟩
def BBN_SC_CFG.PT (i : Nat) : Fld := ⟨0x2A1000 + 0x20 * i, 12, 6⟩
def BBN_SC_CFG.SAMPLING (i : Nat) : Fld := ⟨0x2A1000 + 0x20 * i, 18, 16⟩
def BBN_SC_CFG.DEPTH10 (i : Nat) : Fld := ⟨0x2A1000 + 0x20 * i, 19, 19⟩
def BBN_SC_SURF.SURFACE_A (i : Nat) : Fld := ⟨0x2A1004 + 0x20 * i, 11, 0⟩
def BBN_SC_SURF.SURFACE_B (i : Nat) : Fld := ⟨0x2A1004 + 0x20 * i, 27, 16⟩
def BBN_SC_TIMING.FRAME_TIMEOUT_MS (i : Nat) : Fld := ⟨0x2A1008 + 0x20 * i, 7, 0⟩
def BBN_SC_STATUS.ACTIVE (i : Nat) : Fld := ⟨0x2A100C + 0x20 * i, 0, 0⟩
def BBN_SC_STATUS.IN_FRAME (i : Nat) : Fld := ⟨0x2A100C + 0x20 * i, 1, 1⟩
def BBN_SC_STATUS.LAST (i : Nat) : Fld := ⟨0x2A100C + 0x20 * i, 2, 2⟩
def BBN_SC_STATUS.HAVE_FRAME (i : Nat) : Fld := ⟨0x2A100C + 0x20 * i, 3, 3⟩
def BBN_SC_STATUS.AWAIT_KEY (i : Nat) : Fld := ⟨0x2A100C + 0x20 * i, 4, 4⟩
def BBN_SC_STATUS.CFG_CODE (i : Nat) : Fld := ⟨0x2A100C + 0x20 * i, 15, 8⟩
def BBN_SC_STATUS.LOST_CAUSE (i : Nat) : Fld := ⟨0x2A100C + 0x20 * i, 23, 16⟩
def BBN_SC_FRAMES.COMPLETE (i : Nat) : Fld := ⟨0x2A1010 + 0x20 * i, 15, 0⟩
def BBN_SC_FRAMES.LOST (i : Nat) : Fld := ⟨0x2A1010 + 0x20 * i, 31, 16⟩
def BBN_SC_DROPS.POLICED (i : Nat) : Fld := ⟨0x2A1014 + 0x20 * i, 15, 0⟩
def BBN_SC_DROPS.BUFFER (i : Nat) : Fld := ⟨0x2A1014 + 0x20 * i, 31, 16⟩

def regRowsBBN0 : List RegRow :=
  [ ⟨"BBN_PORT_CFG", 0x2A0000, 0x40, 2, 0x4000000, 1, false,
      [⟨0, 0, .act, 0x0⟩, ⟨2, 1, .act, 0x2⟩, ⟨3, 3, .rw, 0x0⟩, ⟨4, 4, .act, 0x0⟩, ⟨5, 5, .act, 0x0⟩, ⟨29, 16, .rw, 0x2400⟩]⟩,
    ⟨"BBN_PORT_STATUS", 0x2A0004, 0x40, 2, 0x4000000, 1, false,
      [⟨0, 0, .ro, 0x0⟩, ⟨1, 1, .ro, 0x0⟩, ⟨2, 2, .ro, 0x0⟩, ⟨3, 3, .ro, 0x0⟩]⟩,
    ⟨"BBN_PORT_MAC_LO", 0x2A0008, 0x40, 2, 0x4000000, 1, false,
      [⟨31, 0, .rw, 0x0⟩]⟩,
    ⟨"BBN_PORT_MAC_HI", 0x2A000C, 0x40, 2, 0x4000000, 1, false,
      [⟨15, 0, .rw, 0x0⟩]⟩,
    ⟨"BBN_PORT_RX", 0x2A0010, 0x40, 2, 0x4000000, 1, false,
      [⟨31, 0, .rc, 0x0⟩]⟩,
    ⟨"BBN_PORT_DROPS", 0x2A0014, 0x40, 2, 0x4000000, 1, false,
      [⟨15, 0, .rc, 0x0⟩, ⟨31, 16, .rc, 0x0⟩]⟩,
    ⟨"BBN_PORT_FEC", 0x2A0018, 0x40, 2, 0x4000000, 1, false,
      [⟨15, 0, .rc, 0x0⟩, ⟨31, 16, .rc, 0x0⟩]⟩,
    ⟨"BBN_GPTP_STATUS", 0x2A001C, 0x40, 2, 0x4000000, 1, false,
      [⟨2, 0, .ro, 0x0⟩, ⟨15, 8, .ro, 0x0⟩]⟩,
    ⟨"BBN_GPTP_OFFSET", 0x2A0020, 0x40, 2, 0x4000000, 1, true,
      [⟨63, 0, .ro, 0x0⟩]⟩,
    ⟨"BBN_GPTP_GM", 0x2A0028, 0x40, 2, 0x4000000, 1, true,
      [⟨63, 0, .ro, 0x0⟩]⟩,
    ⟨"BBN_GPTP_DELAY", 0x2A0030, 0x40, 2, 0x4000000, 1, false,
      [⟨15, 0, .ro, 0x0⟩, ⟨31, 16, .ro, 0x0⟩]⟩,
    ⟨"BBN_BUF_STATUS", 0x2A0100, 0x4000000, 1, 0x4000000, 1, false,
      [⟨8, 0, .ro, 0x0⟩, ⟨23, 12, .rc, 0x0⟩]⟩,
    ⟨"BBN_BUF_DROPS", 0x2A0104, 0x4000000, 1, 0x4000000, 1, false,
      [⟨15, 0, .rc, 0x0⟩, ⟨31, 16, .rc, 0x0⟩]⟩,
    ⟨"BBN_CLASS_A", 0x2A0108, 0x4000000, 1, 0x4000000, 1, false,
      [⟨15, 0, .rc, 0x0⟩, ⟨31, 16, .rc, 0x0⟩]⟩,
    ⟨"BBN_SC_CFG", 0x2A1000, 0x20, 256, 0x4000000, 1, false,
      [⟨0, 0, .act, 0x0⟩, ⟨2, 1, .rw, 0x0⟩, ⟨3, 3, .rw, 0x0⟩, ⟨4, 4, .rw, 0x0⟩, ⟨5, 5, .rw, 0x0⟩, ⟨12, 6, .rw, 0x0⟩, ⟨18, 16, .rw, 0x0⟩, ⟨19, 19, .rw, 0x0⟩]⟩,
    ⟨"BBN_SC_SURF", 0x2A1004, 0x20, 256, 0x4000000, 1, false,
      [⟨11, 0, .rw, 0x0⟩, ⟨27, 16, .rw, 0x0⟩]⟩,
    ⟨"BBN_SC_TIMING", 0x2A1008, 0x20, 256, 0x4000000, 1, false,
      [⟨7, 0, .rw, 0x64⟩]⟩,
    ⟨"BBN_SC_STATUS", 0x2A100C, 0x20, 256, 0x4000000, 1, false,
      [⟨0, 0, .ro, 0x0⟩, ⟨1, 1, .ro, 0x0⟩, ⟨2, 2, .ro, 0x0⟩, ⟨3, 3, .ro, 0x0⟩, ⟨4, 4, .ro, 0x0⟩, ⟨15, 8, .ro, 0x0⟩, ⟨23, 16, .ro, 0x0⟩]⟩,
    ⟨"BBN_SC_FRAMES", 0x2A1010, 0x20, 256, 0x4000000, 1, false,
      [⟨15, 0, .rc, 0x0⟩, ⟨31, 16, .rc, 0x0⟩]⟩,
    ⟨"BBN_SC_DROPS", 0x2A1014, 0x20, 256, 0x4000000, 1, false,
      [⟨15, 0, .rc, 0x0⟩, ⟨31, 16, .rc, 0x0⟩]⟩ ]

/-- Every register of block BBN. -/
def regRowsBBN : List RegRow := regRowsBBN0

/-! ### Block STK -/

def STK_CFG.REPLAY_MAX : Fld := ⟨0x300000, 2, 0⟩
def STK_CFG.TRACK : Fld := ⟨0x300000, 3, 3⟩
def STK_CTRL.MAP_APPLY : Fld := ⟨0x300004, 0, 0⟩
def STK_STATUS.TRAINED : Fld := ⟨0x300008, 0, 0⟩
def STK_STATUS.HOT : Fld := ⟨0x300008, 1, 1⟩
def STK_STATUS.MAP_CODE : Fld := ⟨0x300008, 15, 8⟩
def STK_STATUS.FENCED_COUNT : Fld := ⟨0x300008, 21, 16⟩
def STK_FENCED.FENCED : Fld := ⟨0x30000C, 31, 0⟩
def STK_AGE.AGE_C2 : Fld := ⟨0x300010, 9, 0⟩
def STK_AGE.AGE_C3 : Fld := ⟨0x300010, 25, 16⟩
def STK_TEMP.READING : Fld := ⟨0x300014, 7, 0⟩
def STK_TEMP.VALID : Fld := ⟨0x300014, 8, 8⟩
def STK_TEMP.FAILS : Fld := ⟨0x300014, 31, 16⟩
def STK_REFRESH.PAYMENTS : Fld := ⟨0x300018, 7, 0⟩
def STK_REFRESH.FORCED : Fld := ⟨0x300018, 19, 8⟩
def STK_REFRESH.DEBT_PEAK : Fld := ⟨0x300018, 31, 20⟩
def STK_REPLAY.EXHAUSTED : Fld := ⟨0x30001C, 15, 0⟩
def STK_REPLAY.LOG_FULL : Fld := ⟨0x30001C, 23, 16⟩
def STK_MAP_PC.MASK (i : Nat) : Fld := ⟨0x300100 + 0x8 * i, 33, 0⟩
def STK_MAP_BA.MASK (i : Nat) : Fld := ⟨0x300140 + 0x8 * i, 33, 0⟩
def STK_MAP_INFORCE.MASK (i : Nat) : Fld := ⟨0x300200 + 0x8 * i, 33, 0⟩
def STK_ROWLOG.PC (i : Nat) : Fld := ⟨0x300400 + 0x4 * i, 4, 0⟩
def STK_ROWLOG.BANK (i : Nat) : Fld := ⟨0x300400 + 0x4 * i, 8, 5⟩
def STK_ROWLOG.ROW (i : Nat) : Fld := ⟨0x300400 + 0x4 * i, 23, 9⟩
def STK_ROWLOG.COUNT (i : Nat) : Fld := ⟨0x300400 + 0x4 * i, 31, 24⟩
def STK_LANE.RD_DELAY (i : Nat) : Fld := ⟨0x301000 + 0x4 * i, 6, 0⟩
def STK_LANE.WR_DELAY (i : Nat) : Fld := ⟨0x301000 + 0x4 * i, 14, 8⟩
def STK_LANE.WINDOW (i : Nat) : Fld := ⟨0x301000 + 0x4 * i, 22, 16⟩
def STK_LANE.DRIFT (i : Nat) : Fld := ⟨0x301000 + 0x4 * i, 26, 24⟩
def STK_LANE.AT_LIMIT (i : Nat) : Fld := ⟨0x301000 + 0x4 * i, 27, 27⟩
def STK_LANE.FAILED (i : Nat) : Fld := ⟨0x301000 + 0x4 * i, 28, 28⟩
def STK_PC_ERR.REPLAYS (i : Nat) : Fld := ⟨0x302000 + 0x4 * i, 15, 0⟩
def STK_PC_ERR.FENCED_ACCESS (i : Nat) : Fld := ⟨0x302000 + 0x4 * i, 31, 16⟩

def regRowsSTK0 : List RegRow :=
  [ ⟨"STK_CFG", 0x300000, 0x4000000, 1, 0x4000000, 1, false,
      [⟨2, 0, .rw, 0x3⟩, ⟨3, 3, .rw, 0x1⟩]⟩,
    ⟨"STK_CTRL", 0x300004, 0x4000000, 1, 0x4000000, 1, false,
      [⟨0, 0, .wo, 0x0⟩]⟩,
    ⟨"STK_STATUS", 0x300008, 0x4000000, 1, 0x4000000, 1, false,
      [⟨0, 0, .ro, 0x0⟩, ⟨1, 1, .ro, 0x0⟩, ⟨15, 8, .ro, 0x0⟩, ⟨21, 16, .ro, 0x0⟩]⟩,
    ⟨"STK_FENCED", 0x30000C, 0x4000000, 1, 0x4000000, 1, false,
      [⟨31, 0, .ro, 0x0⟩]⟩,
    ⟨"STK_AGE", 0x300010, 0x4000000, 1, 0x4000000, 1, false,
      [⟨9, 0, .rw, 0x32⟩, ⟨25, 16, .rw, 0xC8⟩]⟩,
    ⟨"STK_TEMP", 0x300014, 0x4000000, 1, 0x4000000, 1, false,
      [⟨7, 0, .ro, 0x0⟩, ⟨8, 8, .ro, 0x0⟩, ⟨31, 16, .rc, 0x0⟩]⟩,
    ⟨"STK_REFRESH", 0x300018, 0x4000000, 1, 0x4000000, 1, false,
      [⟨7, 0, .rc, 0x0⟩, ⟨19, 8, .rc, 0x0⟩, ⟨31, 20, .rc, 0x0⟩]⟩,
    ⟨"STK_REPLAY", 0x30001C, 0x4000000, 1, 0x4000000, 1, false,
      [⟨15, 0, .rc, 0x0⟩, ⟨23, 16, .rc, 0x0⟩]⟩,
    ⟨"STK_MAP_PC", 0x300100, 0x4000000, 1, 0x4000000, 1, true,
      [⟨33, 0, .rw, 0x80100⟩]⟩,
    ⟨"STK_MAP_PC", 0x300108, 0x4000000, 1, 0x4000000, 1, true,
      [⟨33, 0, .rw, 0x100200⟩]⟩,
    ⟨"STK_MAP_PC", 0x300110, 0x4000000, 1, 0x4000000, 1, true,
      [⟨33, 0, .rw, 0x200400⟩]⟩,
    ⟨"STK_MAP_PC", 0x300118, 0x4000000, 1, 0x4000000, 1, true,
      [⟨33, 0, .rw, 0x400800⟩]⟩,
    ⟨"STK_MAP_PC", 0x300120, 0x4000000, 1, 0x4000000, 1, true,
      [⟨33, 0, .rw, 0x801000⟩]⟩,
    ⟨"STK_MAP_BA", 0x300140, 0x4000000, 1, 0x4000000, 1, true,
      [⟨33, 0, .rw, 0x1008000⟩]⟩,
    ⟨"STK_MAP_BA", 0x300148, 0x4000000, 1, 0x4000000, 1, true,
      [⟨33, 0, .rw, 0x2010000⟩]⟩,
    ⟨"STK_MAP_BA", 0x300150, 0x4000000, 1, 0x4000000, 1, true,
      [⟨33, 0, .rw, 0x4020000⟩]⟩,
    ⟨"STK_MAP_BA", 0x300158, 0x4000000, 1, 0x4000000, 1, true,
      [⟨33, 0, .rw, 0x8040000⟩]⟩,
    ⟨"STK_MAP_INFORCE", 0x300200, 0x4000000, 1, 0x4000000, 1, true,
      [⟨33, 0, .ro, 0x80100⟩]⟩,
    ⟨"STK_MAP_INFORCE", 0x300208, 0x4000000, 1, 0x4000000, 1, true,
      [⟨33, 0, .ro, 0x100200⟩]⟩,
    ⟨"STK_MAP_INFORCE", 0x300210, 0x4000000, 1, 0x4000000, 1, true,
      [⟨33, 0, .ro, 0x200400⟩]⟩,
    ⟨"STK_MAP_INFORCE", 0x300218, 0x4000000, 1, 0x4000000, 1, true,
      [⟨33, 0, .ro, 0x400800⟩]⟩,
    ⟨"STK_MAP_INFORCE", 0x300220, 0x4000000, 1, 0x4000000, 1, true,
      [⟨33, 0, .ro, 0x801000⟩]⟩,
    ⟨"STK_MAP_INFORCE", 0x300228, 0x4000000, 1, 0x4000000, 1, true,
      [⟨33, 0, .ro, 0x1008000⟩]⟩,
    ⟨"STK_MAP_INFORCE", 0x300230, 0x4000000, 1, 0x4000000, 1, true,
      [⟨33, 0, .ro, 0x2010000⟩]⟩ ]

def regRowsSTK1 : List RegRow :=
  [ ⟨"STK_MAP_INFORCE", 0x300238, 0x4000000, 1, 0x4000000, 1, true,
      [⟨33, 0, .ro, 0x4020000⟩]⟩,
    ⟨"STK_MAP_INFORCE", 0x300240, 0x4000000, 1, 0x4000000, 1, true,
      [⟨33, 0, .ro, 0x8040000⟩]⟩,
    ⟨"STK_ROWLOG", 0x300400, 0x4, 64, 0x4000000, 1, false,
      [⟨4, 0, .ro, 0x0⟩, ⟨8, 5, .ro, 0x0⟩, ⟨23, 9, .ro, 0x0⟩, ⟨31, 24, .ro, 0x0⟩]⟩,
    ⟨"STK_LANE", 0x301000, 0x4, 128, 0x4000000, 1, false,
      [⟨6, 0, .ro, 0x0⟩, ⟨14, 8, .ro, 0x0⟩, ⟨22, 16, .ro, 0x0⟩, ⟨26, 24, .ro, 0x0⟩, ⟨27, 27, .ro, 0x0⟩, ⟨28, 28, .ro, 0x0⟩]⟩,
    ⟨"STK_PC_ERR", 0x302000, 0x4, 32, 0x4000000, 1, false,
      [⟨15, 0, .rc, 0x0⟩, ⟨31, 16, .rc, 0x0⟩]⟩ ]

/-- Every register of block STK. -/
def regRowsSTK : List RegRow := regRowsSTK0 ++ regRowsSTK1

/-! ### Block SIG -/

def SIG_CFG.EVR : Fld := ⟨0x340000, 2, 0⟩
def SIG_CFG.ALARM_EVR : Fld := ⟨0x340000, 5, 3⟩
def SIG_STATUS.FENCED : Fld := ⟨0x340004, 7, 0⟩
def SIG_STATUS.ALARM_WAITING : Fld := ⟨0x340004, 8, 8⟩
def SIG_QUOTA.CONDITION : Fld := ⟨0x340008, 7, 0⟩
def SIG_QUOTA.SIGNATURE : Fld := ⟨0x340008, 15, 8⟩
def SIG_QUOTA.PLANE_CRC : Fld := ⟨0x340008, 23, 16⟩
def SIG_QUOTA.OTHER : Fld := ⟨0x340008, 31, 24⟩
def SIG_DROPS.DROPPED : Fld := ⟨0x34000C, 15, 0⟩
def SIG_DROPS.SUMMARIES : Fld := ⟨0x34000C, 31, 16⟩
def SIG_ALARM_QUEUE.DEPTH : Fld := ⟨0x340010, 13, 0⟩
def SIG_ALARM_QUEUE.PEAK : Fld := ⟨0x340010, 29, 16⟩
def SIG_ERR_SEL.KIND : Fld := ⟨0x340040, 2, 0⟩
def SIG_ERR_SEL.INSTANCE : Fld := ⟨0x340040, 12, 8⟩
def SIG_ERR_STATE.COUNT : Fld := ⟨0x340044, 15, 0⟩
def SIG_ERR_STATE.LEVEL : Fld := ⟨0x340044, 17, 16⟩
def SIG_ERR_TOTAL.TOTAL : Fld := ⟨0x340048, 31, 0⟩
def SIG_KIND_CFG.WINDOW (i : Nat) : Fld := ⟨0x340020 + 0x4 * i, 15, 0⟩
def SIG_KIND_CFG.THRESHOLD (i : Nat) : Fld := ⟨0x340020 + 0x4 * i, 30, 16⟩
def SIG_KIND_CFG.FENCE_EN (i : Nat) : Fld := ⟨0x340020 + 0x4 * i, 31, 31⟩
def SIG_SEV.SEV0 (i : Nat) : Fld := ⟨0x340100 + 0x4 * i, 1, 0⟩
def SIG_SEV.SEV1 (i : Nat) : Fld := ⟨0x340100 + 0x4 * i, 3, 2⟩
def SIG_SEV.SEV2 (i : Nat) : Fld := ⟨0x340100 + 0x4 * i, 5, 4⟩
def SIG_SEV.SEV3 (i : Nat) : Fld := ⟨0x340100 + 0x4 * i, 7, 6⟩
def SIG_SEV.SEV4 (i : Nat) : Fld := ⟨0x340100 + 0x4 * i, 9, 8⟩
def SIG_SEV.SEV5 (i : Nat) : Fld := ⟨0x340100 + 0x4 * i, 11, 10⟩
def SIG_SEV.SEV6 (i : Nat) : Fld := ⟨0x340100 + 0x4 * i, 13, 12⟩
def SIG_SEV.SEV7 (i : Nat) : Fld := ⟨0x340100 + 0x4 * i, 15, 14⟩
def SIG_SEV.SEV8 (i : Nat) : Fld := ⟨0x340100 + 0x4 * i, 17, 16⟩
def SIG_SEV.SEV9 (i : Nat) : Fld := ⟨0x340100 + 0x4 * i, 19, 18⟩
def SIG_SEV.SEV10 (i : Nat) : Fld := ⟨0x340100 + 0x4 * i, 21, 20⟩
def SIG_SEV.SEV11 (i : Nat) : Fld := ⟨0x340100 + 0x4 * i, 23, 22⟩
def SIG_SEV.SEV12 (i : Nat) : Fld := ⟨0x340100 + 0x4 * i, 25, 24⟩
def SIG_SEV.SEV13 (i : Nat) : Fld := ⟨0x340100 + 0x4 * i, 27, 26⟩
def SIG_SEV.SEV14 (i : Nat) : Fld := ⟨0x340100 + 0x4 * i, 29, 28⟩
def SIG_SEV.SEV15 (i : Nat) : Fld := ⟨0x340100 + 0x4 * i, 31, 30⟩
def SIG_CV_MISMATCH.MISMATCH (i : Nat) : Fld := ⟨0x340200 + 0x10 * i, 63, 0⟩
def SIG_CV_FROZEN.FROZEN (i : Nat) : Fld := ⟨0x340208 + 0x10 * i, 63, 0⟩
def SIG_CV_COUNTS.MISMATCHES (i : Nat) : Fld := ⟨0x340300 + 0x4 * i, 15, 0⟩
def SIG_CV_COUNTS.FAILURES (i : Nat) : Fld := ⟨0x340300 + 0x4 * i, 23, 16⟩
def SIG_CV_COUNTS.FREEZES (i : Nat) : Fld := ⟨0x340300 + 0x4 * i, 31, 24⟩
def SIG_ENG_CRC.MISMATCH (i : Nat) : Fld := ⟨0x340400 + 0x4 * i, 15, 0⟩
def SIG_ENG_CRC.MISSING (i : Nat) : Fld := ⟨0x340400 + 0x4 * i, 23, 16⟩
def SIG_ENG_CRC.SKIPPED (i : Nat) : Fld := ⟨0x340400 + 0x4 * i, 31, 24⟩
def SIG_RGN_CRC.CRC (i : Nat) : Fld := ⟨0x341000 + 0x10 * i, 31, 0⟩
def SIG_RGN_STATE.ENABLED (i : Nat) : Fld := ⟨0x341004 + 0x10 * i, 0, 0⟩
def SIG_RGN_STATE.GUARDED (i : Nat) : Fld := ⟨0x341004 + 0x10 * i, 1, 1⟩
def SIG_RGN_STATE.FREEZE_ON (i : Nat) : Fld := ⟨0x341004 + 0x10 * i, 2, 2⟩
def SIG_RGN_STATE.FAILED (i : Nat) : Fld := ⟨0x341004 + 0x10 * i, 3, 3⟩
def SIG_RGN_STATE.FROZEN (i : Nat) : Fld := ⟨0x341004 + 0x10 * i, 4, 4⟩
def SIG_RGN_STATE.RUN (i : Nat) : Fld := ⟨0x341004 + 0x10 * i, 11, 8⟩
def SIG_RGN_STATE.SAME (i : Nat) : Fld := ⟨0x341004 + 0x10 * i, 23, 16⟩

def regRowsSIG0 : List RegRow :=
  [ ⟨"SIG_CFG", 0x340000, 0x4000000, 1, 0x4000000, 1, false,
      [⟨2, 0, .rw, 0x0⟩, ⟨5, 3, .rw, 0x0⟩]⟩,
    ⟨"SIG_STATUS", 0x340004, 0x4000000, 1, 0x4000000, 1, false,
      [⟨7, 0, .ro, 0x0⟩, ⟨8, 8, .ro, 0x0⟩]⟩,
    ⟨"SIG_QUOTA", 0x340008, 0x4000000, 1, 0x4000000, 1, false,
      [⟨7, 0, .rw, 0x20⟩, ⟨15, 8, .rw, 0x10⟩, ⟨23, 16, .rw, 0x8⟩, ⟨31, 24, .rw, 0x8⟩]⟩,
    ⟨"SIG_DROPS", 0x34000C, 0x4000000, 1, 0x4000000, 1, false,
      [⟨15, 0, .rc, 0x0⟩, ⟨31, 16, .rc, 0x0⟩]⟩,
    ⟨"SIG_ALARM_QUEUE", 0x340010, 0x4000000, 1, 0x4000000, 1, false,
      [⟨13, 0, .ro, 0x0⟩, ⟨29, 16, .rc, 0x0⟩]⟩,
    ⟨"SIG_ERR_SEL", 0x340040, 0x4000000, 1, 0x4000000, 1, false,
      [⟨2, 0, .rw, 0x0⟩, ⟨12, 8, .rw, 0x0⟩]⟩,
    ⟨"SIG_ERR_STATE", 0x340044, 0x4000000, 1, 0x4000000, 1, false,
      [⟨15, 0, .ro, 0x0⟩, ⟨17, 16, .ro, 0x0⟩]⟩,
    ⟨"SIG_ERR_TOTAL", 0x340048, 0x4000000, 1, 0x4000000, 1, false,
      [⟨31, 0, .ro, 0x0⟩]⟩,
    ⟨"SIG_KIND_CFG", 0x340020, 0x4000000, 1, 0x4000000, 1, false,
      [⟨15, 0, .rw, 0x78⟩, ⟨30, 16, .rw, 0x10⟩, ⟨31, 31, .rw, 0x1⟩]⟩,
    ⟨"SIG_KIND_CFG", 0x340024, 0x4000000, 1, 0x4000000, 1, false,
      [⟨15, 0, .rw, 0x78⟩, ⟨30, 16, .rw, 0x40⟩, ⟨31, 31, .rw, 0x1⟩]⟩,
    ⟨"SIG_KIND_CFG", 0x340028, 0x4000000, 1, 0x4000000, 1, false,
      [⟨15, 0, .rw, 0x4B0⟩, ⟨30, 16, .rw, 0x4⟩, ⟨31, 31, .rw, 0x1⟩]⟩,
    ⟨"SIG_KIND_CFG", 0x34002C, 0x4000000, 1, 0x4000000, 1, false,
      [⟨15, 0, .rw, 0x4B0⟩, ⟨30, 16, .rw, 0x4⟩, ⟨31, 31, .rw, 0x1⟩]⟩,
    ⟨"SIG_KIND_CFG", 0x340030, 0x4000000, 1, 0x4000000, 1, false,
      [⟨15, 0, .rw, 0x78⟩, ⟨30, 16, .rw, 0x40⟩, ⟨31, 31, .rw, 0x1⟩]⟩,
    ⟨"SIG_KIND_CFG", 0x340034, 0x4000000, 1, 0x4000000, 1, false,
      [⟨15, 0, .rw, 0x78⟩, ⟨30, 16, .rw, 0x400⟩, ⟨31, 31, .rw, 0x1⟩]⟩,
    ⟨"SIG_KIND_CFG", 0x340038, 0x4000000, 1, 0x4000000, 1, false,
      [⟨15, 0, .rw, 0x4B0⟩, ⟨30, 16, .rw, 0x8⟩, ⟨31, 31, .rw, 0x1⟩]⟩,
    ⟨"SIG_KIND_CFG", 0x34003C, 0x4000000, 1, 0x4000000, 1, false,
      [⟨15, 0, .rw, 0x78⟩, ⟨30, 16, .rw, 0x4⟩, ⟨31, 31, .rw, 0x1⟩]⟩,
    ⟨"SIG_SEV", 0x340100, 0x4000000, 1, 0x4000000, 1, false,
      [⟨1, 0, .rw, 0x2⟩, ⟨3, 2, .rw, 0x2⟩, ⟨5, 4, .rw, 0x2⟩, ⟨7, 6, .rw, 0x2⟩, ⟨9, 8, .rw, 0x0⟩, ⟨11, 10, .rw, 0x0⟩, ⟨13, 12, .rw, 0x0⟩, ⟨15, 14, .rw, 0x0⟩, ⟨17, 16, .rw, 0x3⟩, ⟨19, 18, .rw, 0x3⟩, ⟨21, 20, .rw, 0x3⟩, ⟨23, 22, .rw, 0x3⟩, ⟨25, 24, .rw, 0x3⟩, ⟨27, 26, .rw, 0x3⟩, ⟨29, 28, .rw, 0x3⟩, ⟨31, 30, .rw, 0x3⟩]⟩,
    ⟨"SIG_SEV", 0x340104, 0x4000000, 1, 0x4000000, 1, false,
      [⟨1, 0, .rw, 0x1⟩, ⟨3, 2, .rw, 0x2⟩, ⟨5, 4, .rw, 0x2⟩, ⟨7, 6, .rw, 0x3⟩, ⟨9, 8, .rw, 0x1⟩, ⟨11, 10, .rw, 0x2⟩, ⟨13, 12, .rw, 0x2⟩, ⟨15, 14, .rw, 0x3⟩, ⟨17, 16, .rw, 0x1⟩, ⟨19, 18, .rw, 0x2⟩, ⟨21, 20, .rw, 0x2⟩, ⟨23, 22, .rw, 0x3⟩, ⟨25, 24, .rw, 0x1⟩, ⟨27, 26, .rw, 0x2⟩, ⟨29, 28, .rw, 0x2⟩, ⟨31, 30, .rw, 0x3⟩]⟩,
    ⟨"SIG_SEV", 0x340108, 0x4000000, 1, 0x4000000, 1, false,
      [⟨1, 0, .rw, 0x1⟩, ⟨3, 2, .rw, 0x2⟩, ⟨5, 4, .rw, 0x2⟩, ⟨7, 6, .rw, 0x3⟩, ⟨9, 8, .rw, 0x1⟩, ⟨11, 10, .rw, 0x2⟩, ⟨13, 12, .rw, 0x2⟩, ⟨15, 14, .rw, 0x3⟩, ⟨17, 16, .rw, 0x1⟩, ⟨19, 18, .rw, 0x2⟩, ⟨21, 20, .rw, 0x2⟩, ⟨23, 22, .rw, 0x3⟩, ⟨25, 24, .rw, 0x1⟩, ⟨27, 26, .rw, 0x2⟩, ⟨29, 28, .rw, 0x2⟩, ⟨31, 30, .rw, 0x3⟩]⟩,
    ⟨"SIG_SEV", 0x34010C, 0x4000000, 1, 0x4000000, 1, false,
      [⟨1, 0, .rw, 0x1⟩, ⟨3, 2, .rw, 0x2⟩, ⟨5, 4, .rw, 0x2⟩, ⟨7, 6, .rw, 0x3⟩, ⟨9, 8, .rw, 0x1⟩, ⟨11, 10, .rw, 0x2⟩, ⟨13, 12, .rw, 0x2⟩, ⟨15, 14, .rw, 0x3⟩, ⟨17, 16, .rw, 0x1⟩, ⟨19, 18, .rw, 0x2⟩, ⟨21, 20, .rw, 0x2⟩, ⟨23, 22, .rw, 0x3⟩, ⟨25, 24, .rw, 0x1⟩, ⟨27, 26, .rw, 0x2⟩, ⟨29, 28, .rw, 0x2⟩, ⟨31, 30, .rw, 0x3⟩]⟩,
    ⟨"SIG_SEV", 0x340110, 0x4000000, 1, 0x4000000, 1, false,
      [⟨1, 0, .rw, 0x1⟩, ⟨3, 2, .rw, 0x2⟩, ⟨5, 4, .rw, 0x2⟩, ⟨7, 6, .rw, 0x3⟩, ⟨9, 8, .rw, 0x1⟩, ⟨11, 10, .rw, 0x2⟩, ⟨13, 12, .rw, 0x2⟩, ⟨15, 14, .rw, 0x3⟩, ⟨17, 16, .rw, 0x1⟩, ⟨19, 18, .rw, 0x2⟩, ⟨21, 20, .rw, 0x2⟩, ⟨23, 22, .rw, 0x3⟩, ⟨25, 24, .rw, 0x1⟩, ⟨27, 26, .rw, 0x2⟩, ⟨29, 28, .rw, 0x2⟩, ⟨31, 30, .rw, 0x3⟩]⟩,
    ⟨"SIG_SEV", 0x340114, 0x4000000, 1, 0x4000000, 1, false,
      [⟨1, 0, .rw, 0x2⟩, ⟨3, 2, .rw, 0x1⟩, ⟨5, 4, .rw, 0x0⟩, ⟨7, 6, .rw, 0x3⟩, ⟨9, 8, .rw, 0x2⟩, ⟨11, 10, .rw, 0x1⟩, ⟨13, 12, .rw, 0x0⟩, ⟨15, 14, .rw, 0x3⟩, ⟨17, 16, .rw, 0x2⟩, ⟨19, 18, .rw, 0x1⟩, ⟨21, 20, .rw, 0x0⟩, ⟨23, 22, .rw, 0x3⟩, ⟨25, 24, .rw, 0x2⟩, ⟨27, 26, .rw, 0x1⟩, ⟨29, 28, .rw, 0x0⟩, ⟨31, 30, .rw, 0x3⟩]⟩,
    ⟨"SIG_SEV", 0x340118, 0x4000000, 1, 0x4000000, 1, false,
      [⟨1, 0, .rw, 0x2⟩, ⟨3, 2, .rw, 0x1⟩, ⟨5, 4, .rw, 0x0⟩, ⟨7, 6, .rw, 0x3⟩, ⟨9, 8, .rw, 0x2⟩, ⟨11, 10, .rw, 0x1⟩, ⟨13, 12, .rw, 0x0⟩, ⟨15, 14, .rw, 0x3⟩, ⟨17, 16, .rw, 0x2⟩, ⟨19, 18, .rw, 0x1⟩, ⟨21, 20, .rw, 0x0⟩, ⟨23, 22, .rw, 0x3⟩, ⟨25, 24, .rw, 0x2⟩, ⟨27, 26, .rw, 0x1⟩, ⟨29, 28, .rw, 0x0⟩, ⟨31, 30, .rw, 0x3⟩]⟩,
    ⟨"SIG_SEV", 0x34011C, 0x4000000, 1, 0x4000000, 1, false,
      [⟨1, 0, .rw, 0x2⟩, ⟨3, 2, .rw, 0x1⟩, ⟨5, 4, .rw, 0x0⟩, ⟨7, 6, .rw, 0x3⟩, ⟨9, 8, .rw, 0x2⟩, ⟨11, 10, .rw, 0x1⟩, ⟨13, 12, .rw, 0x0⟩, ⟨15, 14, .rw, 0x3⟩, ⟨17, 16, .rw, 0x2⟩, ⟨19, 18, .rw, 0x1⟩, ⟨21, 20, .rw, 0x0⟩, ⟨23, 22, .rw, 0x3⟩, ⟨25, 24, .rw, 0x2⟩, ⟨27, 26, .rw, 0x1⟩, ⟨29, 28, .rw, 0x0⟩, ⟨31, 30, .rw, 0x3⟩]⟩ ]

def regRowsSIG1 : List RegRow :=
  [ ⟨"SIG_SEV", 0x340120, 0x4000000, 1, 0x4000000, 1, false,
      [⟨1, 0, .rw, 0x2⟩, ⟨3, 2, .rw, 0x1⟩, ⟨5, 4, .rw, 0x0⟩, ⟨7, 6, .rw, 0x3⟩, ⟨9, 8, .rw, 0x2⟩, ⟨11, 10, .rw, 0x1⟩, ⟨13, 12, .rw, 0x0⟩, ⟨15, 14, .rw, 0x3⟩, ⟨17, 16, .rw, 0x2⟩, ⟨19, 18, .rw, 0x1⟩, ⟨21, 20, .rw, 0x0⟩, ⟨23, 22, .rw, 0x3⟩, ⟨25, 24, .rw, 0x2⟩, ⟨27, 26, .rw, 0x1⟩, ⟨29, 28, .rw, 0x0⟩, ⟨31, 30, .rw, 0x3⟩]⟩,
    ⟨"SIG_SEV", 0x340124, 0x4000000, 1, 0x4000000, 1, false,
      [⟨1, 0, .rw, 0x2⟩, ⟨3, 2, .rw, 0x1⟩, ⟨5, 4, .rw, 0x2⟩, ⟨7, 6, .rw, 0x1⟩, ⟨9, 8, .rw, 0x2⟩, ⟨11, 10, .rw, 0x1⟩, ⟨13, 12, .rw, 0x2⟩, ⟨15, 14, .rw, 0x1⟩, ⟨17, 16, .rw, 0x2⟩, ⟨19, 18, .rw, 0x1⟩, ⟨21, 20, .rw, 0x2⟩, ⟨23, 22, .rw, 0x1⟩, ⟨25, 24, .rw, 0x2⟩, ⟨27, 26, .rw, 0x1⟩, ⟨29, 28, .rw, 0x2⟩, ⟨31, 30, .rw, 0x1⟩]⟩,
    ⟨"SIG_SEV", 0x340128, 0x4000000, 1, 0x4000000, 1, false,
      [⟨1, 0, .rw, 0x2⟩, ⟨3, 2, .rw, 0x1⟩, ⟨5, 4, .rw, 0x2⟩, ⟨7, 6, .rw, 0x1⟩, ⟨9, 8, .rw, 0x2⟩, ⟨11, 10, .rw, 0x1⟩, ⟨13, 12, .rw, 0x2⟩, ⟨15, 14, .rw, 0x1⟩, ⟨17, 16, .rw, 0x2⟩, ⟨19, 18, .rw, 0x1⟩, ⟨21, 20, .rw, 0x2⟩, ⟨23, 22, .rw, 0x1⟩, ⟨25, 24, .rw, 0x2⟩, ⟨27, 26, .rw, 0x1⟩, ⟨29, 28, .rw, 0x2⟩, ⟨31, 30, .rw, 0x1⟩]⟩,
    ⟨"SIG_SEV", 0x34012C, 0x4000000, 1, 0x4000000, 1, false,
      [⟨1, 0, .rw, 0x2⟩, ⟨3, 2, .rw, 0x1⟩, ⟨5, 4, .rw, 0x2⟩, ⟨7, 6, .rw, 0x1⟩, ⟨9, 8, .rw, 0x2⟩, ⟨11, 10, .rw, 0x1⟩, ⟨13, 12, .rw, 0x2⟩, ⟨15, 14, .rw, 0x1⟩, ⟨17, 16, .rw, 0x2⟩, ⟨19, 18, .rw, 0x1⟩, ⟨21, 20, .rw, 0x2⟩, ⟨23, 22, .rw, 0x1⟩, ⟨25, 24, .rw, 0x2⟩, ⟨27, 26, .rw, 0x1⟩, ⟨29, 28, .rw, 0x2⟩, ⟨31, 30, .rw, 0x1⟩]⟩,
    ⟨"SIG_SEV", 0x340130, 0x4000000, 1, 0x4000000, 1, false,
      [⟨1, 0, .rw, 0x2⟩, ⟨3, 2, .rw, 0x1⟩, ⟨5, 4, .rw, 0x2⟩, ⟨7, 6, .rw, 0x1⟩, ⟨9, 8, .rw, 0x2⟩, ⟨11, 10, .rw, 0x1⟩, ⟨13, 12, .rw, 0x2⟩, ⟨15, 14, .rw, 0x1⟩, ⟨17, 16, .rw, 0x2⟩, ⟨19, 18, .rw, 0x1⟩, ⟨21, 20, .rw, 0x2⟩, ⟨23, 22, .rw, 0x1⟩, ⟨25, 24, .rw, 0x2⟩, ⟨27, 26, .rw, 0x1⟩, ⟨29, 28, .rw, 0x2⟩, ⟨31, 30, .rw, 0x1⟩]⟩,
    ⟨"SIG_SEV", 0x340134, 0x4000000, 1, 0x4000000, 1, false,
      [⟨1, 0, .rw, 0x3⟩, ⟨3, 2, .rw, 0x1⟩, ⟨5, 4, .rw, 0x0⟩, ⟨7, 6, .rw, 0x1⟩, ⟨9, 8, .rw, 0x3⟩, ⟨11, 10, .rw, 0x1⟩, ⟨13, 12, .rw, 0x0⟩, ⟨15, 14, .rw, 0x1⟩, ⟨17, 16, .rw, 0x3⟩, ⟨19, 18, .rw, 0x1⟩, ⟨21, 20, .rw, 0x0⟩, ⟨23, 22, .rw, 0x1⟩, ⟨25, 24, .rw, 0x3⟩, ⟨27, 26, .rw, 0x1⟩, ⟨29, 28, .rw, 0x0⟩, ⟨31, 30, .rw, 0x1⟩]⟩,
    ⟨"SIG_SEV", 0x340138, 0x4000000, 1, 0x4000000, 1, false,
      [⟨1, 0, .rw, 0x3⟩, ⟨3, 2, .rw, 0x1⟩, ⟨5, 4, .rw, 0x0⟩, ⟨7, 6, .rw, 0x1⟩, ⟨9, 8, .rw, 0x3⟩, ⟨11, 10, .rw, 0x1⟩, ⟨13, 12, .rw, 0x0⟩, ⟨15, 14, .rw, 0x1⟩, ⟨17, 16, .rw, 0x3⟩, ⟨19, 18, .rw, 0x1⟩, ⟨21, 20, .rw, 0x0⟩, ⟨23, 22, .rw, 0x1⟩, ⟨25, 24, .rw, 0x3⟩, ⟨27, 26, .rw, 0x1⟩, ⟨29, 28, .rw, 0x0⟩, ⟨31, 30, .rw, 0x1⟩]⟩,
    ⟨"SIG_SEV", 0x34013C, 0x4000000, 1, 0x4000000, 1, false,
      [⟨1, 0, .rw, 0x1⟩, ⟨3, 2, .rw, 0x2⟩, ⟨5, 4, .rw, 0x1⟩, ⟨7, 6, .rw, 0x1⟩, ⟨9, 8, .rw, 0x1⟩, ⟨11, 10, .rw, 0x1⟩, ⟨13, 12, .rw, 0x1⟩, ⟨15, 14, .rw, 0x1⟩, ⟨17, 16, .rw, 0x2⟩, ⟨19, 18, .rw, 0x1⟩, ⟨21, 20, .rw, 0x1⟩, ⟨23, 22, .rw, 0x1⟩, ⟨25, 24, .rw, 0x1⟩, ⟨27, 26, .rw, 0x1⟩, ⟨29, 28, .rw, 0x1⟩, ⟨31, 30, .rw, 0x1⟩]⟩,
    ⟨"SIG_SEV", 0x340140, 0x4000000, 1, 0x4000000, 1, false,
      [⟨1, 0, .rw, 0x3⟩, ⟨3, 2, .rw, 0x3⟩, ⟨5, 4, .rw, 0x3⟩, ⟨7, 6, .rw, 0x3⟩, ⟨9, 8, .rw, 0x3⟩, ⟨11, 10, .rw, 0x3⟩, ⟨13, 12, .rw, 0x3⟩, ⟨15, 14, .rw, 0x3⟩, ⟨17, 16, .rw, 0x3⟩, ⟨19, 18, .rw, 0x3⟩, ⟨21, 20, .rw, 0x3⟩, ⟨23, 22, .rw, 0x3⟩, ⟨25, 24, .rw, 0x3⟩, ⟨27, 26, .rw, 0x3⟩, ⟨29, 28, .rw, 0x3⟩, ⟨31, 30, .rw, 0x3⟩]⟩,
    ⟨"SIG_SEV", 0x340144, 0x4000000, 1, 0x4000000, 1, false,
      [⟨1, 0, .rw, 0x2⟩, ⟨3, 2, .rw, 0x2⟩, ⟨5, 4, .rw, 0x1⟩, ⟨7, 6, .rw, 0x1⟩, ⟨9, 8, .rw, 0x1⟩, ⟨11, 10, .rw, 0x1⟩, ⟨13, 12, .rw, 0x1⟩, ⟨15, 14, .rw, 0x1⟩, ⟨17, 16, .rw, 0x3⟩, ⟨19, 18, .rw, 0x3⟩, ⟨21, 20, .rw, 0x3⟩, ⟨23, 22, .rw, 0x3⟩, ⟨25, 24, .rw, 0x3⟩, ⟨27, 26, .rw, 0x3⟩, ⟨29, 28, .rw, 0x3⟩, ⟨31, 30, .rw, 0x3⟩]⟩,
    ⟨"SIG_SEV", 0x340148, 0x4000000, 1, 0x4000000, 1, false,
      [⟨1, 0, .rw, 0x1⟩, ⟨3, 2, .rw, 0x1⟩, ⟨5, 4, .rw, 0x1⟩, ⟨7, 6, .rw, 0x1⟩, ⟨9, 8, .rw, 0x1⟩, ⟨11, 10, .rw, 0x1⟩, ⟨13, 12, .rw, 0x1⟩, ⟨15, 14, .rw, 0x1⟩, ⟨17, 16, .rw, 0x1⟩, ⟨19, 18, .rw, 0x1⟩, ⟨21, 20, .rw, 0x1⟩, ⟨23, 22, .rw, 0x1⟩, ⟨25, 24, .rw, 0x1⟩, ⟨27, 26, .rw, 0x1⟩, ⟨29, 28, .rw, 0x1⟩, ⟨31, 30, .rw, 0x1⟩]⟩,
    ⟨"SIG_SEV", 0x34014C, 0x4000000, 1, 0x4000000, 1, false,
      [⟨1, 0, .rw, 0x3⟩, ⟨3, 2, .rw, 0x3⟩, ⟨5, 4, .rw, 0x3⟩, ⟨7, 6, .rw, 0x3⟩, ⟨9, 8, .rw, 0x3⟩, ⟨11, 10, .rw, 0x3⟩, ⟨13, 12, .rw, 0x3⟩, ⟨15, 14, .rw, 0x3⟩, ⟨17, 16, .rw, 0x3⟩, ⟨19, 18, .rw, 0x3⟩, ⟨21, 20, .rw, 0x3⟩, ⟨23, 22, .rw, 0x3⟩, ⟨25, 24, .rw, 0x3⟩, ⟨27, 26, .rw, 0x3⟩, ⟨29, 28, .rw, 0x3⟩, ⟨31, 30, .rw, 0x3⟩]⟩,
    ⟨"SIG_CV_MISMATCH", 0x340200, 0x10, 8, 0x4000000, 1, true,
      [⟨63, 0, .ro, 0x0⟩]⟩,
    ⟨"SIG_CV_FROZEN", 0x340208, 0x10, 8, 0x4000000, 1, true,
      [⟨63, 0, .ro, 0x0⟩]⟩,
    ⟨"SIG_CV_COUNTS", 0x340300, 0x4, 8, 0x4000000, 1, false,
      [⟨15, 0, .rc, 0x0⟩, ⟨23, 16, .rc, 0x0⟩, ⟨31, 24, .rc, 0x0⟩]⟩,
    ⟨"SIG_ENG_CRC", 0x340400, 0x4, 32, 0x4000000, 1, false,
      [⟨15, 0, .rc, 0x0⟩, ⟨23, 16, .rc, 0x0⟩, ⟨31, 24, .rc, 0x0⟩]⟩,
    ⟨"SIG_RGN_CRC", 0x341000, 0x10, 512, 0x4000000, 1, false,
      [⟨31, 0, .ro, 0x0⟩]⟩,
    ⟨"SIG_RGN_STATE", 0x341004, 0x10, 512, 0x4000000, 1, false,
      [⟨0, 0, .ro, 0x0⟩, ⟨1, 1, .ro, 0x0⟩, ⟨2, 2, .ro, 0x0⟩, ⟨3, 3, .ro, 0x0⟩, ⟨4, 4, .ro, 0x0⟩, ⟨11, 8, .ro, 0x0⟩, ⟨23, 16, .ro, 0x0⟩]⟩ ]

/-- Every register of block SIG. -/
def regRowsSIG : List RegRow := regRowsSIG0 ++ regRowsSIG1

/-! ### Block THM -/

def THM_CFG.CEILING : Fld := ⟨0x360000, 5, 0⟩
def THM_CFG.STEP_W : Fld := ⟨0x360000, 8, 6⟩
def THM_CFG.INTERVAL : Fld := ⟨0x360000, 20, 16⟩
def THM_CFG.EXPERT : Fld := ⟨0x360000, 31, 31⟩
def THM_LIMITS.T_HIGH : Fld := ⟨0x360004, 7, 0⟩
def THM_LIMITS.HYST : Fld := ⟨0x360004, 11, 8⟩
def THM_LIMITS.RESTORE : Fld := ⟨0x360004, 23, 16⟩
def THM_SHED_ORDER.FIRST : Fld := ⟨0x360008, 2, 0⟩
def THM_SHED_ORDER.SECOND : Fld := ⟨0x360008, 5, 3⟩
def THM_SHED_ORDER.THIRD : Fld := ⟨0x360008, 8, 6⟩
def THM_SHED_ORDER.FOURTH : Fld := ⟨0x360008, 11, 9⟩
def THM_SHED_ORDER.FIFTH : Fld := ⟨0x360008, 14, 12⟩
def THM_I2C.ADDR : Fld := ⟨0x36000C, 6, 0⟩
def THM_I2C.REG : Fld := ⟨0x36000C, 15, 8⟩
def THM_I2C.FAST : Fld := ⟨0x36000C, 16, 16⟩
def THM_STATUS.CEIL_NOW : Fld := ⟨0x360010, 5, 0⟩
def THM_STATUS.THROTTLED : Fld := ⟨0x360010, 6, 6⟩
def THM_STATUS.SENSOR_OK : Fld := ⟨0x360010, 7, 7⟩
def THM_STATUS.WRITE_OK : Fld := ⟨0x360010, 8, 8⟩
def THM_STATUS.ORDER_BAD : Fld := ⟨0x360010, 9, 9⟩
def THM_STATUS.AT_FLOOR : Fld := ⟨0x360010, 10, 10⟩
def THM_STATUS.HOT_MAX : Fld := ⟨0x360010, 31, 16⟩
def THM_CASE.CASE : Fld := ⟨0x360014, 15, 0⟩
def THM_CASE.FAILS : Fld := ⟨0x360014, 31, 16⟩
def THM_POWER.TOTAL_MW : Fld := ⟨0x360018, 16, 0⟩
def THM_COUNTS.LOWERED : Fld := ⟨0x36001C, 15, 0⟩
def THM_COUNTS.RAISED : Fld := ⟨0x36001C, 31, 16⟩
def THM_RAIL.MA (i : Nat) : Fld := ⟨0x360100 + 0x4 * i, 15, 0⟩
def THM_RAIL.MW (i : Nat) : Fld := ⟨0x360100 + 0x4 * i, 30, 16⟩
def THM_RAIL.FAILED (i : Nat) : Fld := ⟨0x360100 + 0x4 * i, 31, 31⟩
def THM_NODE.TEMP (i : Nat) : Fld := ⟨0x360200 + 0x4 * i, 15, 0⟩
def THM_HOT.TEMP (i : Nat) : Fld := ⟨0x360300 + 0x4 * i, 15, 0⟩
def THM_HOT.PEAK (i : Nat) : Fld := ⟨0x360300 + 0x4 * i, 31, 16⟩

def regRowsTHM0 : List RegRow :=
  [ ⟨"THM_CFG", 0x360000, 0x4000000, 1, 0x4000000, 1, false,
      [⟨5, 0, .act, 0x3A⟩, ⟨8, 6, .rw, 0x2⟩, ⟨20, 16, .rw, 0x1⟩, ⟨31, 31, .rw, 0x0⟩]⟩,
    ⟨"THM_LIMITS", 0x360004, 0x4000000, 1, 0x4000000, 1, false,
      [⟨7, 0, .rw, 0x78⟩, ⟨11, 8, .rw, 0x5⟩, ⟨23, 16, .rw, 0xA⟩]⟩,
    ⟨"THM_SHED_ORDER", 0x360008, 0x4000000, 1, 0x4000000, 1, false,
      [⟨2, 0, .rw, 0x1⟩, ⟨5, 3, .rw, 0x2⟩, ⟨8, 6, .rw, 0x3⟩, ⟨11, 9, .rw, 0x4⟩, ⟨14, 12, .rw, 0x5⟩]⟩,
    ⟨"THM_I2C", 0x36000C, 0x4000000, 1, 0x4000000, 1, false,
      [⟨6, 0, .rw, 0x48⟩, ⟨15, 8, .rw, 0x0⟩, ⟨16, 16, .rw, 0x1⟩]⟩,
    ⟨"THM_STATUS", 0x360010, 0x4000000, 1, 0x4000000, 1, false,
      [⟨5, 0, .ro, 0x3A⟩, ⟨6, 6, .ro, 0x0⟩, ⟨7, 7, .ro, 0x0⟩, ⟨8, 8, .ro, 0x0⟩, ⟨9, 9, .ro, 0x0⟩, ⟨10, 10, .ro, 0x0⟩, ⟨31, 16, .ro, 0x0⟩]⟩,
    ⟨"THM_CASE", 0x360014, 0x4000000, 1, 0x4000000, 1, false,
      [⟨15, 0, .ro, 0x0⟩, ⟨31, 16, .rc, 0x0⟩]⟩,
    ⟨"THM_POWER", 0x360018, 0x4000000, 1, 0x4000000, 1, false,
      [⟨16, 0, .ro, 0x0⟩]⟩,
    ⟨"THM_COUNTS", 0x36001C, 0x4000000, 1, 0x4000000, 1, false,
      [⟨15, 0, .rc, 0x0⟩, ⟨31, 16, .rc, 0x0⟩]⟩,
    ⟨"THM_RAIL", 0x360100, 0x4, 10, 0x4000000, 1, false,
      [⟨15, 0, .ro, 0x0⟩, ⟨30, 16, .ro, 0x0⟩, ⟨31, 31, .ro, 0x0⟩]⟩,
    ⟨"THM_NODE", 0x360200, 0x4, 6, 0x4000000, 1, false,
      [⟨15, 0, .ro, 0x0⟩]⟩,
    ⟨"THM_HOT", 0x360300, 0x4, 8, 0x4000000, 1, false,
      [⟨15, 0, .ro, 0x0⟩, ⟨31, 16, .rc, 0x0⟩]⟩ ]

/-- Every register of block THM. -/
def regRowsTHM : List RegRow := regRowsTHM0

/-! ### Block SELF -/

def SELF_LC.STATE : Fld := ⟨0x370000, 1, 0⟩
def SELF_LC.PENDING : Fld := ⟨0x370000, 2, 2⟩
def SELF_LC_CTRL.TO_TEST : Fld := ⟨0x370004, 0, 0⟩
def SELF_LC_CTRL.TO_FIELD : Fld := ⟨0x370004, 1, 1⟩
def SELF_LC_CTRL.TO_RETURN : Fld := ⟨0x370004, 2, 2⟩
def SELF_CHALLENGE.CHALLENGE : Fld := ⟨0x370008, 63, 0⟩
def SELF_OP_STATUS.RESULT : Fld := ⟨0x370010, 2, 0⟩
def SELF_OP_STATUS.OP : Fld := ⟨0x370010, 5, 3⟩
def SELF_FUSE_CTRL.PROGRAM_REPAIR : Fld := ⟨0x370090, 0, 0⟩
def SELF_FUSE_STATUS.GROUPS_USED : Fld := ⟨0x370094, 3, 0⟩
def SELF_FUSE_STATUS.GOVERNING : Fld := ⟨0x370094, 6, 4⟩
def SELF_BIST_CTRL.GROUPS : Fld := ⟨0x370100, 11, 0⟩
def SELF_BIST_CTRL.START : Fld := ⟨0x370100, 16, 16⟩
def SELF_REPAIR.SRAM_NEW : Fld := ⟨0x370180, 7, 0⟩
def SELF_REPAIR.ROWS_REPAIRED : Fld := ⟨0x370180, 15, 8⟩
def SELF_REPAIR.ROWS_UNREPAIRED : Fld := ⟨0x370180, 23, 16⟩
def SELF_REPAIR.LANES : Fld := ⟨0x370180, 31, 24⟩
def SELF_RECORD.SLOT : Fld := ⟨0x370184, 1, 0⟩
def SELF_RECORD.STORE_CODE : Fld := ⟨0x370184, 10, 8⟩
def SELF_RECORD.ENTRIES : Fld := ⟨0x370184, 25, 16⟩
def SELF_RECORD_SEQ.SEQ : Fld := ⟨0x370188, 31, 0⟩
def SELF_TOKEN.BYTES (i : Nat) : Fld := ⟨0x370040 + 0x4 * i, 31, 0⟩
def SELF_BIST_RESULT.RESULT (i : Nat) : Fld := ⟨0x370140 + 0x4 * i, 1, 0⟩
def SELF_BIST_RESULT.USER (i : Nat) : Fld := ⟨0x370140 + 0x4 * i, 2, 2⟩
def SELF_BIST_RESULT.REPAIRED (i : Nat) : Fld := ⟨0x370140 + 0x4 * i, 3, 3⟩
def SELF_BIST_RESULT.PATTERNS (i : Nat) : Fld := ⟨0x370140 + 0x4 * i, 31, 16⟩

def regRowsSELF0 : List RegRow :=
  [ ⟨"SELF_LC", 0x370000, 0x4000000, 1, 0x4000000, 1, false,
      [⟨1, 0, .ro, 0x0⟩, ⟨2, 2, .ro, 0x0⟩]⟩,
    ⟨"SELF_LC_CTRL", 0x370004, 0x4000000, 1, 0x4000000, 1, false,
      [⟨0, 0, .wo, 0x0⟩, ⟨1, 1, .wo, 0x0⟩, ⟨2, 2, .wo, 0x0⟩]⟩,
    ⟨"SELF_CHALLENGE", 0x370008, 0x4000000, 1, 0x4000000, 1, true,
      [⟨63, 0, .ro, 0x0⟩]⟩,
    ⟨"SELF_OP_STATUS", 0x370010, 0x4000000, 1, 0x4000000, 1, false,
      [⟨2, 0, .ro, 0x0⟩, ⟨5, 3, .ro, 0x0⟩]⟩,
    ⟨"SELF_FUSE_CTRL", 0x370090, 0x4000000, 1, 0x4000000, 1, false,
      [⟨0, 0, .wo, 0x0⟩]⟩,
    ⟨"SELF_FUSE_STATUS", 0x370094, 0x4000000, 1, 0x4000000, 1, false,
      [⟨3, 0, .ro, 0x0⟩, ⟨6, 4, .ro, 0x0⟩]⟩,
    ⟨"SELF_BIST_CTRL", 0x370100, 0x4000000, 1, 0x4000000, 1, false,
      [⟨11, 0, .rw, 0x0⟩, ⟨16, 16, .wo, 0x0⟩]⟩,
    ⟨"SELF_REPAIR", 0x370180, 0x4000000, 1, 0x4000000, 1, false,
      [⟨7, 0, .ro, 0x0⟩, ⟨15, 8, .ro, 0x0⟩, ⟨23, 16, .ro, 0x0⟩, ⟨31, 24, .ro, 0x0⟩]⟩,
    ⟨"SELF_RECORD", 0x370184, 0x4000000, 1, 0x4000000, 1, false,
      [⟨1, 0, .ro, 0x3⟩, ⟨10, 8, .ro, 0x0⟩, ⟨25, 16, .ro, 0x0⟩]⟩,
    ⟨"SELF_RECORD_SEQ", 0x370188, 0x4000000, 1, 0x4000000, 1, false,
      [⟨31, 0, .ro, 0x0⟩]⟩,
    ⟨"SELF_TOKEN", 0x370040, 0x4, 20, 0x4000000, 1, false,
      [⟨31, 0, .rw, 0x0⟩]⟩,
    ⟨"SELF_BIST_RESULT", 0x370140, 0x4, 12, 0x4000000, 1, false,
      [⟨1, 0, .ro, 0x3⟩, ⟨2, 2, .ro, 0x0⟩, ⟨3, 3, .ro, 0x0⟩, ⟨31, 16, .ro, 0x0⟩]⟩ ]

/-- Every register of block SELF. -/
def regRowsSELF : List RegRow := regRowsSELF0

/-- The registers of the BAR0 block that offset `off` lies in (R25). -/
def blockRows (off : Nat) : List RegRow :=
  if off < 0x10000 then regRowsDEV
  else if off < 0x20000 then regRowsTICK
  else if off < 0x40000 then regRowsHIF
  else if off < 0x80000 then regRowsIC
  else if off < 0xC0000 then regRowsCMP
  else if off < 0x100000 then regRowsSCL
  else if off < 0x140000 then regRowsOBJ
  else if off < 0x180000 then regRowsCNV
  else if off < 0x1C0000 then regRowsSPN
  else if off < 0x200000 then regRowsFLY
  else if off < 0x240000 then regRowsSKN
  else if off < 0x280000 then regRowsLGT
  else if off < 0x290000 then regRowsCAL
  else if off < 0x2A0000 then regRowsCBUS
  else if off < 0x300000 then regRowsBBN
  else if off < 0x340000 then regRowsSTK
  else if off < 0x360000 then regRowsSIG
  else if off < 0x370000 then regRowsTHM
  else if off < 0x380000 then regRowsSELF
  else []

/-- The word of register `r` that offset `off` addresses: 0 the low (or only) word, 1 the high word. -/
def RegRow.word? (r : RegRow) (off : Nat) : Option Nat :=
  if off < r.base then none
  else
    let d := off - r.base
    let rest := d % r.s1 % r.s2
    if d / r.s1 < r.c1 && d % r.s1 / r.s2 < r.c2 then
      if rest = 0 then some 0 else if r.wide && rest = 4 then some 1 else none
    else none

/-- The register row and word that offset `off` addresses, if it is mapped. -/
def findReg (off : Nat) : Option (RegRow × Nat) :=
  (blockRows off).findSome? fun r => (r.word? off).map fun w => (r, w)

/-- The bits of word `w` that a field occupies, as a mask over the 32 bits of the word. -/
def FieldRow.mask (f : FieldRow) (w : Nat) : Nat :=
  ((2 ^ (f.hi + 1) - 2 ^ f.lo) >>> (32 * w)) % 2 ^ 32

/-- The reset value of word `w` of a register (R8). -/
def RegRow.resetWord (r : RegRow) (w : Nat) : Nat :=
  ((r.fields.foldl (fun n f => n + (f.reset <<< f.lo)) 0) >>> (32 * w)) % 2 ^ 32

/-- The reset value of the register word at `off`; 0 where nothing is mapped (R8, R97). -/
def regReset (off : Nat) : BitVec 32 :=
  match findReg off with
  | some (r, w) => BitVec.ofNat 32 (r.resetWord w)
  | none => 0

/-- The bits of word `w` whose fields have access code `a`. -/
def RegRow.accMask (r : RegRow) (w : Nat) (a : Access) : Nat :=
  r.fields.foldl (fun n f => if f.acc = a then n + f.mask w else n) 0

end Sys2Proof.Machine
end

