-- ==== Sys2Proof/Machine/State.lean ====
section
/-! DEFINITION. The state of the SX1648: every register of the set-up map, and every queue, buffer, memory, pin and engine
state the spec gives the part beyond its registers, with the queue of commands that wait; and the state after reset. -/

namespace Sys2Proof.Machine

/-- The part never stops with a fault: every error the spec describes is an effect on its state (R460). No command raises
one, so the type has no constructor; that is safe. -/
inductive Fault where
  deriving DecidableEq, Repr

/-- Reasons to refuse a command. -/
inductive Refusal where
  /-- Raised by a dispatch arm whose command has no meaning yet; safe: nothing can be proved of it. -/
  | notModelled (mnemonic : String)
  deriving DecidableEq, Repr

/-- The state of the part. Every array of blocks' entries is a sparse table in canonical form (`Tbl`). -/
structure State where
  /-- Set-up registers by offset; an unlisted word reads its reset value (R8). -/
  regs : Tbl Word := []
  /-- Device time in ns (R24). -/
  now : Nat := 0
  hif : HifState := {}
  ic : IcState := {}
  sig : SigState := {}
  tick : TickState := {}
  surf : SurfState := {}
  comp : CompSt := {}
  obj : SclObjState := {}
  eng : EngSt := {}
  light : LightSt := {}
  bbn : BbnSt := {}
  stk : StkSt := {}
  thm : ThmSt := {}
  pwr : PwrSt := {}
  /-- The model's own: counts the free values drawn (Config). -/
  freeCtr : Nat := 0
  /-- Commands that wait, first in, first out. -/
  pending : List Instr := []
  deriving DecidableEq, Repr

/-- The part right after reset: PORST_L low, every register at its reset value, nothing held. -/
def State.reset : State := {}

end Sys2Proof.Machine
end

