-- ==== Sys2Proof/Machine/Ops.lean ====
section
/-! DEFINITION. The named operations over registers, time, the host's memory and the memory stack that every command's
meaning is made of. -/

namespace Sys2Proof.Machine

/-! ### Registers (R8, R13, R14) -/

/-- The register word at an offset. -/
def State.word (s : State) (off : Nat) : Word := Tbl.get regReset s.regs off

/-- Write a register word, keeping the table canonical. -/
def State.setWord (s : State) (off : Nat) (w : Word) : State :=
  { s with regs := Tbl.put regReset off w s.regs }

/-- Bits [lo+w-1:lo] of `x` replaced by the low `w` bits of `v`. -/
def insertBits (x lo w v : Nat) : Nat := x - bitsOf x lo w * 2 ^ lo + v % 2 ^ w * 2 ^ lo

/-- The register of a field as one number, both words of it where the field reaches the high word. -/
def State.regOf (s : State) (f : Fld) : Nat :=
  if f.hi < 32 then (s.word f.off).toNat else (s.word f.off).toNat + 2 ^ 32 * (s.word (f.off + 4)).toNat

/-- The value of a field. -/
def State.rd (s : State) (f : Fld) : Nat := bitsOf (s.regOf f) f.lo (f.hi + 1 - f.lo)

/-- A one-bit field as a Bool. -/
def State.flag (s : State) (f : Fld) : Bool := s.rd f == 1

/-- Write a field, leaving the register's other bits. -/
def State.wr (s : State) (f : Fld) (v : Nat) : State :=
  let x := insertBits (s.regOf f) f.lo (f.hi + 1 - f.lo) v
  if f.hi < 32 then s.setWord f.off (BitVec.ofNat 32 x)
  else (s.setWord f.off (BitVec.ofNat 32 x)).setWord (f.off + 4) (BitVec.ofNat 32 (x / 2 ^ 32))

/-- Add `n` to a counter field, which saturates (R13). -/
def State.bump (s : State) (f : Fld) (n : Nat) : State := s.wr f (satAdd (f.hi + 1 - f.lo) (s.rd f) n)

/-- Several field writes, in order. -/
def State.wrs (s : State) (l : List (Fld × Nat)) : State := l.foldl (fun s p => s.wr p.1 p.2) s

/-! ### Service and time -/

/-- PORST_L is high, start-up has reached READY, and SYS_CLK has not been lost since (R477, R522). -/
def State.ready (s : State) : Bool := s.pwr.porst && s.flag DEV_STATUS.READY && !s.pwr.dead

/-- The part acts on the command only in service: before READY no block but start-up works (R477, R497). -/
def State.inService (s : State) (f : State → State) : State := if s.ready then f s else s

/-- Device time moves on to `t`, never back (R24). -/
def State.reach (s : State) (t : Nat) : State := { s with now := max s.now t }

/-- The tick counter (R24). -/
def State.tickNo (s : State) : Nat := s.rd TICK_COUNT.COUNT

/-- P, G and LATCH_GUARD in force, in ns (R34, R46, R47). -/
def State.period (s : State) : Nat := s.rd TICK_PERIOD.PERIOD_NS
def State.gap (s : State) : Nat := 1000 * s.rd TICK_TIMING.GAP_US

/-- Device time of the latest tick edge. -/
def State.edgeTime (s : State) : Nat := s.rd TICK_EDGE_TIME.TIME_NS

/-- A register value that acts as the nearer limit of a range. -/
def nearer (x lo hi : Nat) : Nat := clampN x lo hi

/-! ### The host's memory and messages (R6, R67) -/

/-- A posted write to host memory: held in D3hot, else sent (R67). -/
def State.hostWrite (s : State) (addr len data : Nat) : State :=
  if s.hif.d3hot then { s with hif := { s.hif with held := s.hif.held ++ [⟨addr, len, data⟩] } }
  else { s with hif := { s.hif with out := s.hif.out ++ [⟨addr, len, data⟩] } }

/-! ### Command and event reels, engines, ports -/

def State.reel (s : State) (r : Nat) : CmdReel := Tbl.get (fun _ => {}) s.hif.reels r
def State.setReel (s : State) (r : Nat) (f : CmdReel → CmdReel) : State :=
  { s with hif := { s.hif with reels := Tbl.put (fun _ => {}) r (f (s.reel r)) s.hif.reels } }

def State.evr (s : State) (v : Nat) : EvReel := Tbl.get (fun _ => {}) s.hif.evrs v
def State.setEvr (s : State) (v : Nat) (f : EvReel → EvReel) : State :=
  { s with hif := { s.hif with evrs := Tbl.put (fun _ => {}) v (f (s.evr v)) s.hif.evrs } }

def State.engine (s : State) (e : Nat) : EngState := Tbl.get (fun _ => {}) s.eng.engs e
def State.setEngine (s : State) (e : Nat) (f : EngState → EngState) : State :=
  { s with eng := { s.eng with engs := Tbl.put (fun _ => {}) e (f (s.engine e)) s.eng.engs } }

def State.setRun (s : State) (e : Nat) (f : FlyRun → FlyRun) : State :=
  s.setEngine e fun g => { g with run := f g.run }
def State.setLink (s : State) (e : Nat) (f : SubPort → SubPort) : State :=
  s.setEngine e fun g => { g with link := f g.link }

def State.portLink (s : State) (p : Nat) : PortLink := Tbl.get (fun _ => {}) s.eng.ports p
def State.setPort (s : State) (p : Nat) (f : PortLink → PortLink) : State :=
  { s with eng := { s.eng with ports := Tbl.put (fun _ => {}) p (f (s.portLink p)) s.eng.ports } }

def State.lightOf (s : State) (e : Nat) : LightEng := Tbl.get (fun _ => {}) s.light.engs e
def State.setLight (s : State) (e : Nat) (f : LightEng → LightEng) : State :=
  { s with light := { s.light with engs := Tbl.put (fun _ => {}) e (f (s.lightOf e)) s.light.engs } }

def State.flow (s : State) (n : Nat) : Flow := Tbl.get (fun _ => {}) s.bbn.flows n
def State.stream (s : State) (n : Nat) : StreamCtx := Tbl.get (fun _ => {}) s.bbn.streams n
def State.setStream (s : State) (n : Nat) (f : StreamCtx → StreamCtx) : State :=
  { s with bbn := { s.bbn with streams := Tbl.put (fun _ => {}) n (f (s.stream n)) s.bbn.streams } }

def State.surface (s : State) (i : Nat) : Surface := Tbl.get (fun _ => {}) s.surf.surfs i
def State.setSurface (s : State) (i : Nat) (f : Surface → Surface) : State :=
  { s with surf := { s.surf with surfs := Tbl.put (fun _ => {}) i (f (s.surface i)) s.surf.surfs } }

/-! ### Ports and engines (R17, R248, R265) -/

/-- The mode of port `p` in force at the link: split or full width. -/
def State.split (s : State) (p : Nat) : Bool := s.flag (SKN_PORT_STATUS.SPLIT p)

/-- Engine `e` has a sub-port in the port mode in force. -/
def State.exists_ (s : State) (e : Nat) : Bool := e < 32 && (e % 2 == 0 || s.split (e / 2))

/-- Link state of the engine's sub-port (R296): 0 OFF, 1 TRAIN, 2 IDENT, 3 READY, 4 CONFIG, 5 RUN, 6 HOLD. -/
def State.linkState (s : State) (e : Nat) : Nat := s.rd (SKN_ENG_STATUS.STATE e)

/-- The strands of the engine's sub-port, timing strand first (R265). -/
def State.strands (s : State) (e : Nat) : List Nat :=
  if s.split (e / 2) then (if e % 2 = 0 then [0, 1] else [2, 3]) else [0, 1, 2, 3]

/-- The engines of port `p` that exist. -/
def State.enginesOf (s : State) (p : Nat) : List Nat := [2 * p, 2 * p + 1].filter s.exists_

/-- Every engine that exists, in order. -/
def State.engines (s : State) : List Nat := (List.range 32).filter s.exists_

/-- An engine is fenced: by escalation, or its port at power-up or by a user run (R442, R487). -/
def State.engFenced (s : State) (e : Nat) : Bool :=
  s.sig.engFenced.contains e || bitOf (s.rd DEV_PU_FENCED.PORTS) (e / 2) || (s.portLink (e / 2)).testing

/-- The clones of engine `e` in force (R201). -/
def State.clonesOf (s : State) (e : Nat) : List Nat :=
  s.engines.filter fun k => (s.engine k).fly.warp.mode == 3 && (s.engine k).fly.warp.cloneSrc == e

/-! ### The memory stack (R397, R413) -/

/-- The default of an unlisted stack byte (R408). -/
def memDefault (_ : Nat) : BitVec 8 := 0

/-- The canonical form of the stack's bytes. -/
def Memory.wf (m : List Host.Cell) : Bool := Tbl.wf memDefault m

/-- The number with bit `n` replaced. -/
def setBit (x n b : Nat) : Nat := insertBits x n 1 b

/-- The location of an address: its home bits replaced by the select bits of the masks in force (R397). -/
def locate (masks : List Nat) (a : Nat) : Nat :=
  ((masks.zip [8, 9, 10, 11, 12, 15, 16, 17, 18]).foldl
    (fun l p => setBit l p.2 (parityOf (a &&& p.1) 34)) a)

/-- The pseudo-channel of a location. -/
def pcOfLoc (l : Nat) : Nat := bitsOf l 8 5

/-- The bank of a location: bits 0 and 1 the bank within its group, bits 2 and 3 the group (R395, R397). -/
def bankOfLoc (l : Nat) : Nat := bitsOf l 15 4

/-- The row of a location. -/
def rowOfLoc (l : Nat) : Nat := bitsOf l 19 15

/-- Pseudo-channel `pc` is fenced (R413). -/
def State.pcFenced (s : State) (pc : Nat) : Bool := bitOf (s.rd STK_FENCED.FENCED) pc

/-- The pseudo-channel an address maps to. -/
def State.pcOf (s : State) (a : Nat) : Nat := pcOfLoc (locate s.stk.masks a)

/-- The byte a read of address `a` gives: 0 from a fenced pseudo-channel (R413). -/
def State.mem (s : State) (a : Nat) : Byte :=
  let l := locate s.stk.masks a
  if s.pcFenced (pcOfLoc l) then 0 else Tbl.get memDefault s.stk.mem l

/-- One byte written: dropped in a fenced pseudo-channel (R413). -/
def State.memSet (s : State) (a : Nat) (b : Byte) : State :=
  let l := locate s.stk.masks a
  if s.pcFenced (pcOfLoc l) then s
  else { s with stk := { s.stk with mem := Tbl.put memDefault l b s.stk.mem } }

/-- Bytes written from address `a` upwards. -/
def State.memWrite (s : State) : Nat → List Byte → State
  | _, [] => s
  | a, b :: r => (s.memSet a b).memWrite (a + 1) r

/-- The bytes a read of `n` bytes from address `a` gives. -/
def State.memRead (s : State) (a : Nat) : Nat → List Byte
  | 0 => []
  | k + 1 => s.mem a :: s.memRead (a + 1) k

/-- The number that `n` bytes from `a` spell, little-endian. -/
def State.memNum (s : State) (a n : Nat) : Nat := ofLeBytes (s.memRead a n)

/-- The 256-byte pieces of an access, by first address (R400). -/
def pieces (a : Nat) (n : Nat) : List Nat :=
  if n = 0 then [] else (List.range ((a + n - 1) / 256 - a / 256 + 1)).map fun i => (a / 256 + i) * 256

/-- Count the accesses of `n` bytes from `a` that fall in fenced pseudo-channels (R413). -/
def State.countFenced (s : State) (a n : Nat) : State :=
  (pieces a n).foldl (fun s b =>
    let pc := s.pcOf b
    if s.pcFenced pc then s.bump (STK_PC_ERR.FENCED_ACCESS pc) 1 else s) s

/-- Reads of a block of which the spec does not say how many sub-requests it makes: each fenced pseudo-channel counts a
free number of them (R413). -/
def State.fencedReads (s : State) : State :=
  ((List.range 32).filter s.pcFenced).foldl (fun s pc =>
    { (s.bump (STK_PC_ERR.FENCED_ACCESS pc) (Config.freeWord s.freeCtr).toNat) with freeCtr := s.freeCtr + 1 }) s

/-- C3 bytes moved count in the window of their pseudo-channels' arbiters (R403). -/
def State.countC3 (s : State) (a n : Nat) : State :=
  (pieces a n).foldl (fun s b =>
    let pc := s.pcOf b
    let k := min (b + 256) (a + n) - max b a
    if s.pcFenced pc then s
    else { s with stk := { s.stk with c3 := Tbl.put (fun _ => 0) pc (Tbl.get (fun _ => 0) s.stk.c3 pc + k) s.stk.c3 } }) s

/-- A block's write: fenced accesses counted, bytes written. -/
def State.store (s : State) (a : Nat) (bs : List Byte) : State := (s.countFenced a bs.length).memWrite a bs

/-- A write of class C3. -/
def State.store3 (s : State) (a : Nat) (bs : List Byte) : State := (s.countC3 a bs.length).store a bs

/-! ### Lists -/

/-- Replace the element at `i`. -/
def setAt {α : Type} (l : List α) (i : Nat) (f : α → α) : List α := l.modify i f

end Sys2Proof.Machine
end

