-- ==== Sys2Proof/Machine/Flags.lean ====
section
/-! DEFINITION. Conditions, interrupt sources and event records: what every block's reports go through (chapters Interrupt
controller, Integrity, and R91 to R99). -/

namespace Sys2Proof.Machine

/-! ### Raising a source (R418, R527) -/

/-- A condition rises: its arrival comes in the core cycle after its cause, as INTERRUPT_ARRIVAL. -/
def State.raiseWith (s : State) (source code : Nat) : State :=
  { s with ic := { s.ic with raised := s.ic.raised ++ [⟨source, code⟩] } }

/-- A condition with CODE 0 (R453). -/
def State.raise (s : State) (source : Nat) : State := s.raiseWith source 0

/-- 16 + 4p of an engine's or port's link, with the REASON of the engine (R306, R453). -/
def State.raiseLink (s : State) (e : Nat) : State := s.raiseWith (16 + 4 * (e / 2)) (s.rd (SKN_ENG_STATUS.REASON e))

/-! ### Event reels (R91 to R94, R456) -/

/-- N of event reel `v`. -/
def State.evrSize (s : State) (v : Nat) : Nat := 2 ^ (s.evr v).sizeLog2

/-- F: the free slots of event reel `v` (R456). -/
def State.evrFree (s : State) (v : Nat) : Nat :=
  s.evrSize v - (s.rd (HIF_EVR_PRODUCED.PRODUCED v) + 2 ^ 32 - s.rd (HIF_EVR_CONSUMED.CONSUMED v)) % 2 ^ 32

/-- T: the alarm tail (R456). -/
def State.evrTail (s : State) (v : Nat) : Nat := s.evrSize v / 8

/-- R: completion slots reserved in event reel `v` (R77). -/
def State.evrReserved (s : State) (v : Nat) : Nat := (s.evr v).reserved

/-- A record other than ALARM finds room (R456); in D3hot there is none (R67). -/
def State.evrRoom (s : State) (v : Nat) : Bool := !s.hif.d3hot && decide (s.evrFree v > s.evrTail v + s.evrReserved v)

/-- An ALARM record finds room (R456, R67). -/
def State.alarmRoom (s : State) (v : Nat) : Bool := !s.hif.d3hot && decide (s.evrFree v > s.evrReserved v)

/-- Event reel `v` takes records. -/
def State.evrOn (s : State) (v : Nat) : Bool := s.flag (HIF_EVR_STATUS.ACTIVE v)

/-- The 32 bytes of a record as a number, for record number `n` of a reel of 2^z records (R93, R94). -/
def Record.image (r : Record) (n z : Nat) : Nat :=
  r.kind + 2 ^ 8 * r.sev + 2 ^ 16 * (r.body % 2 ^ 112) + 2 ^ 128 * (r.time % 2 ^ 64) +
    2 ^ 192 * (r.tick % 2 ^ 48) + 2 ^ 248 * (1 - n / 2 ^ z % 2)

/-- The SOURCE of a CONDITION record (R453). -/
def Record.source (r : Record) : Nat := bitsOf r.body 16 16

/-- A record goes into its slot: one posted write, the produced count rises, and the reel's source is raised where R99
says so. -/
def State.putRecord (s : State) (v : Nat) (r : Record) : State :=
  let n := s.rd (HIF_EVR_PRODUCED.PRODUCED v)
  let z := (s.evr v).sizeLog2
  let s := s.hostWrite ((s.evr v).base + 32 * (n % 2 ^ z)) 32 (r.image n z)
  let s := s.wr (HIF_EVR_PRODUCED.PRODUCED v) ((n + 1) % 2 ^ 32)
  let own := r.kind == 2 && decide (8 ≤ r.source) && decide (r.source ≤ 15)
  if !own && (r.sev ≥ s.rd (HIF_EVR_CFG.IRQ_SEV v) || r.irq) then s.raise (8 + v) else s

/-- A record formed now (R94). -/
def State.record (s : State) (kind sev body : Nat) : Record :=
  { kind, sev, body, time := s.now, tick := s.tickNo }

/-- One record is dropped: counted in SIG_DROPS and in the reel's pending summary (R458). -/
def State.dropRecord (s : State) (v : Nat) (r : Record) : State :=
  let s := s.bump SIG_DROPS.DROPPED 1
  s.setEvr v fun q =>
    let d : DropSummary := q.summary.getD { firstTick := s.tickNo }
    { q with summary := some { d with
        dropped := satAdd 16 d.dropped 1,
        kinds := setAt d.kinds (r.kind - 1) fun n => satAdd 8 n 1 } }

/-! ### ALARM records (R459) -/

/-- A record with its COUNT field set, where its kind has one (R453). -/
def Record.withCount (r : Record) (n : Nat) : Record :=
  if r.kind = 2 then { r with body := insertBits r.body 0 8 (min n 255) }
  else if r.kind = 4 then { r with body := insertBits r.body 24 8 (min n 255) }
  else r

/-- The image under which an alarm goes out. -/
def Alarm.out (a : Alarm) : Record := if a.ident = .single then a.record else a.record.withCount a.count

/-- The depth of all alarm queues (SIG_ALARM_QUEUE.DEPTH). -/
def State.alarmDepth (s : State) : Nat := ((List.range 8).map fun v => (s.evr v).queue.length).sum

/-- Add an alarm to a queue, merging by identity (R459). -/
def queueAlarm (a : Alarm) : List Alarm → List Alarm
  | [] => [a]
  | b :: q => if a.ident ≠ .single ∧ b.ident = a.ident then { b with count := b.count + a.count } :: q
              else b :: queueAlarm a q

/-- Write queued alarms, oldest first, while slots are free (R456, R459). -/
def State.drainList (s : State) (v : Nat) : List Alarm → State
  | [] => s.setEvr v fun q => { q with queue := [] }
  | a :: r =>
    if s.alarmRoom v then (s.putRecord v a.out).drainList v r
    else s.setEvr v fun q => { q with queue := a :: r }

def State.drainAlarms (s : State) (v : Nat) : State :=
  if (s.evr v).queue = [] then s else s.drainList v (s.evr v).queue

/-- An ALARM record is written at once where there is room, else it waits in the queue. -/
def State.emitAlarm (s : State) (v : Nat) (a : Alarm) : State :=
  let s := s.drainAlarms v
  if (s.evr v).queue = [] ∧ s.alarmRoom v then s.putRecord v a.out
  else
    let s := s.setEvr v fun q => { q with queue := queueAlarm a q.queue }
    s.wr SIG_ALARM_QUEUE.PEAK (max (s.rd SIG_ALARM_QUEUE.PEAK) s.alarmDepth)

/-- Gather an alarm into the follow-up of its identity (R459); the first record of the tick has left a mark. -/
def gather (a : Alarm) : List Alarm → List Alarm
  | [] => []
  | b :: q => if b.ident = a.ident then (if b.count = 0 then a else { b with count := b.count + a.count }) :: q
              else b :: gather a q

/-- An ALARM record of an identity is formed for event reel `v`. -/
def State.postAlarm (s : State) (v : Nat) (i : Ident) (r : Record) : State :=
  if !s.evrOn v then s.bump SIG_DROPS.DROPPED 1
  else if i = .single then s.emitAlarm v ⟨i, r, 1⟩
  else if (s.evr v).followUps.any fun b => b.ident = i then
    s.setEvr v fun q => { q with followUps := gather ⟨i, r, 1⟩ q.followUps }
  else
    (s.emitAlarm v ⟨i, r, 1⟩).setEvr v fun q => { q with followUps := q.followUps ++ [⟨i, r, 0⟩] }

/-- At a tick edge the follow-ups of the tick are written, and the marks go (R459). -/
def State.flushFollowUps (s : State) (v : Nat) : State :=
  let l := (s.evr v).followUps
  (l.filter fun a => a.count ≠ 0).foldl (fun s a => s.emitAlarm v a) (s.setEvr v fun q => { q with followUps := [] })

/-! ### Other records (R455 to R458) -/

/-- The SIG_QUOTA of a class: 0 CONDITION, 1 SIGNATURE, 2 PLANE_CRC, 3 OTHER. -/
def State.quota (s : State) (cls : Nat) : Nat :=
  s.rd (match cls with
    | 0 => SIG_QUOTA.CONDITION | 1 => SIG_QUOTA.SIGNATURE | 2 => SIG_QUOTA.PLANE_CRC | _ => SIG_QUOTA.OTHER)

/-- A record other than ALARM, of a quota class, for event reel `v`. -/
def State.postOther (s : State) (v cls : Nat) (r : Record) : State :=
  if !s.evrOn v then s.bump SIG_DROPS.DROPPED 1
  else
    let s := s.drainAlarms v
    let used := (s.evr v).used.getD cls 0
    if s.evrRoom v ∧ used < s.quota cls then
      (s.putRecord v r).setEvr v fun q => { q with used := setAt q.used cls (· + 1) }
    else s.dropRecord v r

/-- A record of the integrity block goes to the reel of its severity (R455). -/
def State.post (s : State) (cls : Nat) (i : Ident) (r : Record) : State :=
  if r.sev = 2 then s.postAlarm (s.rd SIG_CFG.ALARM_EVR) i r else s.postOther (s.rd SIG_CFG.EVR) cls r

/-- The pending summary is written where there is room (R458). -/
def State.writeSummary (s : State) (v : Nat) : State :=
  match (s.evr v).summary with
  | none => s
  | some d =>
    if s.evrRoom v then
      let body := 2 ^ 16 * d.dropped + 2 ^ 32 * (d.firstTick % 2 ^ 16) +
        ((d.kinds.zipIdx).map fun p => p.1 * 2 ^ (48 + 8 * p.2)).sum
      let s := s.putRecord v (s.record 6 1 body)
      (s.bump SIG_DROPS.SUMMARIES 1).setEvr v fun q => { q with summary := none, summaryRipe := false }
    else s

/-! ### Record bodies (R453) -/

/-- INDEX of a CONDITION record: p, e or c of the source formula. -/
def sourceIndex (n : Nat) : Nat :=
  if n < 8 then 0 else if n < 16 then 0 else if n < 80 then (n - 16) / 4 else if n < 144 then (n - 80) / 4
  else if n < 208 then (n - 144) / 2 else if n < 240 then (n - 208) / 4
  else if 256 ≤ n ∧ n < 264 then n - 256 else if 264 ≤ n ∧ n < 272 then n - 264 else 0

/-- Severity of a source's CONDITION record: 3 is SUPPRESS (R454). -/
def State.sourceSev (s : State) (n : Nat) : Nat :=
  bitsOf (s.word (0x340100 + 4 * (n / 16))).toNat (2 * (n % 16)) 2

/-- The CONDITION record of an arrival (R454). -/
def State.postCondition (s : State) (n code : Nat) : State :=
  let sev := s.sourceSev n
  if n < 320 ∧ sev ≠ 3 then
    s.post 0 (.condition n) (s.record 2 sev (1 + 2 ^ 8 * code + 2 ^ 16 * n + 2 ^ 32 * sourceIndex n))
  else s

/-- The ESCALATION record of an instance (R453). -/
def State.postEscalation (s : State) (sev k inst old new total : Nat) (fenced unfenced : Bool) : State :=
  s.post 3 (.escalation k inst) (s.record 3 sev
    (k + 2 ^ 8 * (old + 4 * new + 16 * b2n fenced + 32 * b2n unfenced) + 2 ^ 16 * inst + 2 ^ 48 * total))

/-- A SIGNATURE record: event 0 mismatch, 1 failed, 2 frozen, 3 freeze cleared, 4 fallback acknowledged (R453). -/
def State.postSignature (s : State) (sev c r event crc : Nat) : State :=
  s.post 1 (.signature c r) (s.record 4 sev (c + 2 ^ 8 * r + 2 ^ 16 * event + 2 ^ 24 + 2 ^ 48 * crc))

/-- A PLANE_CRC record (R451, R453). -/
def State.postPlaneCrc (s : State) (e status tick crc echo : Nat) : State :=
  s.post 2 (.planeCrc e) (s.record 5 1
    (e + 2 ^ 8 * status + 2 ^ 16 * (tick % 2 ^ 32) + 2 ^ 48 * crc + 2 ^ 80 * echo))

/-- A host-interface notice (R96). -/
def State.notice (s : State) (n code sev reel seq : Nat) : State :=
  let r := s.record 1 sev (code + 2 ^ 8 * reel + 2 ^ 48 * seq + 2 ^ 80 * 255 + 2 ^ 96 * n)
  let v := s.rd HIF_CFG.NOTICE_EVR
  if sev = 2 then s.postAlarm v .single r else s.postOther v 3 r

/-! ### The interrupt controller (R421 to R431) -/

def State.pendBit (s : State) (n : Nat) : Bool := s.flag (IC_SRC_STATE.PENDING n)
def State.actBit (s : State) (n : Nat) : Bool := s.flag (IC_SRC_STATE.ACTIVE n)

def State.icTarget (s : State) (t : Nat) : IcTarget := Tbl.get (fun _ => {}) s.ic.targets t
def State.setTarget (s : State) (t : Nat) (f : IcTarget → IcTarget) : State :=
  { s with ic := { s.ic with targets := Tbl.put (fun _ => {}) t (f (s.icTarget t)) s.ic.targets } }

/-- Group priority of a source (R422). -/
def State.groupOf (s : State) (n : Nat) : Nat := s.rd (IC_SRC_CFG.PRIORITY n) >>> s.rd IC_CFG.PRIGROUP

/-- Running priority of a target (R423). -/
def State.running (s : State) (t : Nat) : Nat :=
  (List.range 384).foldl (fun m n =>
    if s.actBit n && s.rd (IC_SRC_STATE.ACTIVE_TGT n) == t then min m (s.groupOf n) else m) 256

/-- Source `n` is deliverable to target `t` under running priority `run` (R423). -/
def State.deliverable (s : State) (t run n : Nat) : Bool :=
  s.pendBit n && !s.actBit n && s.flag (IC_SRC_CFG.ENABLE n) && s.rd (IC_SRC_CFG.TARGET n) == t &&
    decide (s.groupOf n < run)

/-- The deliverable set of a target (R423). -/
def State.deliverables (s : State) (t : Nat) : List Nat :=
  let run := s.running t
  (List.range 384).filter (s.deliverable t run)

/-- Order of urgency of two sources: PRIORITY, then the earlier pending, then the lower number (R424). -/
def State.moreUrgent (s : State) (a b : Nat) : Bool :=
  let pa := s.rd (IC_SRC_CFG.PRIORITY a)
  let pb := s.rd (IC_SRC_CFG.PRIORITY b)
  let ta := Tbl.get (fun _ => 0) s.ic.pendSince a
  let tb := Tbl.get (fun _ => 0) s.ic.pendSince b
  decide (pa < pb) || (pa == pb && (decide (ta < tb) || (ta == tb && decide (a < b))))

/-- The best of a list of sources (R424). -/
def State.best (s : State) : List Nat → Option Nat
  | [] => none
  | a :: r => match s.best r with
    | none => some a
    | some b => if s.moreUrgent b a then some b else some a

/-- PIN targets follow their deliverable sets, and IRQ_L follows the PIN targets (R427, R428, R433). -/
def State.settlePins (s : State) : State :=
  let s := (List.range 16).foldl (fun s t =>
    if s.flag (IC_TGT_STATE.ASSERTING t) &&
        (!s.flag (IC_TGT_CFG.KIND t) || s.flag (IC_TGT_CFG.ASLEEP t) || (s.deliverables t).isEmpty)
    then s.wr (IC_TGT_STATE.ASSERTING t) 0 else s) s
  { s with pwr := { s.pwr with irqLow := (List.range 16).any fun t => s.flag (IC_TGT_STATE.ASSERTING t) } }

/-- The order in which sources become pending (R424). -/
def State.markPending (s : State) (n : Nat) : State :=
  { s with ic := { s.ic with
    clock := s.ic.clock + 1
    pendSince := if s.pendBit n then s.ic.pendSince else Tbl.put (fun _ => 0) n (s.ic.clock + 1) s.ic.pendSince } }

/-- An arrival of an enabled source counts towards the notification of its target (R425). -/
def State.countFor (s : State) (n : Nat) : State :=
  if s.flag (IC_SRC_CFG.ENABLE n) then
    s.setTarget (s.rd (IC_SRC_CFG.TARGET n)) fun t =>
      { t with arrivals := t.arrivals + 1, firstAt := some (t.firstAt.getD s.now) }
  else s

/-- One arrival of source `n` (R421, R431). -/
def State.arrive (s : State) (n : Nat) : State :=
  (((s.bump (IC_SRC_STATE.COUNT n) 1).markPending n).wr (IC_SRC_STATE.PENDING n) 1).countFor n

/-- Arm a target (R425). -/
def State.arm (s : State) (t : Nat) : State := s.wr (IC_TGT_STATE.ARMED t) 1

/-- The host interface can send a message (R426). -/
def State.canSend (s : State) : Bool := s.flag HIF_STATUS.LINK_UP && !s.hif.d3hot && s.hif.msixEnable

/-- A value written to the message doorbell by any path (R419). -/
def State.msgDoorbell (s : State) (n : Nat) : State :=
  if 320 ≤ n ∧ n ≤ 383 then (s.bump IC_STATS.MSG_COUNT 1).arrive n else s.bump IC_STATS.MSG_BAD 1

/-- The default of the MSI-X table: every vector masked. PRESUMED: the reset value of the PCIe base specification. -/
def msixDefault (k : Nat) : Word := if k % 4 = 3 then 1 else 0

/-- Send the message of vector `n`, or set its PBA bit where the vector or the function is masked (R426). -/
def State.sendMsix (s : State) (n : Nat) : State :=
  if s.hif.msixMask || (Tbl.get msixDefault s.hif.msixTable (4 * n + 3)).toNat % 2 == 1 then
    { s with hif := { s.hif with pba := setBit s.hif.pba n 1 } }
  else { s with hif := { s.hif with msix := s.hif.msix ++ [n] } }

end Sys2Proof.Machine
end

