-- ==== Sys2Proof/Machine/Interrupts.lean ====
section
/-! DEFINITION. The commands of the interrupt controller (chapter Interrupt controller), and the service gates of set-up
writes (R98). -/

namespace Sys2Proof.Machine

/-- What a command answers. -/
abbrev Out := Host.Outcome State Fault Refusal

/-- A set-up write: served in service, dropped and counted during a long operation (R98). -/
def State.setup (s : State) (f : State → State) : State :=
  s.inService fun s => if s.flag DEV_STATUS.BUSY then s.bump DEV_SETUP_DROPPED.COUNT 1 else f s

/-- IC_MSG_DOORBELL: the host's path to the message doorbell (R419). -/
def execIcMsgDoorbell (w : Nat) (s : State) : Out := .next (s.setup fun s => s.msgDoorbell (w % 512))

/-- IC_SRC_SET: an arrival of any source; 384 and above do nothing (R420). -/
def execIcSrcSet (w : Nat) (s : State) : Out :=
  .next (s.setup fun s => if w % 512 < 384 then s.arrive (w % 512) else s)

/-- The pending bits a write of 1s clears; counters and active bits stay (R420). -/
def State.clearPend (s : State) (k w : Nat) : State :=
  (List.range 32).foldl (fun s i => if bitOf w i then s.wr (IC_SRC_STATE.PENDING (32 * k + i)) 0 else s) s

/-- IC_PEND_CLEAR: a W1C write to IC_PENDk (R420). -/
def execIcPendClear (k w : Nat) (s : State) : Out :=
  .next (s.setup fun s => if k < 12 then (s.clearPend k w).settlePins else s)

/-- The claim value of a source: SOURCE, COUNT and PRIORITY (R429). -/
def claimValue (n count prio : Nat) : Word := BitVec.ofNat 32 (n + 2 ^ 16 * count + 2 ^ 24 * prio)

/-- The value that the read of a claim register returns. -/
def State.setClaimed (s : State) (w : Word) : State := { s with ic := { s.ic with claimed := w } }

/-- The claim of a source, if any, on target `t` (R429): it becomes active and its counter is returned and cleared. -/
def State.claimFor (s : State) (t : Nat) : Option Nat → State
  | none => s.setClaimed (claimValue 0x1FF 0 0)
  | some n =>
    let v := claimValue n (s.rd (IC_SRC_STATE.COUNT n)) (s.rd (IC_SRC_CFG.PRIORITY n))
    ((s.wrs [(IC_SRC_STATE.ACTIVE n, 1), (IC_SRC_STATE.ACTIVE_TGT n, t), (IC_SRC_STATE.PENDING n, 0),
      (IC_SRC_STATE.COUNT n, 0)]).setClaimed v).settlePins

/-- A claim on target `t` (R429) re-arms it and takes its best source. -/
def State.claim (s : State) (t : Nat) : State :=
  let s := s.arm t
  s.claimFor t (s.best (s.deliverables t))

/-- IC_TGT_CLAIM: a read of the claim register; during a long operation it returns 0xB0B0_B0B0 and claims nothing
(R12, R429). -/
def execIcTgtClaim (t : Nat) (s : State) : Out :=
  .next (s.inService fun s =>
    if 16 ≤ t then s
    else if s.flag DEV_STATUS.BUSY then s.setClaimed 0xB0B0B0B0#32
    else s.claim t)

/-- A completion written to target `t` (R430); valid or ignored, it re-arms the target (R425). -/
def State.complete (s : State) (t n : Nat) : State :=
  let s := s.arm t
  if n < 384 ∧ s.actBit n ∧ s.rd (IC_SRC_STATE.ACTIVE_TGT n) = t then (s.wr (IC_SRC_STATE.ACTIVE n) 0).settlePins
  else s.bump (IC_TGT_STATS.BAD_COMPLETE t) 1

/-- IC_TGT_COMPLETE: a write of a source number. -/
def execIcTgtComplete (t w : Nat) (s : State) : Out :=
  .next (s.setup fun s => if t < 16 then s.complete t (w % 512) else s)

/-- RELEASE: every active bit held by the target clears and the target is re-armed (R435). -/
def State.release (s : State) (t : Nat) : State :=
  let s := (List.range 384).foldl (fun s n =>
    if s.actBit n && s.rd (IC_SRC_STATE.ACTIVE_TGT n) == t then s.wr (IC_SRC_STATE.ACTIVE n) 0 else s) s
  (s.arm t).settlePins

def execRelease (t w : Nat) (s : State) : Out :=
  .next (s.setup fun s => if t < 16 ∧ bitOf w 0 then s.release t else s)

/-- TARGET_WAKE: a write of IC_TGT_CFG whose ASLEEP goes from 1 to 0 re-arms the target (R425, R428). -/
def execTargetWake (t w : Nat) (s : State) : Out :=
  .next (s.setup fun s =>
    if t < 16 then
      let woke := s.flag (IC_TGT_CFG.ASLEEP t) && !bitOf w 7
      let s := s.wrs [(IC_TGT_CFG.KIND t, bitsOf w 0 1), (IC_TGT_CFG.VECTOR t, bitsOf w 1 6),
        (IC_TGT_CFG.ASLEEP t, bitsOf w 7 1)]
      (if woke then s.arm t else s).settlePins
    else s)

/-- Take the first raised condition of a source out of the list. -/
def takeRaised (n : Nat) : List Raised → Option (Raised × List Raised)
  | [] => none
  | a :: r => if a.source = n then some (a, r) else (takeRaised n r).map fun p => (p.1, a :: p.2)

/-- INTERRUPT_ARRIVAL: a risen condition latches its arrival, and its CONDITION record is written (R418, R454). -/
def execInterruptArrival (n : Nat) (s : State) : Out :=
  .next (s.inService fun s =>
    match takeRaised n s.ic.raised with
    | none => s
    | some (a, r) => (({ s with ic := { s.ic with raised := r } }).arrive n).postCondition n a.code)

/-- The smallest group priority of a list of sources; 256 for none. -/
def State.minGroup (s : State) (l : List Nat) : Nat := l.foldl (fun m n => min m (s.groupOf n)) 256

/-- A source pre-empts what was deliverable at the target's last notification (R425). -/
def State.preempts (s : State) (t : Nat) (l : List Nat) : Bool :=
  (s.icTarget t).notified && decide (s.minGroup l < (s.icTarget t).notifyGroup)

/-- The coalescing condition of R425 for a deliverable set. -/
def State.coalesced (s : State) (t : Nat) (l : List Nat) : Bool :=
  let g := s.icTarget t
  let coTime := s.rd (IC_TGT_COAL.CO_TIME t)
  decide (max 1 (s.rd (IC_TGT_COAL.CO_COUNT t)) ≤ g.arrivals) ||
    (match g.firstAt with | none => false | some a => decide (a + 1000 * coTime ≤ s.now)) ||
    (g.notified && l.any fun n => g.notifySet.contains n || decide (Tbl.get (fun _ => 0) s.ic.pendSince n ≤ g.notifyMark)) ||
    s.preempts t l

/-- Target `t` is due to notify (R425). -/
def State.notifyDue (s : State) (t : Nat) : Bool :=
  let l := s.deliverables t
  t < 16 && (s.flag (IC_TGT_STATE.ARMED t) || s.preempts t l) && !l.isEmpty && !s.flag (IC_TGT_CFG.ASLEEP t) &&
    (s.flag (IC_TGT_CFG.KIND t) || s.canSend) && s.coalesced t l

/-- NOTIFY: the target sends its MSI-X message or asserts IRQ_L, and coalescing restarts (R425 to R427). -/
def execNotify (t : Nat) (s : State) : Out :=
  .next (s.inService fun s =>
    if s.notifyDue t then
      let l := s.deliverables t
      let group := s.minGroup l
      let s := s.wr (IC_TGT_STATE.ARMED t) 0
      let s := s.bump (IC_TGT_STATS.NOTIFY t) 1
      let s := s.setTarget t fun _ =>
        { arrivals := 0, firstAt := none, notifyMark := s.ic.clock, notifyGroup := group, notifySet := l, notified := true }
      if s.flag (IC_TGT_CFG.KIND t) then (s.wr (IC_TGT_STATE.ASSERTING t) 1).settlePins
      else s.sendMsix (s.rd (IC_TGT_CFG.VECTOR t))
    else s)

/-- Pending MSI-X messages go out when neither the vector nor the function masks them (R426, PCIe pending bits). -/
def State.flushPba (s : State) : State :=
  (List.range 64).foldl (fun s n =>
    if bitOf s.hif.pba n && s.canSend && !s.hif.msixMask && (Tbl.get msixDefault s.hif.msixTable (4 * n + 3)).toNat % 2 == 0
    then { s with hif := { s.hif with pba := setBit s.hif.pba n 0, msix := s.hif.msix ++ [n] } } else s) s

/-- MSIX_ENABLE_WRITE: a configuration write sets MSI-X Enable and Function Mask (R426). -/
def execMsixEnableWrite (enable mask : Bool) (s : State) : Out :=
  .next (s.inService fun s =>
    ({ s with hif := { s.hif with msixEnable := enable, msixMask := mask } }).flushPba)

end Sys2Proof.Machine
end

