-- ==== Sys2Proof/Machine/Operands.lean ====
section
/-! DEFINITION. The operand forms of descriptors: their fields, the reserved bits, and the checks of R82. -/

namespace Sys2Proof.Machine

/-- Bits [lo+w-1:lo] of the little-endian bytes from byte `b` of a descriptor (R6, R81). -/
def dF (d : Desc) (b lo w : Nat) : Nat := bitsOf d.toNat (8 * b + lo) w

/-- A one-bit field. -/
def dB (d : Desc) (b lo : Nat) : Bool := dF d b lo 1 == 1

/-- A signed field. -/
def dS (d : Desc) (b lo w : Nat) : Int := signedOf (dF d b lo w) w

/-- OPCODE, INDEX and TAG (R81). -/
def dOpcode (d : Desc) : Nat := dF d 0 0 8
def dIndex (d : Desc) : Nat := dF d 2 0 16
def dTag (d : Desc) : Nat := dF d 4 0 32
def dCmpl (d : Desc) : Bool := dB d 1 0
def dIrq (d : Desc) : Bool := dB d 1 1
def dHaltOnFail (d : Desc) : Bool := dB d 1 2

/-- The bits that a list of argument fields (byte, bit, width) covers. -/
def fieldMask (l : List (Nat × Nat × Nat)) : Nat :=
  l.foldl (fun m f => m ||| ((2 ^ f.2.2 - 1) <<< (8 * f.1 + f.2.1))) (2 ^ 64 - 1)

/-- Every argument bit outside the named fields is 0, and so are the reserved bits of byte 1 (R10, R81). -/
def resvOk (d : Desc) (l : List (Nat × Nat × Nat)) : Bool :=
  (d.toNat &&& (2 ^ 512 - 1 - fieldMask l)) == 0 && dF d 1 3 5 == 0

/-- A host access of `n` bytes at `a`, aligned to `al` (R82, order 3). -/
def hostOk (a n al : Nat) : Bool := a % al == 0 && decide (a + n ≤ 2 ^ 64)

/-- 16 GiB (R395). -/
def stackBytes : Nat := 2 ^ 34

/-- A stack access of `n` bytes at `a`, aligned to `al` (R82, order 3). -/
def stackOk (a n al : Nat) : Bool := a % al == 0 && decide (a + n ≤ stackBytes)

/-- The life-cycle state forbids the opcode: BLANK allows NOP, FENCE and READ_BACK (R488). -/
def State.lcForbids (s : State) (op : Nat) : Bool := s.rd DEV_STATUS.LC == 0 && !(op == 0 || op == 1 || op == 3)

/-- Completion codes of R83. -/
def cDone : Nat := 0
def cDeferred : Nat := 1
def cSuperseded : Nat := 2
def cBadOpcode : Nat := 8
def cBadField : Nat := 9
def cBadAddress : Nat := 10
def cHostReadError : Nat := 11
def cLongOpActive : Nat := 12
def cTempForbidden : Nat := 13
def cFenced : Nat := 14
def cLifecycle : Nat := 15

/-- The checks of R82 from order 2 on: `none` where the descriptor passes. -/
def State.r82 (s : State) (d : Desc) (used : List (Nat × Nat × Nat)) (fields addrs fenced startsStore : Bool) : Option Nat :=
  if !resvOk d used || !fields then some cBadField
  else if !addrs then some cBadAddress
  else if s.lcForbids (dOpcode d) then some cLifecycle
  else if fenced then some cFenced
  else if startsStore && s.flag DEV_STATUS.BUSY then some cLongOpActive
  else if startsStore && !s.flag THM_STATUS.WRITE_OK then some cTempForbidden
  else none

/-- What executing a descriptor comes to: completed with a code and DETAIL, still in execution, or already completed by
the operation itself (a commit's later outcome takes over its record). -/
inductive Res where
  | done (s : State) (code detail : Nat)
  | wait (s : State) (b : Busy)
  | admitted (s : State)
  /-- Nothing happens yet. -/
  | rest

/-- The completion of a descriptor that R82 refuses changes nothing. -/
def State.checked (s : State) (c : Option Nat) (k : Unit → Res) : Res :=
  match c with
  | some code => .done s code 0
  | none => k ()

end Sys2Proof.Machine
end

