-- ==== Sys2Proof/Machine/ReelOps.lean ====
section
/-! DEFINITION. Execution of descriptors: completion records, halting, and the front of a reel (R71 to R75, R94 to R96). -/

namespace Sys2Proof.Machine

/-- The opcodes of R85. -/
def opcodes : List Nat :=
  [0x00, 0x01, 0x02, 0x03, 0x04, 0x10, 0x11, 0x12, 0x13, 0x20, 0x21, 0x22, 0x23, 0x24, 0x25, 0x28, 0x29, 0x2A, 0x30, 0x31,
   0x32, 0x33, 0x34, 0x35, 0x38, 0x39, 0x3A, 0x40]

/-- R75 forbids the opcode on a reel of this class. -/
def classForbids (cls op : Nat) : Bool :=
  if cls = 0 then !([0x00, 0x01, 0x23, 0x24, 0x2A, 0x12].contains op) else op == 0x23 || op == 0x24

/-- Order 1 of R82. -/
def badOpcode (cls op : Nat) : Bool := !opcodes.contains op || classForbids cls op

/-- The origin of the descriptor at the front of reel `r`. -/
def State.originOf (s : State) (r : Nat) (d : Desc) : Origin :=
  let c := s.reel r
  let k := c.carry.getD (s.rd (HIF_CR_EXEC.EXEC r), c.evr, c.cls)
  { reel := r, evr := k.2.1, cls := k.2.2, seq := k.1, opcode := dOpcode d, tag := dTag d, cmpl := dCmpl d, irq := dIrq d }

/-- A reserved completion slot is used or given back (R77). -/
def State.freeSlot (s : State) (o : Origin) : State :=
  if o.cls = 0 then s else s.setEvr o.evr fun q => { q with reserved := q.reserved - 1 }

/-- Severity of a completion (R95). -/
def completionSev (cls code : Nat) : Nat :=
  if cls = 0 then (if code = cDone then 0 else 2)
  else if code = cDone ∨ code = cDeferred ∨ code = cSuperseded then 0 else 1

/-- A completion record (R94). -/
def State.completionRecord (s : State) (o : Origin) (code detail : Nat) : Record :=
  { s.record 1 (completionSev o.cls code)
      (code + 2 ^ 8 * o.reel + 2 ^ 16 * o.tag + 2 ^ 48 * o.seq + 2 ^ 80 * o.opcode + 2 ^ 96 * (detail % 65536)) with irq := o.irq }

/-- A completion in its reserved slot (R95, R456); for a disabled event reel it is discarded (R455). -/
def State.putReserved (s : State) (v : Nat) (r : Record) : State :=
  if !s.evrOn v then s.bump SIG_DROPS.DROPPED 1
  else
    let s := s.drainAlarms v
    if s.evrFree v = 0 then s.dropRecord v r else s.putRecord v r

/-- The final record of a descriptor, written unless it is DONE without CMPL (R81, R86, R95), or a host-interface reset has
discarded it (R66). -/
def State.outcome (s : State) (o : Origin) (code detail : Nat) : State :=
  if o.dead then s else
  let s := if code = cDone then s else s.wr (HIF_CR_STATUS.LAST_CODE o.reel) code
  let r := s.completionRecord o code detail
  if code = cDone ∧ o.cmpl = false then s.freeSlot o
  else if o.cls = 0 then (if code = cDone then s.postOther o.evr 3 r else s.postAlarm o.evr .single r)
  else (s.freeSlot o).putReserved o.evr r

/-- The DEFERRED record of a commit, which uses free space (R86, R95). -/
def State.deferredRecord (s : State) (o : Origin) : State :=
  if o.cmpl && !o.dead then s.postOther o.evr 3 (s.completionRecord o cDeferred 0) else s

/-- The front descriptor of reel `r` is executed (R71); a disabled reel is then idle (R72). -/
def State.executed (s : State) (r : Nat) : State :=
  let carried := (s.reel r).carry.isSome
  let s := s.setReel r fun c => { c with
    fetched := c.fetched.tail, busy := none, carry := none, wbDue := c.wbDue || s.flag (HIF_CR_HEAD_WB.ENABLE r) }
  let s := if carried then s else s.wr (HIF_CR_EXEC.EXEC r) ((s.rd (HIF_CR_EXEC.EXEC r) + 1) % 2 ^ 32)
  let s := s.wr (HIF_CR_STATUS.WAITING r) 0
  if s.flag (HIF_CR_CFG.ENABLE r) then s else s.wr (HIF_CR_STATUS.ACTIVE r) 0

/-- HALT_ON_FAIL (R73). -/
def State.haltOn (s : State) (r : Nat) (d : Desc) (code : Nat) : State :=
  if dHaltOnFail d ∧ 2 < code ∧ s.flag (HIF_CR_CFG.ENABLE r) then
    (s.wr (HIF_CR_STATUS.HALTED r) 1).notice 3 code 1 r (s.reel r).fetchCount
  else s

/-- The front descriptor completes. -/
def State.finish (s : State) (r : Nat) (d : Desc) (code detail : Nat) : State :=
  ((s.outcome (s.originOf r d) code detail).executed r).haltOn r d code

/-- The front descriptor of a reel that may execute. -/
def State.front (s : State) (r : Nat) : Option Desc :=
  if s.flag (HIF_CR_CFG.ENABLE r) && !s.flag (HIF_CR_STATUS.HALTED r) && (s.reel r).busy.isNone then (s.reel r).fetched.head?
  else none

/-- Descriptors that R82 refuses by their opcode complete as they reach the front. -/
def State.settleReel (s : State) (r : Nat) : Nat → State
  | 0 => s
  | n + 1 =>
    match s.front r with
    | none => s
    | some d => if badOpcode (s.reel r).cls (dOpcode d) then (s.finish r d cBadOpcode 0).settleReel r n else s

def State.settle (s : State) (r : Nat) : State := s.settleReel r (s.reel r).fetched.length

/-- What a body's result does to the front descriptor. -/
def State.apply (s : State) (r : Nat) (d : Desc) : Res → State
  | .done t code detail => (t.finish r d code detail).settle r
  | .wait t b => t.setReel r fun c => { c with busy := some b }
  | .admitted t => ((t.executed r).settle r)
  | .rest => s

/-- The descriptor at the front of reel `r` executes where its opcode is `op`; else the command is not due. -/
def State.runFront (s : State) (r op : Nat) (body : Nat → Desc → State → Res) : State :=
  match s.front r with
  | none => s
  | some d => if dOpcode d = op ∧ !badOpcode (s.reel r).cls op then s.apply r d (body r d s) else s

/-- A descriptor command. -/
def State.descriptor (s : State) (r op : Nat) (body : Nat → Desc → State → Res) : State :=
  s.inService fun s => if r < 64 then s.runFront r op body else s

/-- The descriptor of reel `r` in execution, with what it waits for. -/
def State.held (s : State) (r : Nat) : Option (Desc × Busy) :=
  match (s.reel r).fetched.head?, (s.reel r).busy with
  | some d, some b => some (d, b)
  | _, _ => none

/-- The descriptor in execution completes. -/
def State.endHeld (s : State) (r : Nat) (d : Desc) (code detail : Nat) : State := (s.finish r d code detail).settle r

end Sys2Proof.Machine
end

