-- ==== Sys2Proof/Machine/Surfaces.lean ====
section
/-! DEFINITION. Surfaces, palettes and atlases: formats, layouts, the ready state, and their descriptors (R100 to R119). -/

namespace Sys2Proof.Machine

/-! ### Formats and layouts (R104 to R107, R115) -/

def cSurfaceFormat : Nat := 0x22

/-- A YC format has a luma and a chroma plane (R104). -/
def isYc (fmt : Nat) : Bool := decide (3 ≤ fmt) && decide (fmt ≤ 5)

/-- Bytes of one element of plane `p` (R105, R106). -/
def elemBytes (fmt p : Nat) : Nat :=
  match fmt with
  | 0 => 4
  | 1 => 4
  | 2 => 8
  | 3 => if p = 0 then 1 else 2
  | 4 => if p = 0 then 2 else 4
  | 5 => if p = 0 then 2 else 4
  | _ => 1

/-- Twice the bytes per pixel of R104. -/
def bpp2 (fmt : Nat) : Nat :=
  match fmt with | 0 => 8 | 1 => 8 | 2 => 16 | 3 => 3 | 4 => 6 | 5 => 8 | _ => 2

/-- The planes of a format. -/
def planesOf (fmt : Nat) : List Nat := if isYc fmt then [0, 1] else [0]

/-- Divisors of width and height of plane `p` (R106). -/
def subX (fmt p : Nat) : Nat := if isYc fmt && p == 1 then 2 else 1
def subY (fmt p : Nat) : Nat := if (fmt == 3 || fmt == 4) && p == 1 then 2 else 1

/-- W_plane and rows of plane `p` (R107). -/
def Surface.planeW (f : Surface) (p : Nat) : Nat := f.width / subX f.format p
def Surface.planeH (f : Surface) (p : Nat) : Nat := f.height / subY f.format p

/-- T of R107. -/
def Surface.tiles (f : Surface) (p : Nat) : Nat := ceilDiv (f.planeW p * elemBytes f.format p) 128

/-- n_b, and H_A, of R115. -/
def Surface.blocks (f : Surface) : Nat := ceilDiv f.width 16 * ceilDiv f.height 16
def Surface.headerArea (f : Surface) : Nat := ceilDiv (2 * f.blocks) 4096 * 4096

/-- Footprint of plane `p` (R107). -/
def Surface.planeBytes (f : Surface) (p : Nat) : Nat :=
  match f.layout with
  | 0 => f.pitch * f.planeH p
  | 1 => f.tiles p * ceilDiv (f.planeH p) 32 * 4096
  | _ => f.headerArea + 1024 * f.blocks

/-- Footprint of a surface: the sum of its planes' (R107). -/
def Surface.footprint (f : Surface) : Nat := ((planesOf f.format).map f.planeBytes).sum

/-- Base of plane `p` (R107). -/
def Surface.planeBase (f : Surface) (p : Nat) : Nat := if p = 0 then f.base else f.base + f.planeBytes 0

/-- Stack address of element (x, y) of plane `p` in LINEAR and TILED (R107). -/
def Surface.addr (f : Surface) (p x y : Nat) : Nat :=
  let n := elemBytes f.format p
  if f.layout = 0 then f.planeBase p + y * f.pitch + x * n
  else f.planeBase p + (y / 32 * f.tiles p + x * n / 128) * 4096 + y % 32 * 128 + x * n % 128

/-- Bytes of the access units of plane `p` that a rectangle of its elements touches (R57, R107). -/
def Surface.unitsTouched (f : Surface) (p x y w h : Nat) : Nat :=
  if w = 0 ∨ h = 0 then 0
  else
    let n := elemBytes f.format p
    match f.layout with
    | 0 => 64 * ((List.range h).map fun r =>
        let a := f.addr p x (y + r) - f.base
        (a + w * n - 1) / 64 - a / 64 + 1).sum
    | 1 => 4096 * (((x + w) * n - 1) / 128 - x * n / 128 + 1) * ((y + h - 1) / 32 - y / 32 + 1)
    | _ => 1024 * ((x + w - 1) / 16 - x / 16 + 1) * ((y + h - 1) / 16 - y / 16 + 1)

/-- The header entry and the slot of block `b` of a HANK surface (R115). -/
def State.hankEntry (s : State) (f : Surface) (b : Nat) : Nat := s.memNum (f.base + 2 * b) 2
def State.hankSlot (s : State) (f : Surface) (b : Nat) : List Byte := s.memRead (f.base + f.headerArea + 1024 * b) 1024

/-- Block `b` decoded, and whether it has a decode error (R119). -/
def State.hankBlock (s : State) (f : Surface) (b : Nat) : List Nat × Bool :=
  decodeBlock f.format (s.hankEntry f b) (s.hankSlot f b)

/-- The block that holds a pixel (R115). -/
def Surface.blockOf (f : Surface) (x y : Nat) : Nat := y / 16 * ceilDiv f.width 16 + x / 16

/-- Element (x, y) of plane `p` as its number, LINEAR and TILED (R105, R106). -/
def State.element (s : State) (f : Surface) (p x y : Nat) : Nat := s.memNum (f.addr p x y) (elemBytes f.format p)

/-- The channels of pixel (x, y) of a format that Hank codes, in any layout (R105, R116). -/
def State.channels (s : State) (f : Surface) (x y : Nat) : List Nat :=
  if f.layout = 2 then
    let n := (hankWidths f.format).length
    ((s.hankBlock f (f.blockOf x y)).1.drop (n * (y % 16 * 16 + x % 16))).take n
  else rawChannels f.format (s.element f 0 x y)

/-! ### The ready state (R112) -/

/-- A write into a surface starts. -/
def State.startWrite (s : State) (i : Nat) : State := s.setSurface i fun f => { f with writes := f.writes + 1, ready := false }

/-- A write into a surface ends. -/
def State.endWrite (s : State) (i : Nat) (ok : Bool) : State :=
  s.setSurface i fun f => { f with writes := f.writes - 1, ready := if ok ∧ f.writes = 1 then true else f.ready }

/-! ### SURFACE_DEFINE (R101 to R103, R109) -/

/-- The surface descriptor that a SURFACE_DEFINE carries. -/
def surfaceOf (d : Desc) : Surface :=
  { base := dF d 8 0 64, width := dF d 16 0 16, height := dF d 18 0 16, format := dF d 20 0 4, layout := dF d 20 4 2,
    palSlot := dF d 21 0 8, pitch := dF d 24 0 32 }

def surfaceFields (f : Surface) (pal : Nat) : Bool :=
  decide (1 ≤ f.width) && decide (f.width ≤ 16384) && decide (1 ≤ f.height) && decide (f.height ≤ 16384) &&
    decide (f.format < 8) && f.layout != 3 && (f.format == 6 || (f.palSlot == 0 && pal == 0)) &&
    (if f.layout = 0 then f.pitch % 64 == 0 && decide (f.width * elemBytes f.format 0 ≤ f.pitch) && decide (f.pitch ≤ 262144)
     else f.pitch == 0)

/-- R102. -/
def surfaceFormatBad (f : Surface) : Bool :=
  (f.layout == 2 && !(f.format == 0 || f.format == 1 || f.format == 7)) || (isYc f.format && f.width % 2 == 1) ||
    ((f.format == 3 || f.format == 4) && f.height % 2 == 1)

/-- The descriptor is stored: the surface is not ready, its writes go on (R103, R112). -/
def State.defineSurface (s : State) (i : Nat) (f : Surface) : State :=
  s.setSurface i fun g => { f with ready := false, writes := g.writes }

def surfaceDefineBody (_ : Nat) (d : Desc) (s : State) : Res :=
  let f := surfaceOf d
  let pal := dF d 32 0 64
  s.checked (s.r82 d [(8, 0, 64), (16, 0, 16), (18, 0, 16), (20, 0, 4), (20, 4, 2), (21, 0, 8), (24, 0, 32), (32, 0, 64)]
      (decide (dIndex d < 4096) && surfaceFields f pal)
      (f.base % (if f.layout = 0 then 64 else 4096) == 0 && decide (f.base + f.footprint ≤ stackBytes) && hostOk pal 1024 64)
      false false) fun _ =>
    if surfaceFormatBad f then .done s cSurfaceFormat 0
    else if pal ≠ 0 then .wait s .hostData
    else .done (s.defineSurface (dIndex d) f) cDone 0

/-- SURFACE_DEFINE (R101). -/
def execSurfaceDefine (r : Nat) (s : State) : Out := .next (s.descriptor r 0x10 surfaceDefineBody)

/-- A palette slot takes 256 entries (R109). -/
def State.loadPalette (s : State) (slot : Nat) (bs : List Byte) : State :=
  (List.range 256).foldl (fun (s : State) i => { s with surf := { s.surf with
    palettes := Tbl.put (fun _ => 0) (256 * slot + i) (BitVec.ofNat 32 (leAt bs (4 * i) 4)) s.surf.palettes } }) s

/-- The palette of a SURFACE_DEFINE has arrived. -/
def paletteData (d : Desc) (bs : List Byte) (s : State) : Res :=
  .done ((s.loadPalette (dF d 21 0 8) bs).defineSurface (dIndex d) (surfaceOf d)) cDone 0

/-! ### SURFACE_COPY (R108) -/

/-- Rows and bytes of a row of each plane of a RECT. -/
def rectPlanes (fmt w h : Nat) : List (Nat × Nat × Nat) :=
  (planesOf fmt).map fun p => (p, h / subY fmt p, w / subX fmt p * elemBytes fmt p)

/-- The end of the host bytes that a RECT copy reads. -/
def rectHostEnd (fmt a pitch w h : Nat) : Nat :=
  ((rectPlanes fmt w h).map fun q => a + (if q.1 = 0 then 0 else pitch * h) + pitch * (q.2.1 - 1) + q.2.2).foldl max a

def copyFields (f : Surface) (d : Desc) : Bool :=
  let mode := dF d 20 0 1
  let x := dF d 24 0 16
  let y := dF d 26 0 16
  let w := dF d 28 0 16
  let h := dF d 30 0 16
  let len := dF d 40 0 32
  if mode = 0 then
    decide (1 ≤ w) && decide (1 ≤ h) && decide (x + w ≤ f.width) && decide (y + h ≤ f.height) &&
      decide (w * elemBytes f.format 0 ≤ dF d 16 0 32) && (!isYc f.format || (x % 2 == 0 && w % 2 == 0)) &&
      (!(f.format == 3 || f.format == 4) || (y % 2 == 0 && h % 2 == 0))
  else dF d 16 0 32 == 0 && len % 64 == 0 && decide (64 ≤ len) && decide (len ≤ 268435456)

def copyAddrs (f : Surface) (d : Desc) : Bool :=
  if dF d 20 0 1 = 0 then decide (rectHostEnd f.format (dF d 8 0 64) (dF d 16 0 32) (dF d 28 0 16) (dF d 30 0 16) ≤ 2 ^ 64)
  else dF d 32 0 64 % 64 == 0 && decide (dF d 32 0 64 + dF d 40 0 32 ≤ f.footprint) &&
    decide (dF d 8 0 64 + dF d 40 0 32 ≤ 2 ^ 64)

/-- The copy that a SURFACE_COPY starts. -/
def copyJob (f : Surface) (d : Desc) : CopyJob :=
  if dF d 20 0 1 = 0 then
    { surface := dIndex d, desc := f, image := none, x := dF d 24 0 16, y := dF d 26 0 16, w := dF d 28 0 16, h := dF d 30 0 16,
      length := ((rectPlanes f.format (dF d 28 0 16) (dF d 30 0 16)).map fun q => q.2.1 * q.2.2).sum, done := 0, began := false }
  else
    { surface := dIndex d, desc := f, image := some (dF d 32 0 64), x := 0, y := 0, w := 0, h := 0, length := dF d 40 0 32,
      done := 0, began := false }

def State.copyOf (s : State) (r : Nat) : Option CopyJob := Tbl.get (fun _ => none) s.surf.copies r
def State.setCopy (s : State) (r : Nat) (j : Option CopyJob) : State :=
  { s with surf := { s.surf with copies := Tbl.put (fun _ => none) r j s.surf.copies } }

def surfaceCopyBody (r : Nat) (d : Desc) (s : State) : Res :=
  let f := s.surface (dIndex d)
  s.checked (s.r82 d [(8, 0, 64), (16, 0, 32), (20, 0, 1), (24, 0, 16), (26, 0, 16), (28, 0, 16), (30, 0, 16), (32, 0, 64),
      (40, 0, 32)] (decide (dIndex d < 4096) && copyFields f d) (copyAddrs f d) false false) fun _ =>
    if dF d 20 0 1 = 0 ∧ f.layout = 2 then .done s cSurfaceFormat 0
    else .wait (s.setCopy r (some (copyJob f d))) .copy

/-- SURFACE_COPY (R108). -/
def execSurfaceCopy (r : Nat) (s : State) : Out := .next (s.descriptor r 0x11 surfaceCopyBody)

/-- Stack address of byte `k` of a RECT copy: rows of the luma or only plane, then of the chroma plane. -/
def CopyJob.rectAddr (j : CopyJob) (k : Nat) : Nat :=
  let f := j.desc
  let n0 := j.w * elemBytes f.format 0
  let p := if k < n0 * j.h then 0 else 1
  let k := if p = 0 then k else k - n0 * j.h
  let n := elemBytes f.format p
  let row := j.w / subX f.format p * n
  f.addr p (j.x / subX f.format p + k % row / n) (j.y / subY f.format p + k / row) + k % row % n

/-- Write bytes of a copy into the stack. -/
def State.copyBytes (s : State) (j : CopyJob) (bs : List Byte) : State :=
  match j.image with
  | some off => s.store3 (j.desc.base + off + j.done) bs
  | none =>
    let at_ := (bs.zipIdx).map fun p => (j.rectAddr (j.done + p.2), p.1)
    let s := ((at_.map fun p => p.1 / 256 * 256).eraseDups).foldl (fun s a => s.countFenced a 1) s
    at_.foldl (fun s p => (s.countC3 p.1 1).memSet p.1 p.2) s

/-! ### ATLAS_DEFINE (R111) -/

def atlasOf (d : Desc) : Atlas := { valid := dB d 10 0, guarded := dB d 10 1, surface := dF d 8 0 12 }

def State.setAtlas (s : State) (i : Nat) (a : Atlas) : State :=
  { s with surf := { s.surf with atlases := Tbl.put (fun _ => {}) i a s.surf.atlases } }
def State.atlas (s : State) (i : Nat) : Atlas := Tbl.get (fun _ => {}) s.surf.atlases i

def atlasDefineBody (r : Nat) (d : Desc) (s : State) : Res :=
  let host := dF d 16 0 64
  let f := s.surface (dF d 8 0 12)
  s.checked (s.r82 d [(8, 0, 12), (10, 0, 2), (16, 0, 64)] (decide (dIndex d < 256))
      (hostOk host (if host = 0 then 0 else f.footprint) 64) false false) fun _ =>
    if dB d 10 0 ∧ (f.width = 0 ∨ !(f.format == 0 || f.format == 1 || f.format == 6 || f.format == 7)) then
      .done s cSurfaceFormat 0
    else if host ≠ 0 ∧ dB d 10 0 then
      .wait (s.setCopy r (some { surface := dF d 8 0 12, desc := f, image := some 0, x := 0, y := 0, w := 0, h := 0,
                                 length := f.footprint, done := 0, began := false })) .copy
    else .done (s.setAtlas (dIndex d) (atlasOf d)) cDone 0

/-- ATLAS_DEFINE (R111). -/
def execAtlasDefine (r : Nat) (s : State) : Out := .next (s.descriptor r 0x13 atlasDefineBody)

/-! ### Progress of copies -/

/-- The copy of reel `r` is over: its surface's write ends, and its descriptor completes. -/
def State.endCopy (s : State) (r : Nat) (d : Desc) (j : CopyJob) (ok : Bool) (code detail : Nat) : State :=
  let s := s.setCopy r none
  let s := if j.began then s.endWrite j.surface ok else s
  let s := if ok ∧ dOpcode d = 0x13 then s.setAtlas (dIndex d) (atlasOf d) else s
  s.endHeld r d code detail

/-- COPY_WRITE_END: the next bytes of the copy of reel `r` are written to the stack; with its last byte the copy ends
(R108, R112). -/
def execCopyWriteEnd (r : Nat) (bs : List Byte) (s : State) : Out :=
  .next (s.inService fun s =>
    match s.held r, s.copyOf r with
    | some (d, .copy), some j =>
      let bs := bs.take (j.length - j.done)
      if s.hif.d3hot ∨ bs = [] then s
      else
        let s := if j.began then s else s.startWrite j.surface
        let s := s.copyBytes j bs
        let j := { j with done := j.done + bs.length, began := true }
        if j.done = j.length then s.endCopy r d j true cDone 0 else s.setCopy r (some j)
    | _, _ => s)

/-! ### SURFACE_STATE (R114) -/

def surfaceStateBody (_ : Nat) (d : Desc) (s : State) : Res :=
  let act := dF d 8 0 2
  s.checked (s.r82 d [(8, 0, 2)] (decide (dIndex d < 4096) && act != 3) true false false) fun _ =>
    let s := if act = 0 then s else s.setSurface (dIndex d) fun f => { f with ready := act == 1 }
    .done s cDone (b2n (s.surface (dIndex d)).ready + 2 * ((s.surface (dIndex d)).writes % 512))

/-- SURFACE_STATE (R114). -/
def execSurfaceState (r : Nat) (s : State) : Out := .next (s.descriptor r 0x12 surfaceStateBody)

end Sys2Proof.Machine
end

