-- ==== Sys2Proof/Machine/EngineSet.lean ====
section
/-! DEFINITION. The shadows of an engine and the twist tables: MESH_LOAD, SADDLE_LOAD, ENGINE_SET, TWIST_SET and TWIST_LOAD
(R186 to R195, R206, R207, R231 to R246). -/

namespace Sys2Proof.Machine

def State.setShadow (s : State) (e : Nat) (f : EngBundle → EngBundle) : State :=
  s.setEngine e fun g => { g with shadow := f g.shadow }

/-! ### MESH_LOAD (R187, R188) -/

/-- MESH and RECT fields of a MESH_LOAD put into warp settings; the saddle part stays. -/
def WarpCfg.withMesh (w : WarpCfg) (d : Desc) (mesh : List (Int × Int)) : WarpCfg :=
  { w with mode := dF d 16 0 2, canvas := dF d 16 2 3, cloneSrc := dF d 17 0 5, x0 := dS d 20 0 16, y0 := dS d 22 0 16,
           wc := dF d 24 0 16, hc := dF d 26 0 16, mesh := mesh }

def meshFields (d : Desc) : Bool :=
  let mode := dF d 16 0 2
  let size (n : Nat) := decide (1 ≤ n) && decide (n ≤ 16384)
  let pos (x : Int) := decide (-16384 ≤ x) && decide (x ≤ 16383)
  (mode == 2 || dF d 8 0 64 == 0) && (mode == 1 || mode == 2 || dF d 16 2 3 == 0) && (mode == 3 || dF d 17 0 5 == 0) &&
    (if mode = 1 then pos (dS d 20 0 16) && pos (dS d 22 0 16) && size (dF d 24 0 16) && size (dF d 26 0 16)
     else dF d 20 0 64 == 0)

def meshLoadBody (_ : Nat) (d : Desc) (s : State) : Res :=
  let e := dIndex d
  s.checked (s.r82 d [(8, 0, 64), (16, 0, 2), (16, 2, 3), (17, 0, 5), (20, 0, 32), (24, 0, 32)]
      (decide (e < 32) && meshFields d) (hostOk (dF d 8 0 64) (if dF d 16 0 2 = 2 then 19240 else 0) 64) (s.engFenced e) false)
    fun _ =>
      if dF d 16 0 2 = 2 then .wait s .hostData
      else .done (s.setShadow e fun b => { b with warp := b.warp.withMesh d [] }) cDone 0

/-- MESH_LOAD (R187). -/
def execMeshLoad (r : Nat) (s : State) : Out := .next (s.descriptor r 0x30 meshLoadBody)

/-- The control points of a mesh table, point (i, j) at 65 × j + i (R188). -/
def meshPoints (bs : List Byte) : List (Int × Int) :=
  (List.range 2405).map fun k => (signedOf (leAt bs (8 * k) 4) 32, signedOf (leAt bs (8 * k + 4) 4) 32)

def pointBad (p : Int × Int) : Bool :=
  decide (p.1 < -1048576) || decide (2097151 < p.1) || decide (p.2 < -1048576) || decide (2097151 < p.2)

/-- The table of a MESH_LOAD has arrived (R188). -/
def meshData (d : Desc) (bs : List Byte) (s : State) : Res :=
  let pts := meshPoints bs
  match pts.findIdx? pointBad with
  | some k => .done s cBadField k
  | none => .done (s.setShadow (dIndex d) fun b => { b with warp := b.warp.withMesh d pts }) cDone 0

/-- Control point (i, j) of the mesh in use (R188, R189). -/
def WarpCfg.point (w : WarpCfg) (i j : Nat) : Int × Int :=
  if w.mode = 1 then rectPoint w.x0 w.y0 w.wc w.hc i j else w.mesh.getD (65 * j + i) (0, 0)

/-! ### SADDLE_LOAD (R195) -/

def saddleRamps (d : Desc) : List Nat := (List.range 4).map fun k => dF d 24 (2 * k) 2

def WarpCfg.withSaddle (w : WarpCfg) (d : Desc) (loaded : List Nat) : WarpCfg :=
  { w with zones := (List.range 4).map fun k => dF d (16 + 2 * k) 0 16, ramps := saddleRamps d, loaded := loaded,
           liftN := dF d 25 0 2, steps := (List.range 3).map fun k => dF d (26 + 2 * k) 0 16,
           matrix := (List.range 9).map fun k => dS d (32 + 2 * k) 0 16 }

def saddleLoadBody (_ : Nat) (d : Desc) (s : State) : Res :=
  let e := dIndex d
  let host := dF d 8 0 64
  let loaded := (saddleRamps d).contains 3
  let fields := decide (e < 32) && (loaded == (host != 0)) &&
    ((List.range 4).all fun k => decide (dF d (16 + 2 * k) 0 16 ≤ 2048)) &&
    (List.range 3).all fun k => decide (dF d (26 + 2 * k) 0 16 ≤ 4096)
  s.checked (s.r82 d [(8, 0, 64), (16, 0, 64), (24, 0, 8), (25, 0, 2), (26, 0, 48), (32, 0, 144)] fields
      (hostOk host 2048 64) (s.engFenced e) false) fun _ =>
    if loaded then .wait s .hostData
    else .done (s.setShadow e fun b => { b with warp := b.warp.withSaddle d [] }) cDone 0

/-- SADDLE_LOAD (R195). -/
def execSaddleLoad (r : Nat) (s : State) : Out := .next (s.descriptor r 0x31 saddleLoadBody)

/-- The ramps of a SADDLE_LOAD have arrived. -/
def saddleData (d : Desc) (bs : List Byte) (s : State) : Res :=
  .done (s.setShadow (dIndex d) fun b =>
    { b with warp := b.warp.withSaddle d ((List.range 1024).map fun k => leAt bs (2 * k) 2) }) cDone 0

/-! ### ENGINE_SET (R206, R207, R246) -/

def engineOf (d : Desc) : EngCfg :=
  { enable := dB d 8 0, split := dB d 8 1, bands := dF d 9 0 5, width := dF d 10 0 16, height := dF d 12 0 16,
    planeBase := dF d 40 0 64, ditherAddr := dF d 48 0 64, planes := dF d 56 0 4, depth := dF d 56 4 4, ditherOn := dB d 57 0,
    ditherLoaded := dB d 57 1, temporal := dB d 57 2, seed := dF d 58 0 12 }

def engineSetBody (_ : Nat) (d : Desc) (s : State) : Res :=
  let e := dIndex d
  let c := engineOf d
  let fields := decide (e < 32) && (e % 2 == 0 || !c.split) && decide (1 ≤ c.bands) && decide (c.bands ≤ 16) &&
    decide (6 ≤ c.planes) && decide (c.planes ≤ 12) && decide (6 ≤ c.depth) && decide (c.depth ≤ 14) &&
    (c.ditherLoaded || c.ditherAddr == 0)
  s.checked (s.r82 d [(8, 0, 2), (9, 0, 5), (10, 0, 32), (40, 0, 64), (48, 0, 64), (56, 0, 8), (57, 0, 3), (58, 0, 12)] fields
      (c.planeBase % 4096 == 0 && (!c.ditherLoaded || c.ditherAddr % 64 == 0)) (s.engFenced e) false) fun _ =>
    .done (s.setShadow e fun b => { b with cfg := c }) cDone 0

/-- ENGINE_SET (R246). -/
def execEngineSet (r : Nat) (s : State) : Out := .next (s.descriptor r 0x32 engineSetBody)

/-! ### TWIST_SET (R241) -/

def twistSelOf (d : Desc) : TwistSel :=
  { preset := if dB d 8 0 then dF d 9 0 2 else 0, valid := dF d 10 0 8, tables := (List.range 8).map fun c => dF d (16 + c) 0 6 }

def twistSetFields (d : Desc) : Bool :=
  let valid := dF d 10 0 8
  (if dB d 8 0 then dF d 9 0 2 != 0 && valid == 0 else dF d 9 0 2 == 0 && bitOf valid 0) &&
    (List.range 8).all fun c => bitOf valid c || dF d (16 + c) 0 6 == 0

def twistSetBody (_ : Nat) (d : Desc) (s : State) : Res :=
  let e := dIndex d
  s.checked (s.r82 d ([(8, 0, 1), (9, 0, 2), (10, 0, 8)] ++ (List.range 8).map fun c => (16 + c, 0, 6))
      (decide (e < 32) && twistSetFields d) true (s.engFenced e) false) fun _ =>
    .done (s.setShadow e fun b => { b with sel := twistSelOf d }) cDone 0

/-- TWIST_SET (R241). -/
def execTwistSet (r : Nat) (s : State) : Out := .next (s.descriptor r 0x35 twistSetBody)

/-! ### TWIST_LOAD (R231 to R239) -/

/-- A twist set names table `n`. -/
def TwistSel.names (t : TwistSel) (n : Nat) : Bool :=
  t.preset == 0 && (List.range 8).any fun c => bitOf t.valid c && t.tables.getD c 0 == n

/-- The bundle of a waiting engine commit. -/
def WaitCommit.bundle (w : WaitCommit) : Option (Nat × EngBundle) := match w.body with | .engine e b => some (e, b) | _ => none

/-- Table `n` is in use (R238). -/
def State.tableInUse (s : State) (n : Nat) : Bool :=
  ((List.range 32).any fun e =>
    let g := s.engine e
    g.lat.sel.names n || g.spin.sel.names n || g.fly.sel.names n) ||
  s.comp.waiting.any fun w => match w.bundle with | some (_, b) => b.sel.names n | none => false

def cTwistInUse : Nat := 0x36

def twistLoadBody (_ : Nat) (d : Desc) (s : State) : Res :=
  let n := dIndex d
  let count := dF d 16 0 9
  s.checked (s.r82 d [(8, 0, 64), (16, 0, 9)] (decide (n < 64) && decide (1 ≤ count) && decide (count ≤ 256))
      (hostOk (dF d 8 0 64) (64 + 16 * count) 64) false false) fun _ =>
    if s.tableInUse n then .done s cTwistInUse 0 else .wait s .hostData

/-- TWIST_LOAD (R234). -/
def execTwistLoad (r : Nat) (s : State) : Out := .next (s.descriptor r 0x34 twistLoadBody)

/-- The table replaces the content of number `n`, and the directory shows it. -/
def State.loadTable (s : State) (n : Nat) (t : TwistTable) : State :=
  let s := { s with eng := { s.eng with tables := Tbl.put (fun _ => none) n (some t) s.eng.tables } }
  s.wrs [(FLY_TABLE.COUNT n, t.slots.length), (FLY_TABLE.BANDS n, t.bands), (FLY_TABLE.PLANES n, t.planes), (FLY_TABLE.LIT n, t.lit),
    (FLY_TABLE_END.END n, t.end_), (FLY_TABLE_FIRST_LIGHT.UNITS n, t.firstLight)]

/-- The table of a TWIST_LOAD has arrived (R234, R239). -/
def twistData (d : Desc) (bs : List Byte) (s : State) : Res :=
  match checkTable bs (dF d 16 0 9) with
  | .inl (code, detail) => .done s code detail
  | .inr t => if s.tableInUse (dIndex d) then .done s cTwistInUse 0 else .done (s.loadTable (dIndex d) t) cDone 0

/-- Twist table `n`, where it is loaded. -/
def State.twist (s : State) (n : Nat) : Option TwistTable := Tbl.get (fun _ => none) s.eng.tables n

end Sys2Proof.Machine
end

