-- ==== Sys2Proof/Machine/Layers.lean ====
section
/-! DEFINITION. Shadows of canvases, layer slots and scalers, and the assignment of scalers (R120 to R127, R155 to R170). -/

namespace Sys2Proof.Machine

/-! ### CANVAS_SET (R121) -/

def canvasOf (d : Desc) : CanvasCfg :=
  { base := dF d 8 0 64, width := dF d 16 0 16, height := dF d 18 0 16, enable := dB d 20 0, objEnable := dB d 20 1,
    pqWhite := dF d 22 0 16, bg := ⟨dF d 24 0 16, dF d 26 0 16, dF d 28 0 16⟩ }

def canvasFields (c : CanvasCfg) : Bool :=
  let w := c.width % 16 == 0 && decide (64 ≤ c.width) && decide (c.width ≤ 16384)
  let h := c.height % 8 == 0 && decide (64 ≤ c.height) && decide (c.height ≤ 4096)
  let q := decide (80 ≤ c.pqWhite) && decide (c.pqWhite ≤ 10000)
  (w || (!c.enable && c.width == 0)) && (h || (!c.enable && c.height == 0)) && (q || (!c.enable && c.pqWhite == 0))

def canvasAddrs (c : CanvasCfg) : Bool :=
  c.base % 4096 == 0 &&
    (decide (c.base + 8 * c.width * c.height ≤ stackBytes) || (!c.enable && (c.width == 0 || c.height == 0)))

def State.shadowCanvas (s : State) (c : Nat) : CanvasCfg := Tbl.get (fun _ => {}) s.comp.shadowC c
def State.shadowLayer (s : State) (n : Nat) : Layer := Tbl.get (fun _ => {}) s.comp.shadowL n

def canvasSetBody (_ : Nat) (d : Desc) (s : State) : Res :=
  let c := canvasOf d
  s.checked (s.r82 d [(8, 0, 64), (16, 0, 16), (18, 0, 16), (20, 0, 2), (22, 0, 16), (24, 0, 48)]
      (decide (dIndex d < 8) && canvasFields c) (canvasAddrs c) false false) fun _ =>
    .done { s with comp := { s.comp with shadowC := Tbl.put (fun _ => {}) (dIndex d) c s.comp.shadowC } } cDone 0

/-- CANVAS_SET (R121). -/
def execCanvasSet (r : Nat) (s : State) : Out := .next (s.descriptor r 0x21 canvasSetBody)

/-! ### LAYER_SET (R126, R166) -/

/-- Bytes 28 to 37 of a LAYER_SET, or the same fields elsewhere. -/
def colourOf (b28 b29 alpha r g b : Nat) : ColourCfg :=
  { blend := bitsOf b28 0 2, transfer := bitsOf b28 2 2, matrix := bitsOf b28 4 2, primaries := bitsOf b28 6 1,
    range := bitsOf b28 7 1, premult := bitOf b29 0, chromaH := bitOf b29 1, chromaV := bitOf b29 2, alpha := alpha,
    colour := ⟨r, g, b⟩ }

def layerOf (d : Desc) : Layer :=
  { canvas := dF d 8 0 3, enable := dB d 8 3, rank := dF d 8 4 4, z := dF d 9 0 8, surface := dF d 10 0 12,
    srcX := dF d 12 0 16, srcY := dF d 14 0 16, srcW := dF d 16 0 16, srcH := dF d 18 0 16,
    dstX := dS d 20 0 16, dstY := dS d 22 0 16, dstW := dF d 24 0 16, dstH := dF d 26 0 16,
    col := colourOf (dF d 28 0 8) (dF d 29 0 8) (dF d 30 0 16) (dF d 32 0 16) (dF d 34 0 16) (dF d 36 0 16),
    scale := dF d 40 0 64 }

/-- MODE, FIRST, COUNT, KERNEL_H and KERNEL_V of a SCALE_CFG (R166). -/
def Layer.mode (l : Layer) : Nat := bitsOf l.scale 0 2
def Layer.first (l : Layer) : Nat := bitsOf l.scale 8 5
def Layer.count (l : Layer) : Nat := bitsOf l.scale 16 3
def Layer.kernelH (l : Layer) : Nat := bitsOf l.scale 24 4
def Layer.kernelV (l : Layer) : Nat := bitsOf l.scale 28 4

/-- The SCALE_CFG conditions of R166. -/
def Layer.scaleOk (l : Layer) : Bool :=
  let kernel (k : Nat) := decide (k ≤ 5) || (k == 8 && l.mode != 0)
  kernel l.kernelH && kernel l.kernelV && (l.mode != 0 || l.first == 0) && (l.mode != 2 || l.first % 2 == 0) &&
    (if l.mode = 3 then decide (2 ≤ l.count) && decide (l.count ≤ 4) && decide (l.first + l.count ≤ 32) else l.count == 0)

/-- The layer is scaled (R126). -/
def Layer.scaled (l : Layer) : Bool := l.srcW != l.dstW || l.srcH != l.dstH

def sizeOk (n : Nat) : Bool := decide (1 ≤ n) && decide (n ≤ 16384)

def layerFields (l : Layer) : Bool :=
  sizeOk l.srcW && sizeOk l.srcH && sizeOk l.dstW && sizeOk l.dstH && decide (-16384 ≤ l.dstX) && decide (l.dstX ≤ 16383) &&
    decide (-16384 ≤ l.dstY) && decide (l.dstY ≤ 16383) && l.col.blend != 3 && l.col.matrix != 3 && l.scaleOk

def layerSetBody (_ : Nat) (d : Desc) (s : State) : Res :=
  let l := layerOf d
  s.checked (s.r82 d [(8, 0, 8), (9, 0, 8), (10, 0, 12), (12, 0, 64), (20, 0, 32), (24, 0, 32), (28, 0, 8), (29, 0, 3),
      (30, 0, 16), (32, 0, 48), (40, 0, 2), (41, 0, 5), (42, 0, 3), (43, 0, 8)]
      (decide (dIndex d < 128) && layerFields l) true false false) fun _ =>
    .done { s with comp := { s.comp with shadowL := Tbl.put (fun _ => {}) (dIndex d) l s.comp.shadowL } } cDone 0

/-- LAYER_SET (R126). -/
def execLayerSet (r : Nat) (s : State) : Out := .next (s.descriptor r 0x20 layerSetBody)

/-! ### Geometry of a layer on its canvas (R165) -/

/-- Columns, or rows, of a destination span within a canvas: first and one past the last, counted from the canvas. -/
def visible (d : Int) (n : Nat) (size : Nat) : Nat × Nat :=
  let lo := (max d 0).toNat
  let hi := (max (min (d + n) size) 0).toNat
  (lo, max lo hi)

/-- w_out of R165. -/
def Layer.wOut (l : Layer) (width : Nat) : Nat := let v := visible l.dstX l.dstW width; v.2 - v.1

/-- R158. -/
def Layer.ratioOk (l : Layer) : Bool :=
  decide (l.srcW ≤ 4 * l.dstW) && decide (l.srcH ≤ 2 * l.dstH) && decide (l.dstW ≤ 16 * l.srcW) && decide (l.dstH ≤ 16 * l.srcH)

/-- Scalers an explicit layer names (R165). -/
def Layer.names (l : Layer) : List Nat :=
  match l.mode with
  | 1 => [l.first]
  | 2 => [l.first, l.first + 1]
  | 3 => (List.range l.count).map (l.first + ·)
  | _ => []

/-! ### SCALER_BIND and COEF_LOAD (R161, R167) -/

def State.sclShadow (s : State) (n : Nat) : ScalerShadow := Tbl.get (fun _ => {}) s.obj.shadow n
def State.sclForce (s : State) (n : Nat) : ScalerShadow := Tbl.get (fun _ => {}) s.obj.force n
def State.setSclShadow (s : State) (n : Nat) (f : ScalerShadow → ScalerShadow) : State :=
  { s with obj := { s.obj with shadow := Tbl.put (fun _ => {}) n (f (s.sclShadow n)) s.obj.shadow } }

def scalerBindBody (_ : Nat) (d : Desc) (s : State) : Res :=
  let n := dIndex d
  s.checked (s.r82 d [(8, 0, 4)] (decide (n < 32)) true (s.obj.fenced.contains n) false) fun _ =>
    .done (s.setSclShadow n fun x => { x with reserve := dB d 8 0, canvas := dF d 8 1 3 }) cDone 0

/-- SCALER_BIND (R167). -/
def execScalerBind (r : Nat) (s : State) : Out := .next (s.descriptor r 0x28 scalerBindBody)

/-- Taps of a direction, and the bytes of its table (R161). -/
def coefTaps (dir : Nat) : Nat := if dir = 0 then 8 else 6

def coefLoadBody (_ : Nat) (d : Desc) (s : State) : Res :=
  let n := dIndex d
  s.checked (s.r82 d [(8, 0, 64), (16, 0, 1)] (decide (n < 32)) (hostOk (dF d 8 0 64) (128 * coefTaps (dF d 16 0 1)) 64)
      (s.obj.fenced.contains n) false) fun _ => .wait s .hostData

/-- COEF_LOAD (R161). -/
def execCoefLoad (r : Nat) (s : State) : Out := .next (s.descriptor r 0x29 coefLoadBody)

/-- The coefficients of a table: 64 phases of signed 10-bit words. -/
def coefsOf (taps : Nat) (bs : List Byte) : List Int := (List.range (64 * taps)).map fun i => signedOf (leAt bs (2 * i) 2) 10

/-- The first phase that does not sum to 256. -/
def badPhase (taps : Nat) (cs : List Int) : Option Nat :=
  (List.range 64).find? fun ph => ((cs.drop (taps * ph)).take taps).sum != 256

/-- The table of a COEF_LOAD has arrived (R161). -/
def coefData (d : Desc) (bs : List Byte) (s : State) : Res :=
  let taps := coefTaps (dF d 16 0 1)
  let cs := coefsOf taps bs
  match badPhase taps cs with
  | some ph => .done s 0x29 ph
  | none => .done (s.setSclShadow (dIndex d) fun x =>
      if dF d 16 0 1 = 0 then { x with coefH := some cs } else { x with coefV := some cs }) cDone 0

/-! ### Assignment of scalers (R168) -/

/-- A scaled layer to be served, with the rank in which R27 serves it: arrival of its commit, then its slot. -/
structure ScaleJob where
  arrival : Nat
  slot : Nat
  layer : Layer
  wOut : Nat
  deriving DecidableEq, Repr

def jobBefore (a b : ScaleJob) : Bool := decide (a.arrival < b.arrival) || (a.arrival == b.arrival && decide (a.slot < b.slot))

def insertJob (a : ScaleJob) : List ScaleJob → List ScaleJob
  | [] => [a]
  | b :: r => if jobBefore b a then b :: insertJob a r else a :: b :: r

/-- A layer's scalers: its slot and the scalers that serve it, member by member. -/
abbrev Served := List (Nat × List Nat)

/-- Step 3: each wide AUTO layer takes the lowest free pair; `none` where there is none. -/
def servePairs : List ScaleJob → List Nat → Served → Option (List Nat × Served)
  | [], pool, acc => some (pool, acc)
  | j :: r, pool, acc =>
    match (List.range 16).find? fun k => pool.contains (2 * k) && pool.contains (2 * k + 1) with
    | some k => servePairs r (pool.filter fun n => n / 2 != k) (acc ++ [(j.slot, [2 * k, 2 * k + 1])])
    | none => none

/-- The partner of a scaler in its pair. -/
def partner (n : Nat) : Nat := if n % 2 = 0 then n + 1 else n - 1

/-- Step 4: every other AUTO layer takes one scaler. -/
def serveSingles : List ScaleJob → List Nat → Served → Option (List Nat × Served)
  | [], pool, acc => some (pool, acc)
  | j :: r, pool, acc =>
    match (pool.find? fun n => !pool.contains (partner n)).or pool.head? with
    | some n => serveSingles r (pool.filter (· ≠ n)) (acc ++ [(j.slot, [n])])
    | none => none

/-- Steps 1 to 4 of R168 for layers to serve, reserved scalers and fenced scalers: what is left of the pool and who serves
whom; `none` where a step cannot be completed. `pool` is ascending. -/
def assignScalers (jobs : List ScaleJob) (pool : List Nat) : Option (List Nat × Served) :=
  let jobs := jobs.foldr insertJob []
  let explicit := jobs.filter fun j => j.layer.mode != 0
  let wide := jobs.filter fun j => j.layer.mode == 0 && decide (4096 < j.wOut)
  let rest := jobs.filter fun j => j.layer.mode == 0 && !decide (4096 < j.wOut)
  if wide.any fun j => decide (8192 < j.wOut) then none
  else match servePairs wide pool (explicit.map fun j => (j.slot, j.layer.names)) with
  | none => none
  | some (pool, acc) => serveSingles rest pool acc

/-- The automatic pool (R168, step 2). -/
def poolOf (reserved fenced : List Nat) : List Nat :=
  (List.range 32).filter fun n => !reserved.contains n && !fenced.contains n

end Sys2Proof.Machine
end

