-- ==== Sys2Proof/Machine/LightOps.lean ====
section
/-! DEFINITION. Operations on banks, strings, set-point tables and shares, and the staging of tables (R307 to R316, R330,
R342, R367 and R368). -/

namespace Sys2Proof.Machine

/-- String states of R308. -/
def stAbsent : Nat := 0
def stActive : Nat := 1
def stIdle : Nat := 2
def stCarrying : Nat := 3
def stHeatOff : Nat := 4
def stOpen : Nat := 5
def stShort : Nat := 6
def stLent : Nat := 7

/-- A string in this state fires with its bank (R311). -/
def fires (st : Nat) : Bool := st == stActive || st == stCarrying

/-- Plan of string 9b + s. -/
def LightEng.str (l : LightEng) (i : Nat) : StrPlan := l.plan.getD i {}
def LightEng.setStr (l : LightEng) (i : Nat) (f : StrPlan → StrPlan) : LightEng := { l with plan := setAt l.plan i f }
def LightEng.model (l : LightEng) (i : Nat) : StrModel := l.models.getD i {}
def LightEng.cal (l : LightEng) (b : Nat) : Option CalRun := Tbl.get (fun _ => none) l.cals b
def LightEng.setCal (l : LightEng) (b : Nat) (c : Option CalRun) : LightEng :=
  { l with cals := Tbl.put (fun _ => none) b c l.cals }

/-- The model the next table is computed from: a fitted one that awaits its edge, else the one in force (R340). -/
def LightEng.nextModel (l : LightEng) (i : Nat) : StrModel :=
  match l.cal (i / 9) with
  | some c => if c.str = i then c.fit.getD (l.model i) else l.model i
  | none => l.model i

/-- i_s[ℓ] of R309, shares in 2^-16 and G in 2^-28. -/
def codeOf (codeMax share : Nat) (m : StrModel) (lv : Nat) : Nat :=
  if share = 0 then 0 else min codeMax (m.th + roundDivN (share * 4096) (m.g * 2 ^ lv))

def codesOf (codeMax share : Nat) (m : StrModel) : List Nat := (List.range 8).map (codeOf codeMax share m)

/-- fmax_s of R319 in 2^-16. -/
def fMax (codeMax : Nat) (m : StrModel) : Nat := roundDivN (m.g * (codeMax - m.th)) 4096

/-- The strings of bank `b` that stand in the fire mask, as indices 9b + s. -/
def LightEng.mask (l : LightEng) (b : Nat) : List Nat :=
  ((List.range 9).map (9 * b + ·)).filter fun i => fires (l.str i).state

/-- F_cmd of a bank (R311). -/
def LightEng.fCmd (l : LightEng) (b : Nat) : Nat := ((l.mask b).map fun i => (l.str i).share).sum

/-- The codes of a bank's strings from their shares (R309, R311): strings out of the mask keep theirs, and an IDLE spare
takes the mean share. -/
def LightEng.recode (l : LightEng) (b : Nat) : LightEng :=
  let cm := l.act.codeMax.getD b 0
  let n := (l.mask b).length
  (List.range 9).foldl (fun l s =>
    let i := 9 * b + s
    let p := l.str i
    if fires p.state then l.setStr i fun p => { p with codes := codesOf cm p.share (l.nextModel i) }
    else if p.state = stIdle then
      l.setStr i fun p => { p with codes := codesOf cm (if n = 0 then 0 else roundDivN (l.fCmd b) n) (l.nextModel i) }
    else l) l

/-- The part of a plan that a table carries to the board: codes and mask bits (R311). -/
def StrPlan.wire (p : StrPlan) : List Nat × Bool := (p.codes, fires p.state)

/-- The strings as the latest table of the engine has them. -/
def State.latestTable (s : State) (e : Nat) : Option BoardTable :=
  let l := s.lightOf e
  match l.staged with
  | some g => some g.table
  | none =>
    match s.light.switch.bind (fun w => w.entries.find? fun x => x.engine = e) with
    | some x => some x.table
    | none => l.force

/-- The allow-list entry that covers engine `e`: a valid DRIVER entry (R362). -/
def State.boardOf (s : State) (e : Nat) : Option Nat :=
  (List.range 32).find? fun n =>
    s.flag (CBUS_ALLOW_CFG.VALID n) && s.rd (CBUS_ALLOW_CFG.ROLE n) == 0 &&
      (s.rd (CBUS_ALLOW_CFG.ENGINE n) == e ||
        (s.flag (CBUS_ALLOW_CFG.PAIR n) && s.rd (CBUS_ALLOW_CFG.ENGINE n) + 1 == e))

/-- LGT_ENG_STATUS.SWITCH_PENDING follows the tables that await their edge. -/
def State.notePending (s : State) (e : Nat) : State :=
  let waits := (s.lightOf e).staged.isSome ||
    (match s.light.switch with | some w => w.entries.any fun x => x.engine = e | none => false)
  s.wr (LGT_ENG_STATUS.SWITCH_PENDING e) (b2n waits)

/-- Stage a table of the engine's plan under a new TABLE_ID, in place of one not yet in a SWITCH (R313, R367). -/
def State.stage (s : State) (e : Nat) (again : Bool) : State :=
  let l := s.lightOf e
  let models := (List.range 3).filterMap fun b => (l.cal b).bind fun c => c.fit.map fun m => (c.str, m)
  let t : BoardTable := { id := l.nextId % 65536, strs := l.plan, models := models }
  let s := s.setLight e fun l =>
    { l with staged := some { table := t, again := again, order := s.light.nextOrder }, nextId := l.nextId + 1 }
  let s := { s with light := { s.light with nextOrder := s.light.nextOrder + 1 } }
  let s := if (s.boardOf e).isNone then s.bump CBUS_DELIVERY.NO_BOARD 1 else s
  s.notePending e

/-- Stage where any code or mask bit differs from the latest table's (R313). -/
def State.stageIfChanged (s : State) (e : Nat) : State :=
  let l := s.lightOf e
  let old := match s.latestTable e with | some t => t.strs.map StrPlan.wire | none => List.replicate 27 (StrPlan.wire {})
  if l.plan.map StrPlan.wire = old then s else s.stage e false

/-- Recompute a bank's codes and stage a changed table. -/
def State.restage (s : State) (e b : Nat) : State := (s.setLight e fun l => l.recode b).stageIfChanged e

/-! ### SWITCH (R313, R315, R368) -/

/-- A staged table that takes part in the coming SWITCH. -/
def State.joins (s : State) (e : Nat) : Bool :=
  match (s.lightOf e).staged with
  | some g => (s.boardOf e).isSome && !g.failed
  | none => false

/-- Broadcast a SWITCH where none is outstanding and every table that takes part has been acknowledged (R368). -/
def State.trySwitch (s : State) : State :=
  let es := (List.range 32).filter s.joins
  if s.light.switch.isNone && !es.isEmpty && es.all fun e => (s.lightOf e).staged.any (·.acked) then
    let lead := max 2 (bitsOf s.light.loopCfg 8 4)
    let id := s.light.nextSwitch % 65536
    let t := (s.tickNo + lead) % 2 ^ 32
    let ents := es.filterMap fun e => (s.lightOf e).staged.map fun g => { engine := e, table := g.table : SwitchEntry }
    let s := { s with light := { s.light with
      switch := some { id := id, tick := t, entries := ents }, nextSwitch := s.light.nextSwitch + 1 } }
    let s := es.foldl (fun s e => s.setLight e fun l => { l with staged := none }) s
    s.wrs [(LGT_SWITCH_STATUS.SWITCH_ID, id), (LGT_SWITCH_STATUS.TICK, t)]
  else s

/-- CAL_CLOCK now: the written value and the device time since. -/
def State.calClock (s : State) : Nat := (s.rd CAL_CLOCK.TIME + (s.now - s.light.cal.clockAt)) % 2 ^ 64

/-- The new model of a string takes effect, where its calibration stands (R340, R342). -/
def State.adoptModel (s : State) (e : Nat) (im : Nat × StrModel) : State :=
  if ((s.lightOf e).cal (im.1 / 9)).any fun c => c.str == im.1 && c.fit.isSome then
  let clock := s.calClock
  let s := s.setLight e fun l =>
    let l := { l with models := setAt l.models im.1 fun old =>
                        { im.2 with count := satAdd 16 old.count 1, last := clock },
                      calReqs := l.calReqs.filter fun r => r.str ≠ im.1 }
    match l.cal (im.1 / 9) with
    | some c => if c.str = im.1 then l.setCal (im.1 / 9) none else l
    | none => l
  let s := { s with light := { s.light with cal := { s.light.cal with changed := true } } }
  ((s.bump CAL_COUNTS.COMPLETED 1).wr CAL_STATUS.DIRTY 1).raise 296
  else s

/-- The string registers show a table in force (R315); a state the device declared later stands. -/
def State.showTable (s : State) (e : Nat) (t : BoardTable) : State :=
  let l := s.lightOf e
  (t.strs.zipIdx).foldl (fun s pi =>
    let p := pi.1
    let i := pi.2
    let later := (l.str i).state
    let st := if later = stHeatOff || later = stOpen || later = stShort then later else p.state
    s.wrs [(LGT_STR_STATUS.STATE e i, st), (LGT_STR_STATUS.SPARE_FOR e i, p.spareFor), (LGT_STR_STATUS.K e i, p.k),
      (LGT_STR_SHARE.SHARE e i, p.share),
      (LGT_STR_CODES01.CODE_LO e i, p.codes.getD 0 0), (LGT_STR_CODES01.CODE_HI e i, p.codes.getD 1 0),
      (LGT_STR_CODES23.CODE_LO e i, p.codes.getD 2 0), (LGT_STR_CODES23.CODE_HI e i, p.codes.getD 3 0),
      (LGT_STR_CODES45.CODE_LO e i, p.codes.getD 4 0), (LGT_STR_CODES45.CODE_HI e i, p.codes.getD 5 0),
      (LGT_STR_CODES67.CODE_LO e i, p.codes.getD 6 0), (LGT_STR_CODES67.CODE_HI e i, p.codes.getD 7 0)]) s

/-- A table is taken as in force on the driver board (R315): lent strings begin to be measured, new models act. -/
def State.tableInForce (s : State) (e : Nat) (t : BoardTable) : State :=
  let s := s.setLight e fun l =>
    { l with force := some t, resends := 0, switchTick := s.tickNo, excludeFrom := none,
             cals := l.cals.map fun p => (p.1, p.2.map fun c =>
               if c.lent && c.fit.isNone && (t.strs.getD c.str {}).state == stLent then { c with measuring := true } else c) }
  let s := t.models.foldl (fun s im => s.adoptModel e im) s
  let s := s.showTable e t
  let s := (List.range 3).foldl (fun s b => s.wr (LGT_BANK_CMD.CMD e b) ((s.lightOf e).fCmd b)) s
  let s := s.wrs [(LGT_ENG_STATUS.TABLE_ID e, t.id), (LGT_ENG_STATUS.DRIVER_LOST e, 0)]
  (s.bump (LGT_ENG_COUNTS.SWITCHES e) 1).notePending e

/-! ### Abandoned calibrations (R342) -/

/-- The spare of bank `b`. -/
def spareOf (b : Nat) : Nat := 9 * b + 8

/-- A string carried by the spare returns to ACTIVE with the share the spare held, and the spare goes IDLE (R330). -/
def LightEng.giveBack (l : LightEng) (i : Nat) : LightEng :=
  let b := i / 9
  let sp := l.str (spareOf b)
  if sp.state = stCarrying ∧ sp.spareFor = i % 9 then
    (l.setStr i fun p => { p with state := stActive, share := sp.share }).setStr (spareOf b) fun p =>
      { p with state := stIdle, spareFor := 15, share := 0, k := l.act.gains.getD (spareOf b) 16 }
  else l.setStr i fun p => { p with state := stActive }

/-- The calibration of a bank is abandoned: counted, source 297 raised, its notch requests dropped; a request that ends is
removed. -/
def State.dropCal (s : State) (e b : Nat) (ends : Bool) : State :=
  match (s.lightOf e).cal b with
  | none => s
  | some c =>
    let s := s.setLight e fun l =>
      { (l.setCal b none) with
        notchReqs := l.notchReqs.filter fun r => r.cal.isNone || r.str / 9 ≠ b
        calReqs := if ends then l.calReqs.filter fun r => r.str ≠ c.str else l.calReqs }
    (s.bump CAL_COUNTS.ABANDONED 1).raise 297

/-- R342, rows 3 to 5: the string keeps its previous model, and a lent one returns to ACTIVE in the next table. -/
def State.abandonCal (s : State) (e b : Nat) (ends : Bool) : State :=
  match (s.lightOf e).cal b with
  | none => s
  | some c =>
    let s := s.dropCal e b ends
    if c.lent then (s.setLight e fun l => l.giveBack c.str).restage e b else s.restage e b

/-- Every calibration of an engine is abandoned. -/
def State.abandonCals (s : State) (e : Nat) (ends : Bool) : State :=
  (List.range 3).foldl (fun s b => s.abandonCal e b ends) s

/-- DRIVER_LOST is set: the string-fault source is raised, the loop freezes, and calibrations end (R315, R342). -/
def State.driverLost (s : State) (e : Nat) : State :=
  if s.flag (LGT_ENG_STATUS.DRIVER_LOST e) then s
  else ((s.wr (LGT_ENG_STATUS.DRIVER_LOST e) 1).raise (144 + 2 * e)).abandonCals e false

/-- A board that did not apply at T: counted, and a new SWITCH comes for it, or DRIVER_LOST after 8 resends (R315).
`resend` is the table again; `sendTable` where the board lacks it (R369). -/
def State.lateBoard (s : State) (e : Nat) (t : BoardTable) (sendTable : Bool) : State :=
  let s := s.bump (LGT_ENG_COUNTS.LATE_SWITCHES e) 1
  let l := s.lightOf e
  if l.resends ≥ 8 then
    (s.setLight e fun l => { l with staged := l.staged.filter fun g => !g.failed }).driverLost e |>.notePending e
  else if (match l.staged with | some g => !g.failed | none => false) then s.setLight e fun l => { l with resends := l.resends + 1 }
  else
    (s.setLight e fun l => { l with
      resends := l.resends + 1
      staged := some { table := t, acked := !sendTable, due := sendTable, again := true, order := s.light.nextOrder } }).notePending e

/-- At edge T of the outstanding SWITCH the device takes the answered tables as in force (R315). -/
def State.switchEdge (s : State) : State :=
  match s.light.switch with
  | none => s
  | some w =>
    if w.tick = s.tickNo % 2 ^ 32 then
      let s := { s with light := { s.light with switch := none } }
      let s := w.entries.foldl (fun s x =>
        if x.answer = some 0 then s.tableInForce x.engine x.table
        else s.lateBoard x.engine x.table (x.answer = some 2)) s
      s.trySwitch
    else s

/-- Tables whose sends were exhausted are treated as late at an edge with no SWITCH outstanding (R367). -/
def State.failedTables (s : State) : State :=
  if s.light.switch.isSome then s
  else (List.range 32).foldl (fun s e =>
    match (s.lightOf e).staged with
    | some g => if g.failed then s.lateBoard e g.table true else s
    | none => s) s

/-! ### Moving a share (R330) -/

/-- The share of a lost string is spread over the mask by gain, each clamped to its fmax. -/
def LightEng.spread (l : LightEng) (b lost : Nat) : LightEng :=
  let m := l.mask b
  let kt := (m.map fun i => (l.str i).k).sum
  if kt = 0 then l
  else m.foldl (fun l i =>
    l.setStr i fun p => { p with
      share := min (fMax (l.act.codeMax.getD b 0) (l.nextModel i)) (p.share + roundDivN (lost * p.k) kt) }) l

/-- The spare of bank `b` carries string `i`'s share `p` from now on. -/
def LightEng.carryBySpare (l : LightEng) (b i : Nat) (p : StrPlan) (tick : Nat) : LightEng :=
  { (l.setStr (spareOf b) fun q => { q with state := stCarrying, spareFor := i % 9, share := p.share, k := p.k }) with
    spareTick := setAt l.spareTick b fun _ => tick + 1 }

/-- String `i` leaves the fire mask into state `st`; its share moves by R330. Of two strings of a bank that leave in one tick
the lower takes the spare. -/
def State.leaveMask (s : State) (e i st : Nat) : State :=
  let b := i / 9
  let l := s.lightOf e
  let p := l.str i
  let sp := l.str (spareOf b)
  let lent := 9 * b + sp.spareFor
  let s :=
    if i = spareOf b then
      (s.setLight e fun l => (l.setStr i fun q => { q with state := st, share := 0, spareFor := 15 })).setLight e fun l =>
        if p.state = stCarrying then l.spread b p.share else l
    else if sp.state = stIdle then
      s.setLight e fun l => (l.setStr i fun q => { q with state := st }).carryBySpare b i p s.tickNo
    else if sp.state = stCarrying ∧ (l.str lent).state = stLent then
      ((s.dropCal e b false).setLight e fun l => (l.giveBack lent).setStr i fun q => { q with state := st }).setLight e fun l =>
        l.carryBySpare b i p s.tickNo
    else if sp.state = stCarrying ∧ l.spareTick.getD b 0 = s.tickNo + 1 ∧ i % 9 < sp.spareFor then
      s.setLight e fun l => ((l.setStr i fun q => { q with state := st }).carryBySpare b i p s.tickNo).spread b sp.share
    else s.setLight e fun l => (l.setStr i fun q => { q with state := st }).spread b p.share
  (s.wr (LGT_STR_STATUS.STATE e i) st).restage e b

end Sys2Proof.Machine
end

