-- ==== Sys2Proof/Machine/Light.lean ====
section
/-! DEFINITION. Light strings and colour: LIGHT_SET, diagnosis, notches, the colour loop and heat (R307 to R332). -/

namespace Sys2Proof.Machine

/-! ### LIGHT_SET (R321, R322) -/

/-- Argument fields of the four parts. -/
def lightFields (part : Nat) : List (Nat × Nat × Nat) :=
  (8, 0, 2) :: (match part with
    | 0 => [(9, 0, 5), (12, 0, 96)]
    | 1 => [(10, 0, 12), (12, 0, 12), (14, 0, 12), (16, 0, 48), (23, 0, 4), (24, 0, 24), (27, 0, 8), (28, 0, 32), (32, 0, 24)]
    | 2 => [(9, 0, 2), (10, 0, 72)]
    | _ => [(10, 0, 9), (12, 0, 9), (14, 0, 9)])

def inR (x lo hi : Nat) : Bool := decide (lo ≤ x) && decide (x ≤ hi)

/-- The ranges of R321. -/
def lightRanges (d : Desc) : Bool :=
  match dF d 8 0 2 with
  | 1 => inR (dF d 10 0 12) 1024 4095 && inR (dF d 12 0 12) 1024 4095 && inR (dF d 14 0 12) 1024 4095 &&
         inR (dF d 23 0 4) 1 15 && inR (dF d 24 0 8) 10 90 && inR (dF d 25 0 8) 105 200 && inR (dF d 26 0 8) 10 95 &&
         inR (dF d 27 4 4) 2 8 && inR (dF d 28 0 16) 1 1024 && inR (dF d 30 0 16) 1 600 &&
         decide (1 ≤ dF d 32 0 8) && decide (1 ≤ dF d 33 0 8) && decide (1 ≤ dF d 34 0 8)
  | 2 => decide (dF d 9 0 2 ≤ 2)
  | _ => true

/-- The settings after the write. -/
def LightSet.written (t : LightSet) (d : Desc) : LightSet :=
  match dF d 8 0 2 with
  | 0 => { t with group := dF d 9 0 3, follow := dB d 9 3, loopOn := dB d 9 4,
                  targets := [dF d 12 0 32, dF d 16 0 32, dF d 20 0 32] }
  | 1 => { t with codeMax := [dF d 10 0 12, dF d 12 0 12, dF d 14 0 12], fsMa := [dF d 16 0 16, dF d 18 0 16, dF d 20 0 16],
                  faultCount := dF d 23 0 4, iOpen := dF d 24 0 8, vOpen := dF d 25 0 8, short := dF d 26 0 8,
                  notchEnable := dB d 27 0, notchLevel := dF d 27 1 3, notchW := dF d 27 4 4,
                  notchInterval := dF d 28 0 16, heatHold := dF d 30 0 16, kb := [dF d 32 0 8, dF d 33 0 8, dF d 34 0 8] }
  | 2 => { t with gains := (List.range 9).foldl (fun g s => setAt g (9 * dF d 9 0 2 + s) fun _ => dF d (10 + s) 0 8) t.gains }
  | _ => t

/-- Notches a tick gap of `g` ns holds (R252). -/
def notchCapacity (g w : Nat) : Nat := min 16 ((g - 3000) / (1000 * (w + 1)))

/-- LIGHT_GAIN_ZERO of R322: a bank with a target above 0 and no gain. -/
def LightSet.gainZero (t : LightSet) : Bool :=
  (List.range 3).any fun b => decide (0 < t.targets.getD b 0) && (List.range 9).all fun s => t.gains.getD (9 * b + s) 0 == 0

/-- The engine's light settings act on an engine that exists in the port mode in force (R26, R321). -/
def State.lightActs (s : State) (e : Nat) : Bool := s.exists_ e

/-- Register fields that show the settings in force. -/
def State.showLight (s : State) (e : Nat) : State :=
  let t := (s.lightOf e).act
  let s := s.wrs [(LGT_ENG_CFG.LOOP_ON e, b2n t.loopOn), (LGT_ENG_CFG.MATCH e, b2n t.follow), (LGT_ENG_CFG.GROUP e, t.group),
    (LGT_ENG_CFG.NOTCH_ENABLE e, b2n t.notchEnable), (LGT_ENG_CFG.NOTCH_LEVEL e, t.notchLevel),
    (LGT_ENG_CFG.NOTCH_W e, t.notchW), (LGT_ENG_CFG.NOTCH_INTERVAL e, t.notchInterval),
    (LGT_ENG_DIAG.FAULT_COUNT e, t.faultCount), (LGT_ENG_DIAG.I_OPEN_PCT e, t.iOpen), (LGT_ENG_DIAG.V_OPEN_PCT e, t.vOpen),
    (LGT_ENG_DIAG.SHORT_PCT e, t.short), (LGT_ENG_HEAT.HEAT_HOLD e, t.heatHold),
    (FLY_ENG_NOTCH.CAPACITY e, notchCapacity s.gap t.notchW)]
  (List.range 3).foldl (fun s b => s.wrs [(LGT_BANK_TARGET.TARGET e b, t.targets.getD b 0),
    (LGT_BANK_LIMITS.CODE_MAX e b, t.codeMax.getD b 0), (LGT_BANK_LIMITS.KB e b, t.kb.getD b 0),
    (LGT_BANK_FS.FS_MA e b, t.fsMa.getD b 0)]) s

/-- One string named by ACTIONS: a faulted string returns to service (R321). The spare returns to IDLE. -/
def State.clearFault (s : State) (e i : Nat) : State :=
  let st := ((s.lightOf e).str i).state
  if st = stOpen ∨ st = stShort then
    let s := s.setLight e fun l => if i % 9 = 8 then l.setStr i fun p => { p with state := stIdle, spareFor := 15 } else l.giveBack i
    let st' := ((s.lightOf e).str i).state
    s.wrs [(LGT_STR_STATUS.BAD_RUN e i, 0), (LGT_STR_STATUS.STATE e i, st')]
  else s

/-- The effect of an accepted LIGHT_SET: stored, with the parts that act at once (R321). -/
def State.lightStore (s : State) (e : Nat) (d : Desc) : State :=
  let s := s.setLight e fun l => { l with written := l.written.written d }
  if !s.lightActs e then s
  else match dF d 8 0 2 with
  | 0 => (s.setLight e fun l => { l with act := { l.act with loopOn := l.written.loopOn } }).showLight e
  | 1 => (s.setLight e fun l => { l with act := { l.act with
            faultCount := l.written.faultCount, iOpen := l.written.iOpen, vOpen := l.written.vOpen,
            short := l.written.short, fsMa := l.written.fsMa, heatHold := l.written.heatHold } }).showLight e
  | 3 =>
    let s := (List.range 27).foldl (fun s i => if dB d (10 + 2 * (i / 9)) (i % 9) then s.clearFault e i else s) s
    (List.range 3).foldl (fun s b => s.restage e b) s
  | _ => s

/-- LIGHT_SET after its INDEX: the checks of R82 and R322, then the store. -/
def lightSetBody (d : Desc) (s : State) : Res :=
  let e := dIndex d
  s.checked (s.r82 d (lightFields (dF d 8 0 2)) (decide (e < 32) && lightRanges d) true (s.engFenced e) false) fun _ =>
    let t := (s.lightOf e).written.written d
    if dF d 8 0 2 = 1 ∧ t.notchEnable ∧ notchCapacity s.gap t.notchW = 0 then .done s 0x44 0
    else if t.gainZero then .done s 0x45 0
    else .done (s.lightStore e d) cDone 0

/-! ### Strings on an IDENT (R307, R308) -/

/-- The strings an accepted IDENT reports, in their starting states. -/
def startPlan (t : LightSet) (strings : Nat) (spare : Bool) : List StrPlan :=
  (List.range 27).map fun i =>
    { state := if i % 9 < strings then stActive else if i % 9 = 8 ∧ spare then stIdle else stAbsent,
      k := t.gains.getD i 16 }

/-- R307, R308, R349: an IDENT with another SERIAL, or the first, sets the strings up and takes the held record. -/
def State.identStrings (s : State) (e serial strings : Nat) (spare : Bool) (sensors : Nat) : State :=
  let l := s.lightOf e
  let again := l.known && l.serial == serial
  let rec? := s.light.cal.held.find? fun r => r.serial = serial
  if again && l.strings == strings && l.spare == spare then s.setLight e fun l => { l with sensors := sensors }
  else
    let s := s.abandonCals e true
    let s := s.setLight e fun l =>
      { l with
        known := true, serial := serial, strings := strings, spare := spare, sensors := sensors,
        plan := startPlan l.act strings spare, calReqs := [], notchReqs := [], cals := [],
        models := (rec?.map (·.models)).getD (List.replicate 27 {}),
        respT := (rec?.map (·.respT)).getD [], resp := (rec?.map (·.resp)).getD [],
        respLoaded := (rec?.map (·.respLoaded)).getD false, fromStore := rec?.isSome,
        respNow := [], respTemp := [], respNext := none, telem := [], heatAt := [], deviant := [],
        excludeFrom := none }
    let s := (List.range 27).foldl (fun s i =>
      let p := (s.lightOf e).str i
      s.wrs [(LGT_STR_STATUS.STATE e i, p.state), (LGT_STR_STATUS.SPARE_FOR e i, 15), (LGT_STR_STATUS.BAD_RUN e i, 0),
        (LGT_STR_STATUS.AGE e i, 0), (LGT_STR_STATUS.VERIFIED e i, 0), (LGT_STR_STATUS.K e i, p.k)]) s
    (List.range 3).foldl (fun s b => s.restage e b) s

/-! ### Diagnosis (R323 to R327) -/

/-- String `i` has an age that counts it VERIFIED, and its state is in service (R327). -/
def State.verified (s : State) (e i : Nat) : Bool :=
  let l := s.lightOf e
  let st := (l.str i).state
  let age := s.rd (LGT_STR_STATUS.AGE e i)
  let bound := if l.act.notchEnable && s.rd (FLY_ENG_NOTCH.CAPACITY e) != 0 then 2 * l.act.notchInterval else 1
  (fires st || st == stIdle) && decide (age ≤ bound)

def State.showVerified (s : State) (e i : Nat) : State := s.wr (LGT_STR_STATUS.VERIFIED e i) (b2n (s.verified e i))

/-- Median of a list of numbers: the middle one, or the mean of the two middle ones. -/
def insertSorted (x : Nat) : List Nat → List Nat
  | [] => [x]
  | y :: r => if x ≤ y then x :: y :: r else y :: insertSorted x r
def sortNats (l : List Nat) : List Nat := l.foldr insertSorted []
/-- Twice the median. -/
def median2 (l : List Nat) : Nat :=
  let m := sortNats l
  let n := m.length
  m.getD ((n - 1) / 2) 0 + m.getD (n / 2) 0

/-- The tick of an engine whose counter [15:0] a message names. -/
def EngState.tickAt (g : EngState) (t16 : Nat) : Option LightTick := g.ticks.find? fun t => t.tick % 65536 = t16

/-- The code of string `i` at a level, and whether it stood in the fire mask, in a tick. -/
def LightTick.codeAt (t : LightTick) (i lv : Nat) : Nat := (t.plan.getD i (false, [])).2.getD lv 0
def LightTick.fires (t : LightTick) (i : Nat) : Bool := (t.plan.getD i (false, [])).1

/-- The code commanded for the measured pulse or notch of string `i` in a tick; `none` where the tick is no measurement
(R324). -/
def measuredCode (t : LightTick) (i : Nat) : Option Nat :=
  if t.aborted then none
  else match t.notches.find? fun n => n.fired && 9 * n.bank + n.string == i with
  | some n => some (t.codeAt i n.level)
  | none =>
    let p := t.longest.getD (i / 9) (0, 0)
    if t.fires i ∧ 300 ≤ p.1 ∧ 256 ≤ t.codeAt i p.2 then some (t.codeAt i p.2) else none

/-- Kinds of failed test of R325: (open, short). -/
def badTests (l : LightEng) (t : LightTick) (i code volt cur flags : Nat) (own : Option Nat) : Bool × Bool :=
  let a := l.act
  let fs := a.fsMa.getD (i / 9) 0
  let others := (t.good.filter fun p => p.1 / 9 = i / 9 ∧ p.1 ≠ i).map (·.2)
  -- twice the reference
  let ref := if 3 ≤ others.length then some (median2 others) else own.map (2 * ·)
  let low := match ref with | some r => decide (2 * 100 * volt < a.short * r) | none => false
  let high := match ref with | some r => decide (2 * 100 * volt > a.vOpen * r) | none => false
  let current := decide (0 < fs) && decide (cur * 100 * 4095 < a.iOpen * code * fs)
  (bitOf flags 0 || current || high, bitOf flags 1 || low)

/-- A string declared faulted (R326). -/
def State.declareFault (s : State) (e i : Nat) (short : Bool) : State :=
  let st := if short then stShort else stOpen
  let cur := ((s.lightOf e).str i).state
  let s := s.raise (144 + 2 * e)
  if cur = stLent then
    ((s.dropCal e (i / 9) true).setLight e fun l => l.setStr i fun p => { p with state := st }).wr (LGT_STR_STATUS.STATE e i) st
      |>.restage e (i / 9)
  else if fires cur then s.leaveMask e i st
  else ((s.setLight e fun l => l.setStr i fun p => { p with state := st }).wr (LGT_STR_STATUS.STATE e i) st).restage e (i / 9)

/-- The calibration requests of a string that left service end (R335). -/
def State.endRequests (s : State) (e i : Nat) : State :=
  s.setLight e fun l => { l with calReqs := l.calReqs.filter fun r => r.str ≠ i, notchReqs := l.notchReqs.filter fun r => r.str ≠ i }

/-- A measurement of string `i` is judged (R325, R326). -/
def State.judge (s : State) (e i : Nat) (t : LightTick) (code volt cur flags : Nat) : State :=
  let l := s.lightOf e
  let own := if l.telem.contains i then some (s.rd (LGT_STR_TELEM.VOLT_MV e i)) else none
  let bad := badTests l t i code volt cur flags own
  if bad.1 || bad.2 then
    let run := s.rd (LGT_STR_STATUS.BAD_RUN e i) + 1
    let s := (s.bump (LGT_STR_COUNTS.BAD e i) 1).wr (LGT_STR_STATUS.BAD_RUN e i) (min run 15)
    let st := (l.str i).state
    if l.act.faultCount ≤ run ∧ st ≠ stOpen ∧ st ≠ stShort then ((s.declareFault e i bad.2).endRequests e i).showVerified e i
    else s
  else
    let s := s.wrs [(LGT_STR_STATUS.BAD_RUN e i, 0), (LGT_STR_TELEM.VOLT_MV e i, volt), (LGT_STR_TELEM.CUR_MA e i, cur),
      (LGT_STR_STATUS.AGE e i, 0)]
    let s := s.setLight e fun l => { l with telem := if l.telem.contains i then l.telem else i :: l.telem }
    let s := s.setEngine e fun g => { g with ticks := g.ticks.map fun u =>
      if u.tick = t.tick then { u with good := (i, volt) :: u.good } else u }
    s.showVerified e i

/-- Heat reported for a string (R329): it goes HEAT_OFF and its share moves; ticks are excluded from the loop. -/
def State.heat (s : State) (e i t16 : Nat) : State :=
  let l := s.lightOf e
  let st := (l.str i).state
  let s := s.setLight e fun l => { l with heatAt := Tbl.put (fun _ => 0) i s.now l.heatAt }
  if st = stHeatOff then s
  else if fires st || st == stLent then
    let s := s.raise (144 + 2 * e)
    let from_ := match (s.engine e).tickAt t16 with | some t => t.tick | none => s.tickNo
    let s := s.setLight e fun l => { l with excludeFrom := some (match l.excludeFrom with | some f => min f from_ | none => from_) }
    let s := s.setEngine e fun g => { g with ticks := g.ticks.map fun u => if from_ ≤ u.tick then { u with excluded := true } else u }
    let s := if st = stLent then
        (((s.dropCal e (i / 9) true).setLight e fun l => l.setStr i fun p => { p with state := stHeatOff }).wr
          (LGT_STR_STATUS.STATE e i) stHeatOff).restage e (i / 9)
      else s.leaveMask e i stHeatOff
    (s.endRequests e i).showVerified e i
  else s

/-- STRING (R325, R326, R329): the message of string `str` of `bank` for tick `t16`. -/
def State.stringMsg (s : State) (e bank str volt cur flags t16 : Nat) : State :=
  let i := 9 * bank + str
  let l := s.lightOf e
  if bank < 3 ∧ str < 9 ∧ (l.str i).state ≠ stAbsent then
    let s := match (s.engine e).tickAt t16 with
      | some t => match measuredCode t i with
        | some code => s.judge e i t code volt cur flags
        | none => s
      | none => s
    if bitOf flags 2 then s.heat e i t16 else s
  else s

/-- HEAT_HOLD_EXPIRY (R329): a HEAT_OFF string with no heat reported for HEAT_HOLD returns to ACTIVE with its share. -/
def execHeatHoldExpiry (e i : Nat) (s : State) : Out :=
  .next (s.inService fun s =>
    let l := s.lightOf e
    if i < 27 ∧ (l.str i).state = stHeatOff then
      let s := s.reach (Tbl.get (fun _ => 0) l.heatAt i + 100000000 * l.act.heatHold)
      let s := s.setLight e fun l =>
        if i % 9 = 8 then l.setStr i fun p => { p with state := stIdle, spareFor := 15 } else l.giveBack i
      let s := s.wr (LGT_STR_STATUS.STATE e i) ((s.lightOf e).str i).state
      (s.restage e (i / 9)).showVerified e i
    else s)

/-! ### The colour loop (R317 to R320) -/

/-- Sensors in use: those not out of use for 8 valid ticks (R317). -/
def LightEng.inUse (l : LightEng) : List Nat :=
  (List.range l.sensors).filter fun j => l.sensors < 3 || decide (Tbl.get (fun _ => 0) l.deviant j < 8)

/-- VALUE × RESP of sensor `j` for a tag in a tick. -/
def LightTick.sense (t : LightTick) (tag j : Nat) : Option Nat :=
  (t.sensed.find? fun p => p.1 = tag ∧ p.2.1 = j).map (·.2.2)

/-- The sum of VALUE × RESP over the sensors in use, where every one has reported. -/
def senseSum (t : LightTick) (tag : Nat) : List Nat → Option Nat
  | [] => some 0
  | j :: r => match t.sense tag j, senseSum t tag r with
    | some a, some b => some (a + b)
    | _, _ => none

/-- A tick is valid for the loop of bank `b` (R317). -/
def validTick (l : LightEng) (t : LightTick) (b : Nat) : Bool :=
  t.lit && !t.aborted && decide (0 < t.xs.getD b 0) && !t.fault && !t.excluded && !l.inUse.isEmpty &&
    (senseSum t (0xF0 + b) l.inUse).isSome

/-- Count the sensors of a finished tick that deviate from the median by more than 1/8 (R317). -/
def LightEng.judgeSensors (l : LightEng) (t : LightTick) : LightEng :=
  if l.sensors < 3 then l
  else
    let banks := (List.range 3).filter fun b => validTick l t b
    if banks.isEmpty then l
    else (List.range l.sensors).foldl (fun l j =>
      let far := banks.any fun b =>
        let all := (List.range l.sensors).filterMap fun k => t.sense (0xF0 + b) k
        let m := median2 all
        match t.sense (0xF0 + b) j with
        | some q => decide (((2 * q : Nat) - (m : Int)).natAbs * 8 > m)
        | none => true
      let n := Tbl.get (fun _ => 0) l.deviant j
      { l with deviant := Tbl.put (fun _ => 0) j (if far then min 8 (n + 1) else 0) l.deviant }) l

/-- Nearest 16.16 value of a non-negative rational. -/
def fix16 (x : Rat) : Nat := (x * 65536 + 1 / 2).floor.toNat

/-- A 16.16 field as a rational. -/
def ofFix (n : Nat) : Rat := (n : Rat) / 65536

/-- Σ Q_b and Σ X_b over the valid ticks of the window (R319). -/
def loopWindow (l : LightEng) (ticks : List LightTick) (edge period b : Nat) : List LightTick :=
  ticks.filter fun t => decide (max (edge - period) l.switchTick ≤ t.tick) && decide (t.tick < edge) && validTick l t b

/-- φ̄ of a window, in LU per unit. -/
def windowPhi (l : LightEng) (w : List LightTick) (b : Nat) : Rat :=
  let n := l.inUse.length
  let q : Rat := ((w.map fun t => (senseSum t (0xF0 + b) l.inUse).getD 0).sum : Nat) / ((2 ^ 20 * n : Nat) : Rat)
  let x : Rat := ((w.map fun t => t.xs.getD b 0).sum : Nat) / 128
  q / x

/-- σ_e of R318 in exact arithmetic, with the banks that hold it below 1. -/
def sigmaOf (l : LightEng) : Rat × List Nat :=
  (List.range 3).foldl (fun a b =>
    let tgt := l.act.targets.getD b 0
    if tgt = 0 then a
    else
      let m : Rat := match l.meas.getD b none with | some (phi, cmd) => if cmd = 0 then 1 else (phi : Rat) / cmd | none => 1
      let cap : Rat := ((l.mask b).map fun i => (l.nextModel i).g * (l.act.codeMax.getD b 0 - (l.nextModel i).th)).sum
      let r := 31 / 32 * (m * cap / 2 ^ 28) / ofFix tgt
      (if r < a.1 then r else a.1, if r < 1 then b :: a.2 else a.2)) (1, [])

/-- fmax_s and fmin_s of R319, exactly. -/
def fMaxExact (codeMax : Nat) (m : StrModel) : Rat := ((m.g * (codeMax - m.th) : Nat) : Rat) / 268435456
def fMinExact (m : StrModel) : Rat := ((m.g * 1024 : Nat) : Rat) / 268435456

/-- The shares of the correction loop of R319: pairs (string, F as a rational). -/
def correct (l : LightEng) (b : Nat) : Nat → List (Nat × Rat) → Rat → List Nat → List (Nat × Rat) × List Nat × Bool
  | 0, f, _, done => (f, done, true)
  | fuel + 1, f, df, done =>
    if df = 0 then (f, done, false)
    else
      let free := (f.map (·.1)).filter fun i => !done.contains i && decide (0 < (l.str i).k)
      if free.isEmpty then (f, done, true)
      else
        let kt : Rat := ((free.map fun i => (l.str i).k).sum : Nat)
        let f := f.map fun p => if free.contains p.1 then (p.1, p.2 + df * ((l.str p.1).k : Rat) / kt) else p
        let cm := l.act.codeMax.getD b 0
        let hi := fun i => fMaxExact cm (l.nextModel i)
        let lo := fun i => fMinExact (l.nextModel i)
        let excess := f.foldl (fun d p => if free.contains p.1 then
            (if p.2 > hi p.1 then d + (p.2 - hi p.1) else if p.2 < lo p.1 then d + (p.2 - lo p.1) else d) else d) (0 : Rat)
        let hit := (f.filter fun p => free.contains p.1 && (decide (p.2 > hi p.1) || decide (p.2 < lo p.1))).map (·.1)
        let f := f.map fun p => if free.contains p.1 then
            (p.1, if p.2 > hi p.1 then hi p.1 else if p.2 < lo p.1 then lo p.1 else p.2) else p
        correct l b fuel f excess (hit ++ done)

/-- Clamp the shares of the mask to fmin and fmax; with the strings clamped. -/
def clampAll (l : LightEng) (b : Nat) (f : List (Nat × Rat)) : List (Nat × Rat) × List Nat :=
  let cm := l.act.codeMax.getD b 0
  let hi := fun i => fMaxExact cm (l.nextModel i)
  let lo := fun i => fMinExact (l.nextModel i)
  (f.map fun p => (p.1, if p.2 > hi p.1 then hi p.1 else if p.2 < lo p.1 then lo p.1 else p.2),
   (f.filter fun p => decide (p.2 > hi p.1) || decide (p.2 < lo p.1)).map (·.1))

/-- What an update of a bank comes to: the engine's plan, whether it ended in at_limit, whether a string was clamped. -/
structure LoopOut where
  l : LightEng
  atLimit : Bool
  clamped : Bool

def LightEng.putShares (l : LightEng) (f : List (Nat × Rat)) : LightEng :=
  f.foldl (fun l p => l.setStr p.1 fun q => { q with share := fix16 p.2 }) l

/-- loop_update of R319 for bank `b` with effective target `eff` (16.16). -/
def loopUpdate (l : LightEng) (w : List LightTick) (b eff : Nat) : LoopOut :=
  let prev := l.effPrev.getD b 0
  let m := l.mask b
  let kt := (m.map fun i => (l.str i).k).sum
  if eff = 0 then ⟨l.putShares (m.map fun i => (i, 0)), false, false⟩
  else if prev = 0 then
    let f := m.map fun i => (i, if kt = 0 then 0 else ofFix eff * ((l.str i).k : Rat) / (kt : Rat))
    let c := clampAll l b f
    ⟨l.putShares c.1, false, !c.2.isEmpty⟩
  else
    let f := m.map fun i => (i, ofFix (l.str i).share)
    let scaled := if eff ≠ prev then clampAll l b (f.map fun p => (p.1, p.2 * ofFix eff / ofFix prev)) else (f, [])
    if w.isEmpty then
      let c := clampAll l b scaled.1
      ⟨l.putShares c.1, false, !c.2.isEmpty || !scaled.2.isEmpty⟩
    else
      let phi := windowPhi l w b
      let e0 := if phi = 0 then 1 / 8 else ofFix eff / phi - 1
      let err := if e0 < -1 / 8 then -1 / 8 else if e0 > 1 / 8 then 1 / 8 else e0
      let cmd := (scaled.1.map (·.2)).foldl (· + ·) (0 : Rat)
      let df := ((l.act.kb.getD b 0 : Nat) : Rat) / 256 * err * cmd
      let c := correct l b 12 scaled.1 df []
      ⟨l.putShares c.1, c.2.2, !c.2.1.isEmpty || !scaled.2.isEmpty⟩

/-- An engine whose loop runs (R319). -/
def State.loops (s : State) (e : Nat) : Bool :=
  (s.lightOf e).act.loopOn && (s.lightOf e).known && !s.flag (LGT_ENG_STATUS.DRIVER_LOST e) && s.exists_ e

/-- LIGHT_SET settings that take effect at a loop edge (R321). -/
def LightEng.takeLoop (l : LightEng) : LightEng :=
  let w := l.written
  let l := { l with act := { l.act with group := w.group, follow := w.follow, targets := w.targets, codeMax := w.codeMax,
                                        kb := w.kb, gains := w.gains } }
  { l with plan := (l.plan.zipIdx).map fun p =>
      if p.1.state = stCarrying ∧ p.2 % 9 = 8 then { p.1 with k := w.gains.getD (9 * (p.2 / 9) + p.1.spareFor) 16 }
      else { p.1 with k := w.gains.getD p.2 16 } }

/-- LIGHT_SET settings that take effect at a tick edge: the notch settings, and what an engine that did not exist when it was
written has not taken yet (R321). -/
def LightEng.takeEdge (l : LightEng) : LightEng :=
  let w := l.written
  { l with act := { l.act with
      loopOn := w.loopOn, faultCount := w.faultCount, iOpen := w.iOpen, vOpen := w.vOpen, short := w.short, fsMa := w.fsMa,
      heatHold := w.heatHold, notchEnable := w.notchEnable, notchLevel := w.notchLevel, notchW := w.notchW,
      notchInterval := w.notchInterval } }

/-- The settings of engine `e` at a tick edge. -/
def State.takeEdge (s : State) (e : Nat) : State :=
  if (s.lightOf e).takeEdge.act = (s.lightOf e).act then s else (s.setLight e LightEng.takeEdge).showLight e

/-- The window of an engine holds a valid tick for some bank. -/
def State.hasWindow (s : State) (e edge period : Nat) : Bool :=
  (List.range 3).any fun b => !(loopWindow (s.lightOf e) (s.engine e).ticks edge period b).isEmpty

/-- σ_g of every group at a loop edge, with its limiting engine (R318). -/
def State.groupSigmas (s : State) (edge period : Nat) : List (Nat × Option Nat) :=
  (List.range 8).map fun g =>
    let es := (List.range 32).filter fun e =>
      (s.lightOf e).act.loopOn && s.exists_ e && (s.lightOf e).act.follow && (s.lightOf e).act.group == g && s.hasWindow e edge period
    let best := es.foldl (fun a e =>
      let r := min 65536 ((sigmaOf (s.lightOf e)).1 * 65536).floor.toNat
      if r < a.1 then (r, some e) else a) (65536, none)
    let old := s.light.sigma.getD g 65536
    (min best.1 (min 65536 (old + 1024)), best.2)

/-- One engine's update at a loop edge (R319, R320). -/
def State.loopEngine (s : State) (e edge period : Nat) : State :=
  let ticks := (s.engine e).ticks
  let lit := ticks.any fun t => t.lit && decide (edge - period ≤ t.tick) && decide (t.tick < edge)
  let own := sigmaOf (s.lightOf e)
  let sig := if (s.lightOf e).act.follow then s.light.sigma.getD (s.lightOf e).act.group 65536
             else min 65536 (own.1 * 65536).floor.toNat
  let s := (List.range 3).foldl (fun s b =>
    let l := s.lightOf e
    let eff := roundDivN (l.act.targets.getD b 0 * sig) 65536
    let w := loopWindow l ticks edge period b
    let cmd := l.fCmd b
    let out := loopUpdate l w b eff
    let meas := if w.isEmpty then l.meas.getD b none else some (fix16 (windowPhi l w b), cmd)
    let lim := out.atLimit || own.2.contains b
    let was := bitOf (s.rd (LGT_ENG_STATUS.AT_LIMIT e)) b
    let s := s.setLight e fun _ => { out.l with effPrev := setAt out.l.effPrev b fun _ => eff,
                                                meas := setAt out.l.meas b fun _ => meas }
    let now := if lim then true else if !out.clamped && own.2.isEmpty then false else was
    let s := s.wr (LGT_ENG_STATUS.AT_LIMIT e) (setBit (s.rd (LGT_ENG_STATUS.AT_LIMIT e)) b (b2n now))
    let s := if now && !was then s.raise (145 + 2 * e) else s
    let s := s.wr (LGT_BANK_EFF.EFF e b) eff
    let s := match meas with | some (phi, _) => s.wr (LGT_BANK_MEAS.MEAS e b) phi | none => s
    -- an update with an empty window computes no codes; a bank without a target goes dark with the next lit ticks
    if !w.isEmpty || (eff == 0 && lit) then s.setLight e fun l => l.recode b else s) s
  s.stageIfChanged e

/-- LOOP_EDGE (R318 to R320): due once at each tick edge whose counter is a multiple of LOOP_PERIOD. -/
def execLoopEdge (s : State) : Out :=
  .next (s.inService fun s =>
    if s.light.loopDue then
      let period := max 2 (bitsOf s.light.loopCfg 0 8)
      let edge := s.tickNo
      let s := { s with light := { s.light with loopDue := false } }
      let s : State := s.engines.foldl (fun (s : State) e => (s.setLight e fun l => l.takeLoop).showLight e) s
      let sg : List (Nat × Option Nat) := s.groupSigmas edge period
      let s := { s with light := { s.light with sigma := sg.map Prod.fst } }
      let s := (sg.zipIdx).foldl (fun s (p : (Nat × Option Nat) × Nat) => s.wrs [(LGT_GROUP.SIGMA p.2, p.1.1), (LGT_GROUP.LIMITER p.2, p.1.2.getD 0),
        (LGT_GROUP.LIMITED p.2, b2n (decide (p.1.1 < 65536)))]) s
      (s.engines.filter s.loops).foldl (fun s e => s.loopEngine e edge period) s
    else s)

end Sys2Proof.Machine
end

