-- ==== Sys2Proof/Machine/EngineOps.lean ====
section
/-! DEFINITION. Operations on engines: numbered plies, the end of a tick, link states and the laser permit (R256, R269 to
R271, R283, R296 to R304). -/

namespace Sys2Proof.Machine

/-! ### Plies (R268 to R271) -/

/-- The kinds of R270. -/
def kKeepalive : Nat := 0
def kData : Nat := 1
def kEvent : Nat := 2
def kConfig : Nat := 3
def kAbort : Nat := 4
def kBlank : Nat := 5
def kHello : Nat := 6

/-- The number the next numbered ply of a sub-port takes (R269). -/
def State.nextSeq (s : State) (e : Nat) : Nat := (s.engine e).link.nextSeq

def State.bumpSeq (s : State) (e n : Nat) : State := s.setLink e fun p => { p with nextSeq := (p.nextSeq + n) % 16384 }

/-- Two copies of an ABORT wait on the sub-port (R256, R271). -/
def State.queueAbort (s : State) (e : Nat) : State :=
  let p : Ply := { kind := kAbort, seq := s.nextSeq e, payload := s.tickNo % 2 ^ 32, tick := s.tickNo }
  (s.setLink e fun l => { l with aborts := l.aborts ++ [p, p] }).bumpSeq e 1

/-- A BAND_BLANK of a band and the load it abandons waits on the sub-port (R258, R270). -/
def State.queueBlank (s : State) (e band firstSeq : Nat) : State :=
  let p : Ply := { kind := kBlank, seq := s.nextSeq e, tick := s.tickNo,
                   payload := band + 2 ^ 16 * (s.tickNo % 65536) + 2 ^ 32 * firstSeq }
  (s.setLink e fun l => { l with blanks := l.blanks ++ [p] }).bumpSeq e 1

/-- The payload of CONFIG for the settings in force (R283). -/
def State.configPayload (s : State) (e id : Nat) : Nat :=
  let c := (s.engine e).fly.cfg
  (c.width + 2 ^ 16 * c.height) +
    2 ^ 32 * (c.bands + 2 ^ 5 * b2n (s.split (e / 2)) + 2 ^ 6 * (e % 2) + 2 ^ 8 * e + 2 ^ 16 * id) +
    2 ^ 64 * s.period + 2 ^ 96 * s.rd TICK_TIMING.GAP_US

/-- A CONFIG ply with a new CONFIG_ID waits, in place of one not yet sent (R283). -/
def State.queueConfig (s : State) (e : Nat) : State :=
  let id := (s.engine e).link.configId
  let p : Ply := { kind := kConfig, payload := s.configPayload e id, tick := s.tickNo }
  s.setLink e fun l => { l with
    events := (l.events.filter fun q => q.kind != kConfig) ++ [p], configId := (id + 1) % 65536, asked := some id }

/-! ### The end of a tick (R256) -/

/-- The engine is in a lit tick in progress. -/
def State.litNow (s : State) (e : Nat) : Bool := (s.engine e).run.lit && !(s.engine e).run.ended

/-- FLY_PORT_STATUS shows the lit state. -/
def State.showLit (s : State) (e : Nat) : State :=
  s.wr (if e % 2 = 0 then FLY_PORT_STATUS.LIT0 (e / 2) else FLY_PORT_STATUS.LIT1 (e / 2)) (b2n (s.litNow e))

/-- Steps 1, 2, 4 and 5 of R256 on one engine: everything of the tick not carried out is cancelled, an ABORT goes out, and
only keepalives follow. -/
def State.endOne (s : State) (e : Nat) : State :=
  if s.litNow e then
    let s := s.setRun e fun r => { r with
      ended := true, timed := [], blanked := [],
      loads := r.loads.map fun l => if l.shown then l else { l with abandoned := true, asked := [] } }
    let s : State := s.setEngine e fun g => { g with
      ticks := g.ticks.modifyHead (fun t => { t with aborted := true }),
      link := { g.link with blanks := [], evReplays := [], dataReplays := [],
                            events := g.link.events.filter fun p => p.kind == kConfig } }
    (s.queueAbort e).showLit e
  else s

/-- The tick of an engine and of its clones ends early (R256, R294, R300, R442). -/
def State.endTick (s : State) (e : Nat) : State := (e :: s.clonesOf e).foldl (fun s k => s.endOne k) s

/-- An underrun abort on one engine (R256). -/
def State.abortOne (s : State) (e slot cause : Nat) : State :=
  if s.litNow e then
    let s := (s.endOne e).setRun e fun r => { r with aborted := true }
    (s.wrs [(FLY_ENG_LAST_ABORT.SLOT e, slot), (FLY_ENG_LAST_ABORT.TICK e, s.tickNo % 65536),
      (FLY_ENG_LAST_ABORT.CAUSE e, cause), (FLY_ENG_STATE.ABORTED e, 1)]).bump (FLY_ENG_STATS.ABORTS e) 1
      |>.raise (80 + 4 * (e / 2))
  else s

/-- UNDERRUN on an engine: its clones abort in the same slot (R202, R256). -/
def State.abortTick (s : State) (e slot cause : Nat) : State :=
  (e :: s.clonesOf e).foldl (fun s k => s.abortOne k slot cause) s

/-! ### Link states (R296 to R300) -/

/-- A sub-port changes state: source 16 + 4p (R297). -/
def State.setLinkState (s : State) (e st : Nat) : State :=
  let s := s.wr (SKN_ENG_STATUS.STATE e) st
  (s.wr (if e % 2 = 0 then SKN_PORT_STATUS.STATE0 (e / 2) else SKN_PORT_STATUS.STATE1 (e / 2)) st).raiseLink e

/-- A sub-port that leaves RUN ends a lit tick and the engine's calibrations (R300, R342). -/
def State.leaveRun (s : State) (e : Nat) : State :=
  if s.linkState e = 5 then (s.endTick e).abandonCals e false else s

/-- Plies waiting and stored are dropped with the link. -/
def SubPort.drop (l : SubPort) : SubPort :=
  { l with store := [], aborts := [], blanks := [], evReplays := [], events := [], dataReplays := [], kaDue := [], helloDue := [] }

/-- To TRAIN: 100 µs of electrical idle begin (R296, R297). A retrain counts; `reason` is its code of R305, if it has one. -/
def State.train (s : State) (e : Nat) (reason : Option Nat) : State :=
  let was := s.linkState e
  let s := s.leaveRun e
  let s := if was = 0 then s else s.bump (SKN_PORT_LINK.RETRAINS (e / 2)) 1
  let s := match reason with | some c => s.wr (SKN_ENG_STATUS.REASON e) c | none => s
  let s := s.setLink e fun l => { l.drop with trainAt := s.now, configEdges := 0, offered := none }
  s.setLinkState e 1

/-- To OFF (R297). -/
def State.linkOff (s : State) (e : Nat) : State :=
  if s.linkState e = 0 then s
  else ((s.leaveRun e).setLink e fun l => { l.drop with configEdges := 0, offered := none }).setLinkState e 0

/-- To HOLD with a reason (R297). -/
def State.holdLink (s : State) (e reason : Nat) : State :=
  ((s.leaveRun e).wr (SKN_ENG_STATUS.REASON e) reason).setLinkState e 6

/-- To CONFIG; from READY numbering starts at 0 (R269, R297). -/
def State.enterConfig (s : State) (e : Nat) : State :=
  let fresh := s.linkState e == 3
  let s := s.leaveRun e
  let s := s.setLink e fun l => { l with configEdges := 0, nextSeq := if fresh then 0 else l.nextSeq,
                                         store := if fresh then [] else l.store }
  (s.setLinkState e 4).queueConfig e

/-- A port may train: enabled, not under a user self-test run nor left fenced by one, and the life cycle not BLANK (R297, R488,
R494). -/
def State.portMayTrain (s : State) (p : Nat) : Bool :=
  s.flag (SKN_PORT_CFG.ENABLE p) && s.rd DEV_STATUS.LC != 0 && !(s.portLink p).testing && !bitOf (s.rd DEV_PU_FENCED.PORTS) p

/-! ### The laser permit (R303, R304, R496) -/

def State.permit (s : State) : Bool := s.flag SKN_LSAFE_STATUS.PERMIT

/-- LSAFE_OUT follows the permit and OUT_ENABLE (R304). -/
def State.driveLsafe (s : State) : State :=
  let v := s.permit && s.flag SKN_LSAFE_CFG.OUT_ENABLE
  { (s.wr SKN_LSAFE_STATUS.OUT (b2n v)) with pwr := { s.pwr with lsafeOut := v } }

/-- The permit changes: source 16 + 4p of every enabled port (R304). -/
def State.setPermit (s : State) (on : Bool) : State :=
  if s.permit = on then s
  else
    let s := (s.wr SKN_LSAFE_STATUS.PERMIT (b2n on)).driveLsafe
    (List.range 16).foldl (fun s p =>
      let s := s.wr (SKN_PORT_STATUS.PERMIT p) (b2n on)
      if s.flag (SKN_PORT_CFG.ENABLE p) then s.raiseLink (2 * p) else s) s

/-- The permit is withdrawn: LSAFE_OUT low, PERMIT 0, an ABORT to every engine in a lit tick (R303). -/
def State.withdrawPermit (s : State) : State :=
  if s.permit then s.engines.foldl (fun s e => s.endOne e) (s.setPermit false) else s

/-- AWAIT_RELEASE: LATCH is 1 and RELEASE is awaited (R304). -/
def State.showAwait (s : State) : State :=
  s.wr SKN_LSAFE_STATUS.AWAIT_RELEASE (b2n (s.flag SKN_LSAFE_CFG.LATCH && !s.eng.released))

/-- HOLD_MS in ns. -/
def State.holdNs (s : State) : Nat := 1000000 * nearer (s.rd SKN_LSAFE_CFG.HOLD_MS) 10 1000

/-- PERMIT_GRANT at a tick edge (R304); never in BLANK (R488). -/
def State.grantPermit (s : State) : State :=
  let held := match s.eng.lsafeLowAt with | some t => decide (t + s.holdNs ≤ s.now) | none => false
  if !s.permit && s.pwr.pwrOk && s.rd DEV_STATUS.LC != 0 && held && (!s.flag SKN_LSAFE_CFG.LATCH || s.eng.released) then s.setPermit true else s

/-! ### Fencing an engine (R442) -/

/-- An engine is fenced: a lit tick in progress ends, and its calibrations are abandoned (R442). -/
def State.fenceEngine (s : State) (e : Nat) : State :=
  let s := { s with sig := { s.sig with engFenced := s.sig.engFenced ++ [e] } }
  (s.endTick e).abandonCals e false

/-! ### The plane CRC (R295, R451) -/

/-- The device's plane CRC of the tick in progress (R295): 0 where no band was shown. -/
def FlyRun.crc (r : FlyRun) : Nat :=
  let ls := r.loads.filter fun l => l.shown && !l.parked
  if ls.isEmpty then 0 else crcBytes 0xFFFFFFFF (ls.flatMap (·.data)) ^^^ 0xFFFFFFFF

def State.crcs (s : State) (e : Nat) : List CrcEntry := Tbl.get (fun _ => []) s.sig.crcs e
def State.setCrcs (s : State) (e : Nat) (f : List CrcEntry → List CrcEntry) : State :=
  { s with sig := { s.sig with crcs := Tbl.put (fun _ => []) e (f (s.crcs e)) s.sig.crcs } }

/-- At a tick edge the tick that ends enters the CRC history (R451, R452). -/
def State.closeCrc (s : State) (e : Nat) : State :=
  let g := s.engine e
  let src := if g.fly.warp.mode = 3 then (s.engine g.fly.warp.cloneSrc).run else g.run
  let cmp := s.litNow e && s.linkState e == 5
  s.setCrcs e fun h => ({ tick := s.tickNo, status := if cmp then 4 else 3, crc := src.crc, endAt := s.now } : CrcEntry) :: h.take 9

end Sys2Proof.Machine
end

