-- ==== Sys2Proof/Machine/Escalate.lean ====
section
/-! DEFINITION. Error counting, escalation, fencing and UNFENCE (R440 to R445). -/

namespace Sys2Proof.Machine

/-! ### Error instances (R440, R441) -/

/-- The kinds of R440. -/
def eFabric : Nat := 0
def eHank : Nat := 1
def eObject : Nat := 2
def eScaler : Nat := 3
def eStack : Nat := 4
def eSkeinParity : Nat := 5
def eSkeinExhaust : Nat := 6
def ePlaneCrc : Nat := 7

/-- Instances of a kind. -/
def instances (k : Nat) : Nat := match k with | 0 => 19 | 1 => 1 | 2 => 17 | _ => 32

def State.err (s : State) (k i : Nat) : ErrInst := Tbl.get (fun _ => {}) s.sig.errs (64 * k + i)
def State.setErr (s : State) (k i : Nat) (f : ErrInst → ErrInst) : State :=
  { s with sig := { s.sig with errs := Tbl.put (fun _ => {}) (64 * k + i) (f (s.err k i)) s.sig.errs } }

/-- WINDOW of kind `k` as written; 0 acts as 1. -/
def State.windowSet (s : State) (k : Nat) : Nat := max 1 (s.rd (SIG_KIND_CFG.WINDOW k))

/-- WINDOW of kind `k` in force: the written value is taken at a window start (R441). -/
def windowReset (k : Nat) : Nat := if k = 2 ∨ k = 3 ∨ k = 6 then 1200 else 120
def State.windowOf (s : State) (k : Nat) : Nat := Tbl.get windowReset s.sig.windows k

/-- The resource that level 2 of a kind fences is fenced. -/
def State.resFenced (s : State) (k i : Nat) : Bool :=
  match k with
  | 2 => if i = 16 then s.flag OBJ_STATUS.MIRROR_FENCED else bitOf (s.rd OBJ_BANKS.FENCED) i
  | 3 => s.obj.fenced.contains i
  | 4 => s.pcFenced i
  | 5 => s.sig.engFenced.contains i
  | 6 => s.sig.engFenced.contains i
  | 7 => s.sig.engFenced.contains i
  | _ => false

/-- Bits set below `n`. -/
def ones (x n : Nat) : Nat := ((List.range n).filter fun i => bitOf x i).length

/-- DEV_RESOURCES counts the units not fenced, and DEGRADED is set in service while any is (R487). -/
def State.showResources (s : State) : State :=
  let ports := ((List.range 16).filter fun p => bitOf (s.rd DEV_PU_FENCED.PORTS) p || (s.portLink p).testing).length
  let bbn := ones (s.rd DEV_PU_FENCED.BACKBONE) 2
  let banks := ones (s.rd OBJ_BANKS.FENCED) 16
  let pcs := ones (s.rd STK_FENCED.FENCED) 32
  let scalers := s.obj.fenced.length
  let any := decide (0 < ports + bbn + banks + pcs + scalers) || s.flag OBJ_STATUS.MIRROR_FENCED
  s.wrs [(DEV_RESOURCES.PORTS, 16 - ports), (DEV_RESOURCES.SCALERS, 32 - scalers), (DEV_RESOURCES.OBJ_BANKS, 16 - banks),
    (DEV_RESOURCES.PCS, 32 - pcs), (DEV_RESOURCES.BACKBONE, 2 - bbn),
    (DEV_STATUS.DEGRADED, b2n (any && s.flag DEV_STATUS.READY))]

/-- Pseudo-channel `pc` is fenced or returns; source 273 in service (R413). -/
def State.setPcFenced (s : State) (pc : Nat) (on : Bool) : State :=
  let m := setBit (s.rd STK_FENCED.FENCED) pc (b2n on)
  let s := (s.wrs [(STK_FENCED.FENCED, m), (STK_STATUS.FENCED_COUNT, ones m 32)]).showResources
  if s.flag DEV_STATUS.READY then s.raise 273 else s

/-- An object bank, or the mirror (16), is fenced or returns; source 242 for a bank (R183, R442). -/
def State.setBankFenced (s : State) (b : Nat) (on : Bool) : State :=
  if b = 16 then (s.wr OBJ_STATUS.MIRROR_FENCED (b2n on)).showResources
  else
    let s := (s.wr OBJ_BANKS.FENCED (setBit (s.rd OBJ_BANKS.FENCED) b (b2n on))).showResources
    if s.flag DEV_STATUS.READY then s.raise 242 else s

/-- A scaler is fenced or returns. -/
def State.setScalerFenced (s : State) (n : Nat) (on : Bool) : State :=
  let l := if on then (if s.obj.fenced.contains n then s.obj.fenced else n :: s.obj.fenced) else s.obj.fenced.filter (· ≠ n)
  (({ s with obj := { s.obj with fenced := l } }).wrs [(SCL_SCALER.FENCED n, b2n on), (SCL_STATUS.FENCED, l.length)]).showResources

/-- The RTYPE of R444 that a kind's instances are. -/
def rtypeOf (k : Nat) : Nat := match k with | 2 => 2 | 3 => 3 | 4 => 0 | _ => 1

/-- The resources fenced by escalation, and SIG_STATUS.FENCED with them. -/
def State.setEscFenced (s : State) (l : List (Nat × Nat)) : State :=
  ({ s with sig := { s.sig with escFenced := l } }).wr SIG_STATUS.FENCED l.length

/-- The fencing of level 2 (R440, R442). -/
def State.fenceRes (s : State) (k i : Nat) : State :=
  let s := s.setEscFenced ((rtypeOf k, i) :: s.sig.escFenced)
  match k with
  | 2 => s.setBankFenced i true
  | 3 => s.setScalerFenced i true
  | 4 => s.setPcFenced i true
  | _ => s.fenceEngine i

/-- ESCALATION when C reaches THRESHOLD (R441). -/
def State.rise (s : State) (k i : Nat) : State :=
  let e := s.err k i
  let s := s.setErr k i fun x => { x with count := 0, level := min 2 (x.level + 1) }
  if e.level = 0 then s.postEscalation 1 k i 0 1 e.total false false
  else
    let fences := decide (2 ≤ k) && s.flag (SIG_KIND_CFG.FENCE_EN k) && e.level == 1
    let s := s.postEscalation 2 k i e.level 2 e.total fences false
    if fences then s.fenceRes k i else s

/-- One error of an instance; none is counted while its resource is fenced (R441, R443). -/
def State.error (s : State) (k i : Nat) : State :=
  if s.resFenced k i then s
  else
    let s := s.setErr k i fun x => { x with count := satAdd 16 x.count 1, total := satAdd 32 x.total 1, hit := true }
    if max 1 (s.rd (SIG_KIND_CFG.THRESHOLD k)) ≤ (s.err k i).count then s.rise k i else s

/-- A window of kind `k` starts (R441). -/
def State.windowStart (s : State) (k : Nat) : State :=
  let s := (List.range (instances k)).foldl (fun s i =>
    let e := s.err k i
    let s := if e.level = 1 ∧ e.hit = false then
        (s.setErr k i fun x => { x with level := 0 }).postEscalation 0 k i 1 0 e.total false false else s
    s.setErr k i fun x => { x with count := 0, hit := false }) s
  { s with sig := { s.sig with windows := Tbl.put windowReset k (s.windowSet k) s.sig.windows } }

/-- ESCALATION_WINDOW: the window of kind `k` that begins at this tick edge starts (R441). -/
def execEscalationWindow (k : Nat) (s : State) : Out :=
  .next (s.inService fun s =>
    if s.sig.windowDue.contains k then
      ({ s with sig := { s.sig with windowDue := s.sig.windowDue.filter (· ≠ k) } }).windowStart k
    else s)

/-! ### UNFENCE (R444, R445) -/

/-- RTYPE: 0 pseudo-channel, 1 engine, 2 object bank or mirror, 3 scaler, 4 level. The kinds that fence it. -/
def kindsOf (rtype : Nat) : List Nat :=
  match rtype with | 0 => [4] | 1 => [5, 6, 7] | 2 => [2] | 3 => [3] | _ => []

/-- The resource an UNFENCE names is fenced, whatever fenced it. -/
def State.unitFenced (s : State) (rtype i : Nat) : Bool :=
  match rtype with
  | 0 => s.pcFenced i
  | 1 => s.sig.engFenced.contains i || bitOf (s.rd DEV_PU_FENCED.PORTS) (i / 2)
  | 2 => s.resFenced 2 i
  | _ => s.resFenced 3 i

/-- A unit other than a pseudo-channel that self-test fenced (R445, R487). -/
def State.selfFenced (s : State) (rtype i : Nat) : Bool :=
  match rtype with
  | 1 => bitOf (s.rd DEV_PU_FENCED.PORTS) (i / 2)
  | 2 => s.pwr.puFenced.contains (2, i)
  | 3 => s.pwr.puFenced.contains (3, i)
  | _ => false

/-- C and L of the resource's instances become 0, with one INFO record (R445). -/
def State.clearLevels (s : State) (rtype i : Nat) : State :=
  let ks := kindsOf rtype
  let k := (ks.find? fun k => (s.err k i).level == 2).getD (ks.headD 0)
  let e := s.err k i
  let s := ks.foldl (fun s k => s.setErr k i fun x => { x with count := 0, level := 0 }) s
  (s.setEscFenced (s.sig.escFenced.filter (· ≠ (rtype, i)))).postEscalation 0 k i e.level 0 e.total false true

/-- The UNFENCEs that wait for a resource complete. -/
def State.endUnfences (s : State) (rtype i code detail : Nat) : State :=
  let l := s.sig.unfences.filter fun u => u.2.1 == rtype && u.2.2 == i
  let s := { s with sig := { s.sig with unfences := s.sig.unfences.filter fun u => !(u.2.1 == rtype && u.2.2 == i) } }
  l.foldl (fun s u => match s.held u.1 with
    | some (d, .unfence) => s.endHeld u.1 d code detail
    | _ => s) s

/-- A resource returns to service (R445). -/
def State.returned (s : State) (rtype i : Nat) : State := (s.clearLevels rtype i).endUnfences rtype i cDone 1

/-- The resources of a type that an UNFENCE waits for. -/
def State.unfencing (s : State) (rtype : Nat) : List Nat :=
  ((s.sig.unfences.filter fun u => u.2.1 == rtype).map (·.2.2)).eraseDups

/-- Engines return at the tick edge (R445). -/
def State.returnEngines (s : State) : State :=
  (s.unfencing 1).foldl (fun s e =>
    ({ s with sig := { s.sig with engFenced := s.sig.engFenced.filter (· ≠ e) } }).returned 1 e) s

/-- Scalers return at the latch point, before scalers are assigned (R445). -/
def State.returnScalers (s : State) : State :=
  (s.unfencing 3).foldl (fun s n => (s.setScalerFenced n false).returned 3 n) s

/-- INSTANCE lies in its range (R444). -/
def unfenceRange (rtype kind i : Nat) : Bool :=
  match rtype with
  | 2 => decide (i ≤ 16)
  | 4 => decide (i < instances kind)
  | _ => decide (i < 32)

/-- An UNFENCE of reel `r` begins to wait for a resource: a pseudo-channel is trained, a bank or the mirror is restored
(R445). -/
def State.awaitReturn (s : State) (r rtype i : Nat) : State :=
  let s := { s with sig := { s.sig with unfences := s.sig.unfences ++ [(r, rtype, i)] } }
  if rtype = 0 then { s with stk := { s.stk with
    retraining := if s.stk.retraining.contains i then s.stk.retraining else i :: s.stk.retraining } }
  else if rtype = 2 then { s with obj := { s.obj with
    restoring := if s.obj.restoring.contains i then s.obj.restoring else i :: s.obj.restoring } }
  else s

def unfenceBody (r : Nat) (d : Desc) (s : State) : Res :=
  let rtype := dF d 8 0 3
  let kind := dF d 9 0 3
  let i := dF d 10 0 16
  s.checked (s.r82 d [(8, 0, 3), (9, 0, 3), (10, 0, 16)]
      (dIndex d == 0 && decide (rtype ≤ 4) && (rtype == 4 || kind == 0) && unfenceRange rtype kind i) true false false) fun _ =>
    if rtype = 4 then
      let e := s.err kind i
      if e.level = 0 then .done s cDone 0
      else
        let s := s.setErr kind i fun x => { x with count := 0, level := 0 }
        .done (s.postEscalation 0 kind i e.level 0 e.total false true) cDone 1
    else if !s.unitFenced rtype i then .done s cDone 0
    else if s.selfFenced rtype i then .done s cFenced 2
    else .wait (s.awaitReturn r rtype i) .unfence

/-- UNFENCE (R445). -/
def execUnfence (r : Nat) (s : State) : Out := .next (s.descriptor r 0x04 unfenceBody)

end Sys2Proof.Machine
end

