-- ==== Sys2Proof/Machine/Objects.lean ====
section
/-! DEFINITION. Object contexts, OBJ_WRITE, the apply window and the guarded mirror (R171 to R183). -/

namespace Sys2Proof.Machine

/-! ### Contexts (R172) -/

/-- An object context: 32 bytes, byte b in bits [8b+7:8b]. -/
abbrev Ctx := BitVec 256

/-- Bits [lo+w-1:lo] of the bytes from byte `b` of a context. -/
def cF (c : Ctx) (b lo w : Nat) : Nat := bitsOf c.toNat (8 * b + lo) w

def cxValid (c : Ctx) : Bool := cF c 0 0 1 == 1
def cxGuarded (c : Ctx) : Bool := cF c 0 1 1 == 1
def cxCanvas (c : Ctx) : Nat := cF c 0 2 3
def cxAtlas (c : Ctx) : Nat := cF c 1 0 8
def cxX (c : Ctx) : Int := signedOf (cF c 4 0 16) 16
def cxY (c : Ctx) : Int := signedOf (cF c 6 0 16) 16
def cxW (c : Ctx) : Nat := cF c 12 0 16
def cxH (c : Ctx) : Nat := cF c 14 0 16

/-- The context is valid and guarded. -/
def cxVG (c : Ctx) : Bool := cxValid c && cxGuarded c

/-- OBJ_CONTEXT of R176, order 3. -/
def cxBad (canvas : Nat) (c : Ctx) : Bool :=
  cF c 2 6 2 != 0 || cF c 3 0 8 != 0 || cF c 24 0 64 != 0 ||
    (cxValid c && (cF c 2 0 2 == 3 || cxW c == 0 || decide (4096 < cxW c) || cxH c == 0 || decide (4096 < cxH c) ||
      cxCanvas c != canvas))

/-! ### Banks and the mirror (R171, R180) -/

/-- Bank of a context. -/
def bankOf (n : Nat) : Nat := n / 16384

def State.ctxAt (s : State) (n : Nat) : Ctx := Tbl.get (fun _ => 0) s.obj.ctxs n
def State.mirrorAt (s : State) (n : Nat) : Ctx := Tbl.get (fun _ => 0) s.obj.mirror n
def State.bankFenced (s : State) (b : Nat) : Bool := bitOf (s.rd OBJ_BANKS.FENCED) b
def State.mirrorFenced (s : State) : Bool := s.flag OBJ_STATUS.MIRROR_FENCED

/-- The contexts in force, by number: those of the banks in service, and a fenced bank's guarded ones from the mirror
(R183). -/
def State.liveCtxs (s : State) : List (Nat × Ctx) :=
  let own := s.obj.ctxs.filter fun p => !s.bankFenced (bankOf p.1)
  let mir := if s.mirrorFenced then [] else s.obj.mirror.filter fun p => s.bankFenced (bankOf p.1)
  own ++ mir

/-- The contexts in force and staged by other batches: every copy of one number. -/
def State.copies (s : State) : List (Nat × Ctx) :=
  s.liveCtxs ++ s.obj.batches.flatMap fun b => (b.ctxs.zipIdx).map fun p => (b.first + p.2, p.1)

/-- Contexts after some batches, non-guarded batches first and each group in order (R179). -/
def withBatches (live : List (Nat × Ctx)) (bs : List ObjBatch) : Tbl Ctx :=
  let t : Tbl Ctx := live.foldl (fun t p => Tbl.put (fun _ => 0) p.1 p.2 t) []
  let put (t : Tbl Ctx) (b : ObjBatch) : Tbl Ctx :=
    (b.ctxs.zipIdx).foldl (fun t p => Tbl.put (fun _ => 0) (b.first + p.2) p.1 t) t
  (bs.filter (·.guarded)).foldl put ((bs.filter fun b => !b.guarded).foldl put t)

/-- Staged contexts of a share (R177). -/
def State.stagedOf (s : State) (guarded : Bool) : Nat :=
  ((s.obj.batches.filter fun b => b.guarded == guarded).map fun b => b.ctxs.length).sum

/-- OBJ_STATUS and OBJ_CANVAS show the contexts in force and the staging area. -/
def State.showObjects (s : State) : State :=
  let live := s.liveCtxs.filter fun p => cxValid p.2
  let s := s.wrs [(OBJ_STATUS.STAGED, s.stagedOf true + s.stagedOf false),
    (OBJ_STATUS.GUARDED, (live.filter fun p => cxGuarded p.2).length)]
  (List.range 8).foldl (fun s c =>
    let on := live.filter fun p => cxCanvas p.2 == c
    s.wrs [(OBJ_CANVAS.VALID c, on.length), (OBJ_CANVAS.GUARDED c, (on.filter fun p => cxGuarded p.2).length)]) s

/-! ### OBJ_WRITE (R175, R176) -/

def cObjStageFull : Nat := 0x2A
def cObjGuard : Nat := 0x2B
def cObjContext : Nat := 0x2C
def cObjGuardFull : Nat := 0x2D

/-- Free entries of the share that a reel class stages in (R177). -/
def State.stageFree (s : State) (cls : Nat) : Nat :=
  if cls = 0 then 256 - s.stagedOf true else 7936 - s.stagedOf false

/-- The batch of `n` contexts from `first` touches a fenced bank. -/
def State.touchesFenced (s : State) (first n : Nat) : Bool :=
  (List.range 16).any fun b => s.bankFenced b && decide (bankOf first ≤ b) && decide (b ≤ bankOf (first + n - 1))

def objWriteBody (r : Nat) (d : Desc) (s : State) : Res :=
  let cls := (s.originOf r d).cls
  let first := dF d 16 0 18
  let n := dF d 20 0 14
  s.checked (s.r82 d [(8, 0, 64), (16, 0, 18), (20, 0, 14), (22, 0, 3)]
      (dIndex d == 0 && decide (1 ≤ n) && decide (n ≤ if cls = 0 then 16 else 7936) && decide (first + n ≤ 262144))
      (hostOk (dF d 8 0 64) (32 * n) 32) (s.touchesFenced first n) false) fun _ =>
    if s.stageFree cls < n then .done s cObjStageFull 0 else .wait s .hostData

/-- OBJ_WRITE (R175). -/
def execObjWrite (r : Nat) (s : State) : Out := .next (s.descriptor r 0x2A objWriteBody)

/-- OBJ_GUARD of R176, order 4, for context number `n`. -/
def State.guardBad (s : State) (cls n : Nat) (c : Ctx) : Bool :=
  if cls = 0 then cxValid c && (!cxGuarded c || !(s.atlas (cxAtlas c)).valid || !(s.atlas (cxAtlas c)).guarded)
  else cxVG c || s.copies.any fun p => p.1 == n && cxVG p.2

/-- Numbers of the contexts that some copy makes valid and guarded. -/
def guardNumbers (l : List (Nat × Ctx)) : List Nat := ((l.filter fun p => cxVG p.2).map (·.1)).eraseDups

/-- The first context of a batch with which more than 1,024 are valid and guarded (R176, order 5). -/
def State.guardFull (s : State) (batch : List (Nat × Ctx)) : Option Nat :=
  let old := s.copies
  (List.range batch.length).find? fun i => decide (1024 < (guardNumbers (old ++ batch.take (i + 1))).length)

/-- Contexts that host data spell. -/
def ctxsOf (bs : List Byte) (n : Nat) : List Ctx := (List.range n).map fun i => BitVec.ofNat 256 (leAt bs (32 * i) 32)

/-- The contexts of an OBJ_WRITE have arrived (R176, R177). -/
def objData (r : Nat) (d : Desc) (bs : List Byte) (s : State) : Res :=
  let cls := (s.originOf r d).cls
  let first := dF d 16 0 18
  let cs := ctxsOf bs (dF d 20 0 14)
  let batch := (cs.zipIdx).map fun (p : Ctx × Nat) => (first + p.2, p.1)
  if s.stageFree cls < cs.length then .done s cObjStageFull 0
  else match cs.findIdx? (cxBad (dF d 22 0 3)) with
    | some i => .done s cObjContext i
    | none =>
      match batch.findIdx? (fun p => s.guardBad cls p.1 p.2) with
      | some i => .done s cObjGuard i
      | none =>
        match s.guardFull batch with
        | some i => .done s cObjGuardFull i
        | none =>
          let b : ObjBatch := { order := s.obj.nextOrder, guarded := cls == 0, canvas := dF d 22 0 3, first := first, ctxs := cs,
                                carrier := none, taken := false }
          .done ({ s with obj := { s.obj with batches := s.obj.batches ++ [b], nextOrder := s.obj.nextOrder + 1 } }).showObjects
            cDone 0

/-! ### Carrying (R177) -/

/-- The batches that the next commit of canvas `c` carries, by order: those of its share that no commit still waiting
carries, or that the commit `old`, which it supersedes, carries. -/
def State.carriable (s : State) (guarded : Bool) (c : Nat) (old : Option Nat) : List Nat :=
  (s.obj.batches.filter fun b => b.guarded == guarded && b.canvas == c && !b.taken &&
    (b.carrier.isNone || b.carrier == old)).map (·.order)

/-- The batches of some orders belong to commit `id`. -/
def State.carry (s : State) (orders : List Nat) (id : Nat) : State :=
  let mark (b : ObjBatch) : ObjBatch := if orders.contains b.order then { b with carrier := some id } else b
  { s with obj := { s.obj with batches := s.obj.batches.map mark } }

/-- The batches of a commit are taken; a context staged for another canvas leaves it (R177). -/
def State.takeBatches (s : State) (id : Nat) : State :=
  let mark (b : ObjBatch) : ObjBatch := if b.carrier = some id then { b with taken := true } else b
  { s with obj := { s.obj with batches := s.obj.batches.map mark } }

/-! ### The apply window (R178 to R180, R183) -/

/-- One copy is written: into its bank unless that is fenced, and into the mirror where it is, or was, guarded. -/
def State.applyCtx (s : State) (n : Nat) (c : Ctx) : State :=
  let s := if s.bankFenced (bankOf n) then s
    else { s with obj := { s.obj with ctxs := Tbl.put (fun _ => 0) n c s.obj.ctxs } }
  { s with obj := { s.obj with mirror := Tbl.put (fun _ => 0) n (if cxVG c then c else 0) s.obj.mirror } }

def State.applyBatch (s : State) (b : ObjBatch) : State :=
  ((b.ctxs.zipIdx).foldl (fun s (p : Ctx × Nat) => s.applyCtx (b.first + p.2) p.1) s).bump OBJ_COUNTS.BATCHES 1

/-- The contexts of a bank that returns: 0, the guarded ones restored from the mirror; the mirror returns with the guarded
contexts of the banks in service (R183, R445). -/
def State.refillBank (s : State) (b : Nat) : State :=
  if b = 16 then
    { s with obj := { s.obj with mirror := (s.obj.ctxs.filter fun p => cxVG p.2 && !s.bankFenced (bankOf p.1)) } }
  else
    let kept := s.obj.ctxs.filter fun p => bankOf p.1 != b
    let back := if s.mirrorFenced then [] else s.obj.mirror.filter fun p => bankOf p.1 == b
    { s with obj := { s.obj with ctxs := back.foldl (fun t p => Tbl.put (fun _ => 0) p.1 p.2 t) kept } }

/-- A bank returns from UNFENCE (R445). -/
def State.restoreBank (s : State) (b : Nat) : State := ((s.refillBank b).setBankFenced b false).returned 2 b

/-- Every taken batch is applied, non-guarded ones first (R179); then banks that return are restored (R183, R445, R494). -/
def State.applyWindow (s : State) : State :=
  let bs := s.obj.batches.filter (·.taken)
  if bs.isEmpty && s.obj.restoring.isEmpty && s.obj.refill.isEmpty then s
  else
    let fill := s.obj.refill
    let back := s.obj.restoring
    let s := { s with obj := { s.obj with batches := (s.obj.batches.filter fun b => !b.taken), restoring := [], refill := [] } }
    let s := fill.foldl State.refillBank s
    let s := (bs.filter fun b => !b.guarded).foldl State.applyBatch s
    let s := (bs.filter (·.guarded)).foldl State.applyBatch s
    (back.foldl State.restoreBank s).showObjects

end Sys2Proof.Machine
end

