-- ==== Sys2Proof/Machine/Ledger.lean ====
section
/-! DEFINITION. The ledger: the configuration it costs, the unit order, and the checks of R56 (R50 to R58, R138). -/

namespace Sys2Proof.Machine

/-! ### Rectangles -/

/-- A rectangle of canvas pixels: columns [x0, x1), rows [y0, y1). -/
structure Rect where
  x0 : Nat
  x1 : Nat
  y0 : Nat
  y1 : Nat
  deriving DecidableEq, Repr

def Rect.area (r : Rect) : Nat := (r.x1 - r.x0) * (r.y1 - r.y0)
def Rect.meet (a b : Rect) : Rect := ⟨max a.x0 b.x0, min a.x1 b.x1, max a.y0 b.y0, min a.y1 b.y1⟩

/-- The part of a signed rectangle that lies in a canvas. -/
def clipRect (x y : Int) (w h width height : Nat) : Rect :=
  let u := visible x w width
  let v := visible y h height
  ⟨u.1, u.2, v.1, v.2⟩

/-- Rows of unit `u` across a canvas (R54). -/
def unitRect (width u : Nat) : Rect := ⟨0, width, 8 * u, 8 * u + 8⟩

/-- Pixels of a unit that the union of at most two rectangles covers (R55, R138). -/
def unionIn (cell : Rect) : List Rect → Nat
  | [] => 0
  | [a] => (a.meet cell).area
  | a :: b :: _ => (a.meet cell).area + (b.meet cell).area - ((a.meet b).meet cell).area

/-! ### What is costed -/

/-- A layer on a canvas: its settings there (one, or the committed and the one in force, R138), its rank, its bytes of
layer fetch, and its scaler job where it is scaled. -/
structure CostLayer where
  slot : Nat
  sets : List (Layer × Nat)
  job : Option ScaleJob
  deriving DecidableEq, Repr

structure CostCanvas where
  c : Nat
  cfg : CanvasCfg
  layers : List CostLayer
  res : Reservation
  /-- Contexts drawn on it. -/
  objs : List Ctx
  deriving DecidableEq, Repr

/-- One variant of a twist set: bands loaded per tick, END, first light and LIT. -/
structure Variant where
  loads : Nat
  end_ : Nat
  first : Nat
  lit : Nat
  deriving DecidableEq, Repr

structure CostEngine where
  e : Nat
  clone : Bool
  split : Bool
  cfg : EngCfg
  warp : WarpCfg
  /-- The enabled canvas it reads, with its size. -/
  reads : Option (Nat × Nat × Nat)
  /-- `none` where a preset cannot be generated (R245). -/
  variants : Option (List Variant)
  deriving DecidableEq, Repr

/-- The tick values a configuration is costed under (R52). -/
structure CostArgs where
  pmin : Nat
  gap : Nat
  trp : Nat
  /-- c₃ in %, and κ × 256. -/
  c3 : Nat
  kappa : Nat
  deriving DecidableEq, Repr

/-- Shed steps, the lowest rank shed, and the canvases held. -/
structure Shed where
  steps : List Nat
  rank : Nat
  held : List Nat
  deriving DecidableEq, Repr

structure CostCfg where
  canvases : List CostCanvas
  engines : List CostEngine
  /-- Every accepted reservation (R58). -/
  res : List (Nat × Reservation)
  /-- The automatic pool, and whether an explicit layer names a fenced scaler (R168). -/
  pool : List Nat
  fenced : List Nat
  /-- No pseudo-channel is in service (R413). -/
  noStack : Bool
  /-- Bytes per two pixels of each atlas's format. -/
  atlasBpp2 : List Nat
  deriving DecidableEq, Repr

/-! ### Layers and canvases -/

/-- Bytes of layer fetch of a setting (R57): each plane's part of the source rectangle, within the surface. -/
def layerFetch (f : Surface) (l : Layer) : Nat :=
  let x1 := min (l.srcX + l.srcW) f.width
  let y1 := min (l.srcY + l.srcH) f.height
  ((planesOf f.format).map fun p =>
    let px := l.srcX / subX f.format p
    let py := l.srcY / subY f.format p
    f.unitsTouched p px py (ceilDiv x1 (subX f.format p) - px) (ceilDiv y1 (subY f.format p) - py)).sum

/-- The canvas commit among some commits: number, settings and layers. -/
def canvasOfCommit (c : Nat) (w : WaitCommit) : Option (Nat × CanvasCfg × List (Nat × Layer)) :=
  match w.body with
  | .canvas k cfg ls _ _ => if k = c then some (w.id, cfg, ls) else none
  | _ => none

def lastCanvas (ws : List WaitCommit) (c : Nat) : Option (Nat × CanvasCfg × List (Nat × Layer)) :=
  ws.foldl (fun r w => (canvasOfCommit c w).or r) none

/-- The setting of a slot in force; disabled where it is in force on no canvas. -/
def State.layerInForce (s : State) (n : Nat) : Layer := Tbl.get (fun _ => {}) s.comp.latched.layers n

/-- Slots in force and enabled on canvas `c`. -/
def State.slotsOn (s : State) (c : Nat) : List Nat :=
  (s.comp.latched.layers.filter fun p => p.2.enable && p.2.canvas == c).map (·.1)

def State.canvasInForce (s : State) (c : Nat) : CanvasCfg := Tbl.get (fun _ => {}) s.comp.latched.canvases c
def State.reservation (s : State) (c : Nat) : Reservation := Tbl.get (fun _ => {}) s.comp.shadowR c

/-- Settings with their fetch bytes. -/
def State.withFetch (s : State) (ls : List Layer) : List (Layer × Nat) := ls.map fun l => (l, layerFetch (s.surface l.surface) l)

def scaleJob (arrival slot width : Nat) (l : Layer) : Option ScaleJob :=
  if l.scaled then some ⟨arrival, slot, l, l.wOut width⟩ else none

/-- The layers of canvas `c` that the ledger costs under some waiting commits (R138). -/
def State.costLayers (s : State) (ws : List WaitCommit) (c width : Nat) : List CostLayer :=
  let own (n : Nat) : CostLayer :=
    { slot := n, sets := s.withFetch [s.layerInForce n],
      job := scaleJob (Tbl.get (fun _ => 0) s.comp.arrive n) n width (s.layerInForce n) }
  match lastCanvas ws c with
  | none => (s.slotsOn c).map own
  | some (id, _, ls) =>
    let carried := (ls.filter fun p => p.2.enable).map fun (p : Nat × Layer) =>
      let f := s.layerInForce p.1
      { slot := p.1, sets := s.withFetch (if f.enable ∧ f.canvas = c then [p.2, f] else [p.2]),
        job := scaleJob (id + 1) p.1 width p.2 : CostLayer }
    let others := (s.slotsOn c).filter fun n => !(ls.any fun p => p.1 == n) &&
      ws.any fun w => match w.body with | .canvas k _ l _ _ => k != c && l.any fun p => p.1 == n | _ => false
    carried ++ others.map own

/-- The canvas settings that the ledger costs. -/
def State.costCanvasCfg (s : State) (ws : List WaitCommit) (c : Nat) : CanvasCfg :=
  match lastCanvas ws c with | some (_, cfg, _) => cfg | none => s.canvasInForce c

/-- The batches that commits carry, and those already taken. -/
def State.costBatches (s : State) (ws : List WaitCommit) : List ObjBatch :=
  let orders := ws.flatMap fun w => match w.body with | .canvas _ _ _ b _ => b | .guarded _ _ _ b => b | _ => []
  s.obj.batches.filter fun b => b.taken || orders.contains b.order

/-! ### Engines -/

/-- The settings of engine `e` that the ledger costs; an odd engine that a split brings back waits for a commit of its own
(R248). -/
def State.costBundle (s : State) (ws : List WaitCommit) (e : Nat) : EngBundle :=
  let b := (s.engine e).lat
  let b := if e % 2 = 1 ∧ (s.engine (e - 1)).lat.cfg.split = false then { b with cfg := { b.cfg with enable := false } } else b
  ws.foldl (fun b w => match w.bundle with | some (k, x) => if k = e then x else b | none => b) b

/-- The variants that a bundle selects from, in a port mode. -/
def State.variantsOf (s : State) (a : CostArgs) (split : Bool) (b : EngBundle) : Option (List Variant) :=
  if b.sel.preset = 0 then
    some (((List.range 8).filter fun c => bitOf b.sel.valid c).filterMap fun c =>
      (s.twist (b.sel.tables.getD c 0)).map fun t => ⟨t.bandLoads, t.end_, t.firstLight, t.lit⟩)
  else
    let g : PresetArgs := { bands := b.cfg.bands, w := b.cfg.width, h := b.cfg.height, np := b.cfg.planes, split := split,
                            pmin := a.pmin, gap := a.gap, trp := a.trp }
    let tb := tBand split g.w g.h g.bands
    (presetPlan g b.sel.preset).map fun p => p.2.map fun q =>
      ⟨3 * q.2 * q.1 * g.bands, presetEnd g.bands g.np tb q.1 q.2 p.1, g.bands * tb + 140, q.1⟩

/-- The engines that the checks count (R56): they exist in the port modes costed, are enabled and not fenced. -/
def State.costEngines (s : State) (ws : List WaitCommit) (a : CostArgs) (canvas : Nat → CanvasCfg) : List CostEngine :=
  let bundle := s.costBundle ws
  let split (e : Nat) : Bool := (bundle (2 * (e / 2))).cfg.split
  ((List.range 32).filter fun e => (e % 2 == 0 || split e) && (bundle e).cfg.enable && !s.engFenced e).map fun e =>
    let b := bundle e
    let clone := b.warp.mode == 3
    let src := if clone then b.warp.cloneSrc else e
    let c := canvas b.warp.canvas
    { e := e, clone := clone, split := split e, cfg := b.cfg, warp := b.warp,
      reads := if (b.warp.mode = 1 ∨ b.warp.mode = 2) ∧ c.enable then some (b.warp.canvas, c.width, c.height) else none,
      variants := s.variantsOf a (split src) (bundle src) }

/-! ### The configuration -/

def boxOf (width height : Nat) (x : Ctx) : Rect := clipRect (cxX x) (cxY x) (cxW x) (cxH x) width height

/-- The configuration that the ledger costs under some waiting commits and reservations. -/
def State.costCfg (s : State) (ws : List WaitCommit) (res : Tbl Reservation) (a : CostArgs) : CostCfg :=
  let cfg := s.costCanvasCfg ws
  let ctxs := (withBatches s.liveCtxs (s.costBatches ws)).filter fun p => cxValid p.2
  let reserved := (List.range 32).filter fun n =>
    ws.foldl (fun r w => match w.body with
      | .canvas _ _ _ _ l => ((l.find? fun p => p.1 == n).map fun p => p.2.reserve).getD r
      | _ => r) (s.sclForce n).reserve
  { canvases := ((List.range 8).filter fun c => (cfg c).enable).map fun c =>
      { c := c, cfg := cfg c, layers := s.costLayers ws c (cfg c).width, res := Tbl.get (fun _ => {}) res c,
        objs := (ctxs.filter fun p => cxCanvas p.2 == c).map (·.2) },
    engines := s.costEngines ws a cfg, res := res, pool := poolOf reserved s.obj.fenced, fenced := s.obj.fenced,
    noStack := (List.range 32).all s.pcFenced,
    atlasBpp2 := (List.range 256).map fun i => bpp2 (s.surface (s.atlas i).surface).format }

/-! ### Composition units (R54, R55) -/

/-- The layer setting is shed. -/
def Shed.drops (h : Shed) (rank : Nat) : Bool := rank != 0 && decide (h.rank ≤ rank)

/-- Shed step `n` is in force. -/
def Shed.has (h : Shed) (n : Nat) : Bool := h.steps.contains n

/-- Contexts of a canvas that are drawn: guarded ones, and the others while the object layer is. -/
def CostCanvas.drawn (v : CostCanvas) (h : Shed) : List Ctx :=
  v.objs.filter fun x => cxGuarded x || (v.cfg.objEnable && !h.has 2 && !h.held.contains v.c)

/-- L_u, O_u and n_u of a unit (R55, R60). -/
def CostCanvas.unit (v : CostCanvas) (h : Shed) (u : Nat) : Nat × Nat × Nat :=
  let cell := unitRect v.cfg.width u
  let a := 8 * v.cfg.width
  let held := h.held.contains v.c
  let sets (l : CostLayer) : List Rect := (l.sets.filter fun p => !h.drops p.1.rank).map fun p =>
    clipRect p.1.dstX p.1.dstY p.1.dstW p.1.dstH v.cfg.width v.cfg.height
  let resv := unionIn cell [clipRect v.res.x v.res.y v.res.w v.res.h v.cfg.width v.cfg.height]
  let l := a + resv + (if held then a
    else (v.layers.map fun l => unionIn cell (sets l)).sum + if v.cfg.objEnable && !h.has 2 then a else 0)
  let boxes := ((v.drawn h).map fun x => ((boxOf v.cfg.width v.cfg.height x).meet cell).area).filter (0 < ·)
  (l, boxes.sum, boxes.length)

/-- Canvas rows that engine rows with mesh row `j` reach: first and last (R54). -/
def WarpCfg.reach (w : WarpCfg) (height j : Nat) : Nat × Nat :=
  let ys := (List.range 65).flatMap fun i => [(w.point i j).2, (w.point i (j + 1)).2]
  let lo := ys.foldl min (ys.headD 0)
  let hi := ys.foldl max (ys.headD 0)
  let cl (v : Int) : Nat := (clampI v 0 ((height - 1 : Nat) : Int)).toNat
  (cl (lo.fdiv 64 - 1), cl (hi.fdiv 64 + 2))

/-- The first engine row whose mesh row is `j`, for an array of `h` rows. -/
def firstRowOf (h j : Nat) : Nat := ceilDiv (h * j - 18) 36

/-- The units an engine reads, with y_e(u) (R54). -/
def CostEngine.units (g : CostEngine) : List (Nat × Nat) :=
  match g.reads with
  | none => []
  | some (_, _, height) =>
    let rows := (List.range 36).map fun j => (g.warp.reach height j, j)
    (List.range (height / 8)).filterMap fun u =>
      (rows.find? fun r => decide (r.1.1 ≤ 8 * u + 7) && decide (8 * u ≤ r.1.2)).map fun r => (u, firstRowOf g.cfg.height r.2)

/-- A unit in the compositor's sequence: key, canvas, unit, and t_u in 1/64 ns. -/
structure CostUnit where
  key : Nat
  c : Nat
  u : Nat
  t : Nat
  deriving DecidableEq, Repr

/-- Ascending key, then canvas, then unit (R54). -/
def CostUnit.before (a b : CostUnit) : Bool :=
  decide (a.key < b.key) || (a.key == b.key && (decide (a.c < b.c) || (a.c == b.c && decide (a.u < b.u))))

/-- key(u) of unit `u` of canvas `c`, from the non-clone engines as (canvas, h_e, units) (R54). -/
def unitKey (es : List (Nat × Nat × List (Nat × Nat))) (c u : Nat) : Nat :=
  (es.filterMap fun g => if g.1 = c then (g.2.2.find? fun p => p.1 == u).map fun p => 65536 * p.2 / g.2.1 else none).foldl min 65536

/-- Every unit of a configuration. -/
def CostCfg.units (k : CostCfg) (h : Shed) : List CostUnit :=
  let es := (k.engines.filter fun g => !g.clone).filterMap fun g => g.reads.map fun r => (r.1, g.cfg.height, g.units)
  k.canvases.flatMap fun v => (List.range (v.cfg.height / 8)).map fun u =>
    let (l, o, n) := v.unit h u
    ⟨unitKey es v.c u, v.c, u, max l (max (4 * 8 * v.cfg.width) (o + 64 * n))⟩

/-- ready(u) of R55, in 1/64 ns. -/
def readyOf (us : List CostUnit) (x : CostUnit) : Nat := ((us.filter fun y => !x.before y).map (·.t)).sum

/-! ### Costs (R57, R58) -/

/-- W of R52. -/
def CostArgs.work (a : CostArgs) : Nat := a.pmin - 10000

/-- T_RB of R52. -/
def tRb : Nat := 2560

/-- 64 × T_G (R58). -/
def guardTime (res : List (Nat × Reservation)) : Nat :=
  (res.map fun p => if p.2.w = 0 ∨ p.2.h = 0 then 0 else p.2.w * p.2.h + p.2.objPixels).sum

/-- S_C1 (R57). -/
def guardBytes (res : List (Nat × Reservation)) : Nat :=
  (res.map fun p => if p.2.w = 0 ∨ p.2.h = 0 then 0 else p.2.w * p.2.h * bpp2 p.2.format / 2 + p.2.atlasBytes).sum

/-- Variants that are costed: step 4 leaves the shallowest (R30, R242). -/
def shallowest : List Variant → List Variant
  | [] => []
  | v :: r => match shallowest r with
    | [] => [v]
    | x :: _ => if v.lit ≤ x.lit then [v] else [x]

def CostEngine.used (g : CostEngine) (h : Shed) : List Variant :=
  let vs := g.variants.getD []
  if h.has 4 then shallowest vs else vs

/-- D_p of port `p` (R57). -/
def CostCfg.portTime (k : CostCfg) (p : Nat) : Nat :=
  ((k.engines.filter fun g => g.e / 2 == p && !g.clone).map fun g => g.cfg.width * g.cfg.height).sum

/-- 64 × h × finish_e (R57). -/
def CostCfg.finish (k : CostCfg) (us : List CostUnit) (g : CostEngine) : Nat :=
  let d := k.portTime (g.e / 2)
  let c := match g.reads with | some (c, _, _) => c | none => 8
  let waits := g.units.filterMap fun p =>
    (us.find? fun x => x.c == c && x.u == p.1).map fun x => g.cfg.height * readyOf us x - 64 * d * p.2
  64 * g.cfg.height * (d + 2000) + waits.foldl max 0

/-- w_bb and h_bb of R191. -/
def CostEngine.box (g : CostEngine) : Nat × Nat :=
  match g.reads with
  | none => (0, 0)
  | some (_, width, height) =>
    let pts := (List.range 65).flatMap fun i => (List.range 37).map fun j => g.warp.point i j
    let span (vs : List Int) (n : Nat) : Nat :=
      let lo := clampI (roundDiv (vs.foldl min (vs.headD 0)) 64) 0 ((n - 1 : Nat) : Int)
      let hi := clampI (-((32 - vs.foldl max (vs.headD 0)).fdiv 64)) 0 ((n - 1 : Nat) : Int)
      (hi - lo + 1).toNat
    (span (pts.map (·.1)) width, span (pts.map (·.2)) height)

/-- Band loads of an engine's longest variant, in bits: loads × w × h / n_bands (R57). -/
def CostEngine.loadBits (g : CostEngine) (h : Shed) : Nat :=
  ((g.used h).map (·.loads)).foldl max 0 * (g.cfg.width * g.cfg.height / g.cfg.bands)

/-- Four times S_C2 (R57). -/
def CostCfg.bulk4 (k : CostCfg) (h : Shed) : Nat :=
  let canvases := (k.canvases.map fun v =>
    let a := v.cfg.width * v.cfg.height
    let fetch := (v.layers.map fun l => ((l.sets.filter fun p => !h.drops p.1.rank).map (·.2)).foldl max 0).sum
    let atlas := ((v.drawn h).filter fun x => !cxGuarded x).map fun x =>
      2 * (boxOf v.cfg.width v.cfg.height x).area * k.atlasBpp2.getD (cxAtlas x) 0
    16 * a + if h.held.contains v.c then 16 * a else 4 * fetch + atlas.sum).sum
  let engines := ((k.engines.filter fun g => !g.clone).map fun g =>
    19 * (g.box.1 + 4) * (g.box.2 + 4) + 4 * (g.cfg.width * g.cfg.height * 3 * g.cfg.planes / 8 + 2048)).sum
  canvases + engines

/-- Four times S_C0 + S_C1 + S_C2. -/
def CostCfg.stack4 (k : CostCfg) (h : Shed) : Nat :=
  4 * ((k.engines.filter fun g => !g.clone).map fun g => g.loadBits h / 8).sum + 4 * guardBytes k.res + k.bulk4 h

/-- c₃ in % (R52). -/
def c3Of (a : CostArgs) (h : Shed) : Nat := if h.has 5 then 5 else a.c3

/-- 640,000 times the stack limit, for four times the bytes (R56). -/
def stackLimit (a : CostArgs) (h : Shed) : Nat := 4 * a.kappa * (100 - c3Of a h) * 16384 * (a.work - tRb)

/-- Scaler jobs of the layers that take part (R168). -/
def CostCfg.jobs (k : CostCfg) (h : Shed) : List ScaleJob :=
  k.canvases.flatMap fun v => if h.held.contains v.c then [] else
    v.layers.filterMap fun l => l.job.filter fun j => !h.drops j.layer.rank

/-! ### The checks (R56) -/

/-- Order 1: an engine breaks R18. -/
def geometryBad (c : EngCfg) : Bool :=
  c.width % 32 != 0 || decide (c.width < 640) || decide (4096 < c.width) || decide (c.height < 360) || decide (2304 < c.height) ||
    c.bands == 0 || decide (16 < c.bands) || c.height % c.bands != 0 || c.height / c.bands % 4 != 0

/-- Order 3: whether the reservation of canvas `c` fails R58, with those of the canvases before it. -/
def CostCfg.guardFails (k : CostCfg) (a : CostArgs) (c : Nat) : Bool :=
  let sofar := k.res.filter fun p => decide (p.1 ≤ c)
  decide (64 * a.work < 4 * guardTime sofar) ||
    decide (16384 * (a.work - tRb) < 250 * guardBytes sofar) ||
    k.engines.any fun g => (match g.reads with | some (d, _, _) => d == c | none => false) && !g.clone &&
      decide (200000 < 50000 + a.gap + 5 * ((g.variants.getD []).map (·.first)).foldl max 0)

/-- Order 9. -/
def CostEngine.linkFails (g : CostEngine) (a : CostArgs) (h : Shed) : Bool :=
  let rate := if g.split then 50 else 100
  g.variants.isNone || decide (rate * (a.pmin - a.gap - tRb - a.trp) < g.loadBits h) ||
    (g.used h).any fun v => decide (a.pmin - a.gap < 5 * v.end_)

/-- Orders 1 to 9 of R56: the first failing code with its index; the index is `none` where the descriptor's is used. -/
def CostCfg.check (k : CostCfg) (a : CostArgs) (h : Shed) : Option (Nat × Option Nat) :=
  let us := k.units h
  let tg := guardTime k.res
  match k.engines.find? fun g => geometryBad g.cfg with
  | some g => some (0x17, some g.e)
  | none =>
  match (List.range 16).find? fun p => decide (a.pmin < k.portTime p) with
  | some p => some (0x18, some p)
  | none =>
  match (k.res.filter fun p => p.2.w != 0 && p.2.h != 0).find? fun p => k.guardFails a p.1 with
  | some p => some (0x16, some p.1)
  | none =>
  if a.kappa * a.work < 4 * ((us.map (·.t)).sum + tg) then some (0x10, none)
  else if ((k.jobs h).any fun j => j.layer.names.any k.fenced.contains) ∨ (assignScalers (k.jobs h) k.pool).isNone then
    some (0x13, none)
  else if a.kappa * a.work < 4 * ((k.canvases.flatMap fun v => (List.range (v.cfg.height / 8)).map fun u =>
      let x := v.unit h u
      x.2.1 + 64 * x.2.2).sum) then some (0x14, none)
  else
  match k.engines.find? fun g => !g.clone && decide (64 * g.cfg.height * a.work < k.finish us g) with
  | some g => some (0x15, some g.e)
  | none =>
  if k.noStack = false ∧ stackLimit a h < 640000 * k.stack4 h then some (0x11, none)
  else (k.engines.find? fun g => g.linkFails a h).map fun g => (0x12, some g.e)

/-- The whole of R56: orders 1 to 9, then LEDGER_FLOOR. -/
def CostCfg.judge (k : CostCfg) (a : CostArgs) (h : Shed) : Option (Nat × Option Nat) :=
  match k.check a h with
  | some x => some x
  | none =>
    if (k.check { a with kappa := 128 } { h with steps := [5, 4, 3, 2, 1], rank := 1 }).isSome then some (0x19, none) else none

/-! ### The values in force -/

/-- floor(P × tol) in ns, for tol in 0.05 % steps (R37 to R39). -/
def slewOf (p tol : Nat) : Nat := p * tol / 2000

/-- P_min for a period, a source and TOL (R38, R39). -/
def pMin (p source tol : Nat) : Nat := if source = 1 then p - slewOf p tol else if source = 2 then p - slewOf p 1 else p
def pMax (p source tol : Nat) : Nat := if source = 1 then p + slewOf p tol else if source = 2 then p + slewOf p 1 else p

/-- P_min and P_max in force. -/
def State.pmin (s : State) : Nat := pMin s.period (s.rd TICK_STATUS.SOURCE) s.tick.tol
def State.pmax (s : State) : Nat := pMax s.period (s.rd TICK_STATUS.SOURCE) s.tick.tol

/-- The tick values in force. -/
def State.costArgs (s : State) : CostArgs :=
  { pmin := s.pmin, gap := s.gap, trp := s.tick.trp, c3 := s.tick.c3, kappa := s.rd TICK_LEDGER_KAPPA.KAPPA }

/-- Shed steps, rank and holds in force. -/
def State.shedNow (s : State) : Shed :=
  { steps := s.comp.latched.shedSteps, rank := s.comp.latched.shedRank, held := s.comp.latched.held }

/-- A rejection is shown in TICK_LEDGER_LAST and TICK_LEDGER_REJECTS. -/
def State.showReject (s : State) (code index reel : Nat) : State :=
  (s.wrs [(TICK_LEDGER_LAST.CODE, code), (TICK_LEDGER_LAST.INDEX, index % 256), (TICK_LEDGER_LAST.REEL, reel)]).bump
    TICK_LEDGER_REJECTS.COUNT 1

/-- The ledger's answer for some commits on top of the admitted configuration, and reservations: `none` where it fits (R50). -/
def State.admits (s : State) (ws : List WaitCommit) (res : Tbl Reservation) (index : Nat) : Option (Nat × Nat) :=
  let a := s.costArgs
  ((s.costCfg ws res a).judge a s.shedNow).map fun x => (x.1, x.2.getD index)

end Sys2Proof.Machine
end

