-- ==== Sys2Proof/Machine/TickOps.lean ====
section
/-! DEFINITION. The lock state of the tick and the arithmetic of tick edges (R34 to R40). -/

namespace Sys2Proof.Machine

/-- The lock states of R39. -/
def lockFree : Nat := 0
def lockAcquiring : Nat := 1
def lockLocked : Nat := 2
def lockHoldover : Nat := 3

/-- The lock state changes; entering HOLDOVER and LOCKED raise sources 5 and 6 (R62), and ACQUIRING starts anew (R40). -/
def State.setLock (s : State) (v : Nat) : State :=
  let s := if v = lockAcquiring then { s with tick := { s.tick with firstMeasure := true, lockRun := 0 } } else s
  if s.rd TICK_STATUS.LOCK = v then s
  else
    let s := s.wr TICK_STATUS.LOCK v
    if v = lockHoldover then s.raise 5 else if v = lockLocked then s.raise 6 else s

/-- The 5 ns grid of R34: the first cycle at or after an instant. -/
def grid (t : Nat) : Nat := ceilDiv t 5 * 5

/-- An integer wrapped into (-p/2, p/2] (R39). -/
def wrapHalf (x : Int) (p : Nat) : Int :=
  let r := x % (p : Int)
  if 2 * r > p then r - p else r

/-- The tick serves from the 802.1AS function of port `p` (R36, R45). -/
def State.servesTick (s : State) (p : Nat) : Bool := s.rd TICK_STATUS.SOURCE == 2 && s.tick.port == p

/-! ### Pairing and measuring an edge (R37 to R40) -/

/-- TICK_PIN_OFFSET, taken mod P into (-P/2, P/2]. -/
def State.pinOffset (s : State) : Int := wrapHalf (signedOf (s.rd TICK_PIN_OFFSET.OFFSET_NS) 32) s.period

/-- The base length of a tick: the last accepted interval with PIN, else P (R39). -/
def State.baseLength (s : State) : Nat :=
  if s.rd TICK_STATUS.SOURCE = 1 then s.tick.lastInterval.getD s.period else s.period

/-- Tick N lasts `len` ns: edge N + 1 is placed. -/
def State.placeNext (s : State) (len : Int) : State :=
  { s with tick := { s.tick with nextEdge := grid (((s.edgeTime : Int) + len).toNat), settled := true } }

/-- An edge with no reference instant: the tick lasts its base length, kept between P_min and P_max, and no error is
measured (R37, R38). ERR_NS is then a free value. -/
def State.flywheel (s : State) : State :=
  let s := { s with tick := { s.tick with lockRun := 0 } }
  let s := { (s.wr TICK_PHASE_ERR.ERR_NS (Config.freeWord s.freeCtr).toNat) with freeCtr := s.freeCtr + 1 }
  s.placeNext (clampN s.baseLength s.pmin s.pmax)

/-- Entry to HOLDOVER with PIN: the device holds no accepted edge (R37). -/
def State.pinHoldover (s : State) : State :=
  if s.rd TICK_STATUS.LOCK = lockHoldover then s
  else { (s.setLock lockHoldover) with tick := { s.tick with accepted := none, candidate := none, paired := none } }

/-- A PIN edge that no accepted edge pairs with is flywheeled and counted; two in a row are HOLDOVER (R37). -/
def State.pinFlywheel (s : State) : State :=
  let s := s.flywheel.bump TICK_PIN_STATS.FLYWHEELED 1
  let s := { s with tick := { s.tick with flywheels := s.tick.flywheels + 1 } }
  if 2 ≤ s.tick.flywheels then s.pinHoldover else s

/-- An error `e` is measured: the lock state, and a step or a slew (R39, R40). -/
def State.measure (s : State) (e : Int) : State :=
  let slew := s.period - s.pmin
  let s := { (s.wr TICK_PHASE_ERR.ERR_NS (toField e 32)) with tick := { s.tick with flywheels := 0 } }
  let s := if s.rd TICK_STATUS.LOCK = lockLocked ∧ 1000 < e.natAbs then s.setLock lockAcquiring else s
  let step : Bool := s.tick.firstMeasure && decide (slew < e.natAbs)
  let run : Nat := if e.natAbs ≤ 1000 then min 8 (s.tick.lockRun + 1) else 0
  let s := { s with tick := { s.tick with firstMeasure := false, lockRun := run, darkNext := s.tick.darkNext || step } }
  let s := if s.rd TICK_STATUS.LOCK = lockAcquiring ∧ run = 8 then s.setLock lockLocked else s
  if step then s.placeNext (s.baseLength - e)
  else s.placeNext (clampI (s.baseLength - clampI e (-slew) slew) s.pmin s.pmax)

/-- Accepted edge `a` pairs with the latest tick edge (R37). -/
def State.pairs (s : State) (a : Nat) : Bool :=
  let x := 2 * ((a : Int) + s.pinOffset - s.edgeTime)
  s.tick.paired != some a && decide (-(s.period : Int) ≤ x) && decide (x < s.period)

/-- The accepted edge pairs with the latest tick edge where R37 lets it. -/
def State.tryPair (s : State) : State :=
  match s.tick.accepted with
  | some a =>
    if s.tick.settled = false ∧ s.pairs a then
      ({ s with tick := { s.tick with paired := some a } }).measure (wrapHalf (s.edgeTime - (a + s.pinOffset)) s.period)
    else s
  | none => s

/-- The pairing of the latest edge is settled: no accepted edge has paired with it by now (R37). -/
def State.settlePin (s : State) : State := if s.tick.settled then s else s.pinFlywheel

/-! ### The 802.1AS reference (R36, R38) -/

/-- O of the serving port as it stands (R392). -/
def State.offsetO (s : State) : Int := signedOf (s.rd (BBN_GPTP_OFFSET.OFFSET_NS s.tick.port)) 64

/-- The serving function is LOCKED (R393). -/
def State.gptpLocked (s : State) : Bool := s.rd (BBN_GPTP_STATUS.STATE s.tick.port) == 3

/-- gPTP time less TICK_GPTP_PHASE at device time `t`. -/
def State.gptpAt (s : State) (t : Nat) : Int := t + s.offsetO - s.rd TICK_GPTP_PHASE.PHASE_NS

/-- The error of an edge at `t`: the edge less its nearest reference instant (R36, R39). -/
def State.gptpError (s : State) (t : Nat) : Int := wrapHalf (s.gptpAt t) s.period

/-- The first reference instant at or after device time `t`. -/
def State.gptpNext (s : State) (t : Nat) : Nat := t + ((-(s.gptpAt t)) % (s.period : Int)).toNat

/-- TICK_GPTP_INDEX of the latest edge; 0 unless SOURCE is GPTP (R38). -/
def State.showIndex (s : State) : State :=
  s.wr TICK_GPTP_INDEX.INDEX
    (if s.rd TICK_STATUS.SOURCE = 2 then toField ((s.gptpAt s.edgeTime - s.gptpError s.edgeTime) / (s.period : Int)) 48 else 0)

end Sys2Proof.Machine
end

