-- ==== Sys2Proof/Machine/Backbone.lean ====
section
/-! DEFINITION. Backbone ingest and 802.1AS time (R374 to R394). -/

namespace Sys2Proof.Machine

/-! ### FLOW_WRITE (R377 to R379) -/

/-- Bytes [b, b + n) of a descriptor. -/
def dBytes (d : Desc) (b n : Nat) : List Byte := leBytes (dF d b 0 (8 * n)) n

def flowOf (d : Desc) : Flow :=
  { valid := dB d 8 0, port0 := dB d 8 1, port1 := dB d 8 2, full := dB d 8 3, cls := dF d 8 4 2, stream := dF d 9 0 8,
    dport := dF d 10 0 16, sport := dF d 12 0 16, vid := dF d 14 0 12, vidM := dB d 14 12, untagged := dB d 14 13,
    ipv6 := dB d 16 0, srcM := dB d 16 1, dstM := dB d 16 2, sportM := dB d 16 3, macM := dB d 16 4,
    srcPrefix := dF d 17 0 8, dstPrefix := dF d 18 0 8, srcAddr := dBytes d 20 16, dstAddr := dBytes d 36 16,
    dstMac := dBytes d 52 6, rate := dF d 58 0 16, burst := dF d 60 0 16 }

/-- The ranges of R377: an IPv4 address uses its first four bytes. -/
def flowRanges (d : Desc) (f : Flow) : Bool :=
  let prefixMax := if f.ipv6 then 128 else 32
  f.cls != 3 && decide (f.srcPrefix ≤ prefixMax) && decide (f.dstPrefix ≤ prefixMax) &&
    (f.ipv6 || (dF d 24 0 96 == 0 && dF d 40 0 96 == 0)) && (f.full || dF d 12 0 368 == 0) &&
    decide (f.rate ≤ 25000) && decide (2 ≤ f.burst) && decide (f.burst ≤ 256)

/-- Valid entries, but for number `n`. -/
def State.otherFlows (s : State) (n : Nat) : List Flow := (s.bbn.flows.filter fun p => p.1 != n && p.2.valid).map Prod.snd

/-- Σ BURST of Class A entries, in KiB. -/
def classABurst (l : List Flow) : Nat := ((l.filter fun f => f.valid && f.cls == 0).map fun f => f.burst).sum

/-- The codes of R379. -/
def State.flowCode (s : State) (n : Nat) (f : Flow) : Option Nat :=
  let l := s.otherFlows n
  if f.valid && ((!f.port0 && !f.port1)) || f.vidM && f.untagged || f.cls == 0 && f.rate == 0 then some 0x60
  else if f.valid && l.any fun g => g.stream == f.stream && g.cls != f.cls then some 0x62
  else if f.valid ∧ f.cls = 0 ∧ 256 < classABurst (f :: l) then some 0x61
  else none

/-- The entry is written whole, with its bucket full (R380, R382). -/
def State.setFlow (s : State) (n : Nat) (f : Flow) : State :=
  let f := { f with tokens := f.burst * 1024 * 8000, tokensAt := s.now }
  let s := { s with bbn := { s.bbn with flows := Tbl.put (fun _ => {}) n f s.bbn.flows } }
  s.wr BBN_BUF_STATUS.A_RESERVED_KIB (classABurst (s.bbn.flows.map Prod.snd))

def flowWriteBody (_ : Nat) (d : Desc) (s : State) : Res :=
  let f := flowOf d
  s.checked (s.r82 d [(8, 0, 6), (9, 0, 8), (10, 0, 16), (12, 0, 16), (14, 0, 14), (16, 0, 5), (17, 0, 16), (20, 0, 128),
      (36, 0, 128), (52, 0, 48), (58, 0, 32)] (decide (dIndex d < 4096) && flowRanges d f) true false false) fun _ =>
    match s.flowCode (dIndex d) f with
    | some c => .done s c 0
    | none => .done (s.setFlow (dIndex d) f) cDone 0

/-- FLOW_WRITE (R379). -/
def execFlowWrite (r : Nat) (s : State) : Out := .next (s.descriptor r 0x40 flowWriteBody)

/-! ### 802.1AS states (R391 to R393) -/

def State.gptp (s : State) (p : Nat) : Gptp := Tbl.get (fun _ => {}) s.bbn.gptp p
def State.setGptp (s : State) (p : Nat) (f : Gptp → Gptp) : State :=
  { s with bbn := { s.bbn with gptp := Tbl.put (fun _ => {}) p (f (s.gptp p)) s.bbn.gptp } }

def gptpLost : Nat := 4
def State.gptpState (s : State) (p : Nat) : Nat := s.rd (BBN_GPTP_STATUS.STATE p)

/-- STATE of port `p` changes; on the port that serves the tick source 293 is raised, and the tick enters or leaves HOLDOVER
(R38, R393). -/
def State.setGptpState (s : State) (p v : Nat) : State :=
  if s.gptpState p = v then s
  else
    let s := s.wr (BBN_GPTP_STATUS.STATE p) v
    let s := if v = 3 then s else s.setGptp p fun g => { g with good := 0 }
    if s.servesTick p then
      let s := s.raise 293
      if !s.tick.running then s
      else if v = gptpLost then s.setLock lockHoldover
      else if v = 3 ∧ s.rd TICK_STATUS.LOCK = lockHoldover then s.setLock lockAcquiring
      else s
    else s

/-- Backbone port `p` is enabled; one fenced at power-up acts as with ENABLE 0 (R375, R487). -/
def State.bbnOn (s : State) (p : Nat) : Bool := s.flag (BBN_PORT_CFG.ENABLE p) && !bitOf (s.rd DEV_PU_FENCED.BACKBONE) p

/-- The function runs. -/
def State.gptpOn (s : State) (p : Nat) : Bool := s.bbnOn p && s.flag (BBN_PORT_CFG.GPTP_ENABLE p)

/-- From UNLOCKED or LOCKED to LOST (R393). -/
def State.loseGptp (s : State) (p : Nat) : State :=
  if s.gptpState p = 2 ∨ s.gptpState p = 3 then
    (s.setGptp p fun g => { g with heard := false }).setGptpState p gptpLost
  else s

/-- GPTP_LOST: three Sync or Announce intervals pass without a message (R393). -/
def execGptpLost (p : Nat) (s : State) : Out := .next (s.inService fun s => if p < 2 then s.loseGptp p else s)

/-- A complete Sync (R392, R393). -/
def State.syncMsg (s : State) (p : Nat) (offset : Int) (residual : Nat) (rate logSync : Int) : State :=
  let s := s.wrs [(BBN_GPTP_OFFSET.OFFSET_NS p, toField offset 64), (BBN_GPTP_DELAY.RATE p, toField rate 16),
    (BBN_GPTP_STATUS.LOG_SYNC p, toField logSync 8)]
  if !s.flag (BBN_PORT_STATUS.AS_CAPABLE p) then s
  else
    let s := if s.gptpState p = 3 then s else s.setGptpState p 2
    let s := s.setGptp p fun g => { g with good := if residual ≤ 100 then min 8 (g.good + 1) else 0 }
    if 8 ≤ (s.gptp p).good then s.setGptpState p 3 else s

/-- An Announce: a change of grandmaster passes through LOST to UNLOCKED (R393). -/
def State.announceMsg (s : State) (p clock : Nat) : State :=
  let other := s.rd (BBN_GPTP_GM.CLOCK_ID p) != clock
  let st := s.gptpState p
  let s := if other && (st == 2 || st == 3) then (s.loseGptp p).setGptpState p 2 else if st = gptpLost then s.setGptpState p 1 else s
  (s.wr (BBN_GPTP_GM.CLOCK_ID p) clock).setGptp p fun g => { g with heard := true }

/-- meanLinkDelay is measured: asCapable while it is valid and at most 800 ns (R391). -/
def State.delayMsg (s : State) (p ns : Nat) (valid : Bool) : State :=
  let cap := valid && decide (ns ≤ 800)
  let s := s.wrs [(BBN_GPTP_DELAY.LINK_DELAY_NS p, min ns 65535), (BBN_PORT_STATUS.AS_CAPABLE p, b2n cap)]
  if cap then s else s.loseGptp p

def State.sendPeer (s : State) (p kind seq : Nat) : State :=
  { s with bbn := { s.bbn with sent := s.bbn.sent ++ [(p, kind, seq)] } }

/-- GPTP_MESSAGE: an 802.1AS message on port `p` (R391 to R393). -/
def execGptpMessage (p : Nat) (m : GptpMsg) (s : State) : Out :=
  .next (s.inService fun s =>
    if p < 2 ∧ s.gptpOn p ∧ s.flag (BBN_PORT_STATUS.LINK p) then
      match m with
      | .announce clock => s.announceMsg p clock
      | .sync offset residual rate logSync => if (s.gptp p).heard then s.syncMsg p offset residual rate logSync else s
      | .delay ns valid => s.delayMsg p ns valid
      | .pdelayReq seq => (s.sendPeer p 1 seq).sendPeer p 2 seq
    else s)

/-- PDELAY_REQ: the peer-delay interval expires (R391). -/
def execPdelayReq (p : Nat) (s : State) : Out :=
  .next (s.inService fun s =>
    if p < 2 ∧ s.gptpOn p ∧ s.flag (BBN_PORT_STATUS.LINK p) then
      (s.sendPeer p 0 (s.gptp p).pdelaySeq).setGptp p fun g => { g with pdelaySeq := (g.pdelaySeq + 1) % 65536 }
    else s)

/-! ### Stream frames lost and completed (R384, R385) -/

def State.inFrame (s : State) (c : Nat) : Bool := s.flag (BBN_SC_STATUS.IN_FRAME c)

/-- A frame is counted as lost: LOST_CAUSE, source 294, and KEY awaited (R385, R389). -/
def State.countLost (s : State) (c cause : Nat) : State :=
  let tile := bitsOf (s.stream c).cfg 1 2 == 1
  let s := ((s.bump (BBN_SC_FRAMES.LOST c) 1).wr (BBN_SC_STATUS.LOST_CAUSE c) cause).raise 294
  if tile then s.wr (BBN_SC_STATUS.AWAIT_KEY c) 1 else s

/-- The open frame is lost (R385): its write ends unsuccessfully. -/
def State.loseFrame (s : State) (c cause : Nat) : State :=
  if s.inFrame c then
    (((s.endWrite (s.stream c).target false).wr (BBN_SC_STATUS.IN_FRAME c) 0).setStream c fun x => { x with lastSeen := false }).countLost
      c cause
  else s

/-- The frames whose packets came through port `p` are lost with its link (R385). -/
def State.loseFrames (s : State) (p : Nat) : State :=
  (List.range 256).foldl (fun s c => if s.inFrame c ∧ (s.stream c).port = p then s.loseFrame c 7 else s) s

/-- STREAM_FRAME_COMPLETE: the stack acknowledges the last write of the open frame of context `c`, `ns` after the end of its
last packet (R384, R389, R390). -/
def execStreamFrameComplete (c ns : Nat) (s : State) : Out :=
  .next (s.inService fun s =>
    let x := s.stream c
    if c < 256 ∧ s.inFrame c ∧ x.lastSeen then
      let s := (s.endWrite x.target true).setStream c fun x => { x with lastSeen := false }
      let s := (s.wrs [(BBN_SC_STATUS.IN_FRAME c, 0), (BBN_SC_STATUS.LAST c, x.side), (BBN_SC_STATUS.HAVE_FRAME c, 1)]).bump
        (BBN_SC_FRAMES.COMPLETE c) 1
      let s := if x.key && !bitOf x.cfg 3 then s.wr (BBN_SC_STATUS.AWAIT_KEY c) 0 else s
      let s := if x.cls = 0 then
          let s := s.wr BBN_CLASS_A.WORST_NS (max (s.rd BBN_CLASS_A.WORST_NS) (min ns 65535))
          if 30000 < ns then s.bump BBN_CLASS_A.OVER 1 else s
        else s
      if s.flag (BBN_SC_CFG.EOF_IRQ c) then s.raise 295 else s
    else s)

/-- STREAM_FRAME_TIMEOUT: the open frame of context `c` has not completed FRAME_TIMEOUT_MS after it began (R385). -/
def execStreamFrameTimeout (c : Nat) (s : State) : Out :=
  .next (s.inService fun s =>
    if c < 256 ∧ s.inFrame c then (s.reach ((s.stream c).began + 1000000 * (s.stream c).timeout)).loseFrame c 3 else s)

/-! ### STREAM_ENABLE (R383) -/

/-- The surface FORMAT of a sampling (R387). -/
def samplingFormat (sampling : Nat) (depth10 : Bool) : Option Nat :=
  match sampling, depth10 with
  | 0, true => some 5
  | 1, false => some 3
  | 1, true => some 4
  | 2, false => some 0
  | 3, false => some 0
  | _, _ => none

/-- R383 for a configuration word and the surfaces A and B: the code of the first check that fails, 0 for none. -/
def streamCode (cfg a b : Nat) (fa fb : Surface) : Nat :=
  let alt := bitOf cfg 3
  let fs := if alt then [fa, fb] else [fa]
  let typ := bitsOf cfg 1 2
  if 2 ≤ typ then 0x63
  else if typ = 1 ∧ (fs.any fun f => f.layout != 2) then 0x63
  else if typ = 0 ∧ (fs.any fun f => some f.format != samplingFormat (bitsOf cfg 16 3) (bitOf cfg 19) || f.layout == 2) then 0x63
  else if (fs.any fun f => f.width == 0) ∨ (alt ∧ (a = b ∨ fa.width ≠ fb.width ∨ fa.height ≠ fb.height ∨ fa.format ≠ fb.format)) then
    0x64
  else 0

/-- R383 for the surfaces as they stand. -/
def State.streamCheck (s : State) (cfg surf : Nat) : Nat :=
  let a := bitsOf surf 0 12
  let b := bitsOf surf 16 12
  streamCode cfg a b (s.surface a) (s.surface b)

/-- STREAM_ENABLE: a write of BBN_SC_CFG of context `c` (R383, R385). -/
def execStreamEnable (c : Nat) (w : Word) (s : State) : Out :=
  .next (s.setup fun s =>
    if 256 ≤ c then s
    else
      let x := w.toNat
      let s := s.wrs [(BBN_SC_CFG.TYPE c, bitsOf x 1 2), (BBN_SC_CFG.ALT c, bitsOf x 3 1), (BBN_SC_CFG.EOF_IRQ c, bitsOf x 4 1),
        (BBN_SC_CFG.PT_CHECK c, bitsOf x 5 1), (BBN_SC_CFG.PT c, bitsOf x 6 7), (BBN_SC_CFG.SAMPLING c, bitsOf x 16 3),
        (BBN_SC_CFG.DEPTH10 c, bitsOf x 19 1)]
      let on := s.flag (BBN_SC_STATUS.ACTIVE c)
      if bitOf x 0 && !on then
        let surf := s.rd (BBN_SC_SURF.SURFACE_A c) + 2 ^ 16 * s.rd (BBN_SC_SURF.SURFACE_B c)
        let code := s.streamCheck x surf
        if code ≠ 0 then s.wrs [(BBN_SC_CFG.ENABLE c, 0), (BBN_SC_STATUS.CFG_CODE c, code)]
        else
          let s := s.setStream c fun _ => { cfg := x, surf := surf, timeout := max 1 (s.rd (BBN_SC_TIMING.FRAME_TIMEOUT_MS c)) }
          s.wrs [(BBN_SC_CFG.ENABLE c, 1), (BBN_SC_STATUS.ACTIVE c, 1), (BBN_SC_STATUS.IN_FRAME c, 0), (BBN_SC_STATUS.HAVE_FRAME c, 0),
            (BBN_SC_STATUS.AWAIT_KEY c, b2n (bitsOf x 1 2 == 1)), (BBN_SC_STATUS.CFG_CODE c, 0)]
      else if !bitOf x 0 then
        (s.loseFrame c 6).wrs [(BBN_SC_CFG.ENABLE c, 0), (BBN_SC_STATUS.ACTIVE c, 0), (BBN_SC_STATUS.AWAIT_KEY c, 0)]
      else s)

/-! ### Links (R375, R394) -/

/-- LINK of port `p` changes: source 292; with its loss stream frames and the 802.1AS lock are lost. -/
def State.setBbnLink (s : State) (p : Nat) (on : Bool) : State :=
  if s.flag (BBN_PORT_STATUS.LINK p) = on then s
  else
    let s := (s.wr (BBN_PORT_STATUS.LINK p) (b2n on)).raise 292
    if on then s else ((s.loseFrames p).wr (BBN_PORT_STATUS.AS_CAPABLE p) 0).loseGptp p

/-- Block lock and FEC lock as they stand; LINK while both hold (R374). -/
def State.bbnLock (s : State) (p : Nat) (block fec : Bool) : State :=
  let none_ := s.rd (BBN_PORT_CFG.FEC p) == 0
  let s := s.wrs [(BBN_PORT_STATUS.BLOCK_LOCK p, b2n block), (BBN_PORT_STATUS.FEC_LOCK p, b2n (fec && !none_))]
  s.setBbnLink p (block && (none_ || fec))

/-- BBN_LINK_CHANGE: port `p` gains or loses block lock and FEC lock (R394). -/
def execBbnLinkChange (p : Nat) (block fec : Bool) (s : State) : Out :=
  .next (s.inService fun s =>
    if p < 2 ∧ s.bbnOn p ∧ (s.pwr.bbnClk ∨ (block = false ∧ fec = false)) then s.bbnLock p block fec else s)

/-- BBN_PORT_CONFIG: a write of BBN_PORT_CFG (R375, R393). -/
def execBbnPortConfig (p : Nat) (w : Word) (s : State) : Out :=
  .next (s.setup fun s =>
    if 2 ≤ p then s
    else
      let x := w.toNat
      let was := s.flag (BBN_PORT_CFG.ENABLE p)
      let drops := s.rd (BBN_PORT_CFG.FEC p) != bitsOf x 1 2 || s.rd (BBN_PORT_CFG.RX_INVERT p) != bitsOf x 4 1 ||
        s.rd (BBN_PORT_CFG.TX_INVERT p) != bitsOf x 5 1
      let s := s.wrs [(BBN_PORT_CFG.ENABLE p, bitsOf x 0 1), (BBN_PORT_CFG.FEC p, bitsOf x 1 2), (BBN_PORT_CFG.GPTP_ENABLE p, bitsOf x 3 1),
        (BBN_PORT_CFG.RX_INVERT p, bitsOf x 4 1), (BBN_PORT_CFG.TX_INVERT p, bitsOf x 5 1), (BBN_PORT_CFG.MAX_FRAME p, bitsOf x 16 14)]
      let s := if was && (!bitOf x 0 || drops) then s.bbnLock p false false else s
      if !s.gptpOn p then (s.setGptp p fun g => { g with heard := false, good := 0 }).setGptpState p 0
      else if s.gptpState p = 0 then s.setGptpState p 1
      else s)

/-! ### The ingest buffer and the policer (R381, R382) -/

/-- Buffered frame `a` leaves before `b`: by class, then port; arrival order is the list's. -/
def leavesFirst (a b : Buffered) : Bool := decide (a.cls < b.cls) || (a.cls == b.cls && decide (a.port < b.port))

/-- Take the next frame to leave out of the buffer. -/
def leaveOne (l : List Buffered) : List Buffered :=
  match l with
  | [] => []
  | a :: r => let best := r.foldl (fun m x => if leavesFirst x m then x else m) a
    l.erase best

def leave : Nat → List Buffered → List Buffered
  | 0, l => l
  | n + 1, l => leave n (leaveOne l)

/-- The frame finds room (R381): `some true` in its reservation, `some false` in the shared area. -/
def State.bufferRoom (s : State) (n : Nat) (f : Flow) (len : Nat) : Option Bool :=
  let own := ((s.bbn.buffered.filter fun b => b.reserved && b.flow == n).map fun b => b.bytes).sum
  let area := 2097152 - 1024 * s.rd BBN_BUF_STATUS.A_RESERVED_KIB
  let shared := ((s.bbn.buffered.filter fun b => !b.reserved).map fun b => b.bytes).sum
  if f.cls = 0 ∧ own + len ≤ 1024 * f.burst then some true
  else if f.cls = 2 then (if 4 * shared ≤ 3 * area then some false else none)
  else if shared + len ≤ area then some false
  else none

/-- The tokens of an entry's bucket now, in 1/8000 byte (R382). -/
def Flow.tokensNow (f : Flow) (now : Nat) : Nat := min (f.burst * 1024 * 8000) (f.tokens + f.rate * (now - f.tokensAt))

/-! ### Writing a stream's packets (R384 to R389) -/

/-- Store a sample or element of plane `p` at (x, y). -/
def State.putElem (s : State) (f : Surface) (p x y v : Nat) : State := s.store3 (f.addr p x y) (leBytes v (elemBytes f.format p))

/-- Store one 16-bit or 8-bit component of a chroma element: 0 Cb, 1 Cr. -/
def State.putChroma (s : State) (f : Surface) (x y k v : Nat) : State :=
  let n := elemBytes f.format 1 / 2
  s.store3 (f.addr 1 x y + n * k) (leBytes v n)

/-- Samples of `w` bits, most significant bit first. -/
def samplesOf (w : Nat) : Nat → List Bool → List Nat
  | 0, _ => []
  | n + 1, bits => ((bits.take w).foldl (fun a b => 2 * a + b2n b) 0) :: samplesOf w n (bits.drop w)

/-- A pgroup: bytes, pixels across, lines (R387). -/
def pgroupOf (fmt sampling : Nat) : Nat × Nat × Nat :=
  match fmt with
  | 5 => (5, 2, 1)
  | 3 => (6, 2, 2)
  | 4 => (15, 4, 2)
  | _ => (if sampling = 3 then 4 else 3, 1, 1)

/-- One pgroup at pixel (x, y) of a surface. -/
def State.putPgroup (s : State) (f : Surface) (sampling x y : Nat) (bs : List Byte) : State :=
  let bits := bs.flatMap byteBits
  match f.format with
  | 5 =>
    let v := (samplesOf 10 4 bits).map (· * 64)
    let g (i : Nat) : Nat := v.getD i 0
    (((s.putChroma f (x / 2) y 0 (g 0)).putElem f 0 x y (g 1)).putChroma f (x / 2) y 1 (g 2)).putElem f 0 (x + 1) y (g 3)
  | 3 =>
    let g (i : Nat) : Nat := (samplesOf 8 6 bits).getD i 0
    let s := ((s.putElem f 0 x y (g 0)).putElem f 0 (x + 1) y (g 1)).putElem f 0 x (y + 1) (g 2)
    ((s.putElem f 0 (x + 1) (y + 1) (g 3)).putChroma f (x / 2) (y / 2) 0 (g 4)).putChroma f (x / 2) (y / 2) 1 (g 5)
  | 4 =>
    let v := (samplesOf 10 12 bits).map (· * 64)
    (List.range 2).foldl (fun s q =>
      let g (i : Nat) : Nat := v.getD (6 * q + i) 0
      let x := x + 2 * q
      let s := ((s.putElem f 0 x y (g 0)).putElem f 0 (x + 1) y (g 1)).putElem f 0 x (y + 1) (g 2)
      ((s.putElem f 0 (x + 1) (y + 1) (g 3)).putChroma f (x / 2) (y / 2) 0 (g 4)).putChroma f (x / 2) (y / 2) 1 (g 5)) s
  | _ =>
    let c (i : Nat) : Nat := (bs.getD i 0).toNat
    s.putElem f 0 x y (c 0 + 2 ^ 8 * c 1 + 2 ^ 16 * c 2 + 2 ^ 24 * (if sampling = 3 then c 3 else 255))

/-- Pgroups of one SRD from pixel `x` of line `y` on. -/
def State.putSrd (s : State) (f : Surface) (sampling y : Nat) : Nat → Nat → List Byte → State
  | 0, _, _ => s
  | n + 1, x, bs =>
    let g := pgroupOf f.format sampling
    (s.putPgroup f sampling x y (bs.take g.1)).putSrd f sampling y n (x + g.2.1) (bs.drop g.1)

/-- A number of `n` bytes at `o`, most significant byte first. -/
def beAt (bs : List Byte) (o n : Nat) : Nat := ((bs.drop o).take n).foldl (fun a b => 256 * a + b.toNat) 0

/-- SRD headers from byte `o`: (Length, F, Line No, Offset), and where the data begin; `none` where they are cut off.
PRESUMED: the layouts of RTP and of RFC 4175. -/
def srdHeaders (bs : List Byte) : Nat → Nat → Option (List (Nat × Bool × Nat × Nat) × Nat)
  | 0, _ => none
  | f + 1, o =>
    if bs.length < o + 6 then none
    else
      let line := beAt bs (o + 2) 2
      let ofs := beAt bs (o + 4) 2
      let h := (beAt bs o 2, bitOf line 15, line % 32768, ofs % 32768)
      if bitOf ofs 15 then (srdHeaders bs f (o + 6)).map fun r => (h :: r.1, r.2) else some ([h], o + 6)

/-- An RFC 4175 packet: extended sequence number, marker, SRD headers, and where the data begin; `none` where it is malformed
(R386). -/
def parseRtp (cfg : Nat) (bs : List Byte) : Option (Nat × Bool × List (Nat × Bool × Nat × Nat) × Nat) :=
  let b0 := beAt bs 0 1
  let b1 := beAt bs 1 1
  let o := 12 + if bitOf b0 4 then 4 + 4 * beAt bs 14 2 else 0
  if bs.length < o + 2 ∨ b0 / 64 ≠ 2 ∨ b0 % 16 ≠ 0 ∨ (bitOf cfg 5 ∧ b1 % 128 ≠ bitsOf cfg 6 7) then none
  else (srdHeaders bs bs.length (o + 2)).map fun r => (beAt bs o 2 * 65536 + beAt bs 2 2, bitOf b1 7, r.1, r.2)

/-- The open frame takes the data of SRDs in order; a failing one loses the frame (R385, R387). -/
def State.putSrds (s : State) (c : Nat) (bs : List Byte) : List (Nat × Bool × Nat × Nat) → State
  | [] => s
  | (len, field, y, x) :: r =>
    let f := (s.stream c).desc
    let sampling := bitsOf (s.stream c).cfg 16 3
    let g := pgroupOf f.format sampling
    if field ∨ len = 0 ∨ len % g.1 ≠ 0 ∨ bs.length < len ∨ y % g.2.2 ≠ 0 ∨ (isYc f.format ∧ x % 2 ≠ 0) then s.loseFrame c 4
    else if f.width < x + len / g.1 * g.2.1 ∨ f.height < y + g.2.2 then s.loseFrame c 2
    else (s.putSrd f sampling y (len / g.1) x (bs.take len)).putSrds c (bs.drop len) r

/-- A frame begins on context `c` (R384, R389): the open one is lost, the surface checked, its write started. The spec gives no
cause for a frame that another one's beginning ends: LOST_CAUSE is then a free value. -/
def State.beginFrame (s : State) (c cls port : Nat) (key : Bool) : State :=
  let s := if s.inFrame c then ({ s with freeCtr := s.freeCtr + 1 }).loseFrame c (Config.freeByte s.freeCtr).toNat else s
  let x := s.stream c
  let alt := bitOf x.cfg 3
  let side := if alt && s.flag (BBN_SC_STATUS.HAVE_FRAME c) then 1 - s.rd (BBN_SC_STATUS.LAST c) else 0
  let i := if side = 0 then bitsOf x.surf 0 12 else bitsOf x.surf 16 12
  if s.streamCheck x.cfg x.surf ≠ 0 then s.countLost c 8
  else if bitsOf x.cfg 1 2 = 1 ∧ s.flag (BBN_SC_STATUS.AWAIT_KEY c) ∧ !key then s.countLost c 10
  else
    let f := s.surface i
    let s := s.setStream c fun x => { x with
      side := side, target := i, desc := f, began := s.now, key := key, cls := cls, port := port, lastSeen := false }
    (s.startWrite i).wr (BBN_SC_STATUS.IN_FRAME c) 1

/-- The last packet of the open frame has been written. -/
def State.lastPacket (s : State) (c : Nat) : State := if s.inFrame c then s.setStream c fun x => { x with lastSeen := true } else s

/-- An open frame whose last packet has not come takes more packets. -/
def State.taking (s : State) (c : Nat) : Bool := s.inFrame c && !(s.stream c).lastSeen

/-- The open frame is lost where its last packet has not come: a packet after that belongs to no open frame. -/
def State.spoilFrame (s : State) (c cause : Nat) : State := if s.taking c then s.loseFrame c cause else s

/-- A packet whose sequence number is not the one awaited loses the open frame (R385). -/
def State.checkSeq (s : State) (c seq : Nat) : State × Bool :=
  let ok := match (s.stream c).nextSeq with | some n => n == seq | none => true
  let s := s.setStream c fun x => { x with nextSeq := some ((seq + 1) % 2 ^ 32) }
  (if ok || !s.taking c then s else s.loseFrame c 1, ok)

/-- The sequence number, marker and rows of a well-formed packet of an RFC 4175 context (R385, R386). -/
def State.rtpRows (s : State) (c cls port seq : Nat) (marker : Bool) (srds : List (Nat × Bool × Nat × Nat)) (bs : List Byte) :
    State :=
  let q := s.checkSeq c seq
  let first := q.2 && (s.stream c).starts
  let s := if first then q.1.beginFrame c cls port false else q.1
  let s := s.setStream c fun x => { x with starts := marker }
  let s := if s.taking c then s.putSrds c bs srds else s
  if marker ∧ s.taking c then s.lastPacket c else s

/-- A packet of an RFC 4175 context (R386). -/
def State.rtpPacket (s : State) (c cls port : Nat) (bs : List Byte) : State :=
  match parseRtp (s.stream c).cfg bs with
  | none => s.spoilFrame c 4
  | some x => s.rtpRows c cls port x.1 x.2.1 x.2.2.1 (bs.drop x.2.2.2)

/-- The tiles of a tile packet, in order (R388). -/
def State.putTiles (s : State) (c : Nat) : Nat → List Byte → State
  | 0, _ => s
  | n + 1, bs =>
    let f := (s.stream c).desc
    let b := beAt bs 0 4
    let len := beAt bs 4 2
    let raw := hankRaw f.format
    let whole := ceilDiv (6 + len) 4 * 4
    if bs.length < 6 ∨ b / 2 ^ 22 ≠ 0 ∨ len / 2 ^ 11 ≠ 0 ∨ bs.length < 6 + len ∨ (((bs.drop (6 + len)).take (whole - 6 - len)).any (· != 0)) then
      s.loseFrame c 4
    else if f.blocks ≤ b then s.loseFrame c 2
    else if raw < len then s.loseFrame c 9
    else
      let s := s.store3 (f.base + f.headerArea + 1024 * b) ((bs.drop 6).take len)
      (s.store3 (f.base + 2 * b) (leBytes len 2)).putTiles c n (bs.drop whole)

/-- A packet of a TILE context (R388, R389). -/
def State.tilePacket (s : State) (c cls port : Nat) (bs : List Byte) : State :=
  let flags := beAt bs 3 1
  if bs.length < 16 ∨ beAt bs 0 2 ≠ 0x5449 ∨ beAt bs 2 1 ≠ 1 ∨ flags / 8 ≠ 0 ∨ beAt bs 12 2 = 0 ∨ beAt bs 14 2 ≠ 0 then s.spoilFrame c 4
  else
    let s := (s.checkSeq c (beAt bs 8 4)).1
    let s := if bitOf flags 0 then s.beginFrame c cls port (bitOf flags 2) else s
    let s := if s.taking c then s.putTiles c (beAt bs 12 2) (bs.drop 16) else s
    if bitOf flags 1 ∧ s.taking c then s.lastPacket c else s

/-- An admitted packet goes to its context (STREAM_PACKET, R384). -/
def State.streamPacket (s : State) (f : Flow) (port : Nat) (bs : List Byte) : State :=
  let c := f.stream
  if !s.flag (BBN_SC_STATUS.ACTIVE c) then s
  else if bitsOf (s.stream c).cfg 1 2 = 0 then s.rtpPacket c f.cls port bs
  else s.tilePacket c f.cls port bs

/-! ### Reception (R376, R378) -/

/-- The leading `n` bits of two addresses agree. -/
def prefixEq (n : Nat) (a b : List Byte) : Bool := (a.flatMap byteBits).take n == (b.flatMap byteBits).take n

/-- The frame matches the entry (R378). -/
def Flow.matches_ (f : Flow) (x : Frame) : Bool :=
  f.valid && (if x.port = 0 then f.port0 else f.port1) && x.udp && x.dport == f.dport &&
    (!f.full || (f.ipv6 == x.ipv6 && (!f.vidM || x.vid == some f.vid) && (!f.untagged || x.vid.isNone) &&
      (!f.srcM || prefixEq f.srcPrefix f.srcAddr x.src) && (!f.dstM || prefixEq f.dstPrefix f.dstAddr x.dst) &&
      (!f.sportM || x.sport == f.sport) && (!f.macM || x.dstMac == f.dstMac)))

/-- The lowest-numbered matching entry. -/
def State.flowFor (s : State) (x : Frame) : Option (Nat × Flow) := s.bbn.flows.find? fun p => p.2.matches_ x

/-- A destination the port accepts: its own address, broadcast or multicast (R374). -/
def State.accepts (s : State) (x : Frame) : Bool :=
  let own := leBytes (s.rd (BBN_PORT_MAC_LO.MAC x.port) + 2 ^ 32 * s.rd (BBN_PORT_MAC_HI.MAC x.port)) 6
  x.dstMac == own.reverse || bitOf (x.dstMac.headD 0).toNat 0

/-- PEAK_KIB of the ingest buffer. -/
def State.noteBuffer (s : State) : State :=
  s.wr BBN_BUF_STATUS.PEAK_KIB (max (s.rd BBN_BUF_STATUS.PEAK_KIB) ((s.bbn.buffered.map fun b => b.bytes).sum / 1024))

/-- A matched frame is policed, buffered, and given to its context (R381, R382). -/
def State.flowFrame (s : State) (n : Nat) (f : Flow) (x : Frame) : State :=
  let s := s.bump (BBN_PORT_RX.FRAMES x.port) 1
  let have_ := f.tokensNow s.now
  let short := f.rate != 0 && decide (have_ < 8000 * x.len)
  let f' := { f with tokens := if short || f.rate == 0 then have_ else have_ - 8000 * x.len, tokensAt := s.now }
  let s := { s with bbn := { s.bbn with flows := Tbl.put (fun _ => {}) n f' s.bbn.flows } }
  if short then (s.bump (BBN_SC_DROPS.POLICED f.stream) 1).spoilFrame f.stream 5
  else match s.bufferRoom n f x.len with
  | none =>
    let s := (s.bump (if f.cls = 2 then BBN_BUF_DROPS.CLASS_C else BBN_BUF_DROPS.CLASS_B) 1).bump (BBN_SC_DROPS.BUFFER f.stream) 1
    s.spoilFrame f.stream 5
  | some reserved =>
    let b : Buffered := { flow := n, cls := f.cls, port := x.port, bytes := x.len, reserved := reserved }
    (({ s with bbn := { s.bbn with buffered := s.bbn.buffered ++ [b] } }).noteBuffer).streamPacket f x.port x.payload

/-- BBN_FRAME_RX (R376). -/
def execBbnFrameRx (x : Frame) (s : State) : Out :=
  .next (s.inService fun s =>
    if x.port < 2 ∧ s.flag (BBN_PORT_STATUS.LINK x.port) then
      let s := (s.bump (BBN_PORT_FEC.CORRECTED x.port) x.fecCorrected).bump (BBN_PORT_FEC.UNCORRECTED x.port) x.fecUncorrected
      let s := { s with bbn := { s.bbn with buffered := leave x.left s.bbn.buffered } }
      if x.bad ∨ 0 < x.fecUncorrected ∨ x.len < 64 ∨ clampN (s.rd (BBN_PORT_CFG.MAX_FRAME x.port)) 1518 9600 < x.len then
        s.bump (BBN_PORT_DROPS.ERRORS x.port) 1
      else if x.gptp then s
      else match (if s.accepts x then s.flowFor x else none) with
        | some (n, f) => s.flowFrame n f x
        | none => s.bump (BBN_PORT_DROPS.STRANGER x.port) 1
    else s)

end Sys2Proof.Machine
end

