-- ==== Sys2Proof/Machine/Calib.lean ====
section
/-! DEFINITION. Self-calibration: requests, starts, samples, the fit, responsivities and the store image (R333 to R352). -/

namespace Sys2Proof.Machine

/-! ### CAL_CFG as taken at the latest tick edge -/

def State.calEnable (s : State) : Bool := bitOf s.light.cal.cfg 0
def State.calLend (s : State) : Bool := bitOf s.light.cal.cfg 1
def State.calStep (s : State) : Nat := max 1 (bitsOf s.light.cal.cfg 4 8)
def State.calRepeats (s : State) : Nat := max 1 (bitsOf s.light.cal.cfg 12 3)
def State.calTimeout (s : State) : Nat := max 1 (bitsOf s.light.cal.cfg 16 8)

/-- At a tick edge CAL_CFG and LGT_LOOP_CFG take effect; ENABLE going to 0 abandons every calibration in progress (R335, R342). -/
def State.takeCalCfg (s : State) : State :=
  let was := s.calEnable
  let s := { s with light := { s.light with
    loopCfg := (s.word LGT_LOOP_CFG.LOOP_PERIOD.off).toNat
    cal := { s.light.cal with cfg := (s.word CAL_CFG.ENABLE.off).toNat } } }
  if was && !s.calEnable then (List.range 32).foldl (fun s e => s.abandonCals e true) s else s

/-! ### Requests (R335, R336) -/

/-- The engine's latest LASER value in 1/16 °C. -/
def State.laser (s : State) (e : Nat) : Int := signedOf (s.rd (SKN_ENG_TEMP_A.LASER e)) 16

/-- A string for which the device raises requests by itself (R335). -/
def calAllowed (st : Nat) : Bool := !(st == stAbsent || st == stHeatOff || st == stOpen || st == stShort)

/-- A trigger of R335 holds. -/
def State.calTrigger (s : State) (e i : Nat) : Bool :=
  let m := (s.lightOf e).model i
  m.count == 0 || decide (s.calStep < (s.laser e - signedOf m.tRun 16).natAbs)

/-- Raise a request for string `i` unless one is pending. -/
def LightEng.raiseCal (l : LightEng) (i tick : Nat) (host : Bool) : LightEng :=
  if l.calReqs.any fun r => r.str = i then l else { l with calReqs := l.calReqs ++ [{ str := i, host := host, tick := tick }] }

/-- The triggers of a tick edge for one engine (R335). -/
def State.calTriggers (s : State) (e : Nat) : State :=
  let l := s.lightOf e
  if !s.calEnable || !l.known then s
  else
    let due := (List.range 27).filter fun i => calAllowed (l.str i).state && s.calTrigger e i
    if due.isEmpty then s else s.setLight e fun l => due.foldl (fun l i => l.raiseCal i s.tickNo false) l

/-- Request `a` starts before request `b` (R27, R336). -/
def reqBefore (a b : CalReq) : Bool :=
  (a.host && !b.host) || (a.host == b.host && (decide (a.tick < b.tick) || (a.tick == b.tick && decide (a.str < b.str))))

def bestReq : List CalReq → Option CalReq
  | [] => none
  | a :: r => match bestReq r with
    | none => some a
    | some b => if reqBefore b a then some b else some a

/-- The string would be lent (R337). -/
def State.lends (s : State) (l : LightEng) (i : Nat) : Bool :=
  s.calLend && decide (i % 9 < 8) && (l.str (spareOf (i / 9))).state == stIdle

/-- The request can start now: its string is in service, and is lent, or measured in place with some code above 0 (R335, R337). -/
def State.canStart (s : State) (l : LightEng) (r : CalReq) : Bool :=
  calAllowed (l.str r.str).state && (s.lends l r.str || (l.str r.str).codes.any fun c => c != 0)

/-- The ladder L of R337. -/
def ladder (codeMax th : Nat) : List Nat := (List.range 8).map fun lv => th + roundDivN ((codeMax - th) * (8 - lv)) 8

/-- CALIBRATION_START on a free bank (R336, R337). -/
def State.startCal (s : State) (e b : Nat) : State :=
  let l := s.lightOf e
  if (l.cal b).isSome then s
  else match bestReq (l.calReqs.filter fun r => r.str / 9 == b && s.canStart l r) with
  | none => s
  | some r =>
    let i := r.str
    if s.lends l i then
      let p := l.str i
      let s := s.setLight e fun l =>
        let l := l.setCal b (some { str := i, lent := true, start := s.tickNo })
        let l := l.setStr i fun p => { p with state := stLent, codes := ladder (l.act.codeMax.getD b 0) (l.model i).th }
        l.setStr (spareOf b) fun q => { q with state := stCarrying, spareFor := i % 9, share := p.share, k := p.k }
      s.restage e b
    else s.setLight e fun l => l.setCal b (some { str := i, lent := false, start := s.tickNo, measuring := true })

/-- The notch requests of a calibration whose measurement has begun (R338). -/
def State.raiseSamples (s : State) (e b : Nat) : State :=
  match (s.lightOf e).cal b with
  | some c =>
    if c.measuring && c.reps.isNone && c.fit.isNone then
      let n := s.calRepeats
      s.setLight e fun l => { l.setCal b (some { c with reps := some n }) with
        notchReqs := l.notchReqs ++ (List.range (8 * n)).map fun k => { cal := some k, tick := s.tickNo, str := c.str, level := k % 8 } }
    else s
  | none => s

/-- Calibrations of an engine at a tick edge: only with the sub-port in RUN and DRIVER_LOST 0 (R336). -/
def State.calEdge (s : State) (e : Nat) : State :=
  let s := s.calTriggers e
  let s := if s.linkState e = 5 ∧ s.flag (LGT_ENG_STATUS.DRIVER_LOST e) = false ∧ s.engFenced e = false then
      [0, 1, 2].foldl (fun s b => s.startCal e b) s else s
  [0, 1, 2].foldl (fun s b => s.raiseSamples e b) s

/-- A calibration notch of the ended tick that gave no sample is asked for again (R338). -/
def State.reraise (s : State) (e : Nat) : State :=
  match (s.engine e).ticks with
  | [] => s
  | t :: _ =>
    let lost := t.notches.filter fun n => match n.cal, (s.lightOf e).cal n.bank with
      | some k, some c => c.str == 9 * n.bank + n.string && c.fit.isNone && c.reps.isSome && !(c.samples.any fun x => x.1 = k)
      | _, _ => false
    if lost.isEmpty then s
    else s.setLight e fun l => { l with notchReqs := l.notchReqs ++ lost.map fun n =>
      { cal := n.cal, tick := s.tickNo, str := 9 * n.bank + n.string, level := n.level } }

/-! ### Notches (R252, R328) -/

/-- Diagnosis requests raised at a tick edge (R328). -/
def State.diagRequests (s : State) (e : Nat) : State :=
  let l := s.lightOf e
  if !l.act.notchEnable || !l.known then s
  else
    let due := (List.range 27).filter fun i =>
      let st := (l.str i).state
      (st == stIdle || fires st) && decide (l.act.notchInterval ≤ s.rd (LGT_STR_STATUS.AGE e i)) &&
        !(l.notchReqs.any fun r => r.cal.isNone && r.str == i)
    if due.isEmpty then s
    else s.setLight e fun l => { l with notchReqs := l.notchReqs ++ due.map fun i =>
      { cal := none, tick := s.tickNo, str := i, level := l.act.notchLevel } }

def notchBefore (a b : NotchReq) : Bool :=
  (a.cal.isNone && b.cal.isSome) || (a.cal.isNone == b.cal.isNone &&
    (decide (a.tick < b.tick) || (a.tick == b.tick && decide (a.str < b.str))))

/-- Requests in the order of R27, an earlier one of equal rank first. -/
def insertNotch (a : NotchReq) : List NotchReq → List NotchReq
  | [] => [a]
  | b :: r => if notchBefore b a then b :: insertNotch a r else a :: b :: r

/-- NOTCH_GRANT at a lit tick edge: the granted notches, in order; a string out of service is not notched (R328). -/
def State.grantNotches (s : State) (e : Nat) : State × List NotchRun :=
  let l := s.lightOf e
  let cap := notchCapacity s.gap l.act.notchW
  let sorted := (l.notchReqs.filter fun r => calAllowed (l.str r.str).state).foldr insertNotch []
  let given := sorted.take cap
  (s.setLight e fun l => { l with notchReqs := sorted.drop cap },
   (given.zipIdx).map fun p => { n := p.2, bank := p.1.str / 9, string := p.1.str % 9, level := p.1.level, cal := p.1.cal })

/-! ### Samples and the fit (R338 to R340) -/

/-- The new model's G in 2^-28 and TH from samples (c, φ) (R339). -/
def fitModel (codeMax : Nat) (xs : List (Rat × Rat)) : Nat × Nat :=
  let n : Rat := (xs.length : Nat)
  let sc := xs.foldl (fun a p => a + p.1) 0
  let sp := xs.foldl (fun a p => a + p.2) 0
  let scc := xs.foldl (fun a p => a + p.1 * p.1) 0
  let scp := xs.foldl (fun a p => a + p.1 * p.2) 0
  let den := n * scc - sc * sc
  let g := if den = 0 then 0 else (n * scp - sc * sp) / den
  let a := (sp - g * sc) / n
  if g ≤ 0 then (1, 0)
  else
    ((clampI ((g * 268435456 + 1 / 2).floor) 1 4294967295).toNat,
     (clampI ((-a / g + 1 / 2).floor) 0 ((codeMax : Int) - 1024)).toNat)

/-- Rounded mean of integers; `d` for none. -/
def meanInt (l : List Int) (d : Int) : Int := if l.isEmpty then d else roundDiv l.sum l.length

/-- CALIBRATION_FIT: the model is formed and its table staged (R339, R340). -/
def State.fitCal (s : State) (e : Nat) (c : CalRun) : State :=
  let l := s.lightOf e
  let b := c.str / 9
  let cm := l.act.codeMax.getD b 0
  let gt := fitModel cm (c.samples.map fun x => ((x.2.1 : Rat), (x.2.2.1 : Rat) / (x.2.2.2 : Rat)))
  let m : StrModel := { l.model c.str with g := gt.1, th := gt.2, tRun := toField (meanInt c.laser (s.laser e)) 16 }
  let s := s.setLight e fun l =>
    let l := l.setCal b (some { c with fit := some m, measuring := false })
    (if c.lent then l.giveBack c.str else l).recode b
  s.stage e false

/-- The sample of a calibration notch whose sensors have all reported (R338). -/
def State.takeSample (s : State) (e : Nat) (t : LightTick) (n : NotchRun) (k : Nat) : State :=
  let l := s.lightOf e
  match l.cal n.bank, senseSum t n.n l.inUse with
  | some c, some q =>
    if c.str = 9 * n.bank + n.string ∧ c.reps.isSome ∧ c.fit.isNone ∧ !(c.samples.any fun x => x.1 = k) ∧ t.fault = false ∧
        l.inUse ≠ [] then
      let c := { c with samples := c.samples ++
        [(k, t.codeAt c.str n.level, q, 2 ^ 20 * l.inUse.length * 200 * l.act.notchW)] }
      let s := s.setLight e fun l => l.setCal n.bank (some c)
      if c.samples.length = 8 * c.reps.getD 0 then s.fitCal e c else s
    else s
  | _, _ => s

/-- SENSOR (R317, R338): sensor `j` of engine `e` reports `value` for a tag of tick `t16`. -/
def State.sensorMsg (s : State) (e tag j value t16 : Nat) : State :=
  let l := s.lightOf e
  if l.sensors ≤ j then s
  else match (s.engine e).tickAt t16 with
  | none => s
  | some t =>
    let resp := Tbl.get (fun _ => 2 ^ 20) l.respNow j
    let t' := { t with sensed := (tag, j, value * resp) :: t.sensed.filter fun p => !(p.1 == tag && p.2.1 == j) }
    let s := s.setEngine e fun g => { g with ticks := g.ticks.map fun u => if u.tick = t.tick then t' else u }
    match t.notches.find? fun n => n.n = tag ∧ n.fired with
    | some n =>
      let at_ := t.edge + 2000 + 1000 * n.n * (l.act.notchW + 1) + 1000 * l.act.notchW
      match n.cal with
      | some k => if s.now ≤ at_ + 100000 then s.takeSample e t' n k else s
      | none => s
    | none => s

/-- CALIBRATION_TIMEOUT (R342): the samples of bank `b` are not all in within TIMEOUT × 16 ticks of the start. -/
def execCalibrationTimeout (e b : Nat) (s : State) : Out :=
  .next (s.inService fun s =>
    match (s.lightOf e).cal b with
    | some c => if c.fit.isNone ∧ c.start + 16 * s.calTimeout ≤ s.tickNo then s.abandonCal e b false else s
    | none => s)

/-! ### Responsivity (R343, R344) -/

/-- RESP_j at SENSOR temperature `t` (R343). -/
def respAt (ts : List Int) (rs : List Nat) (t : Int) : Nat :=
  if t ≤ ts.getD 0 0 then rs.getD 0 0
  else if ts.getD 4 0 ≤ t then rs.getD 4 0
  else match [0, 1, 2, 3].find? fun k => decide (ts.getD k 0 ≤ t) && decide (t < ts.getD (k + 1) 0) with
  | some k =>
    let lo := ts.getD k 0
    let w := (ts.getD (k + 1) 0 - lo).toNat
    ((rs.getD k 0 : Int) + roundDiv (((rs.getD (k + 1) 0 : Int) - rs.getD k 0) * (t - lo)) w).toNat
  | none => rs.getD 4 0

/-- TEMP (R286, R343): four signed values in 1/16 °C, as 16-bit patterns. -/
def State.tempMsg (s : State) (e array laser driver sensor : Nat) : State :=
  let s := s.wrs [(SKN_ENG_TEMP_A.ARRAY e, array), (SKN_ENG_TEMP_A.LASER e, laser), (SKN_ENG_TEMP_B.DRIVER e, driver),
    (SKN_ENG_TEMP_B.SENSOR e, sensor)]
  let cur : List NotchRun := match (s.engine e).ticks with | t :: _ => t.notches.filter fun (n : NotchRun) => n.fired && n.cal.isSome | [] => []
  s.setLight e fun l =>
    let l := if l.respLoaded then { l with respTemp := (List.range l.sensors).foldl (fun a j =>
        Tbl.put (fun _ => 2 ^ 20) j (respAt l.respT ((l.resp.drop (5 * j)).take 5) (signedOf sensor 16)) a) l.respTemp } else l
    { l with cals := l.cals.map fun p => (p.1, p.2.map fun c =>
        if cur.any (fun n => 9 * n.bank + n.string == c.str) then { c with laser := c.laser ++ [signedOf laser 16] } else c) }

/-- At a tick edge responsivities and a loaded set take effect (R343, R344). -/
def LightEng.respEdge (l : LightEng) : LightEng :=
  let l := match l.respNext with
    | some (ts, rs) => { l with respT := ts, resp := rs, respLoaded := true, respNext := none }
    | none => l
  { l with respNow := l.respTemp }

/-! ### CAL_REQUEST (R345) -/

def calFields (d : Desc) : List (Nat × Nat × Nat) :=
  match dF d 8 0 2 with
  | 0 => [(8, 0, 2), (10, 0, 9), (12, 0, 9), (14, 0, 9)]
  | 1 => [(8, 0, 2), (9, 0, 5), (16, 0, 80), (32, 0, 64)]
  | _ => [(8, 0, 2)]

/-- The points of a RESP_LOAD: its own, or the default ones (R344). -/
def calPoints (d : Desc) : List Int :=
  if dB d 9 4 then (List.range 5).map fun k => dS d (16 + 2 * k) 0 16 else [-320, 160, 640, 1120, 1600]

def ascending : List Int → Bool
  | a :: b :: r => decide (a < b) && ascending (b :: r)
  | _ => true

/-- The strings a RUN names. -/
def calNamed (d : Desc) : List Nat := (List.range 27).filter fun i => dB d (10 + 2 * (i / 9)) (i % 9)

/-- CAL_REQUEST up to the data read of a RESP_LOAD (R345). -/
def calRequestBody (_ : Nat) (d : Desc) (s : State) : Res :=
  let e := dIndex d
  let act := dF d 8 0 2
  let fields := decide (e < 32) && act != 3 &&
    (act != 1 || (decide (1 ≤ dF d 9 0 4) && (dB d 9 4 || dF d 16 0 80 == 0)))
  let addrs := act != 1 || hostOk (dF d 32 0 64) (20 * dF d 9 0 4) 64
  s.checked (s.r82 d (calFields d) fields addrs (s.engFenced e) false) fun _ =>
    let l := s.lightOf e
    if !l.known then .done s 0x50 0
    else match act with
    | 0 =>
      let new := (calNamed d).filter fun i => (l.str i).state != stAbsent && !(l.calReqs.any fun r => r.str = i)
      .done (s.setLight e fun l => new.foldl (fun l i => l.raiseCal i s.tickNo true) l) cDone new.length
    | 1 => if dF d 9 0 4 ≠ l.sensors ∨ !ascending (calPoints d) then .done s 0x51 0 else .wait s .hostData
    | _ => .done s cDone (b2n l.respLoaded + 2 * b2n l.fromStore + 4 * l.calReqs.length)

/-- The data of a RESP_LOAD has arrived (R345). -/
def respData (d : Desc) (bs : List Byte) (s : State) : Res :=
  let n := 5 * dF d 9 0 4
  let ws := (List.range n).map fun k => leAt bs (4 * k) 4
  if ws.any fun w => decide (2 ^ 24 ≤ w) then .done s 0x51 0
  else
    let s := s.setLight (dIndex d) fun l => { l with respNext := some (calPoints d, ws) }
    .done (s.wr CAL_STATUS.DIRTY 1) cDone 0

/-! ### The store (R348 to R351) -/

/-- Parameters of the CRC-32 of R295 over bytes. -/
def crc32 (bs : List Byte) : Nat := crcBytes 0xFFFFFFFF bs ^^^ 0xFFFFFFFF

def zeros (n : Nat) : List Byte := List.replicate n 0

def modelBytes (m : StrModel) : List Byte :=
  leBytes m.g 4 ++ leBytes m.th 2 ++ leBytes m.count 2 ++ leBytes m.tRun 2 ++ zeros 6 ++ leBytes m.last 8 ++ zeros 8

/-- An engine record of 1,280 bytes (R348). -/
def recordBytes (r : StoreRec) : List Byte :=
  leBytes r.serial 8 ++ leBytes r.sensors 1 ++ leBytes (b2n r.respLoaded) 1 ++ zeros 6 ++
    ((List.range 5).flatMap fun k => leBytes (toField (r.respT.getD k 0) 16) 2) ++ zeros 6 ++
    ((List.range 75).flatMap fun k => leBytes (r.resp.getD k 0) 4) ++ zeros 52 ++
    ((List.range 27).flatMap fun i => modelBytes (r.models.getD i {})) ++ zeros 32

/-- Bytes 0 to CHECK - 1 of a calibration slot (R348). -/
def storeBody (seq : Nat) (rs : List StoreRec) : List Byte :=
  leBytes 0x5343414C 4 ++ leBytes seq 4 ++ leBytes 1 2 ++ leBytes rs.length 2 ++ zeros 52 ++ rs.flatMap recordBytes

/-- A slot's bytes with CHECK last. -/
def withCheck (bs : List Byte) : List Byte := bs ++ leBytes (crc32 bs) 4

/-- The record of an engine with an accepted IDENT (R350). -/
def LightEng.storeRec (l : LightEng) : StoreRec :=
  { serial := l.serial, sensors := l.sensors, respLoaded := l.respLoaded, respT := l.respT, resp := l.resp, models := l.models }

def StoreRec.latest (r : StoreRec) : Nat := (r.models.map (·.last)).foldl max 0

def insertRec (r : StoreRec) : List StoreRec → List StoreRec
  | [] => [r]
  | q :: t => if q.latest < r.latest then r :: q :: t else q :: insertRec r t

/-- The records a store writes (R350). -/
def State.storeRecs (s : State) : List StoreRec :=
  let own := ((List.range 32).filter fun e => (s.lightOf e).known).map fun e => (s.lightOf e).storeRec
  let rest := s.light.cal.held.filter fun r => !(own.any fun o => o.serial = r.serial)
  (own ++ rest.foldr insertRec []).take 32

/-- An erased byte of the boot flash. -/
def erased (_ : Nat) : Byte := 0xFF

/-- A byte of the boot flash. -/
def State.flashByte (s : State) (a : Nat) : Byte := Tbl.get erased s.light.cal.flash a

def State.flashRead (s : State) (a : Nat) : Nat → List Byte
  | 0 => []
  | n + 1 => s.flashByte a :: s.flashRead (a + 1) n

/-- Program bytes of the boot flash. -/
def flashPut (f : Tbl Byte) (a : Nat) : List Byte → Tbl Byte
  | [] => f
  | b :: r => flashPut (Tbl.put erased a b f) (a + 1) r

/-- Erase and program a slot of `sectors` 4 KiB sectors at `a`, stopping after `steps` steps: one per sector erase, then
one per byte (R350, R485). -/
def flashWrite (f : Tbl Byte) (a sectors : Nat) (bs : List Byte) (steps : Nat) : Tbl Byte :=
  let gone := min steps sectors
  let f := f.filter fun p => !(decide (a ≤ p.1) && decide (p.1 < a + 4096 * gone))
  flashPut f a (bs.take (steps - sectors))

/-- First flash byte of calibration slot `n` (R348). -/
def State.slotAt (s : State) (n : Nat) : Nat := 4096 * s.rd CAL_FLASH_CFG.BASE + 65536 * n

/-- SEQ and COUNT of a valid slot: MAGIC, FORMAT, COUNT and CHECK match (R351, R485). -/
def State.slotValid (s : State) (a magic maxCount perEntry : Nat) : Option (Nat × Nat) :=
  let h := s.flashRead a 64
  let n := bitsOf (leAt h 10 2) 0 10
  if leAt h 0 4 = magic ∧ leAt h 8 2 = 1 ∧ n ≤ maxCount ∧
      crc32 (s.flashRead a (64 + perEntry * n)) = ofLeBytes (s.flashRead (a + 64 + perEntry * n) 4) then
    some (leAt h 4 4, n)
  else none

/-- The slot in use of two: the valid one, or the one of later SEQ (R351). -/
def slotInUse (a b : Option (Nat × Nat)) : Option (Nat × Nat × Nat) :=
  match a, b with
  | some x, some y =>
    if x.1 = y.1 ∨ (x.1 + 2 ^ 32 - y.1) % 2 ^ 32 < 2 ^ 31 then some (0, x) else some (1, y)
  | some x, none => some (0, x)
  | none, some y => some (1, y)
  | none, none => none

def parseModel (bs : List Byte) : StrModel :=
  { g := leAt bs 0 4, th := leAt bs 4 2, count := leAt bs 6 2, tRun := leAt bs 8 2, last := leAt bs 16 8 }

def parseRec (bs : List Byte) : StoreRec :=
  { serial := leAt bs 0 8, sensors := bitsOf (leAt bs 8 1) 0 4, respLoaded := bitOf (leAt bs 9 1) 0,
    respT := (List.range 5).map fun k => signedOf (leAt bs (16 + 2 * k) 2) 16,
    resp := (List.range 75).map fun k => leAt bs (32 + 4 * k) 4,
    models := (List.range 27).map fun i => parseModel ((bs.drop (384 + 32 * i)).take 32) }

/-- The calibration store is read at power-up; source 299 follows at READY where no slot is valid (R351). -/
def State.loadStore (s : State) : State :=
  match slotInUse (s.slotValid (s.slotAt 0) 0x5343414C 32 1280) (s.slotValid (s.slotAt 1) 0x5343414C 32 1280) with
  | none => s
  | some (slot, seq, n) =>
    let recs := (List.range n).map fun k => parseRec (s.flashRead (s.slotAt slot + 64 + 1280 * k) 1280)
    ({ s with light := { s.light with cal := { s.light.cal with held := recs } } }).wrs
      [(CAL_STATUS.SLOT, slot), (CAL_STATUS.RECORDS, n), (CAL_SEQ.SEQ, seq)]

/-- The store image of a CAL_STORE starting now: target slot, SEQ and bytes (R350). -/
def State.storePlan (s : State) : Nat × Nat × List StoreRec :=
  let cur := s.rd CAL_STATUS.SLOT
  if cur = 3 then (0, 1, s.storeRecs) else (1 - cur, (s.rd CAL_SEQ.SEQ + 1) % 2 ^ 32, s.storeRecs)

/-- CAL_STORE up to its start as a long operation (R350). -/
def calStoreBody (r : Nat) (d : Desc) (s : State) : Res :=
  s.checked (s.r82 d [] (dIndex d == 0) true false true) fun _ =>
    let p := s.storePlan
    let s := { s with
      pwr := { s.pwr with long := some (.store r), refusal := none, stop := if s.pwr.pwrOk then 0 else 2 }
      light := { s.light with cal := { s.light.cal with
        writing := some (p.1, withCheck (storeBody p.2.1 p.2.2)), planned := p.2.2, changed := false } } }
    .wait (s.wrs [(DEV_STATUS.BUSY, 1), (DEV_STATUS.LONG_OP, 2)]) .store

/-- CAL_STORE (R350). -/
def execCalStore (r : Nat) (s : State) : Out := .next (s.descriptor r 0x3A calStoreBody)

/-- CAL_REQUEST (R345). -/
def execCalRequest (r : Nat) (s : State) : Out := .next (s.descriptor r 0x39 calRequestBody)

/-- LIGHT_SET (R321). -/
def execLightSet (r : Nat) (s : State) : Out := .next (s.descriptor r 0x38 fun _ d s => lightSetBody d s)

end Sys2Proof.Machine
end

