-- ==== Sys2Proof/Machine/Coach.lean ====
section
/-! DEFINITION. The coach bus: enabling, the allow-list, strangers, and the delivery of tables and SWITCHes (R354 to R373). -/

namespace Sys2Proof.Machine

/-- The coach bus transmits and receives (R358). -/
def State.cbusOn (s : State) : Bool := s.flag CBUS_CFG.ENABLE

/-! ### Set-up writes -/

/-- PLCA_ACTIVE changes (R356). -/
def State.plca (s : State) (active : Bool) : State :=
  if s.flag CBUS_STATUS.PLCA_ACTIVE = active then s else (s.wr CBUS_STATUS.PLCA_ACTIVE (b2n active)).raise 290

/-- CBUS_ENABLE: a write of CBUS_CFG; an enable takes NODE_ID and the MAC address (R358). -/
def execCbusEnable (w : Word) (s : State) : Out :=
  .next (s.setup fun s =>
    let was := s.cbusOn
    let s := s.wrs [(CBUS_CFG.ENABLE, bitsOf w.toNat 0 1), (CBUS_CFG.NODE_ID, bitsOf w.toNat 1 5)]
    if bitOf w.toNat 0 && !was then
      ({ s with light := { s.light with
          nodeId := bitsOf w.toNat 1 5
          mac := s.rd CBUS_MAC_LO.MAC + 2 ^ 32 * s.rd CBUS_MAC_HI.MAC } }).wr CBUS_STATUS.COORDINATOR
        (b2n (bitsOf w.toNat 1 5 == 0))
    else if !bitOf w.toNat 0 && was then (s.wr CBUS_STATUS.COORDINATOR 0).plca false
    else s)

/-- LOG_CLEAR: the stranger log is emptied (R365). -/
def execLogClear (s : State) : Out :=
  .next (s.setup fun s => (List.range 8).foldl (fun s i => s.wrs [(CBUS_LOG_MAC_LO.MAC i, 0), (CBUS_LOG_MAC_HI.MAC i, 0),
    (CBUS_LOG_MAC_HI.COUNT i, 0), (CBUS_LOG_TICK.TICK i, 0)]) s)

/-- MAC address of allow-list entry `n`. -/
def State.allowMac (s : State) (n : Nat) : Nat := s.rd (CBUS_ALLOW_MAC_LO.MAC n) + 2 ^ 32 * s.rd (CBUS_ALLOW_MAC_HI.MAC n)

def State.allowValid (s : State) (n : Nat) : Bool := s.flag (CBUS_ALLOW_CFG.VALID n)

/-- The engines a DRIVER entry covers (R362). -/
def State.covered (s : State) (n : Nat) : List Nat :=
  if s.rd (CBUS_ALLOW_CFG.ROLE n) = 0 then
    let e := s.rd (CBUS_ALLOW_CFG.ENGINE n)
    if s.flag (CBUS_ALLOW_CFG.PAIR n) then [e, e + 1] else [e]
  else []

/-- The PLCA node ID of the device: the one taken at the enable, else the one written. -/
def State.ownNode (s : State) : Nat := if s.cbusOn then s.light.nodeId else s.rd CBUS_CFG.NODE_ID

/-- The first check of R363 that entry `n` fails. -/
def State.allowCode (s : State) (n : Nat) : Nat :=
  let others := (List.range 32).filter fun m => m != n && s.allowValid m
  if others.any fun m => s.allowMac m == s.allowMac n then 0x58
  else if s.rd (CBUS_ALLOW_CFG.NODE_ID n) = s.ownNode ∨
      (others.any fun m => s.rd (CBUS_ALLOW_CFG.NODE_ID m) == s.rd (CBUS_ALLOW_CFG.NODE_ID n)) then 0x59
  else if others.any fun m => (s.covered m).any fun e => (s.covered n).contains e then 0x5A
  else if s.rd (CBUS_ALLOW_CFG.ROLE n) = 3 ∨
      (s.rd (CBUS_ALLOW_CFG.ROLE n) = 0 ∧ s.flag (CBUS_ALLOW_CFG.PAIR n) ∧ s.rd (CBUS_ALLOW_CFG.ENGINE n) % 2 = 1) then 0x5B
  else 0

/-- ALLOW_VALID: a write of CBUS_ALLOW_CFG entry `n` (R363). -/
def execAllowValid (n : Nat) (w : Word) (s : State) : Out :=
  .next (s.setup fun s =>
    if 32 ≤ n then s
    else
      let x := w.toNat
      let s := s.wrs [(CBUS_ALLOW_CFG.VALID n, 0), (CBUS_ALLOW_CFG.ROLE n, bitsOf x 1 2), (CBUS_ALLOW_CFG.NODE_ID n, bitsOf x 3 5),
        (CBUS_ALLOW_CFG.ENGINE n, bitsOf x 8 5), (CBUS_ALLOW_CFG.PAIR n, bitsOf x 13 1), (CBUS_ALLOW_CFG.MSG_OK n, bitsOf x 14 1)]
      if bitOf x 0 then
        let c := s.allowCode n
        (s.wrs [(CBUS_STATUS.CFG_CODE, c), (CBUS_ALLOW_CFG.VALID n, b2n (c == 0))]).trySwitch
      else s.trySwitch)

/-! ### Received frames (R357, R364 to R366) -/

/-- The valid entry with this source address. -/
def State.listed (s : State) (mac : Nat) : Option Nat :=
  (List.range 32).find? fun n => s.allowValid n && s.allowMac n == mac % 2 ^ 48

/-- A stranger is dropped, counted and logged (R364, R365). -/
def State.stranger (s : State) (mac : Nat) : State :=
  let s := s.bump CBUS_DROPS.STRANGER 1
  let used := (List.range 8).filter fun i => s.rd (CBUS_LOG_MAC_HI.COUNT i) != 0
  match used.find? fun i => s.rd (CBUS_LOG_MAC_LO.MAC i) + 2 ^ 32 * s.rd (CBUS_LOG_MAC_HI.MAC i) == mac % 2 ^ 48 with
  | some i => s.bump (CBUS_LOG_MAC_HI.COUNT i) 1
  | none =>
    match (List.range 8).find? fun i => !used.contains i with
    | some i => (s.wrs [(CBUS_LOG_MAC_LO.MAC i, mac % 2 ^ 32), (CBUS_LOG_MAC_HI.MAC i, mac / 2 ^ 32),
        (CBUS_LOG_MAC_HI.COUNT i, 1), (CBUS_LOG_TICK.TICK i, s.tickNo % 2 ^ 32)]).raise 289
    | none => s.bump CBUS_DROPS.LOG_FULL 1

/-- A frame received without error: `ok` where its EtherType, VERSION and LENGTH fit its TYPE; `role` accepts its TYPE from
the entry; `act` is what an accepted frame does (R364). -/
def State.frameRx (s : State) (mac : Nat) (ok : Bool) (role : State → Nat → Bool) (act : Nat → State → State) : State :=
  if !s.cbusOn then s
  else match s.listed mac with
  | none => s.stranger mac
  | some n => if ok && role s n then act n s else s.bump CBUS_DROPS.REFUSED 1

/-- A frame of a driver board about engine `e`. -/
def driverOf (e : Nat) (s : State) (n : Nat) : Bool := (s.covered n).contains e

/-- STRANGER: a frame from a source in no valid entry (R364, R365). -/
def execStranger (mac : Nat) (s : State) : Out :=
  .next (s.inService fun s => s.frameRx mac false (fun _ _ => false) fun _ s => s)

/-- A table is withdrawn from the coming SWITCH (R367). -/
def State.withdraw (s : State) (e : Nat) : State :=
  let s := s.setLight e fun l => { l with staged := l.staged.map fun g => { g with failed := true, due := false } }
  ((s.bump CBUS_DELIVERY.TABLE_FAILS 1).raise 291).trySwitch

/-- TABLE_ACK (R367): RESULT 0 stored, 1 refused. -/
def execTableAck (mac : Nat) (ok : Bool) (e result id : Nat) (s : State) : Out :=
  .next (s.inService fun s => s.frameRx mac ok (driverOf e) fun _ s =>
    match (s.lightOf e).staged with
    | some g =>
      if g.table.id = id ∧ g.failed = false ∧ g.acked = false then
        if result = 0 then
          (s.setLight e fun l => { l with staged := some { g with acked := true, due := false } }).trySwitch
        else if result = 1 then s.withdraw e
        else s
      else s
    | none => s)

/-- SWITCH_ACK (R369): RESULT 0 applies at T, 1 late, 2 no such table; answers to earlier SWITCHes are ignored. -/
def execSwitchAck (mac : Nat) (ok : Bool) (e result id : Nat) (s : State) : Out :=
  .next (s.inService fun s => s.frameRx mac ok (driverOf e) fun _ s =>
    match s.light.switch with
    | some w =>
      if w.id = id ∧ result ≤ 2 then
        { s with light := { s.light with switch := some { w with
          entries := w.entries.map fun x => if x.engine = e ∧ x.answer.isNone then { x with answer := some result } else x } } }
      else s
    | none => s)

/-- CBUS_STATUS: a driver board's STATUS frame (R370). -/
def execCbusStatus (mac : Nat) (ok : Bool) (e flags id : Nat) (s : State) : Out :=
  .next (s.inService fun s => s.frameRx mac ok (driverOf e) fun n s =>
    let s := s.wrs [(CBUS_ALLOW_DATA.VALUE n, bitsOf flags 1 1), (CBUS_ALLOW_DATA.TICK n, s.tickNo % 65536)]
    let l := s.lightOf e
    let out := match s.light.switch with | some w => w.entries.any fun x => x.engine == e | none => false
    match l.force with
    | none =>
      -- a lost board that never held a table: the engine's plan is staged
      if s.flag (LGT_ENG_STATUS.DRIVER_LOST e) && !out && l.staged.isNone then (s.stage e true).bump CBUS_DELIVERY.RESYNCS 1 else s
    | some t =>
      if (bitOf flags 0 || id != t.id) && !out && l.staged.isNone then
        let s := s.setLight e fun l => { l with
          staged := some { table := { t with id := l.nextId % 65536, models := [] }, order := s.light.nextOrder }, nextId := l.nextId + 1 }
        let s := { s with light := { s.light with nextOrder := s.light.nextOrder + 1 } }
        (s.bump CBUS_DELIVERY.RESYNCS 1).notePending e
      else s)

/-- AMBIENT: illuminance in 1/256 lux (R366). -/
def execAmbient (mac : Nat) (ok : Bool) (lux : Nat) (s : State) : Out :=
  .next (s.inService fun s => s.frameRx mac ok (fun s n => s.rd (CBUS_ALLOW_CFG.ROLE n) == 1) fun n s =>
    s.wrs [(CBUS_ALLOW_DATA.VALUE n, bitsOf lux 8 16), (CBUS_ALLOW_DATA.TICK n, s.tickNo % 65536)])

/-- CBUS_MSG: a MSG frame naming an interrupt source (R366). -/
def execCbusMsg (mac : Nat) (ok : Bool) (source : Nat) (s : State) : Out :=
  .next (s.inService fun s => s.frameRx mac (ok && decide (320 ≤ source ∧ source ≤ 383))
    (fun s n => s.flag (CBUS_ALLOW_CFG.MSG_OK n)) fun _ s => s.msgDoorbell source)

/-- CBUS_RX_FAULT (R357): 0 a damaged frame, 1 a collision, 2 a BEACON received. -/
def execCbusRxFault (kind : Nat) (s : State) : Out :=
  .next (s.inService fun s =>
    if !s.cbusOn then s
    else match kind with
    | 0 => s.bump CBUS_ERRORS.FCS 1
    | 1 => if s.flag CBUS_STATUS.PLCA_ACTIVE then (s.bump CBUS_ERRORS.COLLISIONS 1).raise 288 else s.bump CBUS_ERRORS.CSMA_COLL 1
    | 2 => if s.flag CBUS_STATUS.COORDINATOR then (s.bump CBUS_ERRORS.DUP_COORD 1).raise 288 else s
    | _ => s)

/-- PLCA_ACTIVE_CHANGE (R356). -/
def execPlcaActiveChange (active : Bool) (s : State) : Out :=
  .next (s.inService fun s => if s.cbusOn then s.plca active else s)

/-! ### Delivery (R367, R368, R371) -/

/-- RETRY_MS in ns. -/
def State.retryNs (s : State) : Nat := 1000000 * max 1 (s.rd CBUS_TIMING.RETRY_MS)

/-- TABLE_RETRY: RETRY_MS has passed without a TABLE_ACK for engine `e` (R367). -/
def execTableRetry (e : Nat) (s : State) : Out :=
  .next (s.inService fun s =>
    match (s.lightOf e).staged with
    | some g =>
      if s.cbusOn && (s.boardOf e).isSome && !g.acked && !g.failed && !g.due && decide (0 < g.sends) &&
          decide (g.lastSend + s.retryNs ≤ s.now) then
        if g.sends < max 1 (s.rd CBUS_TIMING.TABLE_TRIES) then
          s.setLight e fun l => { l with staged := some { g with due := true } }
        else s.withdraw e
      else s
    | none => s)

/-- SWITCH_RETRY: RETRY_MS has passed with boards unanswered, before edge T - 1 (R368). -/
def execSwitchRetry (s : State) : Out :=
  .next (s.inService fun s =>
    match s.light.switch with
    | some w =>
      let left := (w.tick + 2 ^ 32 - s.tickNo % 2 ^ 32) % 2 ^ 32
      if s.cbusOn && !w.due && (w.entries.any fun x => x.answer.isNone) && decide (w.lastSend + s.retryNs ≤ s.now) &&
          decide (1 < left ∧ left < 2 ^ 31) then
        { s with light := { s.light with switch := some { w with due := true } } }
      else s
    | none => s)

/-- Big-endian bytes (R6). -/
def beBytes (n k : Nat) : List Byte := (leBytes n k).reverse

/-- The body of a TABLE frame (R361). -/
def tableBody (e : Nat) (t : BoardTable) : List Byte :=
  beBytes e 1 ++ beBytes 0 1 ++ beBytes t.id 2 ++
    (List.range 3).flatMap fun b =>
      let mask := ((List.range 9).map fun k => b2n (fires (t.strs.getD (9 * b + k) {}).state) * 2 ^ k).sum
      beBytes mask 2 ++ (List.range 9).flatMap fun k =>
        let p := t.strs.getD (9 * b + k) {}
        (List.range 8).flatMap fun lv => beBytes (if p.state = stAbsent then 0 else p.codes.getD lv 0) 2

/-- The body of a SWITCH frame (R360). -/
def switchBody (w : Switch) : List Byte :=
  beBytes w.id 2 ++ beBytes w.tick 4 ++ beBytes w.entries.length 1 ++ beBytes 0 1 ++
    w.entries.flatMap fun x => beBytes x.engine 1 ++ beBytes 0 1 ++ beBytes x.table.id 2

/-- A frame goes out with the device's frame count (R359). -/
def State.sendFrame (s : State) (dst kind : Nat) (body : List Byte) : State :=
  { s with light := { s.light with
    frames := s.light.frames ++ [{ dst := dst, kind := kind, seq := s.light.seq, body := body }]
    seq := (s.light.seq + 1) % 65536 } }

/-- Tables waiting to be sent: (sent again, order, engine) (R371). -/
def State.tablesDue (s : State) : List (Bool × Nat × Nat) :=
  (List.range 32).filterMap fun e =>
    match (s.lightOf e).staged with
    | some g => if g.due && !g.acked && !g.failed && (s.boardOf e).isSome then some (g.again, g.order, e) else none
    | none => none

def tableBefore (a b : Bool × Nat × Nat) : Bool :=
  (a.1 && !b.1) || (a.1 == b.1 && (decide (a.2.1 < b.2.1) || (a.2.1 == b.2.1 && decide (a.2.2 < b.2.2))))

def bestTable : List (Bool × Nat × Nat) → Option (Bool × Nat × Nat)
  | [] => none
  | a :: r => match bestTable r with
    | none => some a
    | some b => if tableBefore b a then some b else some a

/-- CBUS_TRANSMIT: in its transmit opportunity the device sends its highest-ranked waiting frame (R371). -/
def execCbusTransmit (s : State) : Out :=
  .next (s.inService fun s =>
    if !s.cbusOn then s
    else
      let sw := s.light.switch.filter (·.due)
      match sw with
      | some w =>
        let s := s.sendFrame (2 ^ 48 - 1) 3 (switchBody w)
        { s with light := { s.light with switch := some { w with due := false, lastSend := s.now } } }
      | none =>
        match bestTable s.tablesDue with
        | some (_, _, e) =>
          match (s.lightOf e).staged, s.boardOf e with
          | some g, some n =>
            let s := s.sendFrame (s.allowMac n) 1 (tableBody e g.table)
            s.setLight e fun l => { l with staged := some { g with due := false, sends := g.sends + 1, lastSend := s.now } }
          | _, _ => s
        | none => s)

end Sys2Proof.Machine
end

