-- ==== Sys2Proof/Machine/Commits.lean ====
section
/-! DEFINITION. COMMIT, GUARD_SET, GUARD_COMMIT and ENGINE_COMMIT: their checks and their admission (R136 to R148, R169,
R181, R199, R208, R240, R247). -/

namespace Sys2Proof.Machine

/-! ### Admission and supersession (R86, R139, R148, R247) -/

/-- Two commits are of one canvas's surface commits, one canvas's guarded commits, or one engine. -/
def CommitBody.same : CommitBody → CommitBody → Bool
  | .canvas a .., .canvas b .. => a == b
  | .guarded a .., .guarded b .. => a == b
  | .engine a .., .engine b .. => a == b
  | _, _ => false

/-- The commit that an admission of `b` supersedes. -/
def State.superseded (s : State) (b : CommitBody) : Option WaitCommit := s.comp.waiting.find? fun w => w.body.same b

/-- The waiting commits with one more, in place of the one it supersedes. -/
def State.waitingWith (s : State) (w : WaitCommit) : List WaitCommit :=
  (s.comp.waiting.filter fun x => !x.body.same w.body) ++ [w]

/-- The commit that an origin would have admitted. -/
def State.newCommit (s : State) (o : Origin) (b : CommitBody) : WaitCommit :=
  let old := s.superseded b
  { id := s.comp.nextId, origin := o, body := b,
    owners := (o.reel :: (match old with | some w => w.owners | none => [])).eraseDups,
    defers := match old with | some w => w.defers | none => 0 }

def State.addWaiting (s : State) (w : WaitCommit) : State :=
  { s with comp := { s.comp with waiting := s.waitingWith w, nextId := s.comp.nextId + 1 } }

/-- LIT fences that wait for commit `old` wait for commit `new` in its place. -/
def State.swapWaits (s : State) (old new : Nat) : State :=
  let swap (f : PendingFence) : PendingFence := { f with waits := f.waits.map fun i => if i = old then new else i }
  { s with hif := { s.hif with fences := s.hif.fences.map swap } }

/-- The commit that commit `new` supersedes, if any, ends. -/
def State.endSuperseded (s : State) (old : Option WaitCommit) (new : Nat) : State :=
  match old with
  | none => s
  | some x => (s.swapWaits x.id new).outcome x.origin cSuperseded 0

/-- A commit is admitted: it waits, carries its batches, and supersedes an earlier one (R86, R139). -/
def State.enqueueCommit (s : State) (w : WaitCommit) (batches : List Nat) : State :=
  ((s.addWaiting w).carry batches w.id).endSuperseded (s.superseded w.body) w.id

/-- A canvas's commit is rejected: source 209 + 4c (R152). -/
def State.rejectOn (s : State) (c code detail : Nat) : Res := .done (s.raiseWith (209 + 4 * c) code) code detail

/-- The ledger rejects a canvas's descriptor (R52). -/
def State.ledgerReject (s : State) (c reel : Nat) (x : Nat × Nat) : Res :=
  (s.showReject x.1 x.2 reel).rejectOn c x.1 x.2

/-! ### COMMIT (R136, R137) -/

def cLbShort : Nat := 0x20
def cNotReadyLimit : Nat := 0x21
def cCanvasArea : Nat := 0x23
def cLayerCount : Nat := 0x24
def cLayerGeometry : Nat := 0x25
def cGuardConflict : Nat := 0x26
def cScaleRatio : Nat := 0x27
def cScalerBinding : Nat := 0x28
def cLedgerGuard : Nat := 0x16

/-- The slots whose shadow names canvas `c`, with their settings (R127). -/
def State.carriedSlots (s : State) (c : Nat) : List (Nat × Layer) :=
  ((List.range 128).map fun n => (n, s.shadowLayer n)).filter fun p => p.2.canvas == c

/-- The scaler shadows that a commit of canvas `c` carries (R161, R167). -/
def State.carriedScalers (s : State) (c : Nat) : List (Nat × ScalerShadow) :=
  ((List.range 32).map fun n => (n, s.sclShadow n)).filter fun p => p.2.canvas == c

/-- Order 2 of R137 for one carried slot. -/
def State.layerGeometryBad (s : State) (cfg : CanvasCfg) (l : Layer) : Bool :=
  let f := s.surface l.surface
  decide (f.width < l.srcX + l.srcW) || decide (f.height < l.srcY + l.srcH) ||
    (clipRect l.dstX l.dstY l.dstW l.dstH cfg.width cfg.height).area == 0

/-- LB_SHORT of R169, order 2. -/
def lbShort (width : Nat) (l : Layer) : Bool :=
  let w := l.wOut width
  match l.mode with
  | 1 => decide (4096 < w)
  | 3 => decide (4096 * l.count < w)
  | _ => decide (8192 < w)

/-- Enabled scaled explicit layers, by slot, once the commits `ws` are taken: those the last commit of a slot's canvas
carries, else those in force. -/
def State.explicitAfter (s : State) (ws : List WaitCommit) : List (Nat × Layer) :=
  let carried (n : Nat) : Option Layer := ws.foldl (fun r w => match w.body with
    | .canvas _ _ ls _ _ => ((ls.find? fun p => p.1 == n).map (·.2)).or r
    | _ => r) none
  (((List.range 128).map fun n => (n, (carried n).getD (s.layerInForce n))).filter fun p =>
    p.2.enable && p.2.scaled && p.2.mode != 0)

/-- The slot that fails order 3 of R169, a carried one before any other. -/
def State.bindingFail (s : State) (w : WaitCommit) (carried : List (Nat × Layer)) (scalers : List (Nat × ScalerShadow)) :
    Option Nat :=
  let all := s.explicitAfter (s.waitingWith w)
  let reserved (n : Nat) : Bool := match scalers.find? fun p => p.1 == n with | some p => p.2.reserve | none => (s.sclForce n).reserve
  let bad (p : Nat × Layer) : Bool :=
    p.2.names.any fun n => !reserved n || all.any fun q => q.1 != p.1 && q.2.names.contains n
  let free (p : Nat × Layer) : Bool := p.2.names.any fun n => !reserved n
  ((all.find? fun p => bad p && carried.any fun q => q.1 == p.1).or (all.find? free)).map (·.1)

/-- A surface is neither ready nor being written (R137, order 6). -/
def Surface.idle (f : Surface) : Bool := !f.ready && f.writes == 0

/-- Orders 1 to 6 of R137: the first code that applies, with its DETAIL. -/
def State.commitFails (s : State) (w : WaitCommit) (c : Nat) (cfg : CanvasCfg) (slots : List (Nat × Layer))
    (scalers : List (Nat × ScalerShadow)) (rejectIdle : Bool) : Option (Nat × Nat) :=
  let on := slots.filter fun p => p.2.enable
  let scaled := on.filter fun p => p.2.scaled
  let area := ((List.range 8).map fun k =>
    let v := if k = c then cfg else s.costCanvasCfg s.comp.waiting k
    if v.enable then v.width * v.height else 0).sum
  if on.any fun p => (s.surface p.2.surface).width == 0 then some (cSurfaceFormat, 0)
  else if (on.any fun p => s.layerGeometryBad cfg p.2) || (cfg.enable && (cfg.width == 0 || cfg.height == 0)) then
    some (cLayerGeometry, 0)
  else if 16 < on.length then some (cLayerCount, 0)
  else if 201326592 < area then some (cCanvasArea, 0)
  else
  match scaled.find? fun p => !p.2.ratioOk with
  | some p => some (cScaleRatio, p.1)
  | none =>
  match scaled.find? fun p => lbShort cfg.width p.2 with
  | some p => some (cLbShort, p.1)
  | none =>
  match s.bindingFail w scaled scalers with
  | some n => some (cScalerBinding, n)
  | none =>
  if rejectIdle && on.any fun p => (s.surface p.2.surface).idle then some (cNotReadyLimit, 0) else none

def commitBody (r : Nat) (d : Desc) (s : State) : Res :=
  let c := dIndex d
  s.checked (s.r82 d [(8, 0, 1)] (decide (c < 8)) true false false) fun _ =>
    let cfg := s.shadowCanvas c
    let slots := s.carriedSlots c
    let scalers := s.carriedScalers c
    let o := s.originOf r d
    let probe := s.newCommit o (.canvas c cfg slots [] scalers)
    let batches := s.carriable false c ((s.superseded probe.body).map (·.id))
    let w := { probe with body := .canvas c cfg slots batches scalers }
    match s.commitFails w c cfg slots scalers (dB d 8 0) with
    | some x => s.rejectOn c x.1 x.2
    | none =>
      match s.admits (s.waitingWith w) s.comp.shadowR c with
      | some x => s.ledgerReject c r x
      | none => .admitted (s.enqueueCommit w batches)

/-- COMMIT (R136, R137). -/
def execCommit (r : Nat) (s : State) : Out := .next (s.descriptor r 0x22 commitBody)

/-! ### Guarded reservations and overlays (R145 to R148, R181) -/

def reservationOf (d : Desc) : Reservation :=
  { x := dF d 8 0 16, y := dF d 10 0 16, w := dF d 12 0 16, h := dF d 14 0 16, format := dF d 16 0 4, fallback := dF d 16 4 2,
    atlasBytes := dF d 24 0 32, objPixels := dF d 28 0 32, colour := ⟨dF d 32 0 16, dF d 34 0 16, dF d 36 0 16⟩ }

/-- The reservation reserves something. -/
def Reservation.some_ (v : Reservation) : Bool := v.w != 0 && v.h != 0

/-- The guarded objects of canvas `c` once some batches are applied: their pixels, and their atlas bytes (R181). -/
def State.guardedLoad (s : State) (c : Nat) (orders : List Nat) : Nat × Nat :=
  let bs := s.obj.batches.filter fun b => b.guarded && (b.taken || orders.contains b.order)
  let on := ((withBatches s.liveCtxs bs).map (·.2)).filter fun x => cxVG x && cxCanvas x == c
  ((on.map fun x => cxW x * cxH x).sum,
   (on.map fun x => cxW x * cxH x * bpp2 (s.surface (s.atlas (cxAtlas x)).surface).format / 2).sum)

/-- R148 against a reservation: an overlay, with the guarded objects that go with it. -/
def State.fitsReservation (s : State) (v : Reservation) (o : Overlay) (load : Nat × Nat) : Bool :=
  let v := if v.some_ then v else { v with atlasBytes := 0, objPixels := 0 }
  decide (load.1 ≤ v.objPixels) && decide (load.2 ≤ v.atlasBytes) &&
    (!o.enable || (v.some_ && decide (v.x ≤ o.dstX) && decide (v.y ≤ o.dstY) && decide (o.dstX + o.w ≤ v.x + v.w) &&
      decide (o.dstY + o.h ≤ v.y + v.h) && decide (bpp2 (s.surface o.surface).format ≤ bpp2 v.format)))

def State.overlayInForce (s : State) (c : Nat) : Overlay := Tbl.get (fun _ => {}) s.comp.latched.overlays c

/-- R146: the overlay in force, or an admitted GUARD_COMMIT, would not fit. -/
def State.guardConflict (s : State) (c : Nat) (v : Reservation) : Bool :=
  !s.fitsReservation v (s.overlayInForce c) (s.guardedLoad c []) ||
    s.comp.waiting.any fun w => match w.body with
      | .guarded k o _ b => k == c && !s.fitsReservation v o (s.guardedLoad c b)
      | _ => false

/-- The accepted reservations with that of canvas `c` replaced; a removed one leaves nothing. -/
def State.resWith (s : State) (c : Nat) (v : Reservation) : Tbl Reservation :=
  Tbl.put (fun _ => {}) c (if v.some_ then v else {}) s.comp.shadowR

def guardSetBody (r : Nat) (d : Desc) (s : State) : Res :=
  let c := dIndex d
  let v := reservationOf d
  s.checked (s.r82 d [(8, 0, 64), (16, 0, 6), (24, 0, 32), (28, 0, 32), (32, 0, 48)]
      (decide (c < 8) && decide (v.format < 8) && v.fallback != 3) true false false) fun _ =>
    let cv := s.shadowCanvas c
    if v.some_ ∧ (cv.width < v.x + v.w ∨ cv.height < v.y + v.h) then s.rejectOn c cLayerGeometry 0
    else
      match s.admits s.comp.waiting (s.resWith c v) c with
      | some x => s.ledgerReject c r x
      | none =>
        if s.guardConflict c v then s.rejectOn c cGuardConflict 0
        else
          let s := { s with comp := { s.comp with shadowR := s.resWith c v } }
          .done (s.wr (CMP_CV_STATE.RESERVED c) (b2n v.some_)) cDone 0

/-- GUARD_SET (R145, R146). -/
def execGuardSet (r : Nat) (s : State) : Out := .next (s.descriptor r 0x23 guardSetBody)

def overlayOf (d : Desc) : Overlay :=
  { enable := dB d 8 0, surface := dF d 12 0 12, srcX := dF d 16 0 16, srcY := dF d 18 0 16, dstX := dF d 20 0 16,
    dstY := dF d 22 0 16, w := dF d 24 0 16, h := dF d 26 0 16,
    col := colourOf (dF d 9 0 8) (dF d 10 0 8) (dF d 28 0 16) (dF d 30 0 16) (dF d 32 0 16) (dF d 34 0 16) }

def guardCommitBody (r : Nat) (d : Desc) (s : State) : Res :=
  let c := dIndex d
  let v := overlayOf d
  s.checked (s.r82 d [(8, 0, 2), (9, 0, 8), (10, 0, 3), (12, 0, 12), (16, 0, 96), (28, 0, 16), (30, 0, 48)]
      (decide (c < 8) && (v.col.blend == 0 || v.col.blend == 2) && v.col.matrix != 3) true false false) fun _ =>
    let f := s.surface v.surface
    if v.enable ∧ f.width = 0 then s.rejectOn c cSurfaceFormat 0
    else if v.enable ∧ (f.width < v.srcX + v.w ∨ f.height < v.srcY + v.h) then s.rejectOn c cLayerGeometry 0
    else
      let probe := s.newCommit (s.originOf r d) (.guarded c v (dB d 8 1) [])
      let batches := s.carriable true c ((s.superseded probe.body).map (·.id))
      if !s.fitsReservation (s.reservation c) v (s.guardedLoad c batches) then s.ledgerReject c r (cLedgerGuard, c)
      else .admitted (s.enqueueCommit { probe with body := .guarded c v (dB d 8 1) batches } batches)

/-- GUARD_COMMIT (R147, R148). -/
def execGuardCommit (r : Nat) (s : State) : Out := .next (s.descriptor r 0x24 guardCommitBody)

/-! ### ENGINE_COMMIT (R199, R208, R240, R247) -/

/-- The larger component difference of two points. -/
def pointStep (a b : Int × Int) : Nat := max (a.1 - b.1).natAbs (a.2 - b.2).natAbs

/-- Check 2 of R199. -/
def WarpCfg.steep (w : WarpCfg) (width height : Nat) : Bool :=
  ((List.range 37).any fun j => (List.range 64).any fun i => decide (2 * width < pointStep (w.point i j) (w.point (i + 1) j))) ||
    (List.range 36).any fun j => (List.range 65).any fun i =>
      decide (roundDivN (32 * height) 9 < pointStep (w.point i j) (w.point i (j + 1)))

/-- Check 3 of R199. -/
def WarpCfg.tilted (w : WarpCfg) : Bool :=
  (List.range 37).any fun j =>
    let ys := (List.range 65).map fun i => (w.point i j).2
    decide (7936 < ys.foldl max (ys.headD 0) - ys.foldl min (ys.headD 0))

/-- R199: the DETAIL of the first check that fails. -/
def State.warpFails (s : State) (ws : List WaitCommit) (e : Nat) (b : EngBundle) : Option Nat :=
  let v := b.warp
  let w := b.cfg.width
  let h := b.cfg.height
  let z := fun k => v.zones.getD k 0
  let src := v.cloneSrc
  let f := s.costBundle ws src
  let split (k : Nat) : Bool := (s.costBundle ws (2 * (k / 2))).cfg.split
  let isClone := (s.engine src).lat.warp.mode == 3 || (s.engine src).shadow.warp.mode == 3
  if v.mode = 1 ∧ (2 * w < v.wc ∨ 2 * h < v.hc) then some 0x701
  else if v.mode = 2 ∧ v.steep w h then some 0x702
  else if (v.mode = 1 ∨ v.mode = 2) ∧ v.tilted then some 0x703
  else if w < z 0 + z 1 ∨ h < z 2 + z 3 then some 0x704
  else if v.mode = 3 ∧ (src = e ∨ isClone ∨ (src % 2 = 1 ∧ split src = false)) then some 0x705
  else if v.mode = 3 ∧ (f.cfg.width ≠ w ∨ f.cfg.height ≠ h ∨ f.cfg.bands ≠ b.cfg.bands ∨ split src ≠ split e) then some 0x706
  else if v.mode = 3 ∧ s.engFenced src then some 0x707
  else none

/-- R208: the code and DETAIL of the first check that fails. -/
def spindleFails (b : EngBundle) : Option (Nat × Nat) :=
  let c := b.cfg
  if b.warp.mode = 3 then none
  else if c.depth < c.planes ∨ c.planes + 4 < c.depth then some (cBadField, 0x801)
  else if stackBytes < c.planeBase + planeFootprint c.width c.height c.bands c.planes then some (cBadAddress, 0x802)
  else if c.ditherLoaded ∧ stackBytes < c.ditherAddr + 8192 then some (cBadAddress, 0x803)
  else none

/-- The values that presets of a bundle are generated from (R244). -/
def presetArgs (a : CostArgs) (split : Bool) (b : EngBundle) : PresetArgs :=
  { bands := b.cfg.bands, w := b.cfg.width, h := b.cfg.height, np := b.cfg.planes, split := split, pmin := a.pmin, gap := a.gap,
    trp := a.trp }

/-- The valid variants of a set of tables, with their tables. -/
def State.setTables (s : State) (t : TwistSel) : List (Nat × Option TwistTable) :=
  ((List.range 8).filter fun c => bitOf t.valid c).map fun c => (c, s.twist (t.tables.getD c 0))

/-- Check 5 of R240: variant table `t` against variant 0. -/
def setMismatch (t t0 : TwistTable) : Bool := (List.range 3).any fun b => offBy1024 (t.top 0 b) (t0.top 0 b)

/-- Orders 2 to 5 of R240 for a set of tables. -/
def tablesFail (c : EngCfg) (split : Bool) (l : List (Nat × Option TwistTable)) : Option (Nat × Nat) :=
  let ts : List (Nat × TwistTable) := l.filterMap fun p => p.2.map fun t => (p.1, t)
  let tb := tBand split c.width c.height c.bands
  match l.find? fun p => p.2.isNone with
  | some p => some (0x37, p.1)
  | none =>
  match ts.find? fun p => p.2.bands != c.bands || p.2.planes != c.planes with
  | some p => some (0x38, p.1)
  | none =>
  match ts.findSome? fun p => (p.2.lateLoad tb).map fun i => p.1 * 256 + i with
  | some x => some (0x39, x)
  | none =>
  match ts with
  | [] => none
  | z :: _ => (ts.find? fun p => setMismatch p.2 z.2).map fun p => (0x3A, p.1)

/-- R240: the code and DETAIL of the first check that fails. -/
def State.twistFails (s : State) (ws : List WaitCommit) (e : Nat) (b : EngBundle) : Option (Nat × Nat) :=
  let split := (s.costBundle ws (2 * (e / 2))).cfg.split
  if e % 2 = 1 ∧ b.cfg.enable ∧ split = false then some (0x3C, 0)
  else if b.warp.mode = 3 ∨ b.cfg.enable = false then none
  else if b.sel.preset = 0 then tablesFail b.cfg split (s.setTables b.sel)
  else if (presetPlan (presetArgs s.costArgs split b) b.sel.preset).isNone then some (0x3B, 0)
  else none

/-- The plan of a bundle's presets, where it generates any. -/
def State.planFor (_ : State) (a : CostArgs) (split : Bool) (b : EngBundle) : Option (Nat × List (Nat × Nat)) :=
  if b.sel.preset = 0 ∨ b.warp.mode = 3 ∨ b.cfg.enable = false then none else presetPlan (presetArgs a split b) b.sel.preset

def engineCommitBody (r : Nat) (d : Desc) (s : State) : Res :=
  let e := dIndex d
  s.checked (s.r82 d [] (decide (e < 32)) true (s.engFenced e) false) fun _ =>
    let b := { (s.engine e).shadow with plan := none, matrix := none, seedLoad := none }
    let w := s.newCommit (s.originOf r d) (.engine e b)
    let ws := s.waitingWith w
    match s.warpFails ws e b with
    | some x => .done s cBadField x
    | none =>
    match spindleFails b with
    | some x => .done s x.1 x.2
    | none =>
    match s.twistFails ws e b with
    | some x => .done s x.1 x.2
    | none =>
    match s.admits ws s.comp.shadowR e with
    | some x => .done (s.showReject x.1 x.2 r) x.1 x.2
    | none =>
      let split := (s.costBundle ws (2 * (e / 2))).cfg.split
      .admitted (s.enqueueCommit { w with body := .engine e { b with plan := s.planFor s.costArgs split b } } [])

/-- ENGINE_COMMIT (R247). -/
def execEngineCommit (r : Nat) (s : State) : Out := .next (s.descriptor r 0x33 engineCommitBody)

end Sys2Proof.Machine
end

