-- ==== Sys2Proof/Machine/Warp.lean ====
section
/-! DEFINITION. Warp stages and Spindles at work: engine rows, planes, histograms, the staple class and the dither matrix
(R186 to R226). -/

namespace Sys2Proof.Machine

/-! ### One engine pixel (R190 to R198) -/

/-- The canvas word of a pixel of buffer `f` (R122). -/
def State.canvasWordAt (s : State) (cfg : CanvasCfg) (f x y : Nat) : Nat :=
  s.memNum (cfg.base + f * 4 * cfg.width * cfg.height + 4 * (y * cfg.width + x)) 4

/-- A burst of kind `k` that `n` bytes at `a` meet was lost (R411). -/
def State.lostAt (s : State) (k a n : Nat) : Bool :=
  s.stk.lost.any fun p => p.1 == k && decide (a / 32 ≤ p.2 / 32) && decide (p.2 / 32 ≤ (a + n - 1) / 32)

/-- The sample of the warp stage of port `p`: 0 for an UNMAPPED engine and for a disabled canvas, and
every code of a lost burst 0 (R124, R192, R411). -/
def State.warpSample (s : State) (p : Nat) (v : WarpCfg) (cfg : CanvasCfg) (f w h x y : Nat) : Nat × Nat × Nat :=
  if (v.mode = 1 ∨ v.mode = 2) ∧ cfg.enable then
    let q := meshPos v.point w h x y
    let word (a b : Nat) : Nat :=
      if s.lostAt (16 + p) (cfg.base + f * 4 * cfg.width * cfg.height + 4 * (b * cfg.width + a)) 4 then 0 else s.canvasWordAt cfg f a b
    let ch (k : Nat) := bicubic (fun a b => bitsOf (word a b) (10 * k) 10) cfg.width cfg.height q.1 q.2
    (ch 0, ch 1, ch 2)
  else (0, 0, 0)

/-- out[b] of an engine pixel, from its sample (R194 to R198). -/
def WarpCfg.pixel (v : WarpCfg) (w h x y : Nat) (p : Nat × Nat × Nat) : Nat × Nat × Nat :=
  let ramp (k : Nat) : Nat → Nat := rampEntry (v.ramps.getD k 0) fun i => v.loaded.getD (256 * k + i) 0
  let edges := [(x, 0), (w - 1 - x, 1), (y, 2), (h - 1 - y, 3)].map fun q => (q.1, v.zones.getD q.2 0, ramp q.2)
  let g := saddleGain edges (65535, 0)
  let out (b : Nat) := liftOut (v.steps.getD b 0) v.liftN g.2 (roundDivN (matrixOut v.matrix b p.1 p.2.1 p.2.2 * g.1) 65535)
  (out 0, out 1, out 2)

/-! ### One row (R203, R211 to R218, R223) -/

/-- The matrix entry a bundle dithers with. -/
def EngBundle.matrixAt (b : EngBundle) (i : Nat) : Nat := (b.matrix.getD builtinMatrix).getD i 0

/-- The stored code of bank `b` (R211). -/
def EngBundle.code (g : EngBundle) (state b x y out : Nat) : Nat :=
  let d := g.cfg.depth - g.cfg.planes
  spinS out g.cfg.planes d (spinQ g.cfg.ditherOn d (g.matrixAt (ditherIndex state b x y)))

/-- A byte from eight bits, bit 0 first. -/
def packBits (l : List Nat) : Byte := BitVec.ofNat 8 ((l.zipIdx.map fun p => p.1 * 2 ^ p.2).sum)

/-- A row of plane `k` from the row's codes. -/
def planeRow (k : Nat) (codes : List Nat) : List Byte :=
  (List.range (codes.length / 8)).map fun i => packBits (((codes.drop (8 * i)).take 8).map fun c => bitsOf c k 1)

/-- The frame that the Spindles write in this tick is frame N + 1, in buffer (N + 1) mod 2 (R20, R21). -/
def State.writeBuf (s : State) : Nat := (s.tickNo + 1) % 2
def State.litBuf (s : State) : Nat := s.tickNo % 2

/-- Engine row `y` is worked: its pixels are formed, coded, written plane by plane, and counted. -/
def State.workRow (s : State) (e y : Nat) : State :=
  let g := s.engine e
  let c := g.spin.cfg
  let w := c.width
  let h := c.height
  let hb := h / c.bands
  let beta := y / hb
  let cfg := Tbl.get (fun _ => {}) s.comp.composing.canvases g.spin.warp.canvas
  let px := (List.range w).map fun x => g.spin.warp.pixel w h x y (s.warpSample (e / 2) g.spin.warp cfg s.writeBuf w h x y)
  let state := s.rd (SPN_LFSR.STATE e)
  let bank (b : Nat) (p : Nat × Nat × Nat) : Nat := match b with | 0 => p.1 | 1 => p.2.1 | _ => p.2.2
  let codes (b : Nat) : List Nat := (px.zipIdx).map fun p => g.spin.code state b p.2 y (bank b p.1)
  let bins := px.map fun p =>
    spinBin (spinLuma (g.luma.getD 0 0) (g.luma.getD 1 0) (g.luma.getD 2 0) p.1 p.2.1 p.2.2)
  let s := (List.range 3).foldl (fun s b =>
    let cs := codes b
    (List.range c.planes).foldl (fun s k =>
      s.store (planeAddr c.planeBase w h c.bands c.planes s.writeBuf b k beta (y % hb) 0) (planeRow k cs)) s) s
  s.setEngine e fun g => { g with
    row := some (y + 1), hist := bins.foldl (fun l i => setAt l (32 * beta + i) (· + 1)) g.hist }

/-- Every unit that row `y` of engine `e` reaches has been composed (R203). -/
def State.rowReady (s : State) (e y : Nat) : Bool :=
  let g := s.engine e
  let v := g.spin.warp
  let cfg := Tbl.get (fun _ => {}) s.comp.composing.canvases v.canvas
  if (v.mode = 1 ∨ v.mode = 2) ∧ cfg.enable then
    let r := v.reach cfg.height (meshV y g.spin.cfg.height / 65536)
    (List.range (cfg.height / 8)).all fun u => !(decide (r.1 ≤ 8 * u + 7) && decide (8 * u ≤ r.2)) || s.comp.done.contains (v.canvas, u)
  else true

/-- The engine row that the warp stage of port `p` works next: the one with the lower ratio y / h, engine 2p first on equal
ratios (R203). -/
def State.nextRow (s : State) (p : Nat) : Option (Nat × Nat) :=
  let left (e : Nat) : Option (Nat × Nat) :=
    (s.engine e).row.bind fun y => if y < (s.engine e).spin.cfg.height then some (e, y) else none
  match left (2 * p), left (2 * p + 1) with
  | some a, some b =>
    if b.2 * (s.engine a.1).spin.cfg.height < a.2 * (s.engine b.1).spin.cfg.height then some b else some a
  | some a, none => some a
  | none, b => b

/-- WARP_ROW: the warp stage of port `p` works its next engine row once its canvas rows have been written; `waited` is how
many microseconds it waited for them (R203). -/
def execWarpRow (p waited : Nat) (s : State) : Out :=
  .next (s.inService fun s =>
    if p < 16 then
      match s.nextRow p with
      | some (e, y) =>
        if s.rowReady e y then
          let s := ((s.workRow e y).bump (CNV_PORT_STATS.STALL_US p) waited).fencedReads
          { s with stk := { s.stk with lost := s.stk.lost.filter fun q => q.1 != 16 + p } }
        else s
      | none => s
    else s)

/-! ### Bands and frames (R219, R221, R223, R224) -/

/-- The histogram buffer's 2,048 bytes (R219). -/
def histBytes (hist : List Nat) : List Byte := (List.range 512).flatMap fun i => leBytes (hist.getD i 0) 4

/-- The frame is complete: its histograms are kept and written (R221, R224). -/
def State.frameComplete (s : State) (e : Nat) : State :=
  let g := s.engine e
  let c := g.spin.cfg
  let s := s.setEngine e fun g => { g with
    frameOk := true, histDone := g.hist, histGeom := (c.width, c.height, c.bands) }
  let s := s.bump (SPN_STATS.COMPLETE e) 1
  s.store (c.planeBase + 2 * planeBufBytes c.width c.height c.bands c.planes + 2048 * s.writeBuf) (histBytes g.hist)

/-- BAND_COMPLETE: the stack acknowledges the last write of band `band` of engine `e`'s frame; `stalled` is how many
microseconds the Spindle waited for write service (R221). -/
def execBandComplete (e band stalled : Nat) (s : State) : Out :=
  .next (s.inService fun s =>
    let g := s.engine e
    let c := g.spin.cfg
    let worked : Bool := match g.row with | some y => decide ((band + 1) * (c.height / c.bands) ≤ y) | none => false
    if e < 32 ∧ band < c.bands ∧ worked ∧ !g.acked.contains band ∧ !g.lostBands.contains band then
      let s := (s.setEngine e fun g => { g with acked := band :: g.acked }).bump (SPN_PORT_STATS.WRITE_STALL_US (e / 2)) stalled
      if (s.engine e).acked.length = c.bands then s.frameComplete e else s
    else s)

/-! ### Tick edges (R204, R213, R216, R222) -/

/-- The Spindle works a frame of the engine: it exists, is enabled and not fenced, and is no clone (R201, R442). -/
def State.spins (s : State) (e : Nat) (b : EngBundle) (split : Bool) : Bool :=
  (e % 2 == 0 || split) && b.cfg.enable && b.warp.mode != 3 && !s.engFenced e

/-- At a tick edge the frame being written is abandoned where it is not complete, and its complete bands are told to the
Flyer (R204, R222). -/
def State.closeFrame (s : State) (e : Nat) : State :=
  let g := s.engine e
  match g.row with
  | none => s.setEngine e fun g => { g with bandsOk := [] }
  | some y =>
    let s := s.setEngine e fun g => { g with bandsOk := g.acked }
    let s := if g.frameOk then s else s.bump (SPN_STATS.INCOMPLETE e) 1
    if y < g.spin.cfg.height then (s.bump (CNV_PORT_STATS.LATE (e / 2)) 1).raise 248 else s

/-- The matrix read of the latch point before: served, the loaded matrix governs, else the built-in one (R216). -/
def State.settleMatrix (s : State) (e : Nat) : State :=
  match (s.engine e).matrixRead with
  | none => s
  | some ok =>
    let s := s.setEngine e fun g => { g with
      matrixRead := none, lat := if ok then g.lat else { g.lat with matrix := none } }
    s.wr (SPN_CFG.MATRIX_FALLBACK e) (b2n (!ok))

/-- The next frame's writing begins, under the bundle in `spin`, which has just been taken (R203, R213, R222). -/
def State.openFrame (s : State) (e : Nat) (split : Bool) : State :=
  let g := s.engine e
  if s.tick.running && s.spins e g.spin split then
    let state := match g.spin.seedLoad with
      | some v => v
      | none => if g.spin.cfg.temporal then lfsrStep (s.rd (SPN_LFSR.STATE e)) else s.rd (SPN_LFSR.STATE e)
    (s.wr (SPN_LFSR.STATE e) state).setEngine e fun g => { g with
      row := some 0, acked := [], lostBands := [], hist := List.replicate 512 0, frameOk := false, lat := { g.lat with seedLoad := none },
      luma := [s.rd (SPN_LUMA_RG.WR e), s.rd (SPN_LUMA_RG.WG e), s.rd (SPN_LUMA_B.WB e)] }
  else s.setEngine e fun g => { g with row := none, acked := [], hist := [], frameOk := false }

/-! ### The staple class (R225, R226) -/

/-- THR[1] to THR[7] and WT[i] of an engine. -/
def State.thresholds (s : State) (e : Nat) : List Nat :=
  (List.range 7).map fun i => if i % 2 = 0 then s.rd (SPN_THR.THR_LO e (i / 2)) else s.rd (SPN_THR.THR_HI e (i / 2))
def State.binWeight (s : State) (e i : Nat) : Nat :=
  s.rd (match i % 4 with
    | 0 => SPN_WT.WT_0 e (i / 4) | 1 => SPN_WT.WT_1 e (i / 4) | 2 => SPN_WT.WT_2 e (i / 4) | _ => SPN_WT.WT_3 e (i / 4))

/-- The staple class of engine `e` is taken from the frame that its source, itself for no clone, has just written; `ok`
where that frame is complete; a mode change taking effect starts from class 0 (R226). -/
def State.takeClass (s : State) (e src : Nat) (ok modeDark : Bool) : State :=
  let old := s.rd (SPN_CLASS.CLASS e)
  let p := if modeDark then 0 else old
  let g := s.engine src
  let s :=
    if ok then
      let (w, h, bands) := g.histGeom
      let score := ((List.range bands).map fun b =>
        bandScore (s.binWeight e) (fun i => g.histDone.getD (32 * b + i) 0) w (h / bands)).foldl max 0
      let r := classOf score (s.rd (SPN_CLASS_CFG.HYST e)) (s.thresholds e) p
      s.wrs [(SPN_CLASS.CLASS e, r.2), (SPN_CLASS.STALE e, 0), (SPN_CLASS.RAW e, r.1), (SPN_CLASS.SCORE e, score)]
    else s.wrs [(SPN_CLASS.CLASS e, p), (SPN_CLASS.STALE e, 1)]
  if s.rd (SPN_CLASS.CLASS e) = old then s else s.raise (83 + 4 * (e / 2))

/-! ### Taking settings at a latch point (R200, R205, R213, R215) -/

/-- The Spindle part of a bundle that is taken: its seed and its matrix. -/
def State.takeSpindle (s : State) (e : Nat) (old b : EngBundle) : EngBundle :=
  let seed := if old.cfg.planes = 0 ∧ b.cfg.planes ≠ 0 ∨ old.cfg.seed ≠ b.cfg.seed ∨ old.cfg.temporal ≠ b.cfg.temporal
    then (if b.cfg.planes = 0 then none else some (seedOf e b.cfg.seed)) else old.seedLoad
  { b with
    seedLoad := seed,
    matrix := if b.cfg.ditherLoaded then some ((List.range 4096).map fun i => s.memNum (b.cfg.ditherAddr + 2 * i) 2 % 4096) else none }

/-- CNV_* and SPN_* show the settings in force (R186, R191). -/
def State.showBundle (s : State) (e : Nat) (b : EngBundle) : State :=
  let v := b.warp
  let cfg := Tbl.get (fun _ => {}) s.comp.latched.canvases v.canvas
  let reads := if (v.mode = 1 ∨ v.mode = 2) ∧ cfg.enable then some (v.canvas, cfg.width, cfg.height) else none
  let span (vs : List Int) (n : Nat) : Nat × Nat :=
    ((clampI (roundDiv (vs.foldl min (vs.headD 0)) 64) 0 ((n - 1 : Nat) : Int)).toNat,
     (clampI (-((32 - vs.foldl max (vs.headD 0)).fdiv 64)) 0 ((n - 1 : Nat) : Int)).toNat)
  let pts := (List.range 65).flatMap fun i => (List.range 37).map fun j => v.point i j
  let bx := match reads with | some (_, w, _) => span (pts.map Prod.fst) w | none => (0, 0)
  let by_ := match reads with | some (_, _, h) => span (pts.map Prod.snd) h | none => (0, 0)
  let s := s.wrs [(CNV_ENG_CFG.MODE e, v.mode), (CNV_ENG_CFG.CANVAS e, v.canvas), (CNV_ENG_CFG.CLONE_SRC e, v.cloneSrc),
    (CNV_ENG_BBOX_X.LO e, bx.1), (CNV_ENG_BBOX_X.HI e, bx.2), (CNV_ENG_BBOX_Y.LO e, by_.1), (CNV_ENG_BBOX_Y.HI e, by_.2),
    (CNV_ENG_ZONE_LR.ZONE_A e, v.zones.getD 0 0), (CNV_ENG_ZONE_LR.RAMP_A e, v.ramps.getD 0 0),
    (CNV_ENG_ZONE_LR.ZONE_B e, v.zones.getD 1 0), (CNV_ENG_ZONE_LR.RAMP_B e, v.ramps.getD 1 0),
    (CNV_ENG_ZONE_TB.ZONE_A e, v.zones.getD 2 0), (CNV_ENG_ZONE_TB.RAMP_A e, v.ramps.getD 2 0),
    (CNV_ENG_ZONE_TB.ZONE_B e, v.zones.getD 3 0), (CNV_ENG_ZONE_TB.RAMP_B e, v.ramps.getD 3 0),
    (CNV_ENG_LIFT_RG.STEP_R e, v.steps.getD 0 0), (CNV_ENG_LIFT_RG.STEP_G e, v.steps.getD 1 0),
    (CNV_ENG_LIFT_B.STEP_B e, v.steps.getD 2 0), (CNV_ENG_LIFT_B.LIFT_N e, v.liftN)]
  let s := (List.range 9).foldl (fun s k =>
    s.wr (if k % 2 = 0 then CNV_ENG_MATRIX.COEF_EVEN e (k / 2) else CNV_ENG_MATRIX.COEF_ODD e (k / 2)) (toField (v.matrix.getD k 0) 16)) s
  let clones := setBit (s.rd CNV_CLONES.CLONE) e (b2n (v.mode == 3))
  let c := b.cfg
  s.wrs [(CNV_CLONES.CLONE, clones), (SPN_CFG.PLANES e, c.planes), (SPN_CFG.DEPTH e, c.depth),
    (SPN_CFG.DITHER_ON e, b2n c.ditherOn), (SPN_CFG.DITHER_LOADED e, b2n c.ditherLoaded), (SPN_CFG.TEMPORAL e, b2n c.temporal),
    (SPN_CFG.SEED e, if c.planes = 0 then 0 else seedOf e c.seed), (SPN_PLANE_BASE.ADDR e, c.planeBase / 4096),
    (SPN_DITHER_ADDR.ADDR e, if c.ditherLoaded then c.ditherAddr / 64 else 0)]

end Sys2Proof.Machine
end

