-- ==== Sys2Proof/Machine/Compose.lean ====
section
/-! DEFINITION. Composition: from surface elements to canvas words, unit by unit (R54, R122 to R135, R141, R150, R155 to R165,
R173, R174, R180, R183). -/

namespace Sys2Proof.Machine

/-! ### Source pixels (R105, R106, R128 to R133) -/

/-- Chroma columns and rows of a luma pixel with their weights, vertically and horizontally (R130). -/
def chromaRows (f : Surface) (v : Bool) (y : Nat) : List (Nat × Nat) :=
  if f.format = 5 then [(4, y)]
  else
    let j := y / 2
    let k := if y % 2 = 0 then j - 1 else min (j + 1) (f.planeH 1 - 1)
    if v then [(3, j), (1, k)] else [(4, j)]
def chromaCols (f : Surface) (h : Bool) (x : Nat) : List Nat :=
  if h && x % 2 == 1 then [x / 2, min (x / 2 + 1) (f.planeW 1 - 1)] else [x / 2]

/-- Component `k` (0 Cb, 1 Cr) of chroma element (i, j) (R106). -/
def State.chromaElem (s : State) (f : Surface) (k i j : Nat) : Nat :=
  let e := s.element f 1 i j
  if f.format = 3 then bitsOf e (8 * k) 8 else bitsOf e (16 * k + 6) 10

/-- Upsampled chroma code (R130). -/
def State.chroma (s : State) (f : Surface) (col : ColourCfg) (k x y : Nat) : Nat :=
  let rows := chromaRows f col.chromaV y
  let at_ (i : Nat) : Nat := match rows with
    | [_, _] => ((rows.map fun r => r.1 * s.chromaElem f k i r.2).sum + 2) / 4
    | _ => (rows.map fun r => s.chromaElem f k i r.2).sum
  match chromaCols f col.chromaH x with
  | [a, b] => (at_ a + at_ b + 1) / 2
  | l => (l.map at_).sum

/-- The stack bytes that a pixel is formed from: (address, bytes). -/
def Surface.sources (f : Surface) (col : ColourCfg) (x y : Nat) : List (Nat × Nat) :=
  if f.layout = 2 then
    let b := f.blockOf x y
    [(f.base + 2 * b, 2), (f.base + f.headerArea + 1024 * b, 1024)]
  else
    (f.addr 0 x y, elemBytes f.format 0) ::
      (if isYc f.format then (chromaRows f col.chromaV y).flatMap fun r =>
        (chromaCols f col.chromaH x).map fun i => (f.addr 1 i r.2, elemBytes f.format 1) else [])

/-- 16-bit linear BT.2020 colour and source alpha of a pixel, before R133; A8 takes the given colour (R128 to R133). -/
def State.linearAt (s : State) (f : Surface) (pal : Nat → Nat) (col : ColourCfg) (pq x y : Nat) : Px :=
  let prim (p : Nat × Nat × Nat) (a : Nat) : Px :=
    let q := if col.primaries = 0 then toBt2020 p.1 p.2.1 p.2.2 else p
    { r := q.1, g := q.2.1, b := q.2.2, a := a }
  let lin (m v : Nat) : Nat := linear16 col.transfer pq v m
  let word8 (e : Nat) : Px := prim (lin 255 (bitsOf e 0 8), lin 255 (bitsOf e 8 8), lin 255 (bitsOf e 16 8)) (257 * bitsOf e 24 8)
  match f.format with
  | 0 =>
    let c := s.channels f x y
    prim (lin 255 (c.getD 0 0), lin 255 (c.getD 1 0), lin 255 (c.getD 2 0)) (257 * c.getD 3 0)
  | 1 =>
    let c := s.channels f x y
    prim (lin 1023 (c.getD 0 0), lin 1023 (c.getD 1 0), lin 1023 (c.getD 2 0)) (21845 * c.getD 3 0)
  | 2 =>
    let e := s.element f 0 x y
    prim (half16 (bitsOf e 0 16), half16 (bitsOf e 16 16), half16 (bitsOf e 32 16)) (half16 (bitsOf e 48 16))
  | 6 => word8 (pal (s.element f 0 x y))
  | 7 => { r := col.colour.r, g := col.colour.g, b := col.colour.b, a := 257 * (s.channels f x y).getD 0 0 }
  | _ =>
    let n := if f.format = 3 then 8 else 10
    let e := s.element f 0 x y
    let luma := if f.format = 3 then e else bitsOf e 6 10
    let k := ycToRgb col.matrix col.range n luma (s.chroma f col 0 x y) (s.chroma f col 1 x y)
    prim (lin 4095 k.1, lin 4095 k.2.1, lin 4095 k.2.2) 65535

/-- A premultiplied source pixel; transparent outside the surface and where its burst was lost (R133, R141, R411). -/
def State.sourcePx (s : State) (lost : Nat) (f : Surface) (pal : Nat → Nat) (col : ColourCfg) (pq x y : Nat) : Px :=
  if f.width ≤ x ∨ f.height ≤ y ∨ (f.sources col x y).any (fun q => s.lostAt lost q.1 q.2) then {}
  else
    let p := s.linearAt f pal col pq x y
    premultiply col.premult col.alpha p.r p.g p.b p.a

/-! ### The frame's settings -/

def FrameCfg.surf (k : FrameCfg) (i : Nat) : Surface := Tbl.get (fun _ => {}) k.surfs i
def FrameCfg.pal (k : FrameCfg) (f : Surface) (i : Nat) : Nat := (Tbl.get (fun _ => (0 : Word)) k.palettes (256 * f.palSlot + i)).toNat
def FrameCfg.canvas (k : FrameCfg) (c : Nat) : CanvasCfg := Tbl.get (fun _ => {}) k.canvases c
def FrameCfg.layer (k : FrameCfg) (n : Nat) : Layer := Tbl.get (fun _ => {}) k.layers n
def FrameCfg.overlay (k : FrameCfg) (c : Nat) : Overlay := Tbl.get (fun _ => {}) k.overlays c
def FrameCfg.reserve (k : FrameCfg) (c : Nat) : Reservation := Tbl.get (fun _ => {}) k.reserves c
def FrameCfg.atlas (k : FrameCfg) (i : Nat) : Atlas := Tbl.get (fun _ => {}) k.atlases i

/-- Layer `a` lies beneath layer `b` (R134). -/
def beneath (a b : Nat × Layer) : Bool := decide (a.2.z < b.2.z) || (a.2.z == b.2.z && decide (a.1 < b.1))

def insertLayer (a : Nat × Layer) : List (Nat × Layer) → List (Nat × Layer)
  | [] => [a]
  | b :: r => if beneath a b then a :: b :: r else b :: insertLayer a r

/-- The layers composed on canvas `c`, lowest first (R134, R60). -/
def FrameCfg.stackOf (k : FrameCfg) (c : Nat) : List (Nat × Layer) :=
  if k.held.contains c then []
  else ((k.layers.filter fun p => p.2.enable && p.2.canvas == c && !k.shed.contains p.1)).foldr insertLayer []

/-! ### Scaled layers (R155 to R164) -/

/-- The coefficients of a phase in one direction. -/
def coefsIn (kernel : Nat) (table : Option (List Int)) (taps centre src dst cap ph : Nat) (fold : Bool) : List Int :=
  let cs := if kernel = 8 then
      match table with
      | some t => (t.drop (taps * ph)).take taps
      | none => identityCoefs taps centre
    else presetCoefs kernel taps centre (stretch16 kernel src dst cap) ph
  if fold then foldTaps cs else cs

/-- A layer's pixel at canvas pixel (x, y), where it covers it; `none` elsewhere (R134, R165). -/
def State.layerPx (s : State) (k : FrameCfg) (p : Nat × Layer) (x y : Nat) : Option Px :=
  let l := p.2
  let i := (x : Int) - l.dstX
  let j := (y : Int) - l.dstY
  if 0 ≤ i ∧ i < l.dstW ∧ 0 ≤ j ∧ j < l.dstH then
    let f := k.surf l.surface
    let src (a b : Nat) : Px := s.sourcePx 1 f (k.pal f) l.col (k.canvas l.canvas).pqWhite a b
    let fold := k.shedSteps.contains 3
    let v := (k.serve.find? fun q => q.slot == p.1).getD ⟨p.1, 0, 0, 0, none, none⟩
    some (if l.scaled then
      scalePx src (fun ph => coefsIn v.kernelH v.coefH 8 3 l.srcW l.dstW 32 ph fold)
        (fun ph => coefsIn v.kernelV v.coefV 6 2 l.srcH l.dstH 24 ph fold)
        l.srcX l.srcY l.srcW l.srcH l.dstW l.dstH i.toNat j.toNat
    else src (l.srcX + i.toNat) (l.srcY + j.toNat))
  else none

/-- Source pixels that a layer's pixel at (x, y) reads. -/
def layerReads (l : Layer) (x y : Nat) : List (Nat × Nat) :=
  let i := ((x : Int) - l.dstX).toNat
  let j := ((y : Int) - l.dstY).toNat
  let taps (n : Nat) (back : Nat) (src0 src dst at_ : Nat) : List Nat :=
    if src = dst then [src0 + at_]
    else (List.range n).map fun (t : Nat) =>
      (clampI ((scalePos src0 src dst at_).fdiv 65536 - back + t) src0 ((src0 + src - 1 : Nat) : Int)).toNat
  (taps 8 3 l.srcX l.srcW l.dstW i).flatMap fun a => (taps 6 2 l.srcY l.srcH l.dstH j).map fun b => (a, b)

/-! ### Objects (R173, R174, R180, R183) -/

/-- The valid contexts of canvas `c` that the frame draws, ascending, each with whether it comes from the mirror. -/
def State.drawnCtxs (s : State) (k : FrameCfg) (c : Nat) : List (Nat × Ctx × Bool) :=
  let out (n : Nat) : Bool := bitOf k.banks (bankOf n) || s.comp.badBank.contains n
  let own := (s.obj.ctxs.filter fun p => !out p.1).map fun p => (p.1, p.2, false)
  let mir := (s.obj.mirror.filter fun p => out p.1 && !bitOf k.banks 16 && !s.comp.badMirror.contains p.1).map fun p => (p.1, p.2, true)
  let all : Tbl (Ctx × Bool) := (own ++ mir).foldl (fun t p => Tbl.insert p.1 p.2 t) []
  (all.filter fun p => cxValid p.2.1 && cxCanvas p.2.1 == c).map fun p => (p.1, p.2.1, p.2.2)

/-- The atlas pixel that box pixel (u, v) reads (R173). -/
def ctxSource (x : Ctx) (u v : Nat) : Nat × Nat :=
  let w := cxW x
  let h := cxH x
  let u := if cF x 0 7 1 = 1 then w - 1 - u else u
  let p := match cF x 0 5 2 with
    | 0 => (u, v)
    | 1 => (v, w - 1 - u)
    | 2 => (w - 1 - u, h - 1 - v)
    | _ => (h - 1 - v, u)
  (cF x 8 0 16 + p.1, cF x 10 0 16 + p.2)

/-- The object covers canvas pixel (x, y): its box pixel. -/
def ctxCovers (o : Ctx) (x y : Nat) : Option (Nat × Nat) :=
  let u := (x : Int) - cxX o
  let v := (y : Int) - cxY o
  if 0 ≤ u ∧ u < cxW o ∧ 0 ≤ v ∧ v < cxH o then some (u.toNat, v.toNat) else none

/-- The colour settings that an object's atlas pixels take. -/
def ctxColour (o : Ctx) : ColourCfg :=
  { transfer := cF o 2 2 2, primaries := cF o 2 4 1, premult := cF o 2 5 1 == 1, alpha := cF o 22 0 16,
    colour := ⟨cF o 16 0 16, cF o 18 0 16, cF o 20 0 16⟩ }

/-- The object's atlas serves it in this frame: valid, and guarded for a guarded object (R173, R182). -/
def FrameCfg.atlasOk (k : FrameCfg) (o : Ctx) : Bool :=
  let a := k.atlas (cxAtlas o)
  a.valid && (a.guarded || !cxGuarded o)

/-- An object's pixel at (x, y), where its box covers it (R173). -/
def State.objectPx (s : State) (k : FrameCfg) (pq : Nat) (o : Ctx) (x y : Nat) : Option Px :=
  match ctxCovers o x y with
  | none => none
  | some (u, v) =>
    let f := k.surf (k.atlas (cxAtlas o)).surface
    let q := ctxSource o u v
    let col := ctxColour o
    if !k.atlasOk o ∨ f.width ≤ q.1 ∨ f.height ≤ q.2 ∨
        (f.sources col q.1 q.2).any (fun p => s.lostAt (if cxGuarded o then 0 else 1) p.1 p.2) then some {}
    else
      let p := s.linearAt f (k.pal f) col pq q.1 q.2
      let t (l tint : Nat) : Nat := if f.format = 7 then l else roundDivN (l * tint) 65535
      some (premultiply col.premult col.alpha (t p.r col.colour.r) (t p.g col.colour.g) (t p.b col.colour.b) p.a)

/-! ### One canvas pixel (R134, R135, R150) -/

/-- A rectangle of a reservation covers a pixel, and meets an object's box. -/
def Reservation.covers (v : Reservation) (x y : Nat) : Bool :=
  decide (v.x ≤ x) && decide (x < v.x + v.w) && decide (v.y ≤ y) && decide (y < v.y + v.h)
def Reservation.meets (v : Reservation) (o : Ctx) : Bool :=
  v.some_ && decide (cxX o < (v.x + v.w : Nat)) && decide ((v.x : Int) < cxX o + cxW o) && decide (cxY o < (v.y + v.h : Nat)) &&
    decide ((v.y : Int) < cxY o + cxH o)

/-- The overlay's pixel at (x, y), where it covers it. -/
def State.overlayPx (s : State) (k : FrameCfg) (c x y : Nat) : Option Px :=
  let o := k.overlay c
  if o.enable ∧ o.dstX ≤ x ∧ x < o.dstX + o.w ∧ o.dstY ≤ y ∧ y < o.dstY + o.h then
    let f := k.surf o.surface
    some (s.sourcePx 0 f (k.pal f) o.col (k.canvas c).pqWhite (o.srcX + (x - o.dstX)) (o.srcY + (y - o.dstY)))
  else none

/-- Blend a list of covering pixels, lowest first. -/
def blendAll (d : Px) (l : List (Nat × Px)) : Px := l.foldl (fun d p => blendPx p.1 d p.2) d

/-- Canvas pixel (x, y) of canvas `c` after its last pass. `prev` gives the words of the canvas frame before. -/
def State.canvasPx (s : State) (k : FrameCfg) (prev : Nat → Nat → Nat) (objs : List Ctx) (c x y : Nat) : Px :=
  let cv := k.canvas c
  let held := k.held.contains c
  let res := k.reserve c
  let fall := if k.fallback.contains c then res.fallback else 0
  let base : Px := if held then
      let w := prev x y
      { r := canvasD (bitsOf w 0 10), g := canvasD (bitsOf w 10 10), b := canvasD (bitsOf w 20 10) }
    else { r := cv.bg.r, g := cv.bg.g, b := cv.bg.b }
  let d := blendAll base ((k.stackOf c).filterMap fun p => (s.layerPx k p x y).map fun q => (p.2.col.blend, q))
  let plain := if cv.objEnable ∧ !k.shedSteps.contains 2 ∧ !held then objs.filter fun o => !cxGuarded o else []
  let draw (d : Px) (l : List Ctx) : Px := blendAll d (l.filterMap fun o => (s.objectPx k cv.pqWhite o x y).map fun q => (cF o 2 0 2, q))
  let d := draw d plain
  let d :=
    if fall ≠ 0 then (if res.covers x y then { r := res.colour.r, g := res.colour.g, b := res.colour.b } else d)
    else match s.overlayPx k c x y with
      | some q => blendPx (k.overlay c).col.blend d q
      | none => d
  draw d (objs.filter fun o => cxGuarded o && !(fall == 2 && res.meets o))

/-! ### COMPOSE_UNIT -/

/-- The words of a unit, row by row (R54, R123). -/
def State.unitWords (s : State) (k : FrameCfg) (c u : Nat) : List Nat :=
  let cv := k.canvas c
  let objs := (s.drawnCtxs k c).map fun p => p.2.1
  let prev (x y : Nat) : Nat := s.canvasWordAt cv s.litBuf x y
  (List.range 8).flatMap fun r => (List.range cv.width).map fun x => canvasWord (s.canvasPx k prev objs c x (8 * u + r))

/-- A unit's words are issued to the stack: bursts of exhausted writes keep their bytes (R122, R411). -/
def State.issueUnit (s : State) (cv : CanvasCfg) (u : Nat) (words : List Nat) : State :=
  let start := cv.base + s.writeBuf * 4 * cv.width * cv.height + 4 * 8 * u * cv.width
  let bytes := (words.flatMap fun w => leBytes w 4).zipIdx
  let s := s.countFenced start bytes.length
  (bytes.filter fun p => !s.lostAt 2 (start + p.2) 1).foldl (fun s p => s.memSet (start + p.2) p.1) s

/-- Blocks of Hank surfaces that a unit decodes: (surface, block). -/
def State.unitBlocks (s : State) (k : FrameCfg) (c u : Nat) : List (Surface × Nat) :=
  let cv := k.canvas c
  let cell := unitRect cv.width u
  let pixels (r : Rect) : List (Nat × Nat) :=
    let m := r.meet cell
    (List.range (m.y1 - m.y0)).flatMap fun j => (List.range (m.x1 - m.x0)).map fun i => (m.x0 + i, m.y0 + j)
  let blocks (f : Surface) (reads : List (Nat × Nat)) : List (Surface × Nat) :=
    if f.layout = 2 then ((reads.filter fun q => decide (q.1 < f.width) && decide (q.2 < f.height)).map fun q => (f, f.blockOf q.1 q.2)).eraseDups
    else []
  let layers := (k.stackOf c).flatMap fun p =>
    blocks (k.surf p.2.surface) ((pixels (clipRect p.2.dstX p.2.dstY p.2.dstW p.2.dstH cv.width cv.height)).flatMap fun q => layerReads p.2 q.1 q.2)
  let o := k.overlay c
  let ovl := if o.enable then blocks (k.surf o.surface)
      ((pixels (clipRect o.dstX o.dstY o.w o.h cv.width cv.height)).map fun q => (o.srcX + (q.1 - o.dstX), o.srcY + (q.2 - o.dstY))) else []
  let objs := ((s.drawnCtxs k c).map fun p => p.2.1).filter fun x =>
    k.atlasOk x && (cxGuarded x || (cv.objEnable && !k.shedSteps.contains 2 && !k.held.contains c))
  let atl := objs.flatMap fun x => blocks (k.surf (k.atlas (cxAtlas x)).surface)
    ((pixels (boxOf cv.width cv.height x)).filterMap fun q => (ctxCovers x q.1 q.2).map fun b => ctxSource x b.1 b.2)
  (layers ++ ovl ++ atl).eraseDups

/-- Decode errors of a unit's blocks, each counted once a tick (R119). -/
def State.countHank (s : State) (l : List (Surface × Nat)) : State :=
  l.foldl (fun s p =>
    let key := (p.1.base, p.2)
    if !s.surf.hankBad.contains key && (s.hankBlock p.1 p.2).2 then
      ({ s with surf := { s.surf with hankBad := key :: s.surf.hankBad } }).error eHank 0
    else s) s

/-- Guarded contexts of a unit drawn from the mirror (R180). -/
def State.mirrorReads (s : State) (k : FrameCfg) (c u : Nat) : Nat :=
  let cv := k.canvas c
  ((s.drawnCtxs k c).filter fun p => p.2.2 && (((boxOf cv.width cv.height p.2.1).meet (unitRect cv.width u)).area != 0)).length

/-- Unit `u` of canvas `c` is done: its words stand, and what went wrong in its reads is over. -/
def State.unitDone (s : State) (c u : Nat) (words : List Nat) : State :=
  let s := { s with stk := { s.stk with lost := s.stk.lost.filter fun p => decide (3 ≤ p.1) } }
  { s with comp := { s.comp with
    todo := s.comp.todo.drop 1, done := (c, u) :: s.comp.done, badBank := [], badMirror := [],
    words := Tbl.put (fun _ => []) (512 * c + u) words s.comp.words } }

/-- Unit `u` of canvas `c` is composed and issued (R54, R134). -/
def State.composeUnit (s : State) (c u : Nat) : State :=
  let k := s.comp.composing
  let words := s.unitWords k c u
  (((((s.issueUnit (k.canvas c) u words).countHank (s.unitBlocks k c u)).bump OBJ_ERRORS.MIRROR_USED
    (s.mirrorReads k c u)).fencedReads)).unitDone c u words

/-- COMPOSE_UNIT: the compositor composes the next unit of the frame (R54, R134). -/
def execComposeUnit (s : State) : Out :=
  .next (s.inService fun s =>
    match s.comp.todo with
    | [] => s
    | (c, u) :: _ => s.composeUnit c u)

end Sys2Proof.Machine
end

