-- ==== Sys2Proof/Machine/Skein.lean ====
section
/-! DEFINITION. The Skein link: set-up writes, plies on the strands, return-strand messages, acknowledgement and replay, and
the laser-safety interlock (R263 to R306). -/

namespace Sys2Proof.Machine

/-! ### Set-up writes (R297, R298, R304) -/

/-- SKN_PORT_ENABLE: a write of SKN_PORT_CFG (R297). -/
def execSknPortEnable (p : Nat) (w : Word) (s : State) : Out :=
  .next (s.setup fun s =>
    if 16 ≤ p then s
    else
      let x := w.toNat
      let s := s.wrs [(SKN_PORT_CFG.ENABLE p, bitsOf x 0 1), (SKN_PORT_CFG.REPLAY_MAX p, bitsOf x 1 3),
        (SKN_PORT_CFG.ID_LOCK p, bitsOf x 4 1), (SKN_PORT_CFG.RS_INVERT p, bitsOf x 5 1),
        (SKN_PORT_CFG.MSG_ENABLE p, bitsOf x 6 1), (SKN_PORT_CFG.TX_INVERT p, bitsOf x 7 4)]
      if bitOf x 0 then
        (s.enginesOf p).foldl (fun s e => if s.linkState e = 0 ∧ s.portMayTrain p then s.train e none else s) s
      else (s.enginesOf p).foldl (fun s e => s.linkOff e) s)

/-- RETRAIN: the sub-port of engine `e` goes to TRAIN from IDENT to HOLD (R297). -/
def execRetrain (e : Nat) (s : State) : Out :=
  .next (s.setup fun s => if s.exists_ e ∧ 2 ≤ s.linkState e then s.train e none else s)

/-- The fields of an IDENT payload (R289). -/
def identSerial (x : Nat) : Nat := bitsOf x 0 64
def identStrands (x : Nat) : Nat := bitsOf x 136 3

/-- An IDENT is accepted: its identity is in force and its strings are set up (R298, R307). -/
def State.acceptIdent (s : State) (e x : Nat) : State :=
  let s := s.setLink e fun l => { l with held := some (identSerial x), offered := none }
  let s := s.wrs [(SKN_ENG_SERIAL.SERIAL e, identSerial x), (SKN_ENG_IDENT0.MODEL e, bitsOf x 64 16),
    (SKN_ENG_IDENT0.FW e, bitsOf x 80 16), (SKN_ENG_IDENT1.MAX_W e, bitsOf x 96 16), (SKN_ENG_IDENT1.MAX_H e, bitsOf x 112 16),
    (SKN_ENG_IDENT2.MAX_BANDS e, bitsOf x 128 5), (SKN_ENG_IDENT2.STRANDS e, identStrands x),
    (SKN_ENG_IDENT2.STRINGS e, bitsOf x 144 4), (SKN_ENG_IDENT2.SPARE e, bitsOf x 148 1),
    (SKN_ENG_IDENT2.SENSORS e, bitsOf x 152 4), (SKN_ENG_IDENT3.LATENCY_NS e, bitsOf x 160 16),
    (SKN_ENG_IDENT3.PROTOCOL e, bitsOf x 176 16)]
  s.identStrings e (identSerial x) (bitsOf x 144 4) (bitOf x 148) (bitsOf x 152 4)

/-- ACCEPT: the SERIAL offered on engine `e`'s sub-port is accepted in a HOLD with REASON 0x40 (R297, R298). -/
def execAccept (e : Nat) (s : State) : Out :=
  .next (s.setup fun s =>
    match (s.engine e).link.offered with
    | some x => if s.linkState e = 6 ∧ s.rd (SKN_ENG_STATUS.REASON e) = 0x40 then (s.acceptIdent e x).enterConfig e else s
    | none => s)

/-- LSAFE_RELEASE: RELEASE written 1; nothing while LSAFE_IN_L is high (R304). -/
def execLsafeRelease (s : State) : Out :=
  .next (s.setup fun s =>
    if s.flag SKN_LSAFE_STATUS.IN_OPEN then s else ({ s with eng := { s.eng with released := true } }).showAwait)

/-- LSAFE_OPEN: LSAFE_IN_L has stayed high for 100 ns (R303). An opening is a withdrawal of the permit by it. -/
def execLsafeOpen (s : State) : Out :=
  let s := { s with pwr := { s.pwr with lsafeHigh := true } }
  .next (if s.pwr.porst then
    let s := { (s.wr SKN_LSAFE_STATUS.IN_OPEN 1) with eng := { s.eng with lsafeLowAt := none } }
    if s.permit then
      let s := s.withdrawPermit.bump SKN_LSAFE_COUNT.OPENINGS 1
      ({ s with eng := { s.eng with released := false } }).showAwait
    else s
  else s)

/-- LSAFE_CLOSE: LSAFE_IN_L goes low and HOLD_MS starts (R304). -/
def execLsafeClose (s : State) : Out :=
  let s := { s with pwr := { s.pwr with lsafeHigh := false } }
  .next (if s.pwr.porst ∧ s.eng.lsafeLowAt = none then
    { (s.wr SKN_LSAFE_STATUS.IN_OPEN 0) with eng := { s.eng with lsafeLowAt := some s.now } }
  else s)

/-! ### What the next tick of an engine is (R254, R281, R300) -/

/-- DARK_REASON of a tick under a bundle: `none` for a lit tick; 0 where no reason of the Flyer applies (R254, R300). -/
def State.darkSelf (s : State) (e : Nat) (b : EngBundle) (modeDark tickDark : Bool) : Option Nat :=
  if !b.cfg.enable || !s.exists_ e then some 1
  else if modeDark then some 2
  else if tickDark then some 3
  else if s.engFenced e then some 5
  else if s.linkState e != 5 || !s.permit then some 0
  else none

/-- The same with a clone's source, whose bundle is `src` (R202). -/
def State.darkWhy (s : State) (e : Nat) (b src : EngBundle) (modeDark srcModeDark tickDark : Bool) : Option Nat :=
  match s.darkSelf e b modeDark tickDark with
  | some r => some r
  | none =>
    if b.warp.mode = 3 then
      if s.flag (CNV_ENG_CFG.CLONE_DARK e) || (s.darkSelf b.warp.cloneSrc src srcModeDark tickDark).isSome then some 4 else none
    else none

/-- The tick that begins at the next edge is lit for the engine, as far as is known (R281). -/
def State.litNext (s : State) (e : Nat) : Bool :=
  let g := s.engine e
  let q := s.engine g.spin.warp.cloneSrc
  s.tick.running && (s.darkWhy e g.spin q.spin g.modeSpin q.modeSpin s.tick.darkNext).isNone

/-! ### Plies on a strand (R267 to R273, R281, R284) -/

/-- One step of the header check of R268. -/
def hcrcStep (c bit : Nat) : Nat :=
  let fb := (c / 128 + bit) % 2
  ((c * 2) % 256) ^^^ (fb * 7)

/-- HCRC of a header whose bits [31:24] are 0 (R268). -/
def hcrc (hdr : Nat) : Nat :=
  (List.range 24 ++ (List.range 32).map (32 + ·)).foldl (fun c i => hcrcStep c (bitsOf hdr i 1)) 0xFF

/-- PAR: bit i is 1 when payload word i holds an even number of ones (R268). -/
def parBits (payload : Nat) : Nat :=
  ((List.range 32).map fun i => (1 - parityOf (bitsOf payload (32 * i) 32) 32) * 2 ^ i).sum

/-- The header block of a ply (R268). -/
def plyHeader (kind seq strand payload : Nat) (permit replay : Bool) : Nat :=
  let h := kind + 2 ^ 4 * b2n permit + 2 ^ 5 * b2n replay + 2 ^ 6 * strand + 2 ^ 8 * seq + 2 ^ 32 * parBits payload
  h + 2 ^ 24 * hcrc h

/-- A ply goes out on a strand now. -/
def State.putPly (s : State) (port strand kind seq payload : Nat) (replay : Bool) : State :=
  { s with eng := { s.eng with sent := s.eng.sent ++
    [{ port := port, strand := strand, time := s.now, payload := payload,
       header := plyHeader kind seq strand payload s.permit replay }] } }

/-- Plies the replay store holds (R291). -/
def State.storeSize (s : State) (e : Nat) : Nat := if s.split (e / 2) then 512 else 1024

/-- A numbered ply enters the replay store; a full store evicts the oldest (R291). -/
def State.storePly (s : State) (e : Nat) (p : Ply) : State :=
  s.setLink e fun l =>
    let st := l.store ++ [{ ply := p }]
    { l with store := st.drop (st.length - s.storeSize e) }

/-- Delay of an instant after the end of a ply that starts now, in 0.625 ns; a ply takes 39.893 ns (R266, R273). -/
def delayOf (at_ now : Nat) : Nat := (clampI (roundDiv (((at_ : Int) - now) * 1000 - 39893) 625) 0 65535).toNat

/-- The payload of an EVENT ply (R273). -/
def eventPayload (now : Nat) (recs : List TimedRec) : Nat :=
  ((recs.zipIdx).map fun p =>
    (((if p.1.op = 7 then 0 else delayOf p.1.at_ now) + 2 ^ 16 * p.1.op + 2 ^ 24 * p.1.arg3 + 2 ^ 32 * p.1.arg47) *
      2 ^ (64 * p.2))).sum

/-- The payload of a KEEPALIVE (R281). -/
def State.keepalivePayload (s : State) (e : Nat) : Nat :=
  let delay := if s.tick.running ∧ s.tick.nextEdge ≤ s.now + 40000 then
      (clampI (roundDiv (((s.tick.nextEdge : Int) - s.now) * 1000 - 39893) 625) 0 (2 ^ 32 - 2)).toNat
    else 2 ^ 32 - 1
  (b2n (s.litNow e) + 2 * b2n (s.litNext e)) + 2 ^ 32 * delay + 2 ^ 64 * ((s.tickNo + 1) % 2 ^ 32) + 2 ^ 96 * (s.now % 2 ^ 64)

/-- The payload of a HELLO (R284). -/
def State.helloPayload (s : State) (e strand : Nat) : Nat :=
  e / 2 + 2 ^ 4 * b2n (s.split (e / 2)) + 2 ^ 5 * (e % 2) + 2 ^ 6 * strand + 2 ^ 8

/-- COUNT of a load: plies of 128 bytes (R278). -/
def State.loadPlies (s : State) (e : Nat) : Nat :=
  let c := (s.engine e).fly.cfg
  ceilDiv (c.width * (c.height / c.bands)) 1024

/-- The load that has begun and whose LOAD record is not sent. -/
def State.loadRecord (s : State) (e : Nat) : Option Nat :=
  (s.engine e).run.loads.findIdx? fun l => l.started && l.firstSeq.isNone && !l.abandoned

/-- The timed records that go into the next EVENT ply: those at most 40.96 µs after its end (R276). -/
def State.dueRecs (s : State) (e : Nat) : List TimedRec :=
  (s.engine e).run.timed.takeWhile fun r => decide (r.at_ ≤ s.now + 40 + 40960)

/-- How many of the records `recs` fit in a ply with room for `limit`: records that share an instant stay together where they
fit (R275). -/
def recsThatFit (limit : Nat) (recs : List TimedRec) : Nat :=
  let whole (k : Nat) : Bool := match recs[k - 1]?, recs[k]? with
    | some a, some b => a.at_ != b.at_
    | _, _ => true
  (((List.range limit).map (limit - ·)).find? fun k => decide (k ≤ recs.length) && whole k).getD (min limit recs.length)

/-- An EVENT ply goes out with the timed records that are due and a LOAD record that waits (R273, R278). -/
def State.sendEvent (s : State) (e port strand : Nat) : State :=
  let seq := s.nextSeq e
  let ld := s.loadRecord e
  let due := s.dueRecs e
  let recs := due.take (recsThatFit (if ld.isSome then 15 else 16) due)
  let loadRec : List TimedRec := match ld with
    | some j =>
      match (s.engine e).run.loads[j]? with
      | some l => [{ at_ := 0, op := 7, arg3 := l.at_.band + 16 * l.at_.plane,
                     arg47 := (seq + 1) % 16384 + 2 ^ 14 * l.at_.bank + 2 ^ 16 * s.loadPlies e }]
      | none => []
    | none => []
  let p : Ply := { kind := kEvent, seq := seq, recs := recs ++ loadRec, tick := s.tickNo, load := ld,
                   payload := eventPayload s.now (recs ++ loadRec) }
  let s := s.setRun e fun r => { r with timed := r.timed.drop recs.length }
  let s := match ld with
    | some j => s.setRun e fun r => { r with loads := setAt r.loads j fun l =>
        { l with firstSeq := some ((seq + 1) % 16384), lastSeq := (seq + 1) % 16384 } }
    | none => s
  ((s.bumpSeq e (if ld.isSome then 2 else 1)).storePly e p).putPly port strand kEvent seq p.payload false

/-- The next DATA ply: the load in transmission, with its bytes fetched (R279). -/
def State.dataReady (s : State) (e : Nat) : Option Nat :=
  match (s.engine e).run.loads.findIdx? fun l => l.started && !l.abandoned && decide (l.sent < s.loadPlies e) with
  | some j =>
    match (s.engine e).run.loads[j]? with
    | some l => if l.firstSeq.isSome ∧ 128 * (l.sent + 1) ≤ l.data.length then some j else none
    | none => none
  | none => none

/-- A DATA ply of load `j` goes out (R279). -/
def State.sendData (s : State) (e port strand j : Nat) : State :=
  match (s.engine e).run.loads[j]? with
  | none => s
  | some l =>
    let seq := if l.sent = 0 then l.firstSeq.getD 0 else s.nextSeq e
    let payload := ofLeBytes ((l.data.drop (128 * l.sent)).take 128)
    let p : Ply := { kind := kData, seq := seq, payload := payload, load := some j, tick := s.tickNo }
    let s := if l.sent = 0 then s else s.bumpSeq e 1
    let s := s.setRun e fun r => { r with loads := setAt r.loads j fun x => { x with sent := x.sent + 1, lastSeq := seq } }
    (s.storePly e p).putPly port strand kData seq payload false

/-- A DATA replay is sent: its request is no longer outstanding (R258, R292). -/
def State.sendDataReplay (s : State) (e port strand : Nat) (p : Ply) : State :=
  let s := s.setRun e fun r => match p.load with
    | some j => { r with loads := setAt r.loads j fun l => { l with asked := l.asked.filter (· ≠ p.seq) } }
    | none => r
  s.putPly port strand kData p.seq p.payload true

/-- A strand's data: replays first, then the load in progress (R271). -/
def State.transmitData (s : State) (e port strand : Nat) : State :=
  match (s.engine e).link.dataReplays with
  | p :: r => (s.setLink e fun l => { l with dataReplays := r }).sendDataReplay e port strand p
  | [] => match (if s.litNow e then s.dataReady e else none) with
    | some j => s.sendData e port strand j
    | none => s

/-- A ply of the waiting events under the next number. -/
def State.sendNextEvent (s : State) (e port strand : Nat) (p : Ply) (r : List Ply) : State :=
  let q := { p with seq := (s.engine e).link.nextSeq }
  (((s.setLink e fun l => { l with events := r }).bumpSeq e 1).storePly e q).putPly port strand p.kind q.seq p.payload false

/-- Events of the timing strand, then data (R271). -/
def State.transmitEvents (s : State) (e port strand : Nat) (timing : Bool) : State :=
  match (if timing && (s.linkState e == 4 || s.linkState e == 5) then (s.engine e).link.events else []) with
  | p :: r => s.sendNextEvent e port strand p r
  | [] =>
    if timing && s.litNow e && (!(s.dueRecs e).isEmpty || (s.loadRecord e).isSome) then s.sendEvent e port strand
    else s.transmitData e port strand

/-- HELLO and KEEPALIVE plies that are due, then events and data (R271). -/
def State.transmitDue (s : State) (e port strand : Nat) (timing : Bool) : State :=
  let l := (s.engine e).link
  if (s.linkState e = 1 ∨ s.linkState e = 2) ∧ l.helloDue.contains strand then
    (s.setLink e fun l => { l with helloDue := l.helloDue.filter (· ≠ strand) }).putPly port strand kHello 0
      (s.helloPayload e strand) false
  else if 2 ≤ s.linkState e ∧ l.kaDue.contains strand then
    (s.setLink e fun l => { l with kaDue := l.kaDue.filter (· ≠ strand) }).putPly port strand kKeepalive l.nextSeq
      (s.keepalivePayload e) false
  else s.transmitEvents e port strand timing

/-- An ABORT goes out; it is stored at its first sending. -/
def State.sendAbort (s : State) (e port strand : Nat) (p : Ply) (r : List Ply) : State :=
  let first := !((s.engine e).link.store.any fun q => q.ply.kind == kAbort && q.ply.seq == p.seq)
  let s := s.setLink e fun l => { l with aborts := r }
  (if first then s.storePly e p else s).putPly port strand kAbort p.seq p.payload false

/-- The highest-precedence waiting ply of engine `e` starts on a strand of its port (R271). -/
def State.transmit (s : State) (e port strand : Nat) : State :=
  let l := (s.engine e).link
  let timing := (s.strands e).head? == some strand
  match l.aborts with
  | p :: r => s.sendAbort e port strand p r
  | [] =>
  match l.blanks with
  | p :: r => ((s.setLink e fun l => { l with blanks := r }).storePly e p).putPly port strand kBlank p.seq p.payload false
  | [] =>
  match (if timing then l.evReplays else []) with
  | p :: r => (s.setLink e fun l => { l with evReplays := r }).putPly port strand p.kind p.seq
      (if p.kind = kEvent then eventPayload s.now p.recs else p.payload) true
  | [] => s.transmitDue e port strand timing

/-- The engine whose sub-port has the strand (R265). -/
def State.engineOfStrand (s : State) (port strand : Nat) : Nat := if s.split port ∧ 2 ≤ strand then 2 * port + 1 else 2 * port

/-- PLY_TRANSMIT: strand `strand` of port `port` becomes free (R271). -/
def execPlyTransmit (port strand : Nat) (s : State) : Out :=
  .next (s.inService fun s =>
    let e := s.engineOfStrand port strand
    if port < 16 ∧ strand < 4 ∧ s.linkState e ≠ 0 ∧ bitOf s.pwr.sknClk (port / 4) then s.transmit e port strand else s)

/-- KEEPALIVE: one falls due on a strand (R281, R296). -/
def execKeepalive (port strand : Nat) (s : State) : Out :=
  .next (s.inService fun s =>
    let e := s.engineOfStrand port strand
    if port < 16 ∧ strand < 4 ∧ 2 ≤ s.linkState e ∧ (s.engine e).link.kaDue.contains strand = false then
      s.setLink e fun l => { l with kaDue := l.kaDue ++ [strand] }
    else s)

/-- HELLO: one falls due on a strand in IDENT, or in TRAIN after 100 µs of electrical idle (R284, R296). -/
def execHello (port strand : Nat) (s : State) : Out :=
  .next (s.inService fun s =>
    let e := s.engineOfStrand port strand
    let st := s.linkState e
    if port < 16 ∧ strand < 4 ∧ (st = 2 ∨ (st = 1 ∧ (s.engine e).link.trainAt + 100000 ≤ s.now)) ∧
        (s.engine e).link.helloDue.contains strand = false then
      s.setLink e fun l => { l with helloDue := l.helloDue ++ [strand] }
    else s)

/-! ### Return-strand messages (R285, R286) -/

/-- A valid message of engine `e` arrives: its port's return strand is alive. It is acted on while the sub-port is not OFF;
SUB = 1 on a full-width port is discarded and counted (R285, R299). -/
def State.message (s : State) (e : Nat) (f : State → State) : State :=
  s.inService fun s =>
    let p := e / 2
    if 32 ≤ e ∨ s.flag (SKN_PORT_STATUS.RS_LOCK p) = false ∨ s.linkState (2 * p) = 0 ∧ s.linkState (2 * p + 1) = 0 then s
    else
      let s := s.setPort p fun l => { l with lastMsg := s.now, lost := false }
      if s.exists_ e then (if s.linkState e = 0 then s else f s) else s.bump (SKN_PORT_DROPS.UNKNOWN p) 1

/-- ACK (R291): every ply before NEXT_SEQ leaves the store. -/
def execAck (e next : Nat) (s : State) : Out :=
  .next (s.message e fun s => s.setLink e fun l => { l with
    store := l.store.filter fun q => let k := (next + 16384 - q.ply.seq) % 16384; !(decide (0 < k) && decide (k ≤ 8192)) })

/-- A replay exhaustion: source 17 + 4p, counted, and acted on by the ply's kind (R294). -/
def State.exhaust (s : State) (e : Nat) (kind : Option Nat) : State :=
  let s := (s.bump (SKN_PORT_REPLAY.EXHAUSTED (e / 2)) 1).raise (17 + 4 * (e / 2))
  let s := if kind = some kEvent then (s.endTick e).bump (SKN_ENG_EVENTS.EVENT_LOST e) 1 else s
  s.error eSkeinExhaust e

/-- SEQ `q` lies in the numbers of a load whose plies have been sent. -/
def LoadRun.spans (l : LoadRun) (q : Nat) : Bool :=
  match l.firstSeq with
  | some f => decide ((q + 16384 - f) % 16384 ≤ (l.lastSeq + 16384 - f) % 16384)
  | none => false

/-- A load takes no more replays: shown, abandoned, or of an earlier tick (R292). -/
def State.loadOver (s : State) (e : Nat) (p : Ply) : Bool :=
  decide (p.tick ≠ s.tickNo) ||
    (match p.load.bind fun j => (s.engine e).run.loads[j]? with | some l => l.shown || l.abandoned | none => true)

/-- The earliest instant an EVENT ply holds (R292). -/
def earliest (recs : List TimedRec) : Option Nat :=
  recs.foldl (fun m r => if r.op = 7 then m else some (match m with | some x => min x r.at_ | none => r.at_)) none

/-- The replay of an EVENT ply can end at least 1 µs before its earliest instant (R292). -/
def replayInTime (now : Nat) (recs : List TimedRec) : Bool :=
  match earliest recs with | some t => decide (now + 40 + 1000 ≤ t) | none => true

/-- A stored ply is replayed (R292). -/
def State.replay (s : State) (e : Nat) (q : Stored) : State :=
  let s := s.bump (SKN_PORT_REPLAY.REPLAYS (e / 2)) 1
  let s := s.setLink e fun l => { l with store := l.store.map fun x =>
    if x.ply.seq = q.ply.seq ∧ x.ply.kind = q.ply.kind then { x with replays := x.replays + 1 } else x }
  let p := { q.ply with replay := true }
  if p.kind = kData then
    let s := s.setLink e fun l => { l with dataReplays := l.dataReplays ++ [p] }
    s.setRun e fun r => match p.load with
      | some j => { r with loads := setAt r.loads j fun l => { l with asked := p.seq :: l.asked.filter (· ≠ p.seq) } }
      | none => r
  else s.setLink e fun l => { l with evReplays := l.evReplays ++ [p] }

/-- A DATA ply is lost: its request stays outstanding (R294). -/
def State.loseData (s : State) (e : Nat) (p : Ply) : State :=
  s.setRun e fun r => match p.load with
    | some j => { r with loads := setAt r.loads j fun l => { l with lost := true } }
    | none => r

/-- NAK (R292). Every NAK is an error of kind SKEIN_PARITY (R440). -/
def State.nak (s : State) (e q : Nat) : State :=
  let l := (s.engine e).link
  let tries := max 1 (s.rd (SKN_PORT_CFG.REPLAY_MAX (e / 2)))
  let ahead := decide ((q + 16384 - l.nextSeq) % 16384 < 8192)
  let s' :=
    match l.store.find? fun x => x.ply.seq == q with
    | some x =>
      if x.ply.kind = kAbort ∨ x.ply.kind = kBlank then s
      else if x.ply.kind = kData ∧ s.loadOver e x.ply then s.bump (SKN_ENG_ERRORS.LATE_NAKS e) 1
      else if tries ≤ x.replays then (if x.ply.kind = kData then s.loseData e x.ply else s).exhaust e (some x.ply.kind)
      else if x.ply.kind = kEvent ∧ !replayInTime s.now x.ply.recs then s.exhaust e (some kEvent)
      else s.replay e x
    | none =>
      if ahead then s
      else match (s.engine e).run.loads.findIdx? fun (x : LoadRun) => x.spans q with
      | some j =>
        let past := match (s.engine e).run.loads[j]? with | some x => x.shown || x.abandoned | none => true
        if past then s.bump (SKN_ENG_ERRORS.LATE_NAKS e) 1
        else (s.loseData e { kind := kData, load := some j }).exhaust e (some kData)
      | none => s.exhaust e none
  s'.error eSkeinParity e

def execNak (e q : Nat) (s : State) : Out :=
  .next (s.message e fun s => (s.bump (SKN_ENG_ERRORS.NAKS e) 1).nak e (q % 16384))

/-- The LOCK mask reports every strand of the sub-port in lock (R297). -/
def State.allLocked (s : State) (e lock : Nat) : Bool := (s.strands e).all fun k => bitOf lock k

/-- RS_STATUS: ESTATE, LOCK and the flags of byte 1 (R286, R297, R317). -/
def execRsStatus (e estate lock flags : Nat) (s : State) : Out :=
  .next (s.message e fun s =>
    let s := s.wrs [(SKN_ENG_STATUS.LOCK e, lock), (SKN_ENG_STATUS.ESTATE e, estate)]
    let s := s.setLink e fun l => { l with sensorFault := bitOf flags 2 }
    let s := if bitOf flags 2 then s.setEngine e fun g => { g with ticks := g.ticks.modifyHead fun t => { t with fault := true } } else s
    let st := s.linkState e
    if st = 1 then (if s.allLocked e lock then s.setLinkState e 2 else s)
    else if s.allLocked e lock then s else s.train e none)

/-- SENSOR (R317, R338). -/
def execSensor (e tag j value t16 : Nat) (s : State) : Out := .next (s.message e fun s => s.sensorMsg e tag j value t16)

/-- STRING (R325, R326, R329). -/
def execString (e bank str volt cur flags t16 : Nat) (s : State) : Out :=
  .next (s.message e fun s => s.stringMsg e bank str volt cur flags t16)

/-- TEMP (R286, R343). -/
def execTemp (e array laser driver sensor : Nat) (s : State) : Out :=
  .next (s.message e fun s => s.tempMsg e array laser driver sensor)

/-- CRC_ECHO (R451). -/
def execCrcEcho (e t16 crc : Nat) (s : State) : Out :=
  .next (s.message e fun s =>
    match (s.crcs e).find? fun c => c.tick % 65536 == t16 && c.status == 4 && decide (s.now ≤ c.endAt + 200000) with
    | none => s.bump (SIG_ENG_CRC.SKIPPED e) 1
    | some c =>
      let st := if crc = c.crc then 0 else 1
      let s := s.setCrcs e fun h => h.map fun x => if x.tick = c.tick then { x with status := st, echo := crc } else x
      if st = 0 then s
      else
        (((s.bump (SIG_ENG_CRC.MISMATCH e) 1).postPlaneCrc e 1 c.tick c.crc crc).raise (19 + 4 * (e / 2))).error ePlaneCrc e)

/-- CRC_ECHO_MISSING: 200 µs after the edge that ended a tick its echo has not come (R451). -/
def execCrcEchoMissing (e : Nat) (s : State) : Out :=
  .next (s.inService fun s =>
    match ((s.crcs e).filter fun c => c.status == 4 && decide (c.endAt + 200000 ≤ s.now)).getLast? with
    | none => s
    | some c =>
      let s := s.setCrcs e fun h => h.map fun x => if x.tick = c.tick then { x with status := 2 } else x
      ((s.bump (SIG_ENG_CRC.MISSING e) 1).postPlaneCrc e 2 c.tick c.crc 0).error ePlaneCrc e)

/-- IDENT in state IDENT (R289, R297, R298); `x` is its 24-byte payload. -/
def execIdent (e x : Nat) (s : State) : Out :=
  .next (s.message e fun s =>
    if s.linkState e ≠ 2 then s
    else if identStrands x ≠ (s.strands e).length then s.holdLink e 0x41
    else
      let other := match (s.engine e).link.held with | some h => h != identSerial x | none => false
      if s.flag (SKN_PORT_CFG.ID_LOCK (e / 2)) && other then
        (s.setLink e fun l => { l with offered := some x }).holdLink e 0x40
      else (s.acceptIdent e x).setLinkState e 3)

/-! ### EVENT messages (R290) -/

/-- Every EVENT is shown in SKN_ENG_LAST_EVENT. -/
def State.event (s : State) (e code arg : Nat) (f : State → State) : State :=
  s.message e fun s => f (s.wrs [(SKN_ENG_LAST_EVENT.CODE e, code), (SKN_ENG_LAST_EVENT.ARG e, arg)])

/-- A BAND_BLANK of either side is counted (R260). -/
def State.countBlank (s : State) (e band : Nat) : State :=
  ((s.bump (FLY_ENG_STATS.BLANKS e) 1).wr (FLY_ENG_BLANKS.BANDS e) (setBit (s.rd (FLY_ENG_BLANKS.BANDS e)) band 1)).raise
    (81 + 4 * (e / 2))

/-- The engine parked band `beta` itself: the load latest shown there leaves the plane CRC (R295). -/
def FlyRun.markParked (r : FlyRun) (beta : Nat) : FlyRun :=
  match ((r.loads.zipIdx).filter fun p => p.1.at_.band == beta && p.1.shown).getLast? with
  | some (_, j) => { r with loads := setAt r.loads j fun l => { l with parked := true } }
  | none => r

/-- A band was parked in the tick that has just ended: its plane CRC, and that of its clones, is formed again while the echo
is awaited (R201, R295). -/
def State.parkLast (s : State) (e beta : Nat) : State :=
  let s := s.setEngine e fun g => { g with lastRun := g.lastRun.markParked beta }
  let crc := (s.engine e).lastRun.crc
  (e :: s.clonesOf e).foldl (fun s k => s.setCrcs k fun h => h.map fun x =>
    if x.tick + 1 = s.tickNo ∧ x.status = 4 then { x with crc := crc } else x) s

/-- BAND_PARKED: the engine parked a band itself in tick `t16` (R259, R260, R290). -/
def execBandParked (e band t16 : Nat) (s : State) : Out :=
  .next (s.event e 1 (band + 2 ^ 8 * t16) fun s =>
    let s := (s.countBlank e band).bump (FLY_ENG_BLANKS.ENGINE_SIDE e) 1
    if (s.engine e).fly.warp.mode = 3 then s
    else if t16 = s.tickNo % 65536 then s.setRun e fun r => r.markParked band
    else if (t16 + 1) % 65536 = s.tickNo % 65536 then s.parkLast e band
    else s)

/-- CONFIG_OK with the latest CONFIG_ID: to RUN (R297). -/
def execConfigOk (e id : Nat) (s : State) : Out :=
  .next (s.event e 2 id fun s =>
    if s.linkState e = 4 ∧ (s.engine e).link.asked = some id then
      (s.setLink e fun l => { l with configEdges := 0 }).setLinkState e 5
    else s)

/-- CONFIG_REJECT with the latest CONFIG_ID: to HOLD (R297). -/
def execConfigReject (e id cause : Nat) (s : State) : Out :=
  .next (s.event e 3 (id + 2 ^ 16 * cause) fun s =>
    if s.linkState e = 4 ∧ (s.engine e).link.asked = some id then s.holdLink e 0x42 else s)

/-- ENGINE_MSG (R290). -/
def execEngineMsg (e source : Nat) (s : State) : Out :=
  .next (s.event e 4 source fun s =>
    if s.flag (SKN_PORT_CFG.MSG_ENABLE (e / 2)) ∧ 320 ≤ source ∧ source ≤ 383 then s.msgDoorbell source
    else s.bump (SKN_PORT_DROPS.MSG_DROPPED (e / 2)) 1)

/-- LATE (R290). -/
def execLate (e seq : Nat) (s : State) : Out := .next (s.event e 5 seq fun s => s.bump (SKN_ENG_EVENTS.LATE e) 1)

/-- DARK_TIMER: treated as a loss of lock (R290, R297). -/
def execDarkTimer (e strand : Nat) (s : State) : Out :=
  .next (s.event e 6 strand fun s => if 2 ≤ s.linkState e then s.train e none else s)

/-- BAD_RECORD, and any EVENT code R290 does not list (R290). -/
def execBadRecord (e code arg : Nat) (s : State) : Out :=
  .next (s.event e code arg fun s => if 1 ≤ code ∧ code ≤ 6 then s else s.bump (SKN_PORT_DROPS.UNKNOWN (e / 2)) 1)

/-! ### The return strand (R285, R297, R299) -/

/-- RS_BAD_MESSAGE: 0 a code or disparity error, 1 a wrong check or length, 2 an unknown TYPE, 3 SUB = 1 on a full-width
port (R285, R286). -/
def execRsBadMessage (p kind : Nat) (s : State) : Out :=
  .next (s.inService fun s =>
    if 16 ≤ p then s
    else match kind with
    | 0 => s.bump (SKN_PORT_RS_ERR.CODE_ERRORS p) 1
    | 1 => s.bump (SKN_PORT_RS_ERR.CRC_ERRORS p) 1
    | _ => s.bump (SKN_PORT_DROPS.UNKNOWN p) 1)

/-- RETURN_STRAND_LOCK: the return strand gains or loses 8b/10b lock (R297). -/
def execReturnStrandLock (p : Nat) (lock : Bool) (s : State) : Out :=
  .next (s.inService fun s => if p < 16 then s.wr (SKN_PORT_STATUS.RS_LOCK p) (b2n lock) else s)

/-- RETURN_STRAND_LOST: no valid message for 20 µs (R299). -/
def execReturnStrandLost (p : Nat) (s : State) : Out :=
  .next (s.inService fun s =>
    let live := (s.enginesOf p).filter fun e => s.linkState e != 0
    if p < 16 ∧ live ≠ [] ∧ (s.portLink p).lost = false ∧ (s.portLink p).lastMsg + 20000 ≤ s.now then
      let s := s.setPort p fun l => { l with lost := true }
      let s := (s.raise (18 + 4 * p)).bump (SKN_PORT_LINK.RS_LOSSES p) 1
      live.foldl (fun s e => s.train e none) s
    else s)

/-- SKEIN_NO_ANSWER: 10 ms in TRAIN and IDENT, or eight tick edges in CONFIG, without progress (R297). -/
def execSkeinNoAnswer (e : Nat) (s : State) : Out :=
  .next (s.inService fun s =>
    let l := (s.engine e).link
    let st := s.linkState e
    if s.exists_ e ∧ (((st = 1 ∨ st = 2) ∧ l.trainAt + 10000000 ≤ s.now) ∨ (st = 4 ∧ 8 ≤ l.configEdges)) then
      s.train e (some 0x43)
    else s)

end Sys2Proof.Machine
end

