-- ==== Sys2Proof/Machine/Flyer.lean ====
section
/-! DEFINITION. The Flyer's tick: the table of a tick, its records, slots, loads, notches, BAND_BLANK and underruns (R202, R233,
R235, R242, R251 to R260, R275). -/

namespace Sys2Proof.Machine

/-! ### The table of a tick (R242) -/

/-- The valid variants of the twist set in force on engine `e`, with their tables. -/
def State.variants (s : State) (e : Nat) : List (Nat × TwistTable) :=
  let b := (s.engine e).fly
  if b.sel.preset = 0 then (s.setTables b.sel).filterMap fun p => p.2.map fun t => (p.1, t)
  else match b.plan with
    | some p => (presetTables (presetArgs s.costArgs (s.split (e / 2)) b) p).zipIdx.map fun q => (q.2, q.1)
    | none => []

/-- The variant of smallest LIT, the lower number on equal LIT. -/
def shallowOf : List (Nat × TwistTable) → Option (Nat × TwistTable)
  | [] => none
  | a :: r => match shallowOf r with
    | none => some a
    | some b => if a.2.lit ≤ b.2.lit then some a else some b

/-- The highest valid variant whose number does not exceed the staple class. -/
def variantFor (cls : Nat) (l : List (Nat × TwistTable)) : Option (Nat × TwistTable) :=
  (l.filter fun p => decide (p.1 ≤ cls)).getLast?

/-- The table of a lit tick of an engine that is no clone; `shallow` while step 4 of the shed order is in force. -/
def State.selectTable (s : State) (e : Nat) (shallow : Bool) : Option (Nat × TwistTable) :=
  if shallow then shallowOf (s.variants e) else variantFor (s.rd (SPN_CLASS.CLASS e)) (s.variants e)

/-! ### Timed records (R252, R274, R275) -/

/-- The order of records that share an instant (R275). -/
def recRank (op : Nat) : Nat := match op with | 2 => 0 | 1 => 1 | 4 => 2 | 6 => 3 | 3 => 4 | _ => 5

def insertRecord (a : TimedRec) : List TimedRec → List TimedRec
  | [] => [a]
  | b :: r =>
    if b.at_ < a.at_ ∨ (b.at_ = a.at_ ∧ recRank b.op < recRank a.op) then b :: insertRecord a r else a :: b :: r

def sortRecords (l : List TimedRec) : List TimedRec := l.foldr insertRecord []

/-- The timed records of a slot, whose times count from `base` (R275). -/
def slotRecords (base : Nat) (t : TwistSlot) : List TimedRec :=
  let at_ (u : Nat) : Nat := base + 5 * u
  (if t.park = 0 then [] else [⟨at_ t.start, 2, 0, t.park⟩]) ++ (if t.reset = 0 then [] else [⟨at_ t.start, 1, 0, t.reset⟩]) ++
    (if t.width = 0 then [] else
      [⟨at_ (t.start + t.ofs), 3, t.pulseBank + 4 * t.level, 0⟩, ⟨at_ (t.start + t.ofs + t.width), 4, t.pulseBank, 0⟩])

/-- Device time at which notch `n` starts, for a notch of `w` µs (R252). -/
def notchAt (edge w n : Nat) : Nat := edge + 2000 + 1000 * n * (w + 1)

/-- The records of a notch. -/
def notchRecords (edge w : Nat) (n : NotchRun) : List TimedRec :=
  [⟨notchAt edge w n.n, 5, n.bank + 4 * n.string, n.level + 256 * n.n⟩, ⟨notchAt edge w n.n + 1000 * w, 6, n.bank + 4 * n.string, 0⟩]

/-- Every timed record of a lit tick. -/
def tickRecords (edge gap w : Nat) (t : TwistTable) (notches : List NotchRun) : List TimedRec :=
  sortRecords ((notches.flatMap (notchRecords edge w)) ++ (t.slots.flatMap (slotRecords (edge + gap))) ++
    [⟨edge + gap + 5 * t.end_, 2, 0, 2 ^ t.bands - 1⟩])

/-! ### What the light chapters keep of a tick (R317, R324) -/

/-- X_b in 1/128 units. -/
def TwistTable.exposure (t : TwistTable) (b : Nat) : Nat :=
  (t.slots.map fun x => if x.pulseBank = b then x.width * 2 ^ (7 - x.level) else 0).sum

/-- The earliest longest pulse of a bank: width and level. -/
def TwistTable.longestPulse (t : TwistTable) (b : Nat) : Nat × Nat :=
  t.slots.foldl (fun m x => if x.pulseBank = b ∧ m.1 < x.width then (x.width, x.level) else m) (0, 0)

/-- Fire mask bits and codes of a board table. -/
def boardPlan (t : Option BoardTable) : List (Bool × List Nat) :=
  match t with
  | some t => t.strs.map fun p => (fires p.state, p.codes)
  | none => []

/-- The tick of engine `e` that begins now, as the light chapters see it. -/
def State.lightTick (s : State) (e : Nat) (table : Option TwistTable) (notches : List NotchRun) : LightTick :=
  { tick := s.tickNo, edge := s.edgeTime, plan := boardPlan (s.lightOf e).force, lit := table.isSome,
    xs := match table with | some t => [0, 1, 2].map t.exposure | none => [0, 0, 0],
    longest := match table with | some t => [0, 1, 2].map t.longestPulse | none => [(0, 0), (0, 0), (0, 0)],
    notches := notches, fault := (s.engine e).link.sensorFault,
    excluded := match (s.lightOf e).excludeFrom with | some n => decide (n ≤ s.tickNo) | none => false }

/-- The Flyer's tick of engine `e` begins, lit with a table or dark (R251). -/
def State.beginRun (s : State) (e : Nat) (table : Option TwistTable) (notches : List NotchRun) : State :=
  let c := (s.engine e).fly.cfg
  let w := (s.lightOf e).act.notchW
  let run : FlyRun := match table with
    | some t => { table := some t, lit := true, notches := notches,
                  loads := (t.loads (tBand (s.split (e / 2)) c.width c.height c.bands)).map fun l => { at_ := l },
                  cells := List.replicate 16 none, shows := List.replicate 16 none,
                  timed := tickRecords s.edgeTime s.gap w t notches }
    | none => {}
  let lt := s.lightTick e table notches
  (s.setEngine e fun g => { g with run := run, lastRun := g.run, ticks := (lt :: g.ticks).take 300 }).showLit e

/-! ### Registers (chapter 09) -/

def flyTable (e c : Nat) : Fld :=
  match c with
  | 0 => FLY_ENG_TWIST.TABLE0 e | 1 => FLY_ENG_TWIST.TABLE1 e | 2 => FLY_ENG_TWIST.TABLE2 e | 3 => FLY_ENG_TWIST.TABLE3 e
  | 4 => FLY_ENG_TWIST.TABLE4 e | 5 => FLY_ENG_TWIST.TABLE5 e | 6 => FLY_ENG_TWIST.TABLE6 e | _ => FLY_ENG_TWIST.TABLE7 e

def flyValid (e c : Nat) : Fld :=
  match c with
  | 0 => FLY_ENG_TWIST.VALID0 e | 1 => FLY_ENG_TWIST.VALID1 e | 2 => FLY_ENG_TWIST.VALID2 e | 3 => FLY_ENG_TWIST.VALID3 e
  | 4 => FLY_ENG_TWIST.VALID4 e | 5 => FLY_ENG_TWIST.VALID5 e | 6 => FLY_ENG_TWIST.VALID6 e | _ => FLY_ENG_TWIST.VALID7 e

/-- The engine settings and twist set in force. -/
def State.showFly (s : State) (e : Nat) : State :=
  let b := (s.engine e).fly
  let c := b.cfg
  let preset := b.sel.preset != 0
  let s := s.wrs [(FLY_ENG_CFG.ENABLE e, b2n c.enable), (FLY_ENG_CFG.BANDS e, c.bands), (FLY_ENG_CFG.SUBPORT e, b2n (s.split (e / 2))),
    (FLY_ENG_SIZE.WIDTH e, c.width), (FLY_ENG_SIZE.HEIGHT e, c.height),
    (FLY_ENG_TIMING.T_BAND e, tBand (s.split (e / 2)) c.width c.height c.bands),
    (FLY_ENG_FIRST_LIGHT.UNITS e, ((s.variants e).map fun p => p.2.firstLight).foldl max 0),
    (FLY_ENG_PRESET.PRESET e, b.sel.preset), (FLY_ENG_PRESET.T e, match b.plan with | some p => p.1 | none => 0)]
  (List.range 8).foldl (fun s k => s.wrs [(flyTable e k, if preset then 0 else b.sel.tables.getD k 0),
    (flyValid e k, if preset then 1 else bitsOf b.sel.valid k 1)]) s

/-- FLY_ENG_STATE and FLY_ENG_TABLE_END of the tick that begins, under the twist set of engine `src` (R201). -/
def State.showTick (s : State) (e src : Nat) (dark : Option Nat) (shallow : Bool) (v : Option (Nat × TwistTable)) : State :=
  let b := (s.engine src).fly
  let preset := b.sel.preset != 0
  let n := match v with | some p => p.1 | none => 0
  s.wrs [(FLY_ENG_STATE.VARIANT e, n), (FLY_ENG_STATE.CLASS e, s.rd (SPN_CLASS.CLASS e)), (FLY_ENG_STATE.SHALLOW e, b2n (shallow && dark.isNone)),
    (FLY_ENG_STATE.PRESET e, b2n (preset && dark.isNone)),
    (FLY_ENG_STATE.TABLE e, if preset || dark.isSome then 0 else b.sel.tables.getD n 0),
    (FLY_ENG_STATE.DARK e, b2n dark.isSome), (FLY_ENG_STATE.DARK_REASON e, dark.getD 0), (FLY_ENG_STATE.ABORTED e, 0),
    (FLY_ENG_TABLE_END.END e, match v with | some p => p.2.end_ | none => 0)]

/-! ### Slots (R228, R233) -/

/-- Device time of an instant of the table, in units after the tick gap. -/
def State.slotTime (s : State) (units : Nat) : Nat := s.edgeTime + s.gap + 5 * units

/-- The load that the next reset of a band would show: the latest queued (R258). -/
def FlyRun.nextShown (r : FlyRun) (beta : Nat) : Option Nat :=
  ((r.loads.zipIdx).filter fun p => p.1.at_.band == beta && p.1.queued && !p.1.shown).getLast?.map fun p => p.2

/-- Every ply of the load has been sent and no replay request is outstanding (R258). -/
def State.loadComplete (s : State) (e j : Nat) : Bool :=
  match (s.engine e).run.loads[j]? with
  | some l => l.sent == s.loadPlies e && l.asked.isEmpty && !l.lost && !l.abandoned
  | none => false

/-- BAND_BLANK of a band on one engine: the load is abandoned, and counted (R258, R260). A load whose LOAD record has not
been sent has no FIRST_SEQ: the field is then a free value. -/
def State.blankOne (s : State) (e beta j : Nat) : State :=
  if s.litNow e ∧ !(s.engine e).run.blanked.contains beta then
    let l := (s.engine e).run.loads.getD j { at_ := ⟨0, 0, 0, 0, 0, 0⟩ }
    let first := l.firstSeq.getD ((Config.freeWord s.freeCtr).toNat % 16384)
    let s := if l.firstSeq.isSome then s else { s with freeCtr := s.freeCtr + 1 }
    let s := s.setRun e fun r => { r with
      blanked := beta :: r.blanked, loads := setAt r.loads j fun l => { l with abandoned := true, asked := [] } }
    let s := s.setLink e fun k => { k with dataReplays := k.dataReplays.filter fun p => p.load != some j }
    (s.queueBlank e beta first).countBlank e beta
  else s

/-- The decision before a reset of band `beta` on engine `e`, given to its clones too (R202, R258, R260). -/
def State.decide_ (s : State) (e beta : Nat) : State :=
  match (s.engine e).run.nextShown beta with
  | some j => if s.loadComplete e j then s else (e :: s.clonesOf e).foldl (fun s k => s.blankOne k beta j) s
  | none => s

/-- A band parks, or shows what its cells hold. -/
def FlyRun.resetBand (r : FlyRun) (beta : Nat) : FlyRun :=
  if r.blanked.contains beta then
    { r with blanked := r.blanked.filter (· ≠ beta), shows := setAt r.shows beta fun _ => none }
  else
    let j := r.cells.getD beta none
    { r with
      shows := setAt r.shows beta fun _ => j
      loads := match j with | some j => setAt r.loads j fun l => { l with shown := true } | none => r.loads }

/-- The items of a slot in order: park, reset, queue loads (R233). -/
def FlyRun.applySlot (r : FlyRun) (i : Nat) (t : TwistSlot) : FlyRun :=
  let bands (m : Nat) : List Nat := (List.range 16).filter fun b => bitOf m b
  let r := (bands t.park).foldl (fun r b => { r with shows := setAt r.shows b fun _ => none }) r
  let r := (bands t.reset).foldl (fun r b => r.resetBand b) r
  { r with loads := r.loads.map (fun l => if l.at_.slot = i then { l with queued := true } else l), slot := i + 1 }

/-- The next slot of a lit tick. -/
def FlyRun.nextSlot (r : FlyRun) : Option TwistSlot := r.table.bind fun t => t.slots[r.slot]?

/-- Slot `i` starts on engine `e` and its clones; a decision of R258 still open is made. -/
def State.startSlot (s : State) (e i : Nat) (t : TwistSlot) : State :=
  let s := (List.range 16).foldl (fun s b => if bitOf t.reset b then s.decide_ e b else s) s
  (e :: s.clonesOf e).foldl (fun s k =>
    let s := if k = e then s else (List.range 16).foldl (fun s b => if bitOf t.reset b then s.decide_ k b else s) s
    if s.litNow k then s.setRun k fun r => r.applySlot i t else s) s

/-- The engine leads its own slots: it is in a lit tick and is no clone (R201). -/
def State.leads (s : State) (e : Nat) : Bool := s.litNow e && (s.engine e).fly.warp.mode != 3

/-- SLOT_START: the next slot of engine `e`'s table (R233). -/
def execSlotStart (e : Nat) (s : State) : Out :=
  .next (s.inService fun s =>
    let r := (s.engine e).run
    match r.nextSlot with
    | some t => if e < 32 ∧ s.leads e ∧ r.gapDone then (s.reach (s.slotTime t.start)).startSlot e r.slot t else s
    | none => s)

/-- TICK_GAP_END: the tick gap ends, and slot 0 of every table starts (R46, R251). -/
def execTickGapEnd (s : State) : Out :=
  .next (s.inService fun s =>
    if s.tick.running then
      let s := s.reach (s.edgeTime + s.gap)
      let due := (List.range 32).filter fun e => s.litNow e && !(s.engine e).run.gapDone
      let s := due.foldl (fun s e => s.setRun e fun r => { r with gapDone := true }) s
      due.foldl (fun s e => match (s.engine e).run.nextSlot with
        | some t => if s.leads e then s.startSlot e 0 t else s
        | none => s) s
    else s)

/-- TABLE_END: at END every band of engine `e` and of its clones parks (R233). -/
def execTableEnd (e : Nat) (s : State) : Out :=
  .next (s.inService fun s =>
    let r := (s.engine e).run
    match r.table with
    | some t =>
      if e < 32 ∧ s.leads e ∧ r.gapDone ∧ r.slot = t.slots.length then
        let s := s.reach (s.slotTime t.end_)
        (e :: s.clonesOf e).foldl (fun s k => if s.litNow k then s.setRun k fun r => { r with shows := r.shows.map fun _ => none } else s) s
      else s
    | none => s)

/-! ### Notches (R252) -/

/-- NOTCH: the next granted notch of engine `e` fires in the tick gap. -/
def execNotch (e : Nat) (s : State) : Out :=
  .next (s.inService fun s =>
    let r := (s.engine e).run
    match r.notches.find? fun n => !n.fired with
    | some n =>
      if e < 32 ∧ s.litNow e ∧ r.gapDone = false then
        let fire (l : List NotchRun) : List NotchRun := l.map fun m => if m.n = n.n then { m with fired := true } else m
        let s := s.reach (notchAt s.edgeTime (s.lightOf e).act.notchW n.n)
        let s := s.setRun e fun r => { r with notches := fire r.notches }
        let s := s.setEngine e fun g => { g with ticks := g.ticks.modifyHead fun t => { t with notches := fire t.notches } }
        (s.bump (FLY_ENG_NOTCH.FIRED e) 1).bump (LGT_STR_COUNTS.NOTCHES e (9 * n.bank + n.string)) 1
      else s
    | none => s)

/-! ### Loads (R235, R253, R255) -/

/-- The engine whose planes engine `e` shows (R201). -/
def State.source (s : State) (e : Nat) : Nat := if (s.engine e).fly.warp.mode = 3 then (s.engine e).fly.warp.cloneSrc else e

/-- The band of a load is complete in the frame (R222). -/
def State.bandReady (s : State) (e : Nat) (l : LoadRun) : Bool := (s.engine (s.source e)).bandsOk.contains l.at_.band

/-- A load is over on the link: all its plies are sent, or it was abandoned. -/
def State.loadGone (s : State) (e : Nat) (l : LoadRun) : Bool := l.abandoned || l.sent == s.loadPlies e

/-- The load that begins next: every one before it is over. -/
def State.nextLoad (s : State) (e : Nat) : Option (Nat × LoadRun) :=
  match ((s.engine e).run.loads.zipIdx).find? fun p => !s.loadGone e p.1 with
  | some (l, j) => if l.queued && !l.started then some (j, l) else none
  | none => none

/-- The slot an abort falls in: the latest that has started. -/
def FlyRun.slotNow (r : FlyRun) : Nat := r.slot - 1

/-- LOAD_START: the next queued load of engine `e` begins, or finds its band not complete (R235, R255). -/
def execLoadStart (e : Nat) (s : State) : Out :=
  .next (s.inService fun s =>
    match s.nextLoad e with
    | some (j, l) =>
      if e < 32 ∧ s.litNow e then
        let s := s.reach (s.slotTime l.at_.q)
        if s.bandReady e l then
          s.setRun e fun r => { r with
            loads := setAt r.loads j fun l => { l with started := true }, cells := setAt r.cells l.at_.band fun _ => some j }
        else s.abortTick e (s.engine e).run.slotNow 1
      else s
    | none => s)

/-- The cause of an underrun on engine `e` now: 0 egress data missing, 1 band not complete (R255). -/
def State.underrun (s : State) (e : Nat) : Option Nat :=
  match (s.engine e).run.loads.find? fun l => !s.loadGone e l with
  | some l =>
    if l.started then (if l.data.length < 128 * (l.sent + 1) then some 0 else none)
    else if l.queued && !s.bandReady e l then some 1 else none
  | none => none

/-- UNDERRUN (R255, R256). -/
def execUnderrun (e : Nat) (s : State) : Out :=
  .next (s.inService fun s =>
    if e < 32 ∧ s.litNow e then
      match s.underrun e with
      | some c => s.abortTick e (s.engine e).run.slotNow c
      | none => s
    else s)

/-- BAND_BLANK: the decision 100 units before the next reset of band `beta` (R258). -/
def execBandBlank (e beta : Nat) (s : State) : Out :=
  .next (s.inService fun s =>
    let r := (s.engine e).run
    let reset := r.table.bind fun t => (t.slots.drop r.slot).find? fun x => bitOf x.reset beta
    match r.nextSlot, reset with
    | some n, some x =>
      if e < 32 ∧ s.litNow e ∧ r.gapDone ∧ x.start ≤ n.start + 100 then (s.reach (s.slotTime x.start - 500)).decide_ e beta else s
    | _, _ => s)

/-- Bytes of engine `e`'s loads in the egress buffer. -/
def State.fill (s : State) (e : Nat) : Nat :=
  ((s.engine e).run.loads.map fun l => if l.abandoned then 0 else l.data.length - 128 * l.sent).sum

/-- The engine's share of the egress buffer (R253). -/
def State.egressShare (s : State) (e : Nat) : Nat := if s.split (e / 2) then 1048576 else 2097152

/-- The band block of a load in the plane store of engine `e` (R218). -/
def State.blockAt (s : State) (e : Nat) (l : LoadTime) : Nat :=
  let c := (s.engine e).fly.cfg
  planeAddr c.planeBase c.width c.height c.bands c.planes s.litBuf l.bank l.plane l.band 0 0

/-- The peak fill of a port. -/
def State.notePeak (s : State) (p : Nat) : State :=
  s.wr (FLY_PORT_EGRESS.PEAK_KIB p) (max (s.rd (FLY_PORT_EGRESS.PEAK_KIB p)) ((s.fill (2 * p) + s.fill (2 * p + 1)) / 1024))

/-- Fetched bytes of load `j` enter the egress buffer; bytes past the block are sent as 0 (R279). -/
def State.egress (s : State) (e j : Nat) (bs : List Byte) (whole : Nat) : State :=
  let full := 128 * s.loadPlies e
  (s.setRun e fun r => { r with loads := setAt r.loads j fun l =>
    let d := l.data ++ bs
    { l with data := if d.length = whole then d ++ List.replicate (full - whole) 0 else d } }).notePeak (e / 2)

/-- `n` more bytes of load `j` of engine `e`, as far as its block and its share of the buffer go. -/
def State.fetchBlock (s : State) (e j : Nat) (l : LoadRun) (whole n : Nat) : State :=
  let k := min n (min (whole - l.data.length) (s.egressShare e - s.fill e))
  let a := s.blockAt e l.at_ + l.data.length
  let bs := s.memRead a k
  (e :: s.clonesOf e).foldl (fun s q => if s.litNow q then s.egress q j bs whole else s) (s.countFenced a k)

/-- EGRESS_FETCH: the next `n` bytes of engine `e`'s loads are read, in queue order, for the engine and its clones (R201,
R253). -/
def execEgressFetch (e n : Nat) (s : State) : Out :=
  .next (s.inService fun s =>
    let c := (s.engine e).fly.cfg
    let whole := c.width / 8 * (c.height / c.bands)
    match ((s.engine e).run.loads.zipIdx).find? fun p => !p.1.abandoned && !p.1.dead && decide (p.1.data.length < whole) with
    | some (l, j) => if e < 32 ∧ s.leads e ∧ s.bandReady e l then s.fetchBlock e j l whole n else s
    | none => s)

end Sys2Proof.Machine
end

