-- ==== Sys2Proof/Machine/Reels.lean ====
section
/-! DEFINITION. The commands of the host interface and the reels, but for READ_BACK and host data (chapter Host interface and
reels). -/

namespace Sys2Proof.Machine

/-! ### NOP, FENCE, WAIT_TICK (R85, R87, R88) -/

def nopBody (_ : Nat) (d : Desc) (s : State) : Res :=
  s.checked (s.r82 d [] (dIndex d == 0) true false false) fun _ => .done s cDone 0

/-- NOP (R85). -/
def execNop (r : Nat) (s : State) : Out := .next (s.descriptor r 0x00 nopBody)

/-- A fence that is due writes its VALUE, then its completion record (R87). -/
def State.writeFence (s : State) (o : Origin) (addr value : Nat) : State := (s.hostWrite addr 8 value).outcome o cDone 0

/-- The commits a LIT fence of reel `r` waits for (R87). -/
def State.owed (s : State) (r : Nat) : List Nat :=
  (s.comp.waiting.filter fun w => w.owners.contains r).map (·.id)

def fenceBody (r : Nat) (d : Desc) (s : State) : Res :=
  let mode := dF d 24 0 2
  let tick := dF d 32 0 48
  let addr := dF d 8 0 64
  s.checked (s.r82 d [(8, 0, 64), (16, 0, 64), (24, 0, 2), (32, 0, 48)]
      (dIndex d == 0 && mode != 3 && (mode == 2 || tick == 0)) (hostOk addr 8 8) false false) fun _ =>
    let o := s.originOf r d
    let ids := if mode = 1 then s.owed r else []
    let at_ := if mode = 2 then tick else (s.reel r).litTick
    if mode = 0 ∨ (ids.isEmpty ∧ at_ ≤ s.tickNo) then .admitted (s.writeFence o addr (dF d 16 0 64))
    else if 64 ≤ s.hif.fences.length then .wait s .fenceFull
    else .admitted { s with hif := { s.hif with
      fences := s.hif.fences ++ [{ origin := o, addr := addr, value := dF d 16 0 64, waits := ids, tick := at_ }] } }

/-- FENCE (R87). -/
def execFence (r : Nat) (s : State) : Out := .next (s.descriptor r 0x01 fenceBody)

/-- A FENCE that waits for a pending place tries again. -/
def State.retryFence (s : State) (r : Nat) : State :=
  match s.held r with
  | some (_, .fenceFull) => (s.setReel r fun c => { c with busy := none }).runFront r 0x01 fenceBody
  | _ => s

/-- FENCE_WRITE at a tick edge: every pending fence whose commits are contained and whose tick has come (R87). -/
def State.writeFences (s : State) : State :=
  let due := s.hif.fences.filter fun f => f.waits.isEmpty && decide (f.tick ≤ s.tickNo)
  if due.isEmpty then s
  else
    let s := { s with hif := { s.hif with fences := s.hif.fences.filter fun f => !(f.waits.isEmpty && decide (f.tick ≤ s.tickNo)) } }
    let s := due.foldl (fun s f => s.writeFence f.origin f.addr f.value) s
    (List.range 64).foldl (fun s r => s.retryFence r) s

def waitTickBody (_ : Nat) (d : Desc) (s : State) : Res :=
  let abs := dB d 8 0
  let count := dF d 16 0 48
  let now := s.tickNo
  s.checked (s.r82 d [(8, 0, 2), (16, 0, 48)]
      (dIndex d == 0 && (if abs then decide (count ≤ now + 2 ^ 32) else decide (1 ≤ count ∧ count ≤ 65535))) true false false)
    fun _ =>
      let target := if abs then count else now + count
      let passed := if dB d 8 1 then decide (target < now) || (target == now && s.tick.latched) else decide (target ≤ now)
      if passed then .done s cDone 0 else .wait s (.waitTick target (dB d 8 1))

/-- WAIT_TICK (R88); HIF_CR_STATUS.WAITING shows that it holds its reel. -/
def execWaitTick (r : Nat) (s : State) : Out :=
  .next (s.descriptor r 0x02 fun r d s =>
    match waitTickBody r d s with
    | .wait t b => .wait (t.wr (HIF_CR_STATUS.WAITING r) 1) b
    | x => x)

/-- WAIT_TICK_RESUME: reels whose target tick's edge, or latch cycle, has come (R88). -/
def State.wakeReels (s : State) (latch : Bool) : State :=
  (List.range 64).foldl (fun s r =>
    match s.held r with
    | some (d, .waitTick t al) => if al = latch ∧ t ≤ s.tickNo then s.endHeld r d cDone 0 else s
    | _ => s) s

/-! ### Doorbells and fetch (R69, R70, R76, R77) -/

/-- The tail lies where R69 takes it. -/
def State.tailOk (s : State) (r tail : Nat) : Bool :=
  let ex := s.rd (HIF_CR_EXEC.EXEC r)
  let held := (s.rd (HIF_CR_TAIL.TAIL r) + 2 ^ 32 - ex) % 2 ^ 32
  let new := (tail + 2 ^ 32 - ex) % 2 ^ 32
  s.flag (HIF_CR_CFG.ENABLE r) && decide (held ≤ new) && decide (new ≤ 2 ^ (s.reel r).sizeLog2)

/-- DOORBELL: a 32-bit write of `tail` to offset `off` of BAR2 page `r`; `full` tells a 32-bit write (R69). -/
def execDoorbell (r off : Nat) (full : Bool) (w : Word) (s : State) : Out :=
  .next (s.inService fun s =>
    if 64 ≤ r then s
    else if off ≠ 0 ∨ full = false then s.bump HIF_DB_ERRORS.STRAY 1
    else if s.tailOk r w.toNat then
      if w.toNat = s.rd (HIF_CR_TAIL.TAIL r) then s
      else (s.wr (HIF_CR_TAIL.TAIL r) w.toNat).setReel r fun c => { c with doorbells := c.doorbells ++ [(w.toNat, s.now)] }
    else (s.bump HIF_DB_ERRORS.REFUSED 1).notice 1 cBadField 1 r (s.reel r).fetchCount)

/-- Descriptors pending (R69). -/
def State.pendingOf (s : State) (r : Nat) : Nat := (s.rd (HIF_CR_TAIL.TAIL r) + 2 ^ 32 - (s.reel r).fetchCount) % 2 ^ 32

/-- Completion slots that a fetch of the reel can still reserve (R77). -/
def State.slotsFree (s : State) (r : Nat) : Nat :=
  let v := (s.reel r).evr
  if s.evrOn v && !s.hif.d3hot then s.evrFree v - (s.evrTail v + s.evrReserved v) else 0

/-- Descriptors that a grant to the reel reads, but for reservations (R76, R77, R459). -/
def State.wanted (s : State) (r : Nat) : Nat :=
  let c := s.reel r
  if !s.flag (HIF_CR_CFG.ENABLE r) || s.flag (HIF_CR_STATUS.HALTED r) then 0
  else if c.cls = 0 then (if (s.evr c.evr).queue.length + 64 ≤ 1152 then min 64 (s.pendingOf r) else 0)
  else min (s.pendingOf r) (8 - (c.fetched.length + c.inFlight))

/-- Descriptors a grant now would read. -/
def State.grantSize (s : State) (r : Nat) : Nat :=
  if (s.reel r).cls = 0 then s.wanted r else min (s.wanted r) (s.slotsFree r)

/-- The class a request competes in, higher first (R76). -/
def State.fetchClass (s : State) (r : Nat) : Nat :=
  let c := s.reel r
  if c.cls = 0 then 2 else if c.cls = 1 ∨ max 1 (s.rd HIF_CFG.BULK_SHARE) ≤ c.bulkWait then 1 else 0

/-- Arrival of the request: the oldest doorbell whose descriptors are still to fetch (R76). -/
def State.fetchArrival (s : State) (r : Nat) : Nat := match (s.reel r).doorbells with | (_, t) :: _ => t | [] => s.now

/-- Request `a` goes before request `b` (R27). -/
def State.fetchBefore (s : State) (a b : Nat) : Bool :=
  decide (s.fetchClass b < s.fetchClass a) ||
    (s.fetchClass a == s.fetchClass b &&
      (decide (s.fetchArrival a < s.fetchArrival b) || (s.fetchArrival a == s.fetchArrival b && decide (a < b))))

def State.fetchWinner (s : State) : List Nat → Option Nat
  | [] => none
  | a :: r => match s.fetchWinner r with
    | none => some a
    | some b => if s.fetchBefore b a then some b else some a

/-- Reservation waits begin (R77). -/
def State.countStalls (s : State) : State :=
  (List.range 64).foldl (fun s r =>
    let c := s.reel r
    if c.cls ≠ 0 ∧ 0 < s.wanted r ∧ s.slotsFree r = 0 ∧ c.stallCounted = false then
      (s.bump (HIF_EVR_STATUS.RESERVE_STALLS c.evr) 1).setReel r fun c => { c with stallCounted := true }
    else s) s

/-- The winner's grant: slots reserved, the read issued (R76, R77). -/
def State.grantFetch (s : State) (r : Nat) : State :=
  let n := s.grantSize r
  let c := s.reel r
  let s := if c.cls = 0 then s else s.setEvr c.evr fun q => { q with reserved := q.reserved + n }
  s.setReel r fun c =>
    let fc := (c.fetchCount + n) % 2 ^ 32
    { c with fetchCount := fc, inFlight := c.inFlight + n, stallCounted := false, bulkWait := 0,
             doorbells := c.doorbells.filter fun p => let k := (p.1 + 2 ^ 32 - fc) % 2 ^ 32; decide (0 < k ∧ k ≤ 4096) }

/-- DESCRIPTOR_FETCH: one grant of the fetch arbiter (R76, R77). -/
def execDescriptorFetch (s : State) : Out :=
  .next (s.inService fun s =>
    if s.hif.d3hot || !s.flag HIF_STATUS.LINK_UP then s
    else
      let s := s.countStalls
      let asking := (List.range 64).filter fun r => decide (0 < s.grantSize r)
      match s.fetchWinner asking with
      | none => s
      | some w =>
        let normal := s.fetchClass w == 1
        let s := s.grantFetch w
        if normal then asking.foldl (fun s r =>
          if r ≠ w ∧ (s.reel r).cls = 2 then s.setReel r fun c => { c with bulkWait := c.bulkWait + 1 } else s) s
        else s)

/-- DESCRIPTOR_ARRIVAL: descriptors of reel `r` in flight arrive and are queued (R70). -/
def execDescriptorArrival (r : Nat) (ds : List Desc) (s : State) : Out :=
  .next (s.inService fun s =>
    if r < 64 ∧ ds.length ≤ (s.reel r).inFlight then
      (s.setReel r fun c => { c with fetched := c.fetched ++ ds, inFlight := c.inFlight - ds.length }).settle r
    else s)

/-! ### Counts (R71, R92) -/

/-- The executed count of reel `r` goes to its write-back address. -/
def State.writeBack (s : State) (r : Nat) : State :=
  if (s.reel r).wbDue && s.flag (HIF_CR_HEAD_WB.ENABLE r) then
    (s.hostWrite (4 * s.rd (HIF_CR_HEAD_WB.ADDR r)) 4 (s.rd (HIF_CR_EXEC.EXEC r))).setReel r fun c =>
      { c with wbDue := false, lastWb := some s.now }
  else s

/-- HEAD_WRITE_BACK: at most once per microsecond per reel (R71). -/
def execHeadWriteBack (r : Nat) (s : State) : Out :=
  .next (s.inService fun s =>
    let free : Bool := match (s.reel r).lastWb with | none => true | some t => decide (t + 1000 ≤ s.now)
    if r < 64 ∧ free ∧ s.hif.d3hot = false ∧ s.flag HIF_STATUS.LINK_UP then s.writeBack r else s)

/-- A record or a completion reservation waits for space in event reel `v` (R92). -/
def State.spaceWanted (s : State) (v : Nat) : Bool :=
  !(s.evr v).queue.isEmpty || (s.evr v).summary.isSome ||
    (List.range 64).any fun r => (s.reel r).evr == v && (s.reel r).cls != 0 && decide (0 < s.wanted r) && s.slotsFree r == 0

/-- The ripe summary is written once no alarm waits (R458, R459). -/
def State.trySummary (s : State) (v : Nat) : State :=
  if (s.evr v).summaryRipe ∧ (s.evr v).queue = [] then s.writeSummary v else s

/-- EVR_HEAD_READ: the device reads `count` from the consumed word of event reel `v` (R92). -/
def execEvrHeadRead (v : Nat) (count : Word) (s : State) : Out :=
  .next (s.inService fun s =>
    let free : Bool := match (s.evr v).lastHeadRead with | none => true | some t => decide (t + 2000 ≤ s.now)
    if v < 8 ∧ s.evrOn v ∧ free ∧ s.hif.d3hot = false ∧ s.flag HIF_STATUS.LINK_UP ∧
        s.evrFree v ≤ s.evrTail v + s.evrReserved v ∧ s.spaceWanted v then
      let s := s.setEvr v fun q => { q with lastHeadRead := some s.now }
      let produced := s.rd (HIF_EVR_PRODUCED.PRODUCED v)
      if (produced + 2 ^ 32 - count.toNat) % 2 ^ 32 ≤ s.evrSize v then
        (s.wrs [(HIF_EVR_CONSUMED.CONSUMED v, count.toNat), (HIF_EVR_STATUS.HEAD_ERROR v, 0)]).trySummary v
      else if s.flag (HIF_EVR_STATUS.HEAD_ERROR v) then s
      else (s.wr (HIF_EVR_STATUS.HEAD_ERROR v) 1).notice 4 cBadField 1 v produced
    else s)

/-- ALARM_QUEUE_WRITE: the oldest queued ALARM record of event reel `v` is written as a slot frees (R459). -/
def execAlarmQueueWrite (v : Nat) (s : State) : Out :=
  .next (s.inService fun s =>
    match (s.evr v).queue with
    | [] => s
    | a :: q =>
      if v < 8 ∧ s.alarmRoom v then
        ((s.putRecord v a.out).setEvr v fun e => { e with queue := q }).trySummary v
      else s)

/-! ### Resets and power states (R66, R67, R426) -/

/-- HIF registers other than HIF_STATUS. -/
def hifReg (off : Nat) : Bool := decide (0x20000 ≤ off) && decide (off < 0x40000) && off != HIF_STATUS.LINK_UP.off

/-- Copies into surfaces stop and their surfaces stay not ready (R66, R112). -/
def State.dropCopies (s : State) : State :=
  let s := s.surf.copies.foldl (fun s p => match p.2 with
    | some j => if j.began then s.setSurface j.surface fun f => { f with writes := f.writes - 1 } else s
    | none => s) s
  { s with surf := { s.surf with copies := [] } }

/-- The registers of the host interface that its reset clears (R66). -/
def State.clearHif (s : State) : State := { s with regs := s.regs.filter fun p => !hifReg p.1 }

/-- R66. The records and the LIT fences that admitted commits still owe are discarded with the others. -/
def State.hostReset (s : State) (flr : Bool) (linkDown : Bool) : State :=
  let s := s.dropCopies.clearHif
  let s := { s with
    hif := { out := s.hif.out, msix := s.hif.msix }
    pwr := { s.pwr with long := match s.pwr.long with | some (.store _) => some (.store 64) | x => x }
    sig := { s.sig with unfences := s.sig.unfences.map fun (u : Nat × Nat × Nat) => (64, u.2) }
    comp := { s.comp with waiting := s.comp.waiting.map fun (w : WaitCommit) =>
      { w with origin := { w.origin with dead := true }, owners := [] } } }
  let s := if linkDown then s.wrs [(HIF_STATUS.LINK_UP, 0), (HIF_STATUS.SPEED, 0), (HIF_STATUS.WIDTH, 0)] else s
  s.bump (if flr then HIF_STATUS.FLR_COUNT else HIF_STATUS.RESET_COUNT) 1

/-- HOST_INTERFACE_RESET: an FLR, or PERST_L low, a hot reset or a link loss; `linkDown` where the data link layer goes
down (R66). -/
def execHostInterfaceReset (flr linkDown : Bool) (s : State) : Out := .next (s.inService fun s => s.hostReset flr linkDown)

/-- D3HOT_ENTRY (R67). -/
def execD3hotEntry (s : State) : Out :=
  .next (s.inService fun s => { s with hif := { s.hif with d3hot := true } })

/-- D0_RETURN: what was held is written in order, then the latest executed counts and what waits for event reels (R67). -/
def execD0Return (s : State) : Out :=
  .next (s.inService fun s =>
    if s.hif.d3hot then
      let s := { s with hif := { s.hif with d3hot := false, out := s.hif.out ++ s.hif.held, held := [] } }
      let s := (List.range 64).foldl (fun s r => s.writeBack r) s
      ((List.range 8).foldl (fun s v => (s.drainAlarms v).trySummary v) s).flushPba
    else s)

/-- PCIE_LINK_UP: the data link layer comes up at a speed and width, from the rise of PORST_L on and only with PCIE_REFCLK
(R426, R498, R522). -/
def execPcieLinkUp (speed width : Nat) (s : State) : Out :=
  .next (if s.pwr.porst ∧ s.pwr.sysClk ∧ !s.pwr.dead ∧ s.pwr.pcieClk then
      (s.wrs [(HIF_STATUS.LINK_UP, 1), (HIF_STATUS.SPEED, speed), (HIF_STATUS.WIDTH, width)]).flushPba
    else s)

/-! ### Enabling reels (R68, R72 to R74, R91) -/

/-- The fields of HIF_CR_CFG that a write stores. -/
def State.storeCrCfg (s : State) (r w : Nat) : State :=
  s.wrs [(HIF_CR_CFG.CLASS r, bitsOf w 1 2), (HIF_CR_CFG.SIZE_LOG2 r, bitsOf w 3 4), (HIF_CR_CFG.EVR r, bitsOf w 8 3)]

/-- A successful enable takes the reel's settings and zeroes its counts (R68). A descriptor still in execution since a
disable finishes under its own SEQ (R72). -/
def State.enableReel (s : State) (r w : Nat) : State :=
  let s := s.setReel r fun c => { c with
    cls := min 2 (bitsOf w 1 2), base := 4096 * s.rd (HIF_CR_BASE.ADDR r), sizeLog2 := nearer (bitsOf w 3 4) 4 12,
    evr := bitsOf w 8 3, fetchCount := 0, inFlight := 0, stallCounted := false,
    carry := if c.busy.isSome then some (c.carry.getD (s.rd (HIF_CR_EXEC.EXEC r), c.evr, c.cls)) else none,
    doorbells := [], bulkWait := 0, wbDue := false }
  s.wrs [(HIF_CR_CFG.ENABLE r, 1), (HIF_CR_STATUS.ACTIVE r, 1), (HIF_CR_STATUS.HALTED r, 0),
    (HIF_CR_STATUS.CFG_ERROR r, 0), (HIF_CR_STATUS.WAITING r, 0), (HIF_CR_TAIL.TAIL r, 0), (HIF_CR_EXEC.EXEC r, 0)]

/-- Another reel is enabled as GUARDED (R74). -/
def State.guardedTaken (s : State) (r : Nat) : Bool :=
  (List.range 64).any fun q => q != r && s.flag (HIF_CR_CFG.ENABLE q) && (s.reel q).cls == 0

/-- CR_ENABLE: a write of HIF_CR_CFG with ENABLE 1 (R68, R74). -/
def execCrEnable (r : Nat) (w : Word) (s : State) : Out :=
  .next (s.setup fun s =>
    if 64 ≤ r then s
    else
      let s := s.storeCrCfg r w.toNat
      if s.flag (HIF_CR_CFG.ENABLE r) then s
      else if (bitsOf w.toNat 1 2 == 0 && s.guardedTaken r) || !s.evrOn (bitsOf w.toNat 8 3) then
        s.wr (HIF_CR_STATUS.CFG_ERROR r) 1
      else s.enableReel r w.toNat)

/-- R72: fetching stops, a WAIT_TICK ends with SUPERSEDED, descriptors not executed are discarded. -/
def State.disableReel (s : State) (r : Nat) : State :=
  let c := s.reel r
  let running := c.busy.isSome && !(c.busy == some .fenceFull)
  let keep := if running then c.fetched.take 1 else []
  let freed := c.fetched.length + c.inFlight - keep.length
  let s := if c.cls = 0 then s else s.setEvr c.evr fun q => { q with reserved := q.reserved - freed }
  let s := s.setReel r fun c => { c with
    fetched := keep, inFlight := 0, doorbells := [], busy := if running then c.busy else none }
  let s := s.wrs [(HIF_CR_CFG.ENABLE r, 0), (HIF_CR_STATUS.WAITING r, 0)]
  match s.held r with
  | some (d, .waitTick _ _) => s.finish r d cSuperseded 0
  | some _ => s
  | none => s.wr (HIF_CR_STATUS.ACTIVE r) 0

/-- CR_DISABLE: a write of HIF_CR_CFG with ENABLE 0 (R72). -/
def execCrDisable (r : Nat) (w : Word) (s : State) : Out :=
  .next (s.setup fun s =>
    if 64 ≤ r then s
    else
      let s := s.storeCrCfg r w.toNat
      if s.flag (HIF_CR_CFG.ENABLE r) then s.disableReel r else s)

/-- CR_RESTART: RESTART written 1 resumes a halted reel (R73). -/
def execCrRestart (r : Nat) (s : State) : Out :=
  .next (s.setup fun s =>
    if r < 64 ∧ s.flag (HIF_CR_STATUS.HALTED r) then (s.wr (HIF_CR_STATUS.HALTED r) 0).settle r else s)

/-- EVR_ENABLE: a write of HIF_EVR_CFG (R91). Disabling discards the records not yet written. -/
def execEvrEnable (v : Nat) (w : Word) (s : State) : Out :=
  .next (s.setup fun s =>
    if 8 ≤ v then s
    else
      let was := s.evrOn v
      let s := s.wrs [(HIF_EVR_CFG.ENABLE v, bitsOf w.toNat 0 1), (HIF_EVR_CFG.SIZE_LOG2 v, bitsOf w.toNat 1 4),
        (HIF_EVR_CFG.IRQ_SEV v, bitsOf w.toNat 5 2)]
      if bitOf w.toNat 0 && !was then
        let s := s.setEvr v fun q => { base := 4096 * s.rd (HIF_EVR_BASE.ADDR v), sizeLog2 := nearer (bitsOf w.toNat 1 4) 6 14,
                                       reserved := q.reserved }
        s.wrs [(HIF_EVR_STATUS.ACTIVE v, 1), (HIF_EVR_STATUS.HEAD_ERROR v, 0), (HIF_EVR_PRODUCED.PRODUCED v, 0),
          (HIF_EVR_CONSUMED.CONSUMED v, 0)]
      else if !bitOf w.toNat 0 && was then
        (s.setEvr v fun q => { base := q.base, sizeLog2 := q.sizeLog2, reserved := q.reserved }).wr (HIF_EVR_STATUS.ACTIVE v) 0
      else s)

end Sys2Proof.Machine
end

