-- ==== Sys2Proof/Machine/HostData.lean ====
section
/-! DEFINITION. The ends of host reads: table data of descriptors, and failed reads (R73, R84, R96, R108, R187, R345). -/

namespace Sys2Proof.Machine

/-- Bytes of the host data read of a descriptor: palette, coefficients, contexts, mesh, ramps, twist table, responses. -/
def hostDataLength (d : Desc) : Nat :=
  match dOpcode d with
  | 0x10 => 1024
  | 0x29 => 128 * coefTaps (dF d 16 0 1)
  | 0x2A => 32 * dF d 20 0 14
  | 0x30 => 19240
  | 0x31 => 2048
  | 0x34 => 64 + 16 * dF d 16 0 9
  | _ => 20 * dF d 9 0 4

/-- What a descriptor does with its host data. -/
def hostDataBody (r : Nat) (d : Desc) (bs : List Byte) (s : State) : Res :=
  if dOpcode d = 0x10 then paletteData d bs s
  else if dOpcode d = 0x29 then coefData d bs s
  else if dOpcode d = 0x2A then objData r d bs s
  else if dOpcode d = 0x30 then meshData d bs s
  else if dOpcode d = 0x31 then saddleData d bs s
  else if dOpcode d = 0x34 then twistData d bs s
  else respData d bs s

/-- HOST_DATA_READ_END: the host data of the descriptor in execution on reel `r` has arrived whole (R187). -/
def execHostDataReadEnd (r : Nat) (bs : List Byte) (s : State) : Out :=
  .next (s.inService fun s =>
    match s.held r with
    | some (d, .hostData) =>
      if s.hif.d3hot = false ∧ bs.length = hostDataLength d then s.apply r d (hostDataBody r d bs s) else s
    | _ => s)

/-- A failed descriptor fetch: what is in flight is not received, its completion slots are given back, and the reel halts
with notice 2 (R73, R84, R96). -/
def State.fetchFailed (s : State) (r : Nat) : State :=
  let c := s.reel r
  let s := s.bump HIF_READ_ERRORS.DESC 1
  if c.inFlight = 0 then s
  else
    let s := if c.cls = 0 then s else s.setEvr c.evr fun q => { q with reserved := q.reserved - c.inFlight }
    let s := s.setReel r fun c => { c with fetchCount := (c.fetchCount + 2 ^ 32 - c.inFlight) % 2 ^ 32, inFlight := 0 }
    (s.wr (HIF_CR_STATUS.HALTED r) 1).notice 2 cHostReadError (if c.cls = 0 then 2 else 1) r (s.reel r).fetchCount

/-- A failed data read of the descriptor in execution (R82, R84). -/
def State.dataFailed (s : State) (r : Nat) : State :=
  let s := s.bump HIF_READ_ERRORS.DATA 1
  match s.held r with
  | some (d, .hostData) => s.endHeld r d cHostReadError 0
  | some (d, .copy) => match s.copyOf r with
    | some j => s.endCopy r d j false cHostReadError 0
    | none => s
  | _ => s

/-- HOST_READ_ERROR (R84): `kind` 0 the descriptor fetch of command reel `r`, 1 a data read of its descriptor in execution, 2
the consumed-count read of event reel `r`. -/
def execHostReadError (kind r : Nat) (s : State) : Out :=
  .next (s.inService fun s =>
    match kind with
    | 0 => if r < 64 then s.fetchFailed r else s
    | 1 => if r < 64 then s.dataFailed r else s
    | 2 => if r < 8 then s.bump HIF_READ_ERRORS.DATA 1 else s
    | _ => s)

end Sys2Proof.Machine
end

