-- ==== Sys2Proof/Machine/Latch.lean ====
section
/-! DEFINITION. The latch point: taking commits, the re-evaluation with its shed steps and holds, and the assignment of scalers
(R47, R48, R59, R60, R127, R140 to R150, R168, R170, R471, R472). -/

namespace Sys2Proof.Machine

/-! ### What every taken commit does (R86, R87) -/

/-- A taken commit: the LIT fences that wait on it, and later ones of its reels, fall to the tick edge that begins frame N + 2
(R48, R87). -/
def State.fencesTaken (s : State) (w : WaitCommit) : State :=
  let t := s.tickNo + 2
  let drop (f : PendingFence) : PendingFence :=
    if f.waits.contains w.id then { f with waits := f.waits.filter (· ≠ w.id), tick := max f.tick t } else f
  let s := { s with hif := { s.hif with fences := s.hif.fences.map drop } }
  w.owners.foldl (fun s r => s.setReel r fun c => { c with litTick := max c.litTick t }) s

/-- A commit leaves the waiting ones. -/
def State.unwait (s : State) (id : Nat) : State :=
  { s with comp := { s.comp with waiting := s.comp.waiting.filter fun w => w.id != id } }

/-! ### Canvas commits (R127, R140 to R144) -/

/-- COMMIT_DEFER_MAX of canvas `c`. -/
def State.deferMax (s : State) (c : Nat) : Nat := s.rd ⟨CMP_DEFER_MAX.DEFER_MAX0.off, 4 * c + 3, 4 * c⟩

/-- The carried slots that the commit enables, that the steps in force do not shed, and whose surface is not ready (R142). -/
def State.lateSlots (s : State) (ls : List (Nat × Layer)) : List Nat :=
  (ls.filter fun p => p.2.enable && !s.shedNow.drops p.2.rank && !(s.surface p.2.surface).ready).map (·.1)

/-- The slots in force after a commit of canvas `c` with `late` slots kept (R127, R143). -/
def layersAfter (old : Tbl Layer) (c : Nat) (ls : List (Nat × Layer)) (late : List Nat) : Tbl Layer :=
  let gone := (old.filter fun p => p.2.canvas == c && p.2.enable && !(ls.any fun q => q.1 == p.1)).map (·.1)
  let t := gone.foldl (fun t n => Tbl.put (fun _ => {}) n {} t) old
  ls.foldl (fun t p => if late.contains p.1 then t else Tbl.put (fun _ => {}) p.1 p.2 t) t

/-- A canvas commit is taken, with the slots `late` kept (R140, R143). -/
def State.takeCanvas (s : State) (w : WaitCommit) (c : Nat) (cfg : CanvasCfg) (ls : List (Nat × Layer))
    (scalers : List (Nat × ScalerShadow)) (late : List Nat) : State :=
  let k := s.comp.latched
  let k := { k with
    canvases := Tbl.put (fun _ => {}) c cfg k.canvases
    layers := layersAfter k.layers c ls late
    kept := (k.kept.filter fun n => !(ls.any fun p => p.1 == n)) ++ late }
  let arrive := ls.foldl (fun t p => if late.contains p.1 then t else Tbl.put (fun _ => 0) p.1 (w.id + 1) t) s.comp.arrive
  let force := scalers.foldl (fun t p => Tbl.put (fun _ => {}) p.1 { p.2 with canvas := 0 } t) s.obj.force
  let s := { s with comp := { s.comp with latched := k, arrive := arrive }, obj := { s.obj with force := force } }
  let s := ((s.takeBatches w.id).bump (CMP_CV_COUNTS.TAKEN c) 1).raise (208 + 4 * c)
  let s := if late.isEmpty then s else (s.bump (CMP_CV_KEPT.KEPT c) late.length).raise (211 + 4 * c)
  ((s.unwait w.id).fencesTaken w).outcome w.origin cDone late.length

/-- A canvas commit is deferred (R142). -/
def State.deferCanvas (s : State) (w : WaitCommit) (c : Nat) : State :=
  let mark (x : WaitCommit) : WaitCommit := if x.id = w.id then { x with defers := x.defers + 1, told := true } else x
  let s := { s with comp := { s.comp with waiting := s.comp.waiting.map mark } }
  let s := (s.bump (CMP_CV_COUNTS.DEFERRALS c) 1).raise (210 + 4 * c)
  if w.told then s else s.deferredRecord w.origin

/-! ### Guarded commits (R148 to R150, R449) -/

/-- ACK_FALLBACK: FAILED and RUN of every region of the canvas clear, with one INFO record (R150, R449). -/
def State.ackFallback (s : State) (c : Nat) : State :=
  let s := { s with comp := { s.comp with failed := s.comp.failed.filter (· ≠ c) } }
  let s := (List.range 64).foldl (fun s r =>
    if (Tbl.get (fun _ => ({} : Region)) s.sig.force (64 * c + r)).enable then
      s.wrs [(SIG_RGN_STATE.FAILED (64 * c + r), 0), (SIG_RGN_STATE.RUN (64 * c + r), 0)] else s) s
  s.postSignature 0 c 0 4 0

def State.takeGuarded (s : State) (w : WaitCommit) (c : Nat) (o : Overlay) (ack : Bool) : State :=
  let late := o.enable && !(s.surface o.surface).ready
  let k := s.comp.latched
  let s := { s with comp := { s.comp with latched := { k with overlays := Tbl.put (fun _ => {}) c o k.overlays } } }
  let s := ((s.takeBatches w.id).bump (CMP_CV_COUNTS.TAKEN c) 1).raise (208 + 4 * c)
  let s := if late then s.raise (211 + 4 * c) else s
  let s := if ack then s.ackFallback c else s
  ((s.unwait w.id).fencesTaken w).outcome w.origin cDone (b2n late)

/-! ### Engine commits (R200, R209, R213, R215, R247 to R249) -/

/-- The items whose change is an engine mode change (R200, R249). -/
def modeChange (a b : EngBundle) : Bool :=
  a.cfg.enable != b.cfg.enable || a.cfg.width != b.cfg.width || a.cfg.height != b.cfg.height || a.cfg.bands != b.cfg.bands ||
    ((a.warp.mode == 3 || b.warp.mode == 3) && (a.warp.mode != b.warp.mode || a.warp.cloneSrc != b.warp.cloneSrc))

/-- A mode change of engine `e` is taken; from HOLD its sub-port goes to CONFIG (R249, R297). -/
def State.takeMode (s : State) (e : Nat) : State :=
  let s := s.setEngine e fun g => { g with modeLat := true }
  if s.linkState e = 6 then s.enterConfig e else s

def State.takeEngine (s : State) (w : WaitCommit) (e : Nat) (b : EngBundle) : State :=
  let old := (s.engine e).lat
  let b := s.takeSpindle e old b
  let s := if b.cfg.ditherLoaded then s.countFenced b.cfg.ditherAddr 8192 else s
  let s := s.setEngine e fun g => { g with lat := b, matrixRead := if b.cfg.ditherLoaded then some true else none }
  let s := if modeChange old b then s.takeMode e else s
  let s := if e % 2 = 0 ∧ old.cfg.split ≠ b.cfg.split then (s.takeMode e).takeMode (e + 1) else s
  (((s.showBundle e b).unwait w.id).fencesTaken w).outcome w.origin cDone 0

/-! ### Steps 1 and 2 of the latch cycle (R59) -/

/-- One waiting commit is examined, and taken or deferred. -/
def State.examine (s : State) (w : WaitCommit) : State :=
  match w.body with
  | .canvas c cfg ls _ scalers =>
    let late := s.lateSlots ls
    if late.isEmpty ∨ s.deferMax c ≤ w.defers then s.takeCanvas w c cfg ls scalers late else s.deferCanvas w c
  | .guarded c o ack _ => s.takeGuarded w c o ack
  | .engine e b => s.takeEngine w e b

/-- A commit that splits a port leaves the odd engine dark until a commit of its own is taken (R248). -/
def State.holdOdd (s : State) (w : WaitCommit) : State :=
  match w.body with
  | .engine e b =>
    if e % 2 = 0 ∧ b.cfg.split ∧ (s.engine e).lat.cfg.split = false then
      s.setEngine (e + 1) fun g => { g with lat := { g.lat with cfg := { g.lat.cfg with enable := false } } }
    else s
  | _ => s

/-- Every waiting commit, in the order of admission. -/
def State.takeCommits (s : State) : State :=
  let s := s.comp.waiting.foldl (fun s w => s.holdOdd w) s
  s.comp.waiting.foldl (fun s w => s.examine w) s

/-! ### Step 3: shedding and holding (R30, R31, R60, R471, R472) -/

/-- Explicit layers that name a fenced scaler fall back to AUTO with kernel 0 (R170). -/
def fallBack (fenced : List Nat) (j : ScaleJob) : ScaleJob :=
  if j.layer.names.any fenced.contains then { j with layer := { j.layer with scale := 0 } } else j

/-- The configuration in force after the commits of the latch point (R59). -/
def State.costNow (s : State) : CostCfg :=
  let k := s.costCfg [] s.comp.shadowR s.costArgs
  { k with canvases := k.canvases.map fun v => { v with layers := v.layers.map fun l => { l with job := l.job.map (fallBack k.fenced) } } }

/-- Ranks that an enabled layer in force on an enabled canvas holds, from 15 down to 1. -/
def CostCfg.ranks (k : CostCfg) : List Nat :=
  ((List.range 15).map (15 - ·)).filter fun r => k.canvases.any fun v => v.layers.any fun l => l.sets.any fun p => p.1.rank == r

/-- Shed steps and holds still to apply, one by one, in order (R30, R60): the shed state after each. -/
def nextSheds (k : CostCfg) (order : List Nat) (h : Shed) : List Shed :=
  let one := (k.ranks.filter fun r => decide (r < h.rank)).map fun (r : Nat) => fun (h : Shed) =>
    ({ h with rank := r, steps := if h.has 1 then h.steps else 1 :: h.steps } : Shed)
  let step (n : Nat) : List (Shed → Shed) :=
    if n = 1 then one
    else if h.has n then [] else [fun h =>
      -- every rank counts as shed once a step after step 1 applies
      let h := if order.idxOf 1 < order.idxOf n ∧ 1 < h.rank then { h with rank := 1, steps := if h.has 1 then h.steps else 1 :: h.steps } else h
      { h with steps := n :: h.steps }]
  let holds := ((k.canvases.map (·.c)).reverse.filter fun c => !h.held.contains c).map fun (c : Nat) => fun (h : Shed) =>
    ({ h with held := c :: h.held } : Shed)
  ((order.flatMap step ++ holds).foldl (fun (acc : List Shed × Shed) f => (acc.1 ++ [f acc.2], f acc.2)) ([], h)).1

/-- The configuration fits (R56, orders 1 to 9). -/
def CostCfg.fits (k : CostCfg) (a : CostArgs) (h : Shed) : Bool := (k.check a h).isNone

/-- Steps are applied until the configuration fits: the states passed through. -/
def shedUntil (k : CostCfg) (a : CostArgs) : List Shed → List Shed
  | [] => []
  | h :: r => if k.fits a h then [h] else h :: shedUntil k a r

/-- The latest shed step withdrawn; a step 1 whose ranks no layer holds goes with no event (R31). -/
def withdrawStep (k : CostCfg) (h : Shed) : List Nat → Option Shed
  | [] => none
  | 1 :: r =>
    match (k.ranks.filter fun n => decide (h.rank ≤ n)).reverse with
    | [] => withdrawStep k { h with steps := r, rank := 16 } r
    | [_] => some { h with steps := r, rank := 16 }
    | _ :: n :: _ => some { h with rank := n }
  | _ :: r => some { h with steps := r }

/-- A lower step 1 with nothing left to restore is cleared. -/
def clearEmpty (k : CostCfg) (h : Shed) : Shed :=
  if h.steps = [1] ∧ !(k.ranks.any fun n => decide (h.rank ≤ n)) then { h with steps := [], rank := 16 } else h

/-- RESTORE × 100 ms in ns (R469, R471). -/
def State.restoreNs (s : State) : Nat :=
  100000000 * if s.flag THM_CFG.EXPERT then max 1 (s.rd THM_LIMITS.RESTORE) else 10

/-- No decision has lowered C in the preceding RESTORE × 100 ms. -/
def State.mayRestore (s : State) : Bool :=
  match s.thm.loweredAt with | none => true | some t => decide (t + s.restoreNs ≤ s.now)

/-- At most one hold or step is withdrawn, where what is left fits (R31, R60, R471). -/
def State.restored (s : State) (k : CostCfg) (a : CostArgs) (h : Shed) : Option Shed :=
  match h.held.foldl (fun m c => some (match m with | some x => min x c | none => c)) none with
  | some c =>
    let t := { h with held := h.held.filter (· ≠ c) }
    if k.fits a t then some t else none
  | none =>
    if s.mayRestore then (withdrawStep k h h.steps).filter (k.fits a) else none

/-- TICK_SHED and the frame's shed state. -/
def State.showShed (s : State) (k : CostCfg) (h : Shed) : State :=
  let low := (k.ranks.filter fun r => decide (h.rank ≤ r)).foldl min 16
  let rank := if h.rank = 16 then 0 else if h.steps.head? = some 1 then h.rank else if low = 16 then 0 else low
  let s := s.wrs [(TICK_SHED.STEP, h.steps.foldl max 0), (TICK_SHED.RANK, rank),
    (TICK_SHED.HELD, (h.held.map fun c => 2 ^ c).sum)]
  let f := s.comp.latched
  let shed := (f.layers.filter fun p => p.2.enable && h.drops p.2.rank).map (·.1)
  { s with comp := { s.comp with latched := { f with shedSteps := h.steps, shedRank := h.rank, held := h.held, shed := shed } } }

/-- THM_SHED_ORDER as written. -/
def State.orderWritten (s : State) : List Nat :=
  [s.rd THM_SHED_ORDER.FIRST, s.rd THM_SHED_ORDER.SECOND, s.rd THM_SHED_ORDER.THIRD, s.rd THM_SHED_ORDER.FOURTH,
   s.rd THM_SHED_ORDER.FIFTH]

def orderOk (l : List Nat) : Bool := [1, 2, 3, 4, 5].all l.contains

/-- The order that a latch point without a shed step in force takes (R472). -/
def State.orderNew (s : State) : List Nat :=
  if s.flag THM_CFG.EXPERT && orderOk s.orderWritten then s.orderWritten else [1, 2, 3, 4, 5]

/-- κ of the ceiling in force (R470). -/
def kappaOf (c : Nat) : Nat := 256 * (c - 22) / 36

/-- Fraction of a limit in 1/4,096 steps, saturating. -/
def useOf (cost limit : Nat) : Nat := if limit = 0 then (if cost = 0 then 0 else 65535) else min 65535 (4096 * cost / limit)

/-- TICK_LEDGER_USE_x. -/
def State.showUse (s : State) (k : CostCfg) (a : CostArgs) (h : Shed) (scalers : Nat) : State :=
  let us := k.units h
  let tg := guardTime k.res
  let obj := (k.canvases.flatMap fun v => (List.range (v.cfg.height / 8)).map fun u =>
    let x := v.unit h u
    x.2.1 + 64 * x.2.2).sum
  let other := 640000 * (k.stack4 h - k.bulk4 h)
  let link := (k.engines.map fun g => useOf (g.loadBits h) ((if g.split then 50 else 100) * (a.pmin - a.gap - tRb - a.trp))).foldl max 0
  let warp := ((k.engines.filter fun g => !g.clone).map fun g => useOf (k.finish us g) (64 * g.cfg.height * a.work)).foldl max 0
  s.wrs [(TICK_LEDGER_USE.USE 0, useOf (4 * (us.map (·.t)).sum) (a.kappa * a.work - 4 * tg)),
    (TICK_LEDGER_USE.USE 1, useOf (640000 * k.bulk4 h) (stackLimit a h - other)),
    (TICK_LEDGER_USE.USE 2, link), (TICK_LEDGER_USE.USE 3, warp),
    (TICK_LEDGER_USE.USE 4, useOf (4 * obj) (a.kappa * a.work)), (TICK_LEDGER_USE.USE 5, scalers)]

/-- The re-evaluation: shed steps and holds as they come out, each reported (R59, R471). -/
def State.reevaluate (s : State) (k : CostCfg) : State :=
  let a := s.costArgs
  let h := clearEmpty k s.shedNow
  let path := if k.fits a h then (match s.restored k a h with | some t => [t] | none => [])
    else shedUntil k a (nextSheds k s.thm.order h)
  if path.isEmpty then s.showShed k h else path.foldl (fun s t => (s.showShed k t).raise 7) s

/-! ### Scalers (R168, R170) -/

/-- SCL_SCALER of a scaler that serves, or does not. -/
def State.showScaler (s : State) (n : Nat) (v : Option (ScaleJob × Nat × Nat)) : State :=
  match v with
  | none => s.wrs [(SCL_SCALER.IN_USE n, 0), (SCL_SCALER.CANVAS n, 0), (SCL_SCALER.SLOT n, 0), (SCL_SCALER.ROLE n, 0),
      (SCL_SCALER.PART n, 0), (SCL_SCALER.KERNEL_H n, 0), (SCL_SCALER.KERNEL_V n, 0)]
  | some (j, part, count) => s.wrs [(SCL_SCALER.IN_USE n, 1), (SCL_SCALER.CANVAS n, j.layer.canvas), (SCL_SCALER.SLOT n, j.slot),
      (SCL_SCALER.ROLE n, if count = 1 then 0 else if j.layer.mode = 3 then 2 else 1), (SCL_SCALER.PART n, part),
      (SCL_SCALER.KERNEL_H n, j.layer.kernelH), (SCL_SCALER.KERNEL_V n, j.layer.kernelV)]

/-- The scalers of the frame are assigned (R168). -/
def State.serveScalers (s : State) (k : CostCfg) : State :=
  let h := s.shedNow
  let raw := (s.costCfg [] s.comp.shadowR s.costArgs).jobs h
  let fell := raw.any fun j => j.layer.names.any s.obj.fenced.contains
  let jobs := k.jobs h
  let (free, served) := (assignScalers jobs k.pool).getD (k.pool, [])
  let job (slot : Nat) : ScaleJob := (jobs.find? fun j => j.slot == slot).getD ⟨0, slot, {}, 0⟩
  let serve := served.map fun p =>
    let j := job p.1
    let first := p.2.headD 0
    ({ slot := p.1, kernelH := j.layer.kernelH, kernelV := j.layer.kernelV, first := first,
       coefH := (s.sclForce first).coefH, coefV := (s.sclForce first).coefV } : ScaleServe)
  let s := { s with comp := { s.comp with latched := { s.comp.latched with serve := serve } } }
  let s := if fell then (s.bump SCL_FALLBACKS.FALLBACKS 1).raise 240 else s
  let s := (List.range 32).foldl (fun s n =>
    let v := (served.find? fun p => p.2.contains n).map fun p => (job p.1, p.2.idxOf n, p.2.length)
    (s.wr (SCL_SCALER.RESERVED n) (b2n (s.sclForce n).reserve)).showScaler n v) s
  s.wrs [(SCL_STATUS.POOL_FREE, free.length), (SCL_STATUS.TAPS4, b2n (h.has 3)),
    (SCL_STATUS.RESERVED, ((List.range 32).filter fun n => (s.sclForce n).reserve).length)]

/-! ### Registers of the compositor -/

/-- CMP_LAYER of a slot. -/
def State.showLayer (s : State) (n : Nat) : State :=
  let k := s.comp.latched
  let l := s.layerInForce n
  s.wrs [(CMP_LAYER.CANVAS n, l.canvas), (CMP_LAYER.ENABLE n, b2n l.enable), (CMP_LAYER.SHED_RANK n, l.rank), (CMP_LAYER.Z n, l.z),
    (CMP_LAYER.SURFACE n, l.surface), (CMP_LAYER.SHED n, b2n (k.shed.contains n)), (CMP_LAYER.KEPT n, b2n (k.kept.contains n))]

/-- CMP_STATUS, CMP_AREA and the registers of every canvas and slot. -/
def State.showCanvases (s : State) (was : List Nat) : State :=
  let k := s.comp.latched
  let on := (List.range 8).filter fun c => (s.canvasInForce c).enable
  let waits (c : Nat) : Nat := (s.comp.waiting.filterMap fun w => match w.body with
    | .canvas d .. => if d = c then some w.defers else none
    | _ => none).foldl max 0
  let bits (p : Nat → Bool) : Nat := ((List.range 8).map fun c => if p c then 2 ^ c else 0).sum
  let s := s.wrs [(CMP_STATUS.ENABLED, bits fun c => on.contains c), (CMP_STATUS.DEFERRED, bits fun c => decide (0 < waits c)),
    (CMP_STATUS.GUARD_ON, bits fun c => (s.overlayInForce c).enable),
    (CMP_AREA.AREA, (on.map fun c => (s.canvasInForce c).width * (s.canvasInForce c).height).sum)]
  let s := (List.range 8).foldl (fun s c =>
    let cv := s.canvasInForce c
    s.wrs [(CMP_CV_SIZE.WIDTH c, if cv.height = 0 then 0 else cv.width), (CMP_CV_SIZE.HEIGHT c, if cv.width = 0 then 0 else cv.height),
      (CMP_CV_BASE.ADDR c, cv.base / 4096), (CMP_CV_STATE.DEFER_COUNT c, min 15 (waits c)),
      (CMP_CV_STATE.LAYERS c, (s.slotsOn c).length), (CMP_CV_STATE.OBJ_ENABLE c, b2n cv.objEnable)]) s
  ((was ++ k.layers.map (·.1)).eraseDups).foldl (fun s n => s.showLayer n) s

/-- Engines in force in RECT or MESH mode that map a disabled canvas (R205). -/
def State.mapsDisabled (s : State) : List Nat :=
  (List.range 32).filter fun e =>
    let v := (s.engine e).lat.warp
    (v.mode == 1 || v.mode == 2) && !(s.canvasInForce v.canvas).enable

/-- Source 250, and the bounding boxes of mapped engines (R191, R205). -/
def State.latchEngines (s : State) : State :=
  let l := s.mapsDisabled
  let s := if l.any fun e => !s.eng.mapDisabled.contains e then s.raise 250 else s
  let s := { s with eng := { s.eng with mapDisabled := l } }
  ((List.range 32).filter fun e => (s.engine e).lat.warp.mode == 1 || (s.engine e).lat.warp.mode == 2).foldl
    (fun s e => s.showBundle e (s.engine e).lat) s

/-! ### The order of units (R54) -/

def insertUnit (a : CostUnit) : List CostUnit → List CostUnit
  | [] => [a]
  | b :: r => if b.before a then b :: insertUnit a r else a :: b :: r

def sortUnits (l : List CostUnit) : List CostUnit := l.foldr insertUnit []

/-! ### LATCH_POINT -/

/-- The latch point of the present tick is still to come (R47); before the first edge after an enable there is one too. -/
def State.latchDue (s : State) : Bool := s.tick.running && !s.tick.latched

/-- LATCH_GUARD in force, in ns. -/
def State.guardNs (s : State) : Nat := 1000 * s.rd TICK_TIMING.LATCH_GUARD_US

/-- What the frame takes over as it stands: surface descriptors, palettes, atlases, reservations and regions (R103, R110, R111,
R145, R447); c₃ and κ follow (R52, R470). -/
def State.latchShadows (s : State) : State :=
  let k := s.comp.latched
  let s := { s with
    comp := { s.comp with latched := { k with
      surfs := s.surf.surfs, palettes := s.surf.palettes, atlases := s.surf.atlases, reserves := s.comp.shadowR } }
    sig := { s.sig with taken := s.sig.shadow }
    tick := { s.tick with c3 := nearer (s.rd TICK_LEDGER_CTRL.C3_SHARE) 5 50 } }
  let s := s.wr TICK_LEDGER_KAPPA.KAPPA (kappaOf (s.rd THM_STATUS.CEIL_NOW))
  if s.comp.latched.shedSteps.isEmpty then { s with thm := { s.thm with order := s.orderNew } } else s

/-- The latch cycle (R59). -/
def State.latch (s : State) : State :=
  let was := s.comp.latched.layers.map (·.1)
  let s := (s.returnScalers.takeCommits).latchShadows
  let k := s.costNow
  let s := s.reevaluate k
  let s := s.serveScalers k
  let h := s.shedNow
  let order := (sortUnits (k.units h)).map fun x => (x.c, x.u)
  let used := ((List.range 32).filter fun n => s.flag (SCL_SCALER.IN_USE n)).length
  let s := { s with comp := { s.comp with latched := { s.comp.latched with order := order } } }
  let s := ((s.showUse k s.costArgs h used).showCanvases was).latchEngines
  let s := { s with tick := { s.tick with latched := true, applyRipe := s.tick.apply.isSome } }
  s.wakeReels true

/-- LATCH_POINT (R47, R59): LATCH_GUARD before the coming tick edge. -/
def execLatchPoint (s : State) : Out :=
  .next (s.inService fun s =>
    if s.latchDue then
      let s := s.settlePin
      (s.reach (s.tick.nextEdge - s.guardNs)).latch
    else s)

/-- OBJ_APPLY_WINDOW (R178): after the latch point, once the compositor has composed the frame it is on. -/
def execObjApplyWindow (s : State) : Out :=
  .next (s.inService fun s => if s.tick.latched && s.comp.todo.isEmpty then s.applyWindow else s)

end Sys2Proof.Machine
end

