-- ==== Sys2Proof/Machine/ReadBack.lean ====
section
/-! DEFINITION. READ_BACK: its checks, its sources and its progress (R89, R90, R224, R452). -/

namespace Sys2Proof.Machine

/-- HOST_ADDR, LENGTH, SOURCE and SRC of a READ_BACK. -/
def rbAddr (d : Desc) : Nat := dF d 8 0 64
def rbLength (d : Desc) : Nat := dF d 16 0 32
def rbSource (d : Desc) : Nat := dF d 20 0 3
def rbSrc (d : Desc) : Nat := dF d 24 0 64

/-- Ranges of INDEX, LENGTH, SOURCE and SRC (R89). -/
def readBackFields (d : Desc) : Bool :=
  let n := rbLength d
  decide (64 ≤ n) && decide (n ≤ 16777216) && n % 64 == 0 &&
    (match rbSource d with
     | 0 => dIndex d == 0
     | 1 => decide (dIndex d < 8)
     | 2 => decide (dIndex d < 32) && n == 2048 && rbSrc d == 0
     | 3 => dIndex d == 0
     | 4 => decide (dIndex d < 32) && n == 256 && rbSrc d == 0
     | _ => false)

/-- Alignment and ends of the host and the source range (R89). -/
def State.readBackAddrs (s : State) (d : Desc) : Bool :=
  let n := rbLength d
  hostOk (rbAddr d) n 64 &&
    (match rbSource d with
     | 0 => stackOk (rbSrc d) n 64
     | 1 =>
       let c := s.canvasInForce (dIndex d)
       rbSrc d % 64 == 0 && decide (rbSrc d + n ≤ 4 * c.width * c.height)
     | 3 => decide (rbSrc d + n / 32 ≤ 262144)
     | _ => true)

/-- The descriptor names a fenced engine or the contexts of a fenced bank (R82). -/
def State.readBackFenced (s : State) (d : Desc) : Bool :=
  match rbSource d with
  | 2 => s.engFenced (dIndex d)
  | 3 => s.touchesFenced (rbSrc d) (rbLength d / 32)
  | 4 => s.engFenced (dIndex d)
  | _ => false

/-- The histograms of an engine's latest complete frame; a clone gives its source's (R224). -/
def State.histogramOf (s : State) (e : Nat) : List Byte :=
  let g := s.engine e
  histBytes (s.engine (if g.fly.warp.mode = 3 then g.fly.warp.cloneSrc else e)).histDone

def readBackBody (_ : Nat) (d : Desc) (s : State) : Res :=
  s.checked (s.r82 d [(8, 0, 64), (16, 0, 32), (20, 0, 3), (24, 0, 64)] (readBackFields d) (s.readBackAddrs d)
      (s.readBackFenced d) false) fun _ =>
    .wait s (.readBack (rbSource d != 1) 0 (if rbSource d = 2 then s.histogramOf (dIndex d) else []))

/-- READ_BACK (R89). -/
def execReadBack (r : Nat) (s : State) : Out := .next (s.descriptor r 0x03 readBackBody)

/-- The 16 bytes of an entry of the plane CRC history (R452). -/
def CrcEntry.bytes (x : CrcEntry) : List Byte :=
  leBytes x.tick 6 ++ [BitVec.ofNat 8 x.status, 0] ++ leBytes x.crc 4 ++ leBytes x.echo 4

/-- Stack address of byte `k` of the source, for a source in the stack. -/
def State.readBackAt (s : State) (d : Desc) (k : Nat) : Option Nat :=
  match rbSource d with
  | 0 => some (rbSrc d + k)
  | 1 =>
    let c := Tbl.get (fun _ => ({} : CanvasCfg)) s.comp.lit (dIndex d)
    some (c.base + s.litBuf * 4 * c.width * c.height + rbSrc d + k)
  | _ => none

/-- `n` bytes of the source from byte `k` of the copy, as they stand (R90). -/
def State.readBackBytes (s : State) (d : Desc) (whole : List Byte) (k n : Nat) : List Byte :=
  match s.readBackAt d k with
  | some a => s.memRead a n
  | none =>
    let all : List Byte := match rbSource d with
      | 2 => whole
      | 3 => (List.range (rbLength d / 32)).flatMap fun i => leBytes (Tbl.get (fun _ => (0 : Ctx)) s.obj.ctxs (rbSrc d + i)).toNat 32
      | _ => (((s.crcs (dIndex d)).take 10).flatMap CrcEntry.bytes)
    (List.range n).map fun i => all.getD (k + i) 0

/-- What the reads of `n` bytes from byte `k` of the source count, for a source in the stack (R403, R413). -/
def State.readBackCount (s : State) (d : Desc) (k n : Nat) : State :=
  match s.readBackAt d k with
  | some a => (s.countFenced a n).countC3 a n
  | none => s

/-- `n` more bytes of the copy of reel `r`, of which `k` are written, go to the host (R90). -/
def State.readBackPiece (s : State) (r : Nat) (d : Desc) (k : Nat) (whole : List Byte) (n : Nat) : State :=
  let bs := s.readBackBytes d whole k n
  let s := s.readBackCount d k n
  let s := s.hostWrite (rbAddr d + k) n (ofLeBytes bs)
  if k + n = rbLength d then s.endHeld r d cDone 0
  else s.setReel r fun c => { c with busy := some (.readBack true (k + n) whole) }

def State.readBackMore (s : State) (r : Nat) (d : Desc) (k : Nat) (whole : List Byte) (n : Nat) : State :=
  if s.hif.d3hot ∨ n = 0 then s else s.readBackPiece r d k whole n

/-- READ_BACK_END: `n` more bytes of the copy of reel `r` are written to the host; with its last byte the copy ends (R90). -/
def execReadBackEnd (r n : Nat) (s : State) : Out :=
  .next (s.inService fun s =>
    match s.held r with
    | some (d, .readBack true k whole) => s.readBackMore r d k whole (min n (rbLength d - k))
    | _ => s)

/-- A tick edge stops the CANVAS_LIT copies in progress and starts those that wait (R90). -/
def State.readBackEdge (s : State) : State :=
  (List.range 64).foldl (fun s r =>
    match s.held r with
    | some (d, .readBack running k whole) =>
      if rbSource d ≠ 1 then s
      else if running then s.endHeld r d 0x02 (min 65535 (k / 65536))
      else s.setReel r fun c => { c with busy := some (.readBack true 0 whole) }
    | _ => s) s

end Sys2Proof.Machine
end

