-- ==== Sys2Proof/Machine/StackOps.lean ====
section
/-! DEFINITION. The memory stack's commands: the address map, refresh, tracking, parity and replay, and the training of a
pseudo-channel (R395 to R416). -/

namespace Sys2Proof.Machine

/-! ### The address map (R397 to R399) -/

/-- The nine masks as written. -/
def State.masksWritten (s : State) : List Nat :=
  ((List.range 5).map fun k => s.rd (STK_MAP_PC.MASK k)) ++ ((List.range 4).map fun j => s.rd (STK_MAP_BA.MASK j))

/-- The home bits of the nine masks. -/
def homes : List Nat := [8, 9, 10, 11, 12, 15, 16, 17, 18]

/-- A valid mask set (R398). -/
def masksOk (l : List Nat) : Bool :=
  l.length == 9 && (l.zip homes).all fun p =>
    homes.all (fun h => bitOf p.1 h == (h == p.2)) && p.1 % 32 == 0 && decide (p.1 < 2 ^ 34)

/-- A stack request is outstanding, or a block that may issue one is enabled (R399). -/
def State.stackBusy (s : State) : Bool :=
  s.flag TICK_CTRL.ENABLE ||
    ((List.range 64).any fun r => s.flag (HIF_CR_CFG.ENABLE r) || s.flag (HIF_CR_STATUS.ACTIVE r) ||
      match s.held r with
      | some (_, .copy) => true
      | some (_, .readBack true _ _) => true
      | _ => false) ||
    ((List.range 256).any fun c => s.flag (BBN_SC_CFG.ENABLE c)) ||
    !s.bbn.buffered.isEmpty || !s.comp.todo.isEmpty || !s.stk.aged.isEmpty

/-- MAP_APPLY (R399). -/
def State.mapApply (s : State) : State :=
  let l := s.masksWritten
  if !masksOk l then (s.wr STK_STATUS.MAP_CODE 0x71).raise 279
  else if s.stackBusy then (s.wr STK_STATUS.MAP_CODE 0x72).raise 279
  else
    let s := { s with stk := { s.stk with masks := l } }
    ((s.wrs ((l.zipIdx).map fun p => (STK_MAP_INFORCE.MASK p.2, p.1))).wr STK_STATUS.MAP_CODE 0).raise 279

def execMapApply (s : State) : Out := .next (s.setup State.mapApply)

/-! ### The aged tier and the C3 windows (R401 to R404) -/

/-- Class of a requester of R404. -/
def requesterClass (req : Nat) : Nat := if req < 16 then 0 else if req < 18 then 1 else if req < 87 then 2 else 3

/-- The C3 floor of a window, in bytes (R403). -/
def State.c3Floor (s : State) : Nat := 2048 * if s.comp.latched.shedSteps.contains 5 then 5 else s.tick.c3

def State.c3Moved (s : State) (pc : Nat) : Nat := Tbl.get (fun _ => 0) s.stk.c3 pc

/-- The age limit of a class in ns (R402). -/
def State.ageLimit (s : State) (cls : Nat) : Nat := 1000 * max 1 (s.rd (if cls = 2 then STK_AGE.AGE_C2 else STK_AGE.AGE_C3))

/-- The first `n` sub-requests of a pseudo-channel's aged tier have issued. -/
def dropAged (pc : Nat) : Nat → List (Nat × Nat × Nat) → List (Nat × Nat × Nat)
  | 0, l => l
  | _ + 1, [] => []
  | n + 1, p :: r => if p.1 = pc then dropAged pc n r else p :: dropAged pc (n + 1) r

/-- A sub-request takes its place by age, then by the requester table (R27, R401). -/
def joinAged (x : Nat × Nat × Nat) : List (Nat × Nat × Nat) → List (Nat × Nat × Nat)
  | [] => [x]
  | y :: r => if y.2.2 < x.2.2 ∨ (y.2.2 = x.2.2 ∧ y.2.1 ≤ x.2.1) then y :: joinAged x r else x :: y :: r

/-- AGED_TIER_JOIN: a sub-request of requester `req`, a Class A write where `classA`, that arrived at `arrival` joins; before
it `issued` sub-requests have left the tier (R402). -/
def execAgedTierJoin (pc req arrival issued : Nat) (classA : Bool) (s : State) : Out :=
  .next (s.inService fun s =>
    let cls := requesterClass req
    let old := decide (arrival + s.ageLimit cls ≤ s.now)
    let short := cls == 3 && decide (s.c3Moved pc < s.c3Floor)
    if pc < 32 ∧ req < 90 ∧ 2 ≤ cls ∧ arrival ≤ s.now ∧ (old ∨ short ∨ (classA ∧ req = 87)) then
      { s with stk := { s.stk with aged := joinAged (pc, req, arrival) (dropAged pc issued s.stk.aged) } }
    else s)

/-- C3_WINDOW: a new 10 µs window begins on an arbiter, from whose aged tier `issued` sub-requests have issued (R403). -/
def execC3Window (pc issued : Nat) (s : State) : Out :=
  .next (s.inService fun s =>
    if pc < 32 then
      { s with stk := { s.stk with c3 := Tbl.put (fun _ => 0) pc 0 s.stk.c3, aged := dropAged pc issued s.stk.aged } }
    else s)

/-! ### Refresh (R405 to R407) -/

/-- I in ns. -/
def State.refreshI (s : State) : Nat := if s.flag STK_STATUS.HOT then 1950 else 3900

def State.debt (s : State) (pc : Nat) : Int := Tbl.get (fun _ => 0) s.stk.debt pc
def State.setDebt (s : State) (pc : Nat) (d : Int) : State :=
  { s with stk := { s.stk with debt := Tbl.put (fun _ => 0) pc d s.stk.debt } }
def State.setBoundary (s : State) (pc t : Nat) : State :=
  { s with stk := { s.stk with boundary := Tbl.put (fun _ => none) pc (some t) s.stk.boundary } }

/-- `n` rounds issue, as long as D > 0. -/
def roundsIssued (i : Nat) : Nat → Int → Int
  | 0, d => d
  | n + 1, d => if 0 < d then roundsIssued i n (d - i) else d

/-- Rounds forced at a boundary that leaves D above the allowance of eight intervals. -/
def forcedRounds (i : Nat) (d : Int) : Nat := ((d - 8 * i + (i - 1 : Nat)) / (i : Int)).toNat

/-- REFRESH_BOUNDARY of a pseudo-channel: `rounds` have issued since the boundary before, and a C0 sub-request is pending
where `c0` (R406). DEDUCED: the forced rounds of a boundary are part of it, so that D stays within R407's bound. -/
def State.refreshBoundary (s : State) (pc rounds : Nat) (c0 : Bool) : State :=
  let i := s.refreshI
  let d := roundsIssued i rounds (s.debt pc) + i
  let k := forcedRounds i d
  let top := if 8 * (i : Int) < d then d - k * i else d
  let s := s.wr STK_REFRESH.DEBT_PEAK (max (s.rd STK_REFRESH.DEBT_PEAK) (min 4095 (top.toNat / 16)))
  let s := if 8 * (i : Int) < d then (s.setDebt pc (d - k * i)).bump STK_REFRESH.FORCED k
    else if !c0 && decide (0 < d) then s.setDebt pc (d - i)
    else s.setDebt pc d
  let at_ := match Tbl.get (fun _ => none) s.stk.boundary pc with | some t => t | none => s.now
  (s.reach at_).setBoundary pc (at_ + i)

def execRefreshBoundary (pc rounds : Nat) (c0 : Bool) (s : State) : Out :=
  .next (s.inService fun s => if pc < 32 then s.refreshBoundary pc rounds c0 else s)

/-- The change to hot on a pseudo-channel: the payment of the tick's first change, and the first boundary (R407). -/
def State.goHot (s : State) (pays : Bool) (pc : Nat) : State :=
  let d := s.debt pc
  if pays && decide (15600 < d) then
    let k := ((d - 15600 + 1949) / 1950).toNat
    (((s.setDebt pc (d - k * 1950)).setBoundary pc (s.now + 320 * k + 1950)).bump STK_REFRESH.PAYMENTS 1).raise 275
  else s.setBoundary pc (s.now + 1950)

/-- The refresh state changes (R405, R407). -/
def State.setHot (s : State) (hot : Bool) : State :=
  if s.flag STK_STATUS.HOT = hot then s
  else
    let s := (s.wr STK_STATUS.HOT (b2n hot)).raise 274
    if hot then
      let s := (List.range 32).foldl (fun s pc => s.goHot (!s.stk.paid) pc) s
      { s with stk := { s.stk with paid := true } }
    else (List.range 32).foldl (fun s pc => s.setBoundary pc (s.now + 3900)) s

/-- STACK_TEMP_READ: a reading in °C, or a failed readout (R405). -/
def execStackTempRead (ok : Bool) (reading : Int) (s : State) : Out :=
  .next (s.inService fun s =>
    if ok then
      let s := s.wrs [(STK_TEMP.READING, toField reading 8), (STK_TEMP.VALID, 1)]
      if 86 ≤ reading then s.setHot true else if reading ≤ 82 then s.setHot false else s
    else ((s.bump STK_TEMP.FAILS 1).raise 277).setHot true)

/-! ### Tracking (R409) -/

/-- LANE_TRACK: the centre of a lane is found off by a step or more, upwards where `up`. -/
def execLaneTrack (lane : Nat) (up : Bool) (s : State) : Out :=
  .next (s.inService fun s =>
    if 128 ≤ lane ∨ !s.flag STK_CFG.TRACK then s
    else
      let d : Int := if up then 1 else -1
      let drift := signedOf (s.rd (STK_LANE.DRIFT lane)) 3 + d
      if drift < -2 ∨ 2 < drift then
        if s.flag (STK_LANE.AT_LIMIT lane) then s else (s.wr (STK_LANE.AT_LIMIT lane) 1).raise 276
      else
        let move (f : Fld) : Nat := (clampI ((s.rd f : Int) + d) 0 127).toNat
        s.wrs [(STK_LANE.RD_DELAY lane, move (STK_LANE.RD_DELAY lane)), (STK_LANE.WR_DELAY lane, move (STK_LANE.WR_DELAY lane)),
          (STK_LANE.DRIFT lane, toField drift 3)])

/-! ### Parity, replay and exhaustion (R410 to R412) -/

/-- A row enters the row log with `count` failures, or has them added (R412). -/
def State.logRow (s : State) (pc bank row count : Nat) : State :=
  let at_ (n : Nat) : Bool := s.rd (STK_ROWLOG.COUNT n) != 0 && s.rd (STK_ROWLOG.PC n) == pc &&
    s.rd (STK_ROWLOG.BANK n) == bank && s.rd (STK_ROWLOG.ROW n) == row
  match (List.range 64).find? at_ with
  | some n => s.bump (STK_ROWLOG.COUNT n) count
  | none =>
    match (List.range 64).find? fun n => s.rd (STK_ROWLOG.COUNT n) == 0 with
    | some n => (s.wrs [(STK_ROWLOG.PC n, pc), (STK_ROWLOG.BANK n, bank), (STK_ROWLOG.ROW n, row),
        (STK_ROWLOG.COUNT n, min 255 count)]).raise 278
    | none => s.bump STK_REPLAY.LOG_FULL 1

/-- REPLAY_MAX in force; 0 acts as 1. -/
def State.replayMax (s : State) : Nat := max 1 (s.rd STK_CFG.REPLAY_MAX)

/-- The next block of an engine's Flyer that is still being fetched. -/
def FlyRun.fetching (r : FlyRun) (whole : Nat) : Option Nat :=
  (r.loads.zipIdx).findSome? fun p => if !p.1.abandoned && !p.1.dead && decide (p.1.data.length < whole) then some p.2 else none

/-- The data of an engine's next block does not reach the egress buffer, nor that of its clones (R411). -/
def State.loseBlock (s : State) (e : Nat) : State :=
  let c := (s.engine e).fly.cfg
  match (s.engine e).run.fetching (c.width / 8 * (c.height / c.bands)) with
  | some j => (e :: s.clonesOf e).foldl (fun s q =>
      if s.litNow q then s.setRun q fun r => { r with loads := setAt r.loads j fun l => { l with dead := true } } else s) s
  | none => s

def State.loseBurst (s : State) (kind a : Nat) : State := { s with stk := { s.stk with lost := s.stk.lost ++ [(kind, a)] } }

/-- A READ_BACK stops at the burst it could not read: the bytes before it have been written (R411). -/
def State.stopReadBack (s : State) (r a : Nat) : State :=
  match s.held r with
  | some (d, .readBack true k whole) =>
    match s.readBackAt d k with
    | some b =>
      let n := min (a / 32 * 32 - b) (rbLength d - k)
      let s := if n = 0 then s else s.hostWrite (rbAddr d + k) n (ofLeBytes (s.readBackBytes d whole k n))
      s.endHeld r d 0x70 (s.pcOf a)
    | none => s
  | _ => s

/-- A copy ends unsuccessfully at a write the stack could not carry out (R112, R411). -/
def State.stopCopy (s : State) (r a : Nat) : State :=
  match s.held r, s.copyOf r with
  | some (d, .copy), some j =>
    let s := if j.began then s else s.startWrite j.surface
    s.endCopy r d { j with began := true } false 0x70 (s.pcOf a)
  | _, _ => s

/-- What becomes of an exhausted sub-request (R411). -/
def State.exhausted (s : State) (v : StackVictim) (a : Nat) : State :=
  match v with
  | .flyer e => if s.leads e then s.loseBlock e else s
  | .guardedFetch => s.loseBurst 0 a
  | .otherFetch => s.loseBurst 1 a
  | .canvasWrite => s.loseBurst 2 a
  | .warpRead p => s.loseBurst (16 + p) a
  | .planeWrite e b => s.setEngine e fun g => { g with lostBands := b :: g.lostBands }
  | .histogramWrite e => s.setEngine e fun g => { g with frameOk := false }
  | .matrixRead e => s.setEngine e fun g => { g with matrixRead := g.matrixRead.map fun _ => false }
  | .copy r => s.stopCopy r a
  | .ingest c => s.loseFrame c 11
  | .readBack r => s.stopReadBack r a

/-- STACK_PARITY_FAIL: the `n`-th failure of a sub-request of `v`, in the burst of address `a` (R410 to R412). -/
def State.parityFail (s : State) (v : StackVictim) (a n : Nat) : State :=
  let l := locate s.stk.masks a
  let pc := pcOfLoc l
  let s := (s.bump (STK_PC_ERR.REPLAYS pc) 1).error eStack pc
  let s := s.logRow pc (bankOfLoc l) (rowOfLoc l) 1
  if n = s.replayMax + 1 then ((s.bump STK_REPLAY.EXHAUSTED 1).raise 272).exhausted v a else s

def execStackParityFail (v : StackVictim) (a n : Nat) (s : State) : Out :=
  .next (s.inService fun s =>
    if a < stackBytes ∧ 1 ≤ n ∧ n ≤ s.replayMax + 1 ∧ !s.pcFenced (s.pcOf a) then s.parityFail v a n else s)

/-! ### Training (R408, R414) -/

/-- Steps of a passing run. -/
def runSteps (lo hi : Nat) : Nat := hi + 1 - lo

def laneWindow (w : LaneSweep) : Nat := min (runSteps w.rdLo w.rdHi) (runSteps w.wrLo w.wrHi)

/-- A lane takes its delays from its sweeps (R408, steps 2 to 4). -/
def State.trainLane (s : State) (lane : Nat) (w : LaneSweep) : State :=
  s.wrs [(STK_LANE.RD_DELAY lane, min 127 ((w.rdLo + w.rdHi) / 2)), (STK_LANE.WR_DELAY lane, min 127 ((w.wrLo + w.wrHi) / 2)),
    (STK_LANE.WINDOW lane, min 127 (laneWindow w)), (STK_LANE.DRIFT lane, 0), (STK_LANE.AT_LIMIT lane, 0),
    (STK_LANE.FAILED lane, b2n (decide (laneWindow w < 16)))]

/-- The lanes of a pseudo-channel are trained; missing sweeps stand for no passing step. -/
def State.trainPc (s : State) (pc : Nat) (ws : List LaneSweep) : State :=
  (List.range 4).foldl (fun s b => s.trainLane (4 * pc + b) (ws.getD b ⟨1, 0, 1, 0⟩)) s

/-- Every lane of the pseudo-channel has its window (R408, step 5). -/
def State.pcTrained (s : State) (pc : Nat) : Bool := (List.range 4).all fun b => !s.flag (STK_LANE.FAILED (4 * pc + b))

/-- PC_RETRAIN_END: the training of a pseudo-channel that UNFENCE names ends with its lanes' sweeps (R414, R445). -/
def execPcRetrainEnd (pc : Nat) (ws : List LaneSweep) (s : State) : Out :=
  .next (s.inService fun s =>
    if s.stk.retraining.contains pc then
      let s := { s with stk := { s.stk with retraining := s.stk.retraining.filter (· ≠ pc) } }
      let s := s.trainPc pc ws
      if s.pcTrained pc then (s.setPcFenced pc false).returned 0 pc else s.endUnfences 0 pc cFenced 1
    else s)

end Sys2Proof.Machine
end

