-- ==== Sys2Proof/Machine/Thermal.lean ====
section
/-! DEFINITION. The thermal model and throttling: rail power, the case sensor, the model, the ceiling and the write window
(R462 to R475). -/

namespace Sys2Proof.Machine

/-- The thermal model runs from the rise of PORST_L, in every state of the device (R467). -/
def State.powered (s : State) : Bool := s.pwr.porst && s.pwr.sysClk && !s.pwr.dead

/-! ### Rail power (R462, R463) -/

/-- P_FAIL of the rails in mW. -/
def pFail : List Nat := [40000, 8000, 2000, 8000, 6000, 500, 500, 8000, 3000, 1000]

/-- A rail's millisecond: mean current in mA and mean power in mW, or no reading. -/
def State.railRead (s : State) (r : Nat) (x : RailMs) : State :=
  match x with
  | some (ma, mw) =>
    let s := { s with thm := { s.thm with rails := s.thm.rails.set r mw, missed := s.thm.missed.set r 0 } }
    s.wrs [(THM_RAIL.MA r, min 65535 ma), (THM_RAIL.MW r, min 32767 (mw / 4)), (THM_RAIL.FAILED r, 0)]
  | none =>
    let n := min 10 (s.thm.missed.getD r 0 + 1)
    let s := { s with thm := { s.thm with missed := s.thm.missed.set r n }, freeCtr := s.freeCtr + 1 }
    let s := s.wr (THM_RAIL.MA r) ((Config.freeWord (s.freeCtr - 1)).toNat % 65536)
    if n < 10 then s
    else
      let s := { s with thm := { s.thm with rails := s.thm.rails.set r (pFail.getD r 0) } }
      let s := s.wr (THM_RAIL.MW r) (pFail.getD r 0 / 4)
      if s.flag (THM_RAIL.FAILED r) then s else (s.wr (THM_RAIL.FAILED r) 1).raise 303

/-- P_total of the latest millisecond, mW. -/
def State.totalMw (s : State) : Nat := s.thm.rails.sum

/-! ### The model (R466 to R468) -/

/-- Power of a node in mW. -/
def State.nodeMw (s : State) (n : Nat) : Nat :=
  let r (i : Nat) := s.thm.rails.getD i 0
  match n with
  | 0 => r 2 + r 5 + r 6
  | 2 => r 0 + r 1
  | 3 => r 3 + r 4
  | 4 => r 8
  | 5 => r 7 + r 9
  | _ => 0

/-- 1 / (1,000 × C_n) in 1/300,000. -/
def nodeRate : List Nat := [12, 100, 250, 600, 1000, 75]

/-- Neighbours of a node with 6 / R. -/
def nodeEdges (n : Nat) : List (Nat × Nat) :=
  match n with
  | 0 => [(5, 12), (1, 120)]
  | 1 => [(2, 100), (3, 40), (4, 30), (0, 120)]
  | 2 => [(1, 100)]
  | 3 => [(1, 40)]
  | 4 => [(1, 30), (5, 15)]
  | _ => [(4, 15), (0, 12)]

/-- One update of node `n`, over 900,000,000 times the denominator (R467). -/
def State.nodeNext (s : State) (n : Nat) : Int :=
  let t (k : Nat) : Int := s.thm.nodes.getD k 0
  let case : Int := if n = 0 then 75 * (t 0 - s.thm.case * (s.thm.den / 256 : Nat)) else 0
  let flow := ((nodeEdges n).map fun p => (p.2 : Int) * (t n - t p.1)).sum + case
  t n * 900000000 + (nodeRate.getD n 0 : Int) * (3 * (s.nodeMw n * s.thm.den : Nat) - 500 * flow)

/-- Node of a hotspot, and 100 × θ × f (R468). -/
def hotspots : List (Nat × Nat) := [(2, 36), (2, 24), (2, 20), (2, 28), (2, 28), (3, 75), (4, 250), (5, 100)]

/-- The hotspots, over 100,000 times the denominator. -/
def State.hotNow (s : State) : List Int :=
  hotspots.map fun p => s.thm.nodes.getD p.1 0 * 100000 + ((p.2 * s.nodeMw p.1 * s.thm.den : Nat) : Int)

/-- T_hot. -/
def State.hotMax (s : State) : Int := (s.thm.hots.drop 1).foldl max (s.thm.hots.headD 0)

/-- `x` °C on the scale of the hotspots. -/
def State.onHot (s : State) (x : Int) : Int := x * 100000 * s.thm.den

/-- A temperature in 1/16 °C: exact, or one of the two nearest steps, which the spec does not say. -/
def State.sixteenth (s : State) (num : Int) (den : Nat) : State × Int :=
  let q := Int.fdiv (16 * num) den
  if q * den = 16 * num then (s, q)
  else ({ s with freeCtr := s.freeCtr + 1 }, q + (Config.freeWord s.freeCtr).toNat % 2)

def State.showTemp (s : State) (f : Fld) (num : Int) (den : Nat) : State :=
  let (s, q) := s.sixteenth num den
  s.wr f (toField q 16)

/-- The node, hotspot and T_hot registers. -/
def State.showTemps (s : State) : State :=
  let s := (List.range 6).foldl (fun s n => s.showTemp (THM_NODE.TEMP n) (s.thm.nodes.getD n 0) s.thm.den) s
  let s := (List.range 8).foldl (fun s h =>
    let s := s.showTemp (THM_HOT.TEMP h) (s.thm.hots.getD h 0) (100000 * s.thm.den)
    let t := s.rd (THM_HOT.TEMP h)
    if signedOf (s.rd (THM_HOT.PEAK h)) 16 < signedOf t 16 then s.wr (THM_HOT.PEAK h) t else s) s
  s.showTemp THM_STATUS.HOT_MAX s.hotMax (100000 * s.thm.den)

/-! ### The case sensor and the write window (R464, R465, R474) -/

/-- The case sensor answers. -/
def State.caseAnswers (s : State) : Bool :=
  s.thm.caseOk && match s.thm.caseAt with | some t => decide (s.now ≤ t + 20000000) | none => false

/-- SENSOR_OK and WRITE_OK; a fuse or flash write stops where WRITE_OK has fallen (R474, R491). -/
def State.showWindow (s : State) : State :=
  let ok := s.caseAnswers && s.thm.started && s.thm.hots.all fun t => decide (0 ≤ t) && decide (t ≤ s.onHot 85)
  let s := s.wrs [(THM_STATUS.SENSOR_OK, b2n s.caseAnswers), (THM_STATUS.WRITE_OK, b2n ok)]
  let writes := match s.pwr.long with
    | some (.bist _) => false
    | some _ => s.pwr.refusal.isNone
    | none => false
  if !ok && writes && s.pwr.stop == 0 then { s with pwr := { s.pwr with stop := 1 } } else s

/-- THERMAL_MODEL_UPDATE: the rails' readings of the millisecond, then the model (R462, R463, R467, R468, R473). -/
def State.thermalUpdate (s : State) (rails : List RailMs) : State :=
  let s := (List.range 10).foldl (fun s r => s.railRead r (rails.getD r none)) s
  let s := s.wr THM_POWER.TOTAL_MW (min 131071 s.totalMw)
  let s := { s with thm := { s.thm with powerSum := s.thm.powerSum + s.totalMw, powerN := s.thm.powerN + 1 } }
  if s.thm.caseAt.isNone then s
  else
    let s := if s.thm.started then
        { s with thm := { s.thm with nodes := (List.range 6).map s.nodeNext, den := 900000000 * s.thm.den } }
      else { s with thm := { s.thm with started := true, nodes := List.replicate 6 s.thm.case, den := 256 } }
    let s := { s with thm := { s.thm with hots := s.hotNow } }
    let tooHot := decide (s.onHot 125 ≤ s.hotMax)
    let s := if tooHot && !s.thm.tooHot then s.raise 301 else s
    ({ s with thm := { s.thm with tooHot := tooHot } }).showTemps.showWindow

def execThermalModelUpdate (rails : List RailMs) (s : State) : Out :=
  .next (if s.powered then s.thermalUpdate rails else s)

/-- CASE_SENSOR_READ: `ok` where every byte was acknowledged and the clock not stretched beyond 1 ms; `value` in 1/256 °C
(R464, R465). -/
def State.caseRead (s : State) (ok : Bool) (value : Int) : State :=
  let good := ok && decide (-55 * 256 ≤ value) && decide (value ≤ 150 * 256)
  let was := s.flag THM_STATUS.SENSOR_OK
  let fails := if good then 0 else s.thm.caseFails + 1
  let s := { s with thm := { s.thm with
    case := if good then value else 105 * 256, caseAt := some s.now, caseOk := good, caseFails := min 3 fails } }
  let s := s.showTemp THM_CASE.CASE s.thm.case 256
  let s := if good then s else s.bump THM_CASE.FAILS 1
  let s := s.showWindow
  if (good && !was) || (fails == 3) then s.raise 302 else s

/-- The device masters the sensor's bus from step 3 of start-up (R498). -/
def execCaseSensorRead (ok : Bool) (value : Int) (s : State) : Out :=
  .next (if s.powered ∧ (s.ready ∨ 3 ≤ s.pwr.step) then s.caseRead ok value else s)

/-! ### The ceiling (R469, R471) -/

def State.expert (s : State) : Bool := s.flag THM_CFG.EXPERT

/-- C and CEIL_HOST in W. -/
def State.ceilNow (s : State) : Nat := s.rd THM_STATUS.CEIL_NOW
def State.ceilHost (s : State) : Nat := nearer (s.rd THM_CFG.CEILING) 40 58

def State.ceilStep (s : State) : Nat := if s.expert then nearer (s.rd THM_CFG.STEP_W) 1 4 else 2
def State.tHigh (s : State) : Nat := if s.expert then nearer (s.rd THM_LIMITS.T_HIGH) 100 125 else 120
def State.tHyst (s : State) : Nat := if s.expert then max 2 (s.rd THM_LIMITS.HYST) else 5

/-- The ceiling's bits of THM_STATUS. -/
def State.showCeil (s : State) (c : Nat) : State :=
  s.wrs [(THM_STATUS.CEIL_NOW, c), (THM_STATUS.THROTTLED, b2n (decide (c < s.ceilHost))), (THM_STATUS.AT_FLOOR, b2n (c == 40))]

/-- CEILING_DECISION, after that millisecond's update (R469). -/
def State.ceilingDecision (s : State) : State :=
  let c := s.ceilNow
  let step := s.ceilStep
  let sum := s.thm.powerSum
  let n := s.thm.powerN
  let s := { s with thm := { s.thm with powerSum := 0, powerN := 0 } }
  if (s.onHot s.tHigh ≤ s.hotMax ∨ 1000 * c * n < sum) ∧ 40 < c then
    let s := { s with thm := { s.thm with loweredAt := some s.now } }
    ((s.showCeil (max 40 (c - step))).bump THM_COUNTS.LOWERED 1).raise 300
  else if s.hotMax ≤ s.onHot (s.tHigh - s.tHyst : Nat) ∧ sum ≤ 1000 * (c - step) * n ∧ c < s.ceilHost then
    ((s.showCeil (min s.ceilHost (c + step))).bump THM_COUNTS.RAISED 1).raise 300
  else s

def execCeilingDecision (s : State) : Out := .next (s.inService State.ceilingDecision)

/-- CEILING_WRITE: a write of THM_CFG; a CEIL_HOST below C lowers C at once (R469). -/
def State.ceilingWrite (s : State) (x : Nat) : State :=
  let s := s.wrs [(THM_CFG.CEILING, bitsOf x 0 6), (THM_CFG.STEP_W, bitsOf x 6 3), (THM_CFG.INTERVAL, bitsOf x 16 5),
    (THM_CFG.EXPERT, bitsOf x 31 1)]
  if s.ceilHost < s.ceilNow then ((s.showCeil s.ceilHost).bump THM_COUNTS.LOWERED 1).raise 300
  else s.showCeil s.ceilNow

def execCeilingWrite (w : Word) (s : State) : Out := .next (s.setup fun s => s.ceilingWrite w.toNat)

end Sys2Proof.Machine
end

