-- ==== Sys2Proof/Machine/SelfTest.lean ====
section
/-! DEFINITION. Self-test groups, life-cycle transitions, fuse repair and user self-test, and the end of every long operation
(R98, R350, R480 to R495). -/

namespace Sys2Proof.Machine

/-! ### Results (R492) -/

def rDone : Nat := 0
def rRefusedState : Nat := 1
def rRefusedTemp : Nat := 2
def rTokenBad : Nat := 3
def rInterrupted : Nat := 4
def rVerifyFail : Nat := 5
def rFuseFull : Nat := 6

/-! ### Self-test groups (R480, R482, R483, R522) -/

/-- Fence units of a group: backbone ports, scalers, banks and the mirror (16), ports, pseudo-channels. -/
def groupUnits (g : Nat) : List Nat :=
  match g with
  | 0 => [0, 1]
  | 1 => []
  | 2 => List.range 16
  | 3 => (List.range 16).map (16 + ·)
  | 4 => List.range 8
  | 5 => (List.range 9).map (8 + ·)
  | 10 => List.range 16
  | 11 => (List.range 16).map (16 + ·)
  | _ => if g < 10 then (List.range 4).map (4 * (g - 6) + ·) else []

/-- A group whose reference clock is absent fails in the units the clock serves (R522). -/
def State.clockless (s : State) (g : Nat) : Bool :=
  (g == 0 && !s.pwr.bbnClk) || (decide (6 ≤ g) && decide (g ≤ 9) && !bitOf s.pwr.sknClk (g - 6))

/-- Units of group `g` whose own result is FAIL or INCOMPLETE. -/
def State.failedUnits (s : State) (g : Nat) (r : GroupRun) : List Nat :=
  (groupUnits g).filter fun u => r.early || s.clockless g || r.bad.contains u

/-- SELF_BIST_RESULTg of a run: 0 PASS, 1 FAIL, 2 INCOMPLETE (R482). -/
def State.groupResult (s : State) (g : Nat) (r : GroupRun) : Nat :=
  if r.early then 2 else if (s.failedUnits g r).isEmpty && !r.badCore then 0 else 1

/-- The registers a run updates (R482 to R484). -/
def State.showRun (s : State) (g : Nat) (r : GroupRun) (user : Bool) : State :=
  let s := s.wrs [(SELF_BIST_RESULT.RESULT g, s.groupResult g r), (SELF_BIST_RESULT.USER g, b2n user),
    (SELF_BIST_RESULT.REPAIRED g, b2n (decide (0 < r.spares + r.lanes))), (SELF_BIST_RESULT.PATTERNS g, min 65535 r.patterns)]
  let s := (s.bump SELF_REPAIR.SRAM_NEW r.spares).bump SELF_REPAIR.LANES r.lanes
  if g = 4 ∨ g = 5 then
    (r.banks.filter (· < 16)).foldl (fun s b => s.wr OBJ_BANKS.REPAIRED (setBit (s.rd OBJ_BANKS.REPAIRED) b 1)) s
  else s

/-! ### Long operations (R98, R489) -/

/-- A long operation of kind `kind` begins; `op` is shown in SELF_OP_STATUS. -/
def State.beginLong (s : State) (l : LongOp) (kind op : Nat) (refusal : Option Nat) : State :=
  let s := { s with pwr := { s.pwr with long := some l, refusal := refusal, stop := if s.pwr.pwrOk then 0 else 2 } }
  s.wrs [(DEV_STATUS.BUSY, 1), (DEV_STATUS.LONG_OP, kind), (SELF_OP_STATUS.OP, op)]

/-- The long operation is over: BUSY clears. -/
def State.clearLong (s : State) : State :=
  ({ s with pwr := { s.pwr with long := none, refusal := none, stop := 0 } }).wrs [(DEV_STATUS.BUSY, 0), (DEV_STATUS.LONG_OP, 0)]

def State.endLong (s : State) (result : Nat) : State := s.clearLong.wr SELF_OP_STATUS.RESULT result

/-! ### Life-cycle transitions (R488 to R491) -/

/-- SELF_CHALLENGE is drawn afresh (R490). -/
def State.drawChallenge (s : State) : State :=
  ({ s with freeCtr := s.freeCtr + 1 }).wr SELF_CHALLENGE.CHALLENGE (Config.freeChallenge s.freeCtr).toNat

/-- The RETURN token is valid; `sig` where its signature verifies against the KEY group (R490). -/
def State.tokenOk (s : State) (sig : Bool) : Bool :=
  let w (k : Nat) := s.rd (SELF_TOKEN.BYTES k)
  sig && s.pwr.fuses.keyOk && w 0 + 2 ^ 32 * w 1 == s.rd DEV_SERIAL.SERIAL &&
    w 2 + 2 ^ 32 * w 3 == s.rd SELF_CHALLENGE.CHALLENGE

/-- The bit of SELF_LC_CTRL that the present state allows: BLANK to TEST, TEST to FIELD, FIELD to RETURN (R488). -/
def State.lcAllowed (s : State) : Option Nat :=
  match s.rd DEV_STATUS.LC with | 0 => some 1 | 1 => some 2 | 2 => some 4 | _ => none

/-- The result that refuses a request (R489, steps 1 to 3). -/
def State.lcRefusal (s : State) (bits : Nat) (sig : Bool) : Option Nat :=
  if s.lcAllowed ≠ some bits then some rRefusedState
  else if !s.flag THM_STATUS.WRITE_OK then some rRefusedTemp
  else if bits = 4 ∧ !s.tokenOk sig then some rTokenBad
  else none

/-- A write of SELF_LC_CTRL with some bit set (R489). -/
def State.lcWrite (s : State) (w : Nat) (sig : Bool) : State :=
  let bits := w % 8
  let top := if 4 ≤ bits then 2 else if 2 ≤ bits then 1 else 0
  s.beginLong (.lifeCycle top) 1 (top + 1) (s.lcRefusal bits sig)

/-- TO_TEST: a write of SELF_LC_CTRL with bit 0 (R489). -/
def execToTest (w : Nat) (s : State) : Out := .next (s.setup fun s => if bitOf w 0 then s.lcWrite w false else s)

/-- TO_FIELD: a write of SELF_LC_CTRL with bit 1 (R489). -/
def execToField (w : Nat) (s : State) : Out := .next (s.setup fun s => if bitOf w 1 then s.lcWrite w false else s)

/-- TO_RETURN: a write of SELF_LC_CTRL with bit 2 (R489, R490). -/
def execToReturn (w : Nat) (sig : Bool) (s : State) : Out := .next (s.setup fun s => if bitOf w 2 then s.lcWrite w sig else s)

/-- The programming of `n` cells or words, the last of which reads back right where `ok`, comes to this result; `none` where
it has not ended (R489, R491). -/
def State.fuseResult (s : State) (n whole : Nat) (ok : Bool) : Option Nat :=
  if !ok then some rVerifyFail
  else if whole ≤ n then some rDone
  else if s.pwr.stop = 0 then none
  else some rInterrupted

/-- A transition ends (R489, R490). -/
def State.endTransition (s : State) (bit n : Nat) (ok : Bool) : State :=
  let finish (s : State) (r : Nat) : State :=
    let s := s.endLong r
    let s := if bit = 2 then s.drawChallenge else s
    if r = rDone then (s.wr SELF_LC.PENDING 1).raise 2 else s.raise 1
  match s.pwr.refusal with
  | some r => finish s r
  | none =>
    match s.fuseResult n 3 ok with
    | none => s
    | some r =>
      let good := min 3 (if ok then n else n - 1)
      let cells := setAt s.pwr.fuses.cells bit fun c => c ||| (2 ^ good - 1)
      finish { s with pwr := { s.pwr with fuses := { s.pwr.fuses with cells := cells } } } r

/-! ### Fuse repair (R493) -/

/-- SELF_FUSE_STATUS (R479). -/
def State.showRepairs (s : State) : State :=
  let l := s.pwr.fuses.repairs
  let last := (l.zipIdx).foldl (fun m p => if p.1 then p.2 else m) 0
  s.wrs [(SELF_FUSE_STATUS.GROUPS_USED, min 8 l.length), (SELF_FUSE_STATUS.GOVERNING, last)]

/-- PROGRAM_REPAIR (R493). -/
def execProgramRepair (s : State) : Out :=
  .next (s.setup fun s =>
    let refusal := if s.rd DEV_STATUS.LC ≠ 1 then some rRefusedState
      else if !s.flag THM_STATUS.WRITE_OK then some rRefusedTemp
      else if 8 ≤ s.pwr.fuses.repairs.length then some rFuseFull
      else none
    s.beginLong .repair 1 4 refusal)

/-- Fuse repair ends: a group whose programming began is used, and governs if its check word stands (R479, R491, R493). -/
def State.endRepair (s : State) (n : Nat) (ok : Bool) : State :=
  let finish (s : State) (r : Nat) : State := if r = rDone then s.endLong r else (s.endLong r).raise 1
  match s.pwr.refusal with
  | some r => finish s r
  | none =>
    let r := if !ok then rVerifyFail else if s.pwr.stop = 0 then rDone else rInterrupted
    let used := if r = rInterrupted ∧ n = 0 then s.pwr.fuses.repairs else s.pwr.fuses.repairs ++ [r == rDone]
    finish ({ s with pwr := { s.pwr with fuses := { s.pwr.fuses with repairs := used } } }).showRepairs r

/-! ### User self-test (R494) -/

/-- A unit's run begins: the unit is fenced for its duration. -/
def State.testUnit (s : State) (g u : Nat) : State :=
  if g = 2 ∨ g = 3 then (if s.obj.fenced.contains u then s else s.setScalerFenced u true)
  else if g = 4 ∨ g = 5 then (if s.resFenced 2 u then s else s.setBankFenced u true)
  else if g ≤ 9 then
    let s := (s.enginesOf u).foldl (fun s e => ((s.linkOff e).endTick e).abandonCals e false) s
    (s.setPort u fun l => { l with testing := true }).showResources
  else if s.pcFenced u then s
  else s.setPcFenced u true

def State.beginGroup (s : State) (g : Nat) : State := (groupUnits g).foldl (fun s u => s.testUnit g u) s

/-- A unit fenced by escalation too comes back as at an UNFENCE, and UNFENCEs waiting for it are done (R445, R494). -/
def State.comeBack (s : State) (rtype i : Nat) : State :=
  let s := if s.sig.escFenced.contains (rtype, i) then s.clearLevels rtype i else s
  s.endUnfences rtype i cDone 1

/-- Zero fill of a pseudo-channel, whose training is over (R408, R494). -/
def State.zeroPc (s : State) (pc : Nat) : State :=
  { s with stk := { s.stk with
    mem := s.stk.mem.filter fun c => pcOfLoc c.1 != pc
    retraining := s.stk.retraining.filter (· ≠ pc) } }

/-- A unit passed: it returns to service. -/
def State.unitPasses (s : State) (g u : Nat) : State :=
  if g = 2 ∨ g = 3 then (s.setScalerFenced u false).comeBack 3 u
  else if g = 4 ∨ g = 5 then
    let s := (s.setBankFenced u false).comeBack 2 u
    { s with obj := { s.obj with refill := u :: s.obj.refill, restoring := s.obj.restoring.filter (· ≠ u) } }
  else if g ≤ 9 then
    let s := s.wr DEV_PU_FENCED.PORTS (setBit (s.rd DEV_PU_FENCED.PORTS) u 0)
    let s := [2 * u, 2 * u + 1].foldl (fun s e =>
      let s := { s with sig := { s.sig with engFenced := s.sig.engFenced.filter (· ≠ e) } }
      (s.clonesOf e).foldl (fun s k => s.wr (CNV_ENG_CFG.CLONE_DARK k) 0) (s.comeBack 1 e)) s
    if s.portMayTrain u then (s.enginesOf u).foldl (fun s e => if s.linkState e = 0 then s.train e none else s) s else s
  else if s.pcTrained u then
    ((s.zeroPc u).setPcFenced u false).comeBack 0 u
  else s

/-- A unit failed: it stays fenced as if at power-up (R487). -/
def State.unitFails (s : State) (g u : Nat) : State :=
  let mark (k : Nat) (s : State) : State :=
    { s with pwr := { s.pwr with puFenced := (k, u) :: s.pwr.puFenced.filter (· ≠ (k, u)) } }
  if g = 2 ∨ g = 3 then mark 3 s
  else if g = 4 ∨ g = 5 then mark 2 s
  else if g ≤ 9 then s.wr DEV_PU_FENCED.PORTS (setBit (s.rd DEV_PU_FENCED.PORTS) u 1)
  else s

/-- What a run does to a unit whatever its result: bank contexts are lost, a port's run is over, a pseudo-channel is trained. -/
def State.afterRun (s : State) (g u : Nat) (r : GroupRun) : State :=
  if g = 4 ∨ g = 5 then
    if u = 16 then { s with obj := { s.obj with mirror := [] } }
    else { s with obj := { s.obj with ctxs := s.obj.ctxs.filter fun p => bankOf p.1 != u } }
  else if 6 ≤ g ∧ g ≤ 9 then s.setPort u fun l => { l with testing := false }
  else if 10 ≤ g then s.trainPc u ((r.sweeps.drop (4 * (u % 16))).take 4)
  else s

/-- The run of group `g` ends (R494). -/
def State.endGroup (s : State) (g : Nat) (r : GroupRun) : State :=
  let res := s.groupResult g r
  let bad := s.failedUnits g r
  let s := s.showRun g r true
  let s := (groupUnits g).foldl (fun s u => s.afterRun g u r) s
  let s := { s with pwr := { s.pwr with puFenced := s.pwr.puFenced.filter fun x =>
    !((x.1 == 3 && (g == 2 || g == 3) || x.1 == 2 && (g == 4 || g == 5)) && (groupUnits g).contains x.2 && !bad.contains x.2) } }
  let s := (groupUnits g).foldl (fun s u => if bad.contains u then s.unitFails g u else s.unitPasses g u) s
  let s := s.showResources.showObjects
  if res = 0 then s else s.raise 1

/-- BIST_START: a write of SELF_BIST_CTRL with START 1 (R494). -/
def execBistStart (w : Nat) (s : State) : Out :=
  .next (s.setup fun s =>
    if !bitOf w 16 then s
    else
      let groups := w % 4096
      let s := s.wr SELF_BIST_CTRL.GROUPS groups
      let lc := s.rd DEV_STATUS.LC
      if (lc ≠ 1 ∧ lc ≠ 3) ∨ groups = 0 ∨ groups % 4 ≠ 0 then
        s.wrs [(SELF_OP_STATUS.OP, 5), (SELF_OP_STATUS.RESULT, rRefusedState)]
      else
        let l := (List.range 12).filter fun g => bitOf groups g
        (s.beginLong (.bist l) 3 5 none).beginGroup (l.headD 0))

/-- The run in progress ends; the next group's begins, or the operation is over. -/
def State.endBist (s : State) (l : List Nat) (r : GroupRun) : State :=
  match l with
  | [] => s.endLong rDone
  | g :: rest =>
    let s := s.endGroup g r
    match rest with
    | [] => s.endLong rDone
    | h :: _ => ({ s with pwr := { s.pwr with long := some (.bist rest) } }).beginGroup h

/-- PWR_OK falls during a user self-test: the run ends early and no other begins (R482, R494). -/
def State.stopBist (s : State) : State :=
  match s.pwr.long with
  | some (.bist (g :: _)) => (s.endGroup g { early := true }).endLong rInterrupted
  | _ => s

/-! ### The end of a CAL_STORE (R350, R486) -/

/-- A row's failures are added to the record (R486). -/
def mergeRow (l : List Nat) (x : Nat) : List Nat :=
  match l.findIdx? fun y => y % 2 ^ 24 == x % 2 ^ 24 with
  | some i => setAt l i fun y => y % 2 ^ 24 + 2 ^ 24 * min 255 (y / 2 ^ 24 + x / 2 ^ 24)
  | none =>
    if l.length < 512 then l ++ [x]
    else
      let low := l.foldl (fun m y => min m (y / 2 ^ 24)) 255
      if low < x / 2 ^ 24 then
        match l.findIdx? fun y => y / 2 ^ 24 == low with
        | some i => setAt l i fun _ => x
        | none => l
      else l

/-- The row log as STK_ROWLOG entries. -/
def State.rowLog (s : State) : List Nat :=
  ((List.range 64).map fun n => (s.word (STK_ROWLOG.PC n).off).toNat).filter fun x => x / 2 ^ 24 != 0

/-- The bytes of a repair slot before CHECK (R485). -/
def recordBody (seq : Nat) (l : List Nat) : List Byte :=
  leBytes 0x53524550 4 ++ leBytes seq 4 ++ leBytes 1 2 ++ leBytes l.length 2 ++ zeros 52 ++ l.flatMap fun x => leBytes x 4

/-- A slot of the boot flash is erased and programmed, as far as `steps` go. -/
def State.programFlash (s : State) (a sectors : Nat) (bs : List Byte) (steps : Nat) : State :=
  { s with light := { s.light with cal := { s.light.cal with flash := flashWrite s.light.cal.flash a sectors bs steps } } }

/-- The repair record is merged and written; `begun` where the store came as far as this (R486). -/
def State.storeRecord (s : State) (answers begun : Bool) (steps : Nat) (ok : Bool) : State :=
  let merged := s.rowLog.foldl mergeRow s.pwr.record
  if !answers then s.wr SELF_RECORD.STORE_CODE 1
  else if !begun then s.wr SELF_RECORD.STORE_CODE 3
  else if merged = s.pwr.record then s.wr SELF_RECORD.STORE_CODE 4
  else
    let cur := s.rd SELF_RECORD.SLOT
    let slot := if cur = 3 then 0 else 1 - cur
    let seq := if cur = 3 then 1 else (s.rd SELF_RECORD_SEQ.SEQ + 1) % 2 ^ 32
    let bs := withCheck (recordBody seq merged)
    let total := 1 + bs.length
    let n := if s.pwr.stop = 0 ∧ ok then total else min steps total
    let s := s.programFlash (4096 * slot) 1 bs n
    if n = total ∧ ok then
      ({ s with pwr := { s.pwr with record := merged } }).wrs [(SELF_RECORD.SLOT, slot), (SELF_RECORD.ENTRIES, merged.length),
        (SELF_RECORD_SEQ.SEQ, seq), (SELF_RECORD.STORE_CODE, 0)]
    else s.wr SELF_RECORD.STORE_CODE (if s.pwr.stop ≠ 0 ∧ n < total then 3 else 2)

/-- The slot written is in use, and holds the records formed for it (R350). -/
def State.slotStands (s : State) (slot seq : Nat) : State :=
  let cal := s.light.cal
  let s := { s with light := { s.light with cal := { cal with held := cal.planned } } }
  s.wrs [(CAL_STATUS.SLOT, slot), (CAL_STATUS.RECORDS, cal.planned.length), (CAL_STATUS.DIRTY, b2n cal.changed), (CAL_SEQ.SEQ, seq)]

/-- No slot is being written. -/
def State.writeOver (s : State) : State :=
  { s with light := { s.light with cal := { s.light.cal with writing := none, planned := [] } } }

/-- The CAL_STORE in execution on reel `r` completes. -/
def State.completeStore (s : State) (r code : Nat) : State :=
  match s.held r with
  | some (d, .store) => s.endHeld r d code 0
  | _ => s

/-- A CAL_STORE ends (R350, R474, R486, R496). -/
def State.endStore (s : State) (r : Nat) (answers : Bool) (steps : Nat) (ok : Bool) (recSteps : Nat) (recOk : Bool) : State :=
  match s.light.cal.writing with
  | none => s.clearLong
  | some (slot, bs) =>
    let answers := answers && !bitOf (s.rd DEV_STRAPS.STRAPS) 2
    let total := 16 + bs.length
    let stop := s.pwr.stop
    let n := if !answers then 0 else if stop = 0 ∧ ok then total else min steps total
    let done := answers && ok && n == total
    let cut := stop != 0 && decide (n < total)
    let code := if !answers then 0x53 else if done then 0 else if !cut then 0x52 else if stop = 1 then cTempForbidden
      else (Config.freeByte s.freeCtr).toNat
    let s := s.programFlash (s.slotAt slot) 16 bs n
    let s := { s with freeCtr := s.freeCtr + 1 }
    let s := if done then s.slotStands slot (leAt bs 4 4) else s
    let s := (s.writeOver.wr CAL_STATUS.STORE_CODE code).raise 298
    ((s.storeRecord answers (!cut) recSteps recOk).clearLong).completeStore r code

/-- LONG_OPERATION_END. -/
def State.longEnd (s : State) (x : LongEnd) : State :=
  match s.pwr.long, x with
  | some (.lifeCycle bit), .fuses n ok => s.endTransition bit n ok
  | some .repair, .fuses n ok => s.endRepair n ok
  | some (.store r), .store a n ok m recOk => s.endStore r a n ok m recOk
  | some (.bist l), .group g => s.endBist l g
  | _, _ => s

def execLongOperationEnd (x : LongEnd) (s : State) : Out := .next (s.inService fun s => s.longEnd x)

end Sys2Proof.Machine
end

