-- ==== Sys2Proof/Machine/PowerUp.lean ====
section
/-! DEFINITION. PORST_L, PWR_OK, the reference clocks and the steps of start-up to READY (R8, R476 to R479, R484, R487, R496,
R497, R522, R528). -/

namespace Sys2Proof.Machine

/-! ### PORST_L (R8, R24, R478, R490, R497) -/

/-- Every block held in reset: what stays is outside the part (pins, clocks, the boot flash, what has been sent), the
fuses, and the commands that wait. -/
def State.held0 (s : State) : State :=
  let p := s.pwr
  { State.reset with
    hif := { out := s.hif.out, msix := s.hif.msix }
    eng := { sent := s.eng.sent }
    bbn := { sent := s.bbn.sent }
    light := { frames := s.light.frames, cal := { flash := s.light.cal.flash } }
    pwr := { pwrOk := p.pwrOk, gpio := p.gpio, lsafeHigh := p.lsafeHigh, tickIn := p.tickIn, sysClk := p.sysClk,
             sknClk := p.sknClk, bbnClk := p.bbnClk, pcieClk := p.pcieClk,
             fuses := { cells := p.fuses.cells, repairs := p.fuses.repairs } }
    freeCtr := s.freeCtr
    pending := s.pending }

/-- PORST_L_FALL (R497). -/
def execPorstLFall (s : State) : Out := .next s.held0

/-- PORST_L_RISE: start-up begins where PWR_OK is high; `gpio` are the levels of GPIO0 to GPIO15 (R476, R478). -/
def State.porstRise (s : State) (gpio : Nat) : State :=
  let s := { s.held0 with
    pwr := { s.held0.pwr with porst := true, gpio := gpio % 65536, step := if s.pwr.pwrOk then 1 else 0 }
    eng := { s.held0.eng with lsafeLowAt := if s.pwr.lsafeHigh then none else some 0 } }
  (s.wrs [(DEV_STRAPS.STRAPS, gpio % 16), (SKN_LSAFE_STATUS.IN_OPEN, b2n s.pwr.lsafeHigh)]).drawChallenge

def execPorstLRise (gpio : Nat) (s : State) : Out := .next (if s.pwr.porst then s else s.porstRise gpio)

/-! ### PWR_OK (R476, R491, R496, R528) -/

/-- PWR_OK_FALL: in service the permit goes, and a fuse or flash write stops before its next cell or sector. -/
def State.pwrFall (s : State) : State :=
  let s := { s with pwr := { s.pwr with pwrOk := false } }
  s.inService fun s =>
    let s := ((s.withdrawPermit.wr DEV_STATUS.PWR_LOW 1).raise 3).stopBist
    if s.pwr.long.isSome ∧ s.pwr.stop = 0 then { s with pwr := { s.pwr with stop := 2 } } else s

def execPwrOkFall (s : State) : Out := .next (if s.pwr.pwrOk then s.pwrFall else s)

/-- PWR_OK_RISE: in service PWR_LOW clears; else start-up begins, or its step begins again. -/
def State.pwrRise (s : State) : State :=
  let s := { s with pwr := { s.pwr with pwrOk := true } }
  if s.ready then (s.wr DEV_STATUS.PWR_LOW 0).raise 3
  else if s.pwr.porst ∧ s.pwr.step = 0 ∧ !s.pwr.dead then { s with pwr := { s.pwr with step := 1 } }
  else s

def execPwrOkRise (s : State) : Out := .next (if s.pwr.pwrOk then s else s.pwrRise)

/-! ### Fuse load (R479, R488) -/

/-- The 2-of-3 vote of a bit's cells. -/
def vote (cells : Nat) : Bool := decide (2 ≤ ones cells 3)

/-- The life-cycle state that the cells hold: 0 BLANK, 1 TEST, 2 FIELD, 3 RETURN. -/
def lifeCycle (cells : List Nat) : Nat :=
  if vote (cells.getD 2 0) then 3 else if vote (cells.getD 1 0) then 2 else if vote (cells.getD 0 0) then 1 else 0

/-- Fuse load; cells and groups once programmed stay programmed. -/
def State.loadFuses (s : State) (f : FuseRead) : State :=
  let old := s.pwr.fuses
  let cells := (List.range 3).map fun k => (f.cells.getD k 0 ||| old.cells.getD k 0) % 8
  let repairs := f.repairs ++ old.repairs.drop f.repairs.length
  let id (x : Nat) : Nat := if f.identityOk then x else 0
  let s := { s with pwr := { s.pwr with fuses := { cells := cells, keyOk := f.keyOk, repairs := repairs } } }
  (s.wrs [(DEV_SERIAL.SERIAL, id f.serial), (CBUS_MAC_LO.MAC, id f.cbusMac % 2 ^ 32), (CBUS_MAC_HI.MAC, id f.cbusMac / 2 ^ 32),
    (BBN_PORT_MAC_LO.MAC 0, id f.bbnMac0 % 2 ^ 32), (BBN_PORT_MAC_HI.MAC 0, id f.bbnMac0 / 2 ^ 32),
    (BBN_PORT_MAC_LO.MAC 1, id f.bbnMac1 % 2 ^ 32), (BBN_PORT_MAC_HI.MAC 1, id f.bbnMac1 / 2 ^ 32),
    (DEV_STATUS.LC, lifeCycle cells), (SELF_LC.STATE, lifeCycle cells), (DEV_STATUS.CORE_FAULT, b2n !f.identityOk)]).showRepairs

/-! ### Self-test and soft repair (R480 to R485) -/

/-- A group's run at start-up: READY acts on what it found. -/
def State.startGroup (s : State) (g : Nat) (r : GroupRun) : State :=
  let bad := (s.failedUnits g r).map fun u => (g, u)
  let s := s.showRun g r false
  { s with pwr := { s.pwr with
    bad := s.pwr.bad ++ bad, badCore := s.pwr.badCore || r.badCore || (r.early && (g == 0 || g == 1)),
    badPcs := if 10 ≤ g then s.pwr.badPcs ++ r.shortPcs else s.pwr.badPcs,
    badRows := if 10 ≤ g then s.pwr.badRows ++ r.rows else s.pwr.badRows } }

/-- The repair record and the calibration slots are read from the boot flash, where one is fitted (R351, R478, R485). -/
def State.readFlash (s : State) : State :=
  if bitOf (s.rd DEV_STRAPS.STRAPS) 2 then s
  else
    let s := match slotInUse (s.slotValid 0 0x53524550 512 4) (s.slotValid 4096 0x53524550 512 4) with
      | none => s
      | some (slot, seq, n) =>
        let l := (List.range n).map fun k => ofLeBytes (s.flashRead (4096 * slot + 64 + 4 * k) 4)
        ({ s with pwr := { s.pwr with record := l } }).wrs
          [(SELF_RECORD.SLOT, slot), (SELF_RECORD.ENTRIES, n), (SELF_RECORD_SEQ.SEQ, seq)]
    s.loadStore

/-- A row that wants repair: pseudo-channel, bank, row, and its count in the record; 256 for a row the memory test failed. -/
abbrev BadRow := Nat × Nat × Nat × Nat

/-- A row takes its bank's soft-repair row before another (R484). -/
def rowBefore (x y : BadRow) : Bool := decide (y.2.2.2 < x.2.2.2) || (x.2.2.2 == y.2.2.2 && decide (x.2.2.1 < y.2.2.1))

/-- Rows that want repair: those the memory test failed, then the record's. -/
def State.wantRows (s : State) : List BadRow :=
  let failed := s.pwr.badRows.map fun r => ((r.1, r.2.1, r.2.2, 256) : BadRow)
  let rec_ := s.pwr.record.map fun x => ((bitsOf x 0 5, bitsOf x 5 4, bitsOf x 9 15, bitsOf x 24 8) : BadRow)
  failed ++ rec_.filter fun r => !failed.any fun f => f.1 == r.1 && f.2.1 == r.2.1 && f.2.2.1 == r.2.2.1

/-- The rows repaired: in each bank the one that comes before every other. -/
def repairedRows (l : List BadRow) : List BadRow :=
  l.filter fun x => l.all fun y => !(x.1 == y.1 && x.2.1 == y.2.1) || !rowBefore y x

/-- Soft repair of stack rows (R484). -/
def State.repairRows (s : State) : State :=
  let want := s.wantRows
  let done := repairedRows want
  let left := want.filter fun x => !done.contains x
  ({ s with pwr := { s.pwr with unrepaired := left.map fun (x : BadRow) => (x.1, x.2.1, x.2.2.1) } }).wrs
    [(SELF_REPAIR.ROWS_REPAIRED, min 255 done.length), (SELF_REPAIR.ROWS_UNREPAIRED, min 255 left.length)]

/-! ### Training and READY (R408, R477, R487) -/

/-- Zero fill of the stack (R408). -/
def State.zeroAll (s : State) : State := { s with stk := { s.stk with mem := [] } }

/-- Training of every lane and zero fill (R408). -/
def State.trainAll (s : State) (ws : List LaneSweep) : State :=
  let s := (List.range 32).foldl (fun s pc => s.trainPc pc ((ws.drop (4 * pc)).take 4)) s
  let bad := (List.range 32).filter fun pc => !s.pcTrained pc
  ({ s.zeroAll with pwr := { s.pwr with badPcs := s.pwr.badPcs ++ bad } }).wr STK_STATUS.TRAINED 1

/-- A fence unit is fenced at READY (R487). -/
def State.fenceUnit (s : State) (g u : Nat) : State :=
  if g = 0 then s.wr DEV_PU_FENCED.BACKBONE (setBit (s.rd DEV_PU_FENCED.BACKBONE) u 1)
  else if g = 2 ∨ g = 3 then (s.unitFails g u).setScalerFenced u true
  else if g = 4 ∨ g = 5 then (s.unitFails g u).setBankFenced u true
  else if g ≤ 9 then s.unitFails g u
  else s.setPcFenced u true

/-- A row left unrepaired enters the row log; the spec does not say with what count (R484). -/
def State.logUnrepaired (s : State) (r : Nat × Nat × Nat) : State :=
  ({ s with freeCtr := s.freeCtr + 1 }).logRow r.1 r.2.1 r.2.2 (1 + (Config.freeByte s.freeCtr).toNat % 255)

/-- READY: fences are made, the set-up port opens, and sources 0 and 299 report (R351, R477, R484, R487). -/
def State.reachReady (s : State) : State :=
  let s := s.pwr.bad.foldl (fun s x => s.fenceUnit x.1 x.2) s
  let s := (s.pwr.badPcs.filter (· < 32)).foldl (fun s pc => if s.pcFenced pc then s else s.setPcFenced pc true) s
  let s := s.pwr.unrepaired.foldl State.logUnrepaired s
  let s := s.wrs [(DEV_STATUS.READY, 1), (DEV_STATUS.CORE_FAULT, b2n (s.flag DEV_STATUS.CORE_FAULT || s.pwr.badCore))]
  let s : State := ({ s with pwr := { s.pwr with
    readyOut := true, step := 0, bad := [], badCore := false, badPcs := [], badRows := [], unrepaired := [] } }).showResources
  let s : State := if s.flag DEV_STATUS.DEGRADED || s.flag DEV_STATUS.CORE_FAULT then s.raise 0 else s
  if s.rd CAL_STATUS.SLOT = 3 then s.raise 299 else s

/-! ### START_UP_STEP_END (R476, R528) -/

def State.setStep (s : State) (n : Nat) : State := { s with pwr := { s.pwr with step := n, group := 0 } }

def State.stepEnd (s : State) (x : StepEnd) : State :=
  match s.pwr.step, x with
  | 1, .plls => s.setStep 2
  | 2, .fuses f => (s.loadFuses f).setStep 3
  | 3, .group r =>
    let g := s.pwr.group
    let s := s.startGroup g r
    if g < 11 then { s with pwr := { s.pwr with group := g + 1 } } else s.readFlash.setStep 4
  | 4, .rows => s.repairRows.setStep 5
  | 5, .training ws => (s.trainAll ws).reachReady
  | _, _ => s

/-- The step in progress ends; none ends while PWR_OK is low, nor without SYS_CLK (R522, R528). -/
def execStartUpStepEnd (x : StepEnd) (s : State) : Out :=
  .next (if s.pwr.porst ∧ s.pwr.pwrOk ∧ s.pwr.sysClk ∧ !s.ready ∧ !s.pwr.dead then s.stepEnd x else s)

/-! ### The reference clocks (R521, R522) -/

/-- The sub-ports of ports 4k to 4k + 3 that are not OFF. -/
def State.clockedLinks (s : State) (k : Nat) : List Nat :=
  (((List.range 4).map (4 * k + ·)).flatMap s.enginesOf).filter fun e => s.linkState e != 0

/-- The strands of a sub-port lose lock: its engine is dark, and it trains when the clock returns. -/
def State.loseLock (s : State) (e : Nat) : State :=
  ((s.leaveRun e).setLink e fun l => { l.drop with configEdges := 0, offered := none }).setLinkState e 1

def State.clockLoss (s : State) (c : Clock) : State :=
  match c with
  | .sys =>
    let s' := { s with pwr := { s.pwr with sysClk := false } }
    if s.ready then
      let s' := s'.engines.foldl (fun s e => s.linkOff e) s'
      { s' with pwr := { s'.pwr with dead := true } }
    else s'
  | .skn k =>
    let s := { s with pwr := { s.pwr with sknClk := setBit s.pwr.sknClk k 0 } }
    s.inService fun s => (s.clockedLinks k).foldl State.loseLock s
  | .bbn =>
    let s := { s with pwr := { s.pwr with bbnClk := false } }
    s.inService fun s => (s.bbnLock 0 false false).bbnLock 1 false false
  | .pcie =>
    let s := { s with pwr := { s.pwr with pcieClk := false } }
    if s.pwr.porst ∧ s.flag HIF_STATUS.LINK_UP then s.hostReset false true else s

/-- CLOCK_LOSS (R522). -/
def execClockLoss (c : Clock) (s : State) : Out :=
  .next (match c with | .skn k => if k < 4 then s.clockLoss c else s | _ => s.clockLoss c)

def State.clockReturn (s : State) (c : Clock) : State :=
  match c with
  | .sys => { s with pwr := { s.pwr with sysClk := true } }
  | .skn k =>
    let was := bitOf s.pwr.sknClk k
    let s := { s with pwr := { s.pwr with sknClk := setBit s.pwr.sknClk k 1 } }
    if was then s else s.inService fun s => (s.clockedLinks k).foldl (fun s e => s.train e none) s
  | .bbn => { s with pwr := { s.pwr with bbnClk := true } }
  | .pcie => { s with pwr := { s.pwr with pcieClk := true } }

/-- CLOCK_RETURN (R522). -/
def execClockReturn (c : Clock) (s : State) : Out :=
  .next (match c with | .skn k => if k < 4 then s.clockReturn c else s | _ => s.clockReturn c)

end Sys2Proof.Machine
end

