-- ==== Sys2Proof/Machine/SetupPort.lean ====
section
/-! DEFINITION. The set-up port: BAR0 writes to registers without a row of their own (R8 to R10, R64, R97, R98). -/

namespace Sys2Proof.Machine

/-- The words of the MSI-X table and the PBA (R64). -/
def inMsix (off : Nat) : Bool :=
  (decide (0x30000 ≤ off) && decide (off < 0x30400)) || (decide (0x38000 ≤ off) && decide (off < 0x38008))

/-- A word written to the MSI-X table; the PBA is read-only. PRESUMED: the writable bits are those of the PCIe base
specification. -/
def State.msixWrite (s : State) (off : Nat) (w : Word) : State :=
  if off < 0x30400 then
    let k := (off - 0x30000) / 4
    let v : Word := if k % 4 = 0 then w &&& 0xFFFFFFFC#32 else if k % 4 = 3 then w &&& 1#32 else w
    ({ s with hif := { s.hif with msixTable := Tbl.put msixDefault k v s.hif.msixTable } }).flushPba
  else s

/-- Word `k` of register `r` takes a written word: RW fields the written bits, every other bit as it was (R9, R10). -/
def State.storeWord (s : State) (r : RegRow) (k off : Nat) (w : Word) : State :=
  let m := BitVec.ofNat 32 (r.accMask k .rw)
  s.setWord off ((s.word off &&& ~~~m) ||| (w &&& m))

/-- The running clock of CAL_CLOCK is brought into its register before a write to it. -/
def State.freezeClock (s : State) (off : Nat) : State :=
  if off / 8 = 0x280010 / 8 then
    let t := s.calClock
    ({ s with light := { s.light with cal := { s.light.cal with clockAt := s.now } } }).wr CAL_CLOCK.TIME t
  else s

/-- What a written register does beyond holding its value. -/
def State.afterWrite (s : State) (off : Nat) : State :=
  if 0x40000 ≤ off ∧ off < 0x80000 then s.settlePins
  else if off = TICK_OUT_CFG.ENABLE.off then
    if s.flag TICK_OUT_CFG.ENABLE then s else { s with tick := { s.tick with out := false } }
  else if off = SKN_LSAFE_CFG.LATCH.off then s.driveLsafe.showAwait
  else if off = THM_SHED_ORDER.FIRST.off then s.wr THM_STATUS.ORDER_BAD (b2n !(orderOk s.orderWritten))
  else if 0x290100 ≤ off ∧ off < 0x290300 ∧ off % 16 = 8 then
    let n := (off - 0x290100) / 16
    if s.allowValid n then
      let c := s.allowCode n
      (s.wrs [(CBUS_STATUS.CFG_CODE, c), (CBUS_ALLOW_CFG.VALID n, b2n (c == 0))]).trySwitch
    else s
  else s

/-- The low word held for register `off`, and the list without it (R97). -/
def State.dropHeld (s : State) (off : Nat) : State :=
  { s with hif := { s.hif with heldLow := s.hif.heldLow.filter fun p => p.1 != off } }

/-- The low word held for `off` goes into its register. -/
def State.useHeld (s : State) (r : RegRow) (off : Nat) : State :=
  match s.hif.heldLow.lookup off with
  | some l => (s.dropHeld off).storeWord r 0 off l
  | none => s

/-- An aligned 32-bit write (R97): the low word of a 64-bit register is held for its next high write. -/
def State.write32 (s : State) (off : Nat) (w : Word) : State :=
  if inMsix off then s.msixWrite off w
  else match findReg off with
    | none => s.bump DEV_UNMAPPED.COUNT 1
    | some (r, k) =>
      if r.wide && k == 0 then
        if r.accMask 0 .rw = 0 then s
        else
          let s := s.dropHeld off
          { s with hif := { s.hif with heldLow := s.hif.heldLow ++ [(off, w)] } }
      else if r.wide then
        (((s.freezeClock off).useHeld r (off - 4)).storeWord r 1 off w).afterWrite off
      else (s.storeWord r 0 off w).afterWrite off

/-- A 64-bit write of a 64-bit register: both words together, any held low word discarded (R97). -/
def State.write64 (s : State) (r : RegRow) (off v : Nat) : State :=
  let s := (s.freezeClock off).dropHeld off
  ((s.storeWord r 0 off (BitVec.ofNat 32 v)).storeWord r 1 (off + 4) (BitVec.ofNat 32 (v / 2 ^ 32))).afterWrite off

/-- One part of an access: `n` bytes at `off` within one word, or a whole 64-bit register (R97). -/
def State.writePart (s : State) (off n v : Nat) : State :=
  if n = 8 then
    match findReg off with
    | some (r, _) => s.write64 r off v
    | none => s
  else if n = 4 then s.write32 off (BitVec.ofNat 32 v)
  else if inMsix (off / 4 * 4) ∨ (findReg (off / 4 * 4)).isSome then s.bump DEV_SETUP_DROPPED.COUNT 1
  else s.bump DEV_UNMAPPED.COUNT 1

/-- An 8-byte access at `off` meets a whole 64-bit register. -/
def wideAt (off : Nat) : Bool :=
  match findReg off with
  | some (r, k) => r.wide && k == 0
  | none => false

/-- The parts of an access of `n` bytes, at most one register's word each: (offset, bytes, value) (R97). -/
def accessParts : Nat → Nat → Nat → Nat → List (Nat × Nat × Nat)
  | 0, _, _, _ => []
  | fuel + 1, off, n, v =>
    if n = 0 then []
    else if n = 8 ∧ wideAt off then [(off, 8, v)]
    else
      let m := min n (4 - off % 4)
      (off, m, v % 2 ^ (8 * m)) :: accessParts fuel (off + m) (n - m) (v / 2 ^ (8 * m))

/-- One part is gated by BUSY, but for the MSI-X table and the PBA (R98). -/
def State.portPart (s : State) (off n v : Nat) : State :=
  if inMsix (off / 4 * 4) then s.inService fun s => s.writePart off n v
  else s.setup fun s => s.writePart off n v

/-- SETUP_WRITE: a BAR0 write of `n` bytes at `off`. -/
def execSetupWrite (off n v : Nat) (s : State) : Out :=
  .next (if n = 1 ∨ n = 2 ∨ n = 4 ∨ n = 8 then
      (accessParts 3 off n v).foldl (fun s p => s.portPart p.1 p.2.1 p.2.2) s
    else s)

end Sys2Proof.Machine
end

