-- ==== Sys2Proof/Machine/Signatures.lean ====
section
/-! DEFINITION. Signature regions, the freeze detector, and die-word parity (R438 to R440, R446 to R450). -/

namespace Sys2Proof.Machine

/-! ### REGION_SET (R446) -/

def regionOf (d : Desc) (stamp : Nat) : Region :=
  { enable := dB d 9 0, guarded := dB d 9 1, freeze := dB d 9 2, nexp := dF d 9 3 3, x := dF d 10 0 16, y := dF d 12 0 16,
    w := dF d 14 0 16, h := dF d 16 0 16, failCount := dF d 18 0 4, freezeTicks := dF d 19 0 8,
    expect := (List.range 4).map fun k => dF d (20 + 4 * k) 0 32, stamp := stamp }

def regionFields (g : Region) : Bool :=
  decide (g.nexp ≤ 4) && ((List.range 4).all fun k => decide (k < g.nexp) || g.expect.getD k 0 == 0) &&
    (!g.enable || (decide (1 ≤ g.w) && decide (1 ≤ g.h))) && (!(g.enable && g.guarded) || decide (1 ≤ g.failCount)) &&
    (!(g.enable && g.freeze) || decide (2 ≤ g.freezeTicks))

def State.regionShadow (s : State) (k : Nat) : Region := Tbl.get (fun _ => {}) s.sig.shadow k

def regionSetBody (_ : Nat) (d : Desc) (s : State) : Res :=
  let c := dIndex d
  let r := dF d 8 0 6
  let key := 64 * c + r
  let g := regionOf d ((s.regionShadow key).stamp + 1)
  s.checked (s.r82 d [(8, 0, 6), (9, 0, 6), (10, 0, 64), (18, 0, 4), (19, 0, 8), (20, 0, 128)]
      (decide (c < 8) && regionFields g) true false false) fun _ =>
    let cv := s.shadowCanvas c
    let others := (List.range 64).filter fun i => i != r && (s.regionShadow (64 * c + i)).enable && (s.regionShadow (64 * c + i)).guarded
    if g.enable ∧ (cv.width < g.x + g.w ∨ cv.height < g.y + g.h) then .done s cBadField 0x1701
    else if g.enable ∧ g.guarded ∧ 16 ≤ others.length then .done s cBadField 0x1702
    else .done { s with sig := { s.sig with shadow := Tbl.put (fun _ => {}) key g s.sig.shadow } } cDone 0

/-- REGION_SET (R446). -/
def execRegionSet (r : Nat) (s : State) : Out := .next (s.descriptor r 0x25 regionSetBody)

/-! ### REGION_SIGNATURE (R447 to R450) -/

/-- The region clipped to the canvas size in force: columns and rows. -/
def Region.clip (g : Region) (cv : CanvasCfg) : Rect :=
  ⟨min g.x cv.width, min (g.x + g.w) cv.width, min g.y cv.height, min (g.y + g.h) cv.height⟩

/-- The canvas words of rectangle `q`, in raster order, from the units issued (R448). -/
def State.regionWords (s : State) (c width : Nat) (q : Rect) : List Nat :=
  (List.range (q.y1 - q.y0)).flatMap fun j =>
    let y := q.y0 + j
    let unit := Tbl.get (fun _ => []) s.comp.words (512 * c + y / 8)
    (unit.drop (y % 8 * width + q.x0)).take (q.x1 - q.x0)

/-- The signature: the CRC-32 of R295 over the words as little-endian bytes (R448). -/
def signatureOf (ws : List Nat) : Nat := crcBytes 0xFFFFFFFF (ws.flatMap fun w => leBytes w 4) ^^^ 0xFFFFFFFF

/-- Source 256 + c, once per canvas frame (R448). -/
def State.raiseMismatch (s : State) (c : Nat) : State :=
  if s.sig.mismatchRaised.contains c then s
  else ({ s with sig := { s.sig with mismatchRaised := c :: s.sig.mismatchRaised } }).raise (256 + c)

/-- The frame of canvas `c` counts as one with a mismatch. -/
def State.countMismatch (s : State) (c : Nat) : State :=
  if s.sig.mismatched.contains c then s
  else ({ s with sig := { s.sig with mismatched := c :: s.sig.mismatched } }).bump (SIG_CV_COUNTS.MISMATCHES c) 1

/-- A guarded region whose RUN has reached FAIL_COUNT is declared failed (R449); during fallback in silence. -/
def State.declareFailed (s : State) (c r crc : Nat) (quiet : Bool) : State :=
  let key := 64 * c + r
  let s := (s.wr (SIG_RGN_STATE.FAILED key) 1).bump (SIG_CV_COUNTS.FAILURES c) 1
  let s := { s with comp := { s.comp with failed := if s.comp.failed.contains c then s.comp.failed else c :: s.comp.failed } }
  if quiet then s else (s.postSignature 2 c r 1 crc).raiseMismatch c

/-- The comparison with the expected values (R448, R449). -/
def State.compareRegion (s : State) (c r : Nat) (g : Region) (crc : Nat) : State :=
  let key := 64 * c + r
  let quiet := g.guarded && s.comp.composing.fallback.contains c
  let bits := s.rd (SIG_CV_MISMATCH.MISMATCH c)
  if 0 < g.nexp ∧ !((g.expect.take g.nexp).contains crc) then
    let run := min 15 (s.rd (SIG_RGN_STATE.RUN key) + 1)
    let s := (s.wrs [(SIG_CV_MISMATCH.MISMATCH c, setBit bits r 1), (SIG_RGN_STATE.RUN key, run)]).countMismatch c
    let s := if quiet then s else (s.postSignature (if g.guarded then 2 else 1) c r 0 crc).raiseMismatch c
    if g.guarded ∧ g.failCount ≤ run ∧ s.flag (SIG_RGN_STATE.FAILED key) = false then s.declareFailed c r crc quiet else s
  else s.wrs [(SIG_CV_MISMATCH.MISMATCH c, setBit bits r 0), (SIG_RGN_STATE.RUN key, 0)]

/-- The freeze detector (R450). -/
def State.watchRegion (s : State) (c r : Nat) (g : Region) (crc : Nat) : State :=
  let key := 64 * c + r
  if !g.freeze then s
  else
    let same := Tbl.get (fun _ => none) s.sig.prevCrc key == some crc
    let run := if same then min 255 (s.rd (SIG_RGN_STATE.SAME key) + 1) else 0
    let was := s.flag (SIG_RGN_STATE.FROZEN key)
    let bits := s.rd (SIG_CV_FROZEN.FROZEN c)
    let s := s.wr (SIG_RGN_STATE.SAME key) run
    let s := { s with sig := { s.sig with prevCrc := Tbl.put (fun _ => none) key (some crc) s.sig.prevCrc } }
    if !was && decide (g.freezeTicks ≤ run + 1) then
      let s := (s.wrs [(SIG_RGN_STATE.FROZEN key, 1), (SIG_CV_FROZEN.FROZEN c, setBit bits r 1)]).bump (SIG_CV_COUNTS.FREEZES c) 1
      (s.postSignature (if g.guarded then 2 else 1) c r 2 crc).raise (264 + c)
    else if was && !same then
      (s.wrs [(SIG_RGN_STATE.FROZEN key, 0), (SIG_CV_FROZEN.FROZEN c, setBit bits r 0)]).postSignature 0 c r 3 crc
    else s

/-- REGION_SIGNATURE: the last row of region `r` of canvas `c` has been issued, and its signature is compared (R448). -/
def execRegionSignature (c r : Nat) (s : State) : Out :=
  .next (s.inService fun s =>
    let key := 64 * c + r
    let g := Tbl.get (fun _ => ({} : Region)) s.sig.force key
    let cv := s.comp.composing.canvas c
    let q := g.clip cv
    if c < 8 ∧ r < 64 ∧ g.enable ∧ cv.enable ∧ q.area ≠ 0 ∧ !s.sig.checked.contains key ∧
        s.comp.done.contains (c, (q.y1 - 1) / 8) then
      let crc := signatureOf (s.regionWords c cv.width q)
      let s := { s with sig := { s.sig with checked := key :: s.sig.checked } }
      ((s.wr (SIG_RGN_CRC.CRC key) crc).compareRegion c r g crc).watchRegion c r g crc
    else s)

/-- The settings that the latch point took come into force with the frame; a region taken anew starts afresh (R447). -/
def State.regionsInForce (s : State) : State :=
  let old := s.sig.force
  let at_ (t : Tbl Region) (k : Nat) : Region := Tbl.get (fun _ => {}) t k
  let new := (s.sig.taken.map (·.1)).filter fun k => (at_ old k).stamp != (at_ s.sig.taken k).stamp
  let s := { s with sig := { s.sig with force := s.sig.taken, checked := [], mismatchRaised := [], mismatched := [] } }
  new.foldl (fun s k =>
    let g := at_ s.sig.force k
    let s := { s with sig := { s.sig with prevCrc := Tbl.put (fun _ => none) k none s.sig.prevCrc } }
    s.wrs [(SIG_RGN_STATE.ENABLED k, b2n g.enable), (SIG_RGN_STATE.GUARDED k, b2n g.guarded), (SIG_RGN_STATE.FREEZE_ON k, b2n g.freeze),
      (SIG_RGN_STATE.FAILED k, 0), (SIG_RGN_STATE.FROZEN k, 0), (SIG_RGN_STATE.RUN k, 0), (SIG_RGN_STATE.SAME k, 0),
      (SIG_CV_MISMATCH.MISMATCH (k / 64), setBit (s.rd (SIG_CV_MISMATCH.MISMATCH (k / 64))) (k % 64) 0),
      (SIG_CV_FROZEN.FROZEN (k / 64), setBit (s.rd (SIG_CV_FROZEN.FROZEN (k / 64))) (k % 64) 0)]) s

/-! ### DIE_PARITY_FAIL (R439, R440) -/

/-- The error kind and the instance of a die word (R440); FABRIC instances are the blocks of R25 in row order. -/
def dieKind : DieWord → Nat × Nat
  | .moved b => (eFabric, b % 19)
  | .palette _ => (eFabric, 4)
  | .mesh .. => (eFabric, 7)
  | .ramp .. => (eFabric, 7)
  | .matrix .. => (eFabric, 8)
  | .twist .. => (eFabric, 9)
  | .flow .. => (eFabric, 14)
  | .context n => (eObject, bankOf n % 16)
  | .mirror _ => (eObject, 16)
  | .coef n .. => (eScaler, n % 32)
  | .lineBuffer n => (eScaler, n % 32)

/-- A word of a pair of half-word entries becomes 0. -/
def zeroPair {α : Type} (z : α) (k : Nat) (l : List α) : List α := setAt (setAt l (2 * k) fun _ => z) (2 * k + 1) fun _ => z

/-- Word `k` of a twist slot becomes 0 (R232). -/
def TwistSlot.zeroWord (t : TwistSlot) (k : Nat) : TwistSlot :=
  match k with
  | 0 => { t with start := 0, bank := 0, plane := 0 }
  | 1 => { t with load := 0, reset := 0 }
  | 2 => { t with park := 0, pulseBank := 0, level := 0, ofs := t.ofs - t.ofs % 256 }
  | _ => { t with ofs := t.ofs % 256, width := 0 }

/-- Word `k` of a flow entry becomes 0 (R377). -/
def Flow.zeroWord (f : Flow) (k : Nat) : Flow :=
  let clear (l : List Byte) (from_ : Nat) : List Byte := l.mapIdx fun i b => if from_ ≤ i ∧ i < from_ + 4 then 0 else b
  match k with
  | 0 => { f with valid := false, port0 := false, port1 := false, full := false, cls := 0, stream := 0, dport := 0 }
  | 1 => { f with sport := 0, vid := 0, vidM := false, untagged := false }
  | 2 => { f with ipv6 := false, srcM := false, dstM := false, sportM := false, macM := false, srcPrefix := 0, dstPrefix := 0 }
  | 11 => { f with dstMac := clear f.dstMac 0 }
  | 12 => { f with dstMac := clear f.dstMac 4, rate := 0 }
  | 13 => { f with burst := 0 }
  | k => if k < 7 then { f with srcAddr := clear f.srcAddr (4 * (k - 3)) } else { f with dstAddr := clear f.dstAddr (4 * (k - 7)) }

/-- The stored tables of an engine, in every bundle that holds them. -/
def State.mapBundles (s : State) (e : Nat) (f : EngBundle → EngBundle) : State :=
  s.setEngine e fun g => { g with shadow := f g.shadow, lat := f g.lat, spin := f g.spin }

/-- The third try has failed: the word is taken as 0, until the host loads its table again (R439). -/
def State.zeroDie (s : State) : DieWord → State
  | .moved _ => s
  | .lineBuffer _ => s
  | .palette i =>
    let z (t : Tbl Word) : Tbl Word := Tbl.put (fun _ => 0) i 0 t
    let zf (b : FrameCfg) : FrameCfg := { b with palettes := z b.palettes }
    let comp := { s.comp with latched := zf s.comp.latched, composing := zf s.comp.composing }
    { s with surf := { s.surf with palettes := z s.surf.palettes }, comp := comp }
  | .mesh e k => s.mapBundles e fun b =>
      { b with warp := { b.warp with mesh := setAt b.warp.mesh (k / 2) fun p => if k % 2 = 0 then (0, p.2) else (p.1, 0) } }
  | .ramp e k => s.mapBundles e fun b => { b with warp := { b.warp with loaded := zeroPair 0 k b.warp.loaded } }
  | .matrix e k => s.mapBundles e fun b => { b with matrix := b.matrix.map (zeroPair 0 k) }
  | .twist n i k =>
    match s.twist n with
    | some t =>
      let tables := Tbl.put (fun _ => none) n (some { t with slots := setAt t.slots i fun x => x.zeroWord k }) s.eng.tables
      { s with eng := { s.eng with tables := tables } }
    | none => s
  | .flow n k => { s with bbn := { s.bbn with flows := Tbl.put (fun _ => {}) n ((s.flow n).zeroWord k) s.bbn.flows } }
  | .context n => { s with comp := { s.comp with badBank := n :: s.comp.badBank } }
  | .mirror n => { s with comp := { s.comp with badMirror := n :: s.comp.badMirror } }
  | .coef n v k =>
    let z (x : ScalerShadow) : ScalerShadow :=
      if v then { x with coefV := x.coefV.map (zeroPair 0 k) } else { x with coefH := x.coefH.map (zeroPair 0 k) }
    let zs (x : ScaleServe) : ScaleServe :=
      if x.first ≠ n then x
      else if v then { x with coefV := x.coefV.map (zeroPair 0 k) } else { x with coefH := x.coefH.map (zeroPair 0 k) }
    let zf (b : FrameCfg) : FrameCfg := { b with serve := b.serve.map zs }
    let obj := { s.obj with shadow := Tbl.put (fun _ => {}) n (z (s.sclShadow n)) s.obj.shadow,
                            force := Tbl.put (fun _ => {}) n (z (s.sclForce n)) s.obj.force }
    { s with obj := obj, comp := { s.comp with latched := zf s.comp.latched, composing := zf s.comp.composing } }

/-- DIE_PARITY_FAIL: a die word fails parity; `third` where this was the third try (R439). -/
def execDieParityFail (w : DieWord) (third : Bool) (s : State) : Out :=
  .next (s.inService fun s =>
    let s := s.error (dieKind w).1 (dieKind w).2
    let s := if (dieKind w).1 = eObject then s.bump OBJ_ERRORS.PARITY 1 else s
    if third then s.zeroDie w else s)

end Sys2Proof.Machine
end

