-- ==== Sys2Proof/Machine/TickCtl.lean ====
section
/-! DEFINITION. TICK_CTRL and the pins of the tick: enable, disable, APPLY, TICK_IN and TICK_OUT (R34 to R45). -/

namespace Sys2Proof.Machine

/-! ### APPLY (R35, R43, R45) -/

/-- f of the preset periods in Hz (R35). -/
def presetHz : List Nat := [0, 24, 25, 30, 48, 50, 60, 72, 90, 100, 120, 144, 180, 200, 240]

/-- P of TICK_CTRL.PRESET as stored (R35). -/
def State.nextPeriod (s : State) : Nat :=
  let k := s.rd TICK_CTRL.PRESET
  if k = 0 ∨ k = 15 then s.rd TICK_NEXT_PERIOD.PERIOD_NS else roundDivN 1000000000 (presetHz.getD k 1)

/-- SOURCE as stored; 3 behaves as 0 (R36). -/
def State.sourceWritten (s : State) : Nat := if s.rd TICK_CTRL.SOURCE = 3 then 0 else s.rd TICK_CTRL.SOURCE

/-- TOL as stored; 0 and values above 10 act as 10. -/
def State.tolWritten (s : State) : Nat :=
  let t := s.rd TICK_PIN_CFG.TOL
  if t = 0 ∨ 10 < t then 10 else t

/-- The values that a write of APPLY proposes. -/
def State.proposed (s : State) : ApplyVals :=
  { period := s.nextPeriod, gap := s.rd TICK_NEXT_TIMING.GAP_US, guard := s.rd TICK_NEXT_TIMING.LATCH_GUARD_US,
    source := s.sourceWritten, port := s.rd TICK_CTRL.GPTP_PORT, tol := s.tolWritten,
    trp := min 20000 (s.rd TICK_LEDGER_CTRL.REPLAY_NS) }

/-- Step 1 of R43. -/
def ApplyVals.ranges (v : ApplyVals) : Bool :=
  decide (4166667 ≤ v.period) && decide (v.period ≤ 41666667) && decide (8 ≤ v.gap) && decide (v.gap ≤ 200) &&
    decide (10 ≤ v.guard) && decide (v.guard ≤ 500)

/-- The ledger's answer for the admitted configuration under new tick values (R43, R50). -/
def State.applyCode (s : State) (v : ApplyVals) : Option (Nat × Option Nat) :=
  let a : CostArgs := { s.costArgs with pmin := pMin v.period v.source v.tol, gap := 1000 * v.gap, trp := v.trp }
  (s.costCfg s.comp.waiting s.comp.shadowR a).judge a s.shedNow

/-- An APPLY is refused (R43, R62). -/
def State.refuseApply (s : State) (code : Nat) : State := (s.wr TICK_STATUS.APPLY_REASON code).raise 4

/-- A write of APPLY = 1 (R43): refused, or waiting for its tick edge. -/
def State.tryApply (s : State) : State :=
  let v := s.proposed
  if !v.ranges then s.refuseApply cBadField
  else match s.applyCode v with
    | some x => (s.showReject x.1 (x.2.getD 0) 0).refuseApply x.1
    | none => { (s.wr TICK_STATUS.APPLY_PENDING 1) with tick := { s.tick with apply := some v, applyRipe := false } }

/-- A bundle's presets for the tick values in force (R244, R245). -/
def State.replan (s : State) (split : Bool) (b : EngBundle) : EngBundle :=
  match b.plan with
  | none => b
  | some _ => { b with plan := presetPlan (presetArgs s.costArgs split b) b.sel.preset }

/-- Presets are generated again for new tick values, in force and in admitted commits (R245). -/
def State.replanAll (s : State) : State :=
  let s := (List.range 32).foldl (fun s e =>
    let split (f : EngState → EngBundle) : Bool := (f (s.engine (2 * (e / 2)))).cfg.split
    s.setEngine e fun g => { g with lat := s.replan (split EngState.lat) g.lat, spin := s.replan (split EngState.spin) g.spin,
                                    fly := s.replan (split EngState.fly) g.fly }) s
  let again (w : WaitCommit) : WaitCommit := match w.body with
    | .engine e b => { w with body := .engine e (s.replan ((s.costBundle s.comp.waiting (2 * (e / 2))).cfg.split) b) }
    | _ => w
  { s with comp := { s.comp with waiting := s.comp.waiting.map again } }

/-- The values of an APPLY come into force (R43 step 3, R62). -/
def State.takeValues (s : State) (v : ApplyVals) : State :=
  let s := s.wrs [(TICK_PERIOD.PERIOD_NS, v.period), (TICK_TIMING.GAP_US, v.gap), (TICK_TIMING.LATCH_GUARD_US, v.guard),
    (TICK_STATUS.SOURCE, v.source), (TICK_STATUS.APPLY_PENDING, 0), (TICK_STATUS.APPLY_REASON, cDone)]
  let s := { s with tick := { s.tick with tol := v.tol, trp := v.trp, port := v.port, apply := none, applyRipe := false } }
  let s := (List.range 32).foldl (fun s e =>
    s.wr (FLY_ENG_NOTCH.CAPACITY e) (notchCapacity s.gap (s.lightOf e).act.notchW)) s
  s.replanAll.raise 4

/-- LOCK as the serving function stands: HOLDOVER where it is not LOCKED (R38, R45). -/
def State.gptpLock (s : State) : State := s.setLock (if s.gptpLocked then lockAcquiring else lockHoldover)

/-- No accepted edge, no candidate (R37). -/
def State.noEdges (s : State) : State :=
  { s with tick := { s.tick with accepted := none, candidate := none, paired := none, flywheels := 0, settled := true } }

/-- A ripe APPLY at the tick edge at `now` (R43 to R45): the state, and whether edge and tick are flywheeled from here
with nothing counted. -/
def State.applyEdge (s : State) (v : ApplyVals) : State × Bool :=
  let timing := v.period != s.period || v.gap * 1000 != s.gap
  let newPeriod := v.period != s.period
  let newSource := v.source != s.rd TICK_STATUS.SOURCE || (v.source == 2 && v.port != s.tick.port)
  let s := s.takeValues v
  let s := { s with tick := { s.tick with darkNext := s.tick.darkNext || timing } }
  match v.source with
  | 1 => if newSource then (s.noEdges.setLock lockAcquiring, true) else (if timing then s.setLock lockAcquiring else s, false)
  | 2 => (if newSource || timing then s.gptpLock else s, false)
  | _ =>
    let s := s.setLock lockFree
    (if newSource || newPeriod then { s with tick := { s.tick with e0 := s.edgeTime, n := 0 } } else s, false)

/-! ### Enable and disable (R42, R45) -/

/-- Values that an APPLY left pending are taken. -/
def State.takeApplied (s : State) : State := match s.tick.apply with | some v => s.takeValues v | none => s

/-- ENABLE goes from 0 to 1: a waiting APPLY and the source settings are taken, and the first edge is placed (R42, R43, R45). -/
def State.startTick (s : State) : State :=
  let s := s.takeApplied
  let src := s.sourceWritten
  let s := s.wr TICK_STATUS.SOURCE src
  let s := ({ s with tick := { s.tick with tol := s.tolWritten, port := s.rd TICK_CTRL.GPTP_PORT } }).noEdges.replanAll
  let s := if src = 0 then s.setLock lockFree else if src = 1 then s.setLock lockAcquiring else s.gptpLock
  let soon := s.now + 1000 * s.rd TICK_TIMING.LATCH_GUARD_US + 20000
  let first := grid (if src = 2 ∧ s.gptpLocked then s.gptpNext soon else soon)
  { s with tick := { s.tick with
      running := true, nextEdge := first, e0 := first, n := 0, darkNext := true, fresh := true, latched := false, lockRun := 0 } }

/-- ENABLE goes from 1 to 0: every Flyer finishes the current tick dark, and tick edges stop (R42); the Spindles write
nothing more (R210), and TICK_OUT is low (R41). -/
def State.stopTick (s : State) : State :=
  let s := s.engines.foldl (fun s e => s.endOne e) s
  let s := s.engines.foldl (fun s e =>
    (s.wrs [(FLY_ENG_STATE.DARK e, 1), (FLY_ENG_STATE.DARK_REASON e, 3), (FLY_ENG_TABLE_END.END e, 0)]).setEngine e fun g =>
      { g with row := none }) s
  { s with tick := { s.tick with running := false, out := false, settled := true, latched := false, applyRipe := false } }

/-- BLANK lets no tick start (R488). -/
def State.mayTick (s : State) : Bool := s.rd DEV_STATUS.LC != 0

/-- A write of TICK_CTRL. -/
def State.tickCtrl (s : State) (w : Nat) : State :=
  let on := bitOf w 0
  let was := s.flag TICK_CTRL.ENABLE
  let s := s.wrs [(TICK_CTRL.SOURCE, bitsOf w 1 2), (TICK_CTRL.GPTP_PORT, bitsOf w 3 1), (TICK_CTRL.PRESET, bitsOf w 4 4),
    (TICK_CTRL.ENABLE, b2n on)]
  let s := if !on && was && s.tick.running then s.stopTick else s
  let s := if bitOf w 8 then s.tryApply else s
  if on && !was && s.mayTick then s.startTick else s

/-- TICK_ENABLE: a write of TICK_CTRL with ENABLE 1 (R42). -/
def execTickEnable (w : Word) (s : State) : Out := .next (s.setup fun s => if bitOf w.toNat 0 then s.tickCtrl w.toNat else s)

/-- TICK_DISABLE: a write of TICK_CTRL with ENABLE 0 (R42). -/
def execTickDisable (w : Word) (s : State) : Out := .next (s.setup fun s => if bitOf w.toNat 0 then s else s.tickCtrl w.toNat)

/-- TICK_APPLY: a write of TICK_CTRL with APPLY 1 (R43). -/
def execTickApply (w : Word) (s : State) : Out := .next (s.setup fun s => if bitOf w.toNat 8 then s.tickCtrl w.toNat else s)

/-! ### TICK_IN and TICK_OUT (R37, R41) -/

/-- The interval lies within P × (1 ± tol), tol in 0.05 % steps (R37). -/
def State.intervalOk (s : State) (iv : Nat) : Bool :=
  decide (s.period * (2000 - s.tick.tol) ≤ 2000 * iv) && decide (2000 * iv ≤ s.period * (2000 + s.tick.tol))

/-- An accepted TICK_IN edge: it leaves HOLDOVER, and may pair with the latest tick edge (R37). -/
def State.acceptEdge (s : State) (t iv : Nat) : State :=
  let s := { s with tick := { s.tick with accepted := some t, candidate := none, lastInterval := some iv } }
  (if s.rd TICK_STATUS.LOCK = lockHoldover then s.setLock lockAcquiring else s).tryPair

/-- A TICK_IN rising edge at device time `t` (R37). -/
def State.pinEdge (s : State) (t : Nat) : State :=
  let s := if s.period ≤ 2 * (t - s.edgeTime) then s.settlePin else s
  match s.tick.accepted, s.tick.candidate with
  | some a, _ => if s.intervalOk (t - a) then s.acceptEdge t (t - a) else s.bump TICK_PIN_STATS.REJECTED 1
  | none, none => { s with tick := { s.tick with candidate := some t } }
  | none, some c =>
    if s.intervalOk (t - c) then s.acceptEdge t (t - c)
    else { (s.bump TICK_PIN_STATS.REJECTED 1) with tick := { s.tick with candidate := some t } }

/-- TICK_IN_EDGE: a rising edge of TICK_IN at device time `t`; the PIN logic looks at it while PIN is in force (R37). -/
def execTickInEdge (t : Nat) (s : State) : Out :=
  .next (s.inService fun s =>
    let s := s.reach t
    if s.tick.running && s.rd TICK_STATUS.SOURCE == 1 then s.pinEdge s.now else s)

/-- TICK_OUT at a tick edge (R41). -/
def State.tickOut (s : State) : State :=
  if s.flag TICK_OUT_CFG.ENABLE then
    { s with tick := { s.tick with out := true, outEnd := s.now + 1000 * max 1 (s.rd TICK_OUT_CFG.WIDTH_US) } }
  else s

/-- TICK_OUT_PULSE_END (R41). -/
def execTickOutPulseEnd (s : State) : Out :=
  .next (s.inService fun s =>
    if s.tick.out then { (s.reach s.tick.outEnd) with tick := { s.tick with out := false } } else s)

end Sys2Proof.Machine
end

