-- ==== Sys2Proof/Machine/TickEdge.lean ====
section
/-! DEFINITION. TICK_EDGE: what a tick edge ends and begins in every block (R19, R36 to R45, R200 to R226, R242 to R254, R297
to R304, R315, R327, R441, R457 to R459). -/

namespace Sys2Proof.Machine

/-! ### The tick that ends -/

/-- A string's age and VERIFIED after a tick (R327). -/
def State.ageStrings (s : State) (e : Nat) : State :=
  if (s.lightOf e).known then
    let lit := (s.engine e).run.lit
    (List.range 27).foldl (fun s i =>
      (if lit then s.wr (LGT_STR_STATUS.AGE e i) (min 4095 (s.rd (LGT_STR_STATUS.AGE e i) + 1)) else s).showVerified e i) s
  else s

/-- The tick of engine `e` ends: its plane CRC, sensors, ages and lost samples (R317, R327, R338, R451). -/
def State.endEngineTick (s : State) (e : Nat) : State :=
  let s := match (s.engine e).ticks with
    | t :: _ => (s.closeCrc e).setLight e fun l => l.judgeSensors t
    | [] => s
  ((s.ageStrings e).reraise e).setLight e LightEng.respEdge

/-! ### The edge itself (R34 to R40) -/

/-- The counter, the time of the edge, and an APPLY that takes effect at it (R24, R43): with it, whether a PIN edge is
flywheeled from here uncounted. -/
def State.countEdge (s : State) : State × Bool :=
  let s := s.wrs [(TICK_COUNT.COUNT, (s.tickNo + 1) % 2 ^ 48), (TICK_EDGE_TIME.TIME_NS, s.now)]
  let fresh := s.tick.fresh
  let s := { s with tick := { s.tick with latched := false, fresh := false } }
  match s.tick.apply with
  | some v => if s.tick.applyRipe then let p := s.applyEdge v; (p.1, fresh || p.2) else (s, fresh)
  | none => (s, fresh)

/-- The length of the tick that begins, where it is decided at the edge (R36 to R39). `darkNext` tells of the tick after. -/
def State.decideLength (s : State) (fresh : Bool) : State :=
  let s := { s with tick := { s.tick with darkNext := false } }
  let s := match s.rd TICK_STATUS.SOURCE with
    | 1 =>
      if fresh then s.flywheel
      else ({ s with tick := { s.tick with settled := false, nextEdge := grid (s.edgeTime + clampN s.baseLength s.pmin s.pmax) } }).tryPair
    | 2 => if s.gptpLocked then s.measure (s.gptpError s.edgeTime) else s.flywheel
    | _ =>
      let s := (s.wr TICK_PHASE_ERR.ERR_NS 0)
      { s with tick := { s.tick with n := s.tick.n + 1, nextEdge := grid (s.tick.e0 + (s.tick.n + 1) * s.period), settled := true } }
  s.showIndex

/-! ### Settings and links (R209, R248, R249, R283, R297, R302) -/

/-- The settings of the frames move on by one tick. -/
def EngState.shift (g : EngState) : EngState :=
  { g with fly := g.spin, spin := g.lat, modeDark := g.modeSpin, modeSpin := g.modeLat, modeLat := false }

/-- The port mode in force at the link: a change takes every sub-port to OFF, and on to TRAIN where its port may train. -/
def State.portMode (s : State) (p : Nat) : State :=
  let v := (s.engine (2 * p)).fly.cfg.split
  if s.split p = v then s
  else
    let s := (s.linkOff (2 * p)).linkOff (2 * p + 1)
    let s := s.wrs [(SKN_PORT_STATUS.SPLIT p, b2n v), (FLY_PORT_STATUS.SPLIT p, b2n v)]
    if s.portMayTrain p then (s.enginesOf p).foldl (fun s e => s.train e none) s else s

/-- A sub-port at a tick edge. -/
def State.linkEdge (s : State) (e : Nat) : State :=
  let g := s.engine e
  let st := s.linkState e
  if g.fly.cfg.enable = false then (if st = 4 ∨ st = 5 then (s.leaveRun e).setLinkState e 3 else s)
  else if st = 3 ∨ (st = 5 ∧ g.modeDark) then s.enterConfig e
  else if st = 4 then (s.setLink e fun l => { l with configEdges := min 8 (l.configEdges + 1) }).queueConfig e
  else s

/-! ### Composition (R20, R54, R150, R182, R183) -/

/-- Object banks fenced now, bit 16 the mirror. -/
def State.bankMask (s : State) : Nat :=
  ((List.range 16).map fun b => b2n (s.bankFenced b) * 2 ^ b).sum + b2n s.mirrorFenced * 2 ^ 16

/-- Guarded objects whose atlas entry is not valid, or not guarded, draw nothing in the frame (R182). -/
def State.countGuardDark (s : State) : State :=
  let k := s.comp.composing
  let dark := (s.liveCtxs.filter fun p =>
    let a := Tbl.get (fun _ => ({} : Atlas)) k.atlases (cxAtlas p.2)
    cxVG p.2 && (k.canvas (cxCanvas p.2)).enable && !(a.valid && a.guarded)).length
  if dark = 0 then s else (s.bump OBJ_COUNTS.GUARD_DARK dark).raise 241

/-- The canvas frame that the latch point took begins to be composed. -/
def State.openComposition (s : State) : State :=
  let f := s.comp.failed
  let entered := f.filter fun c => !s.comp.composing.fallback.contains c
  let k := { s.comp.latched with fallback := f, banks := s.bankMask }
  let s := { s with
    surf := { s.surf with hankBad := [] }
    comp := { s.comp with lit := s.comp.composing.canvases, composing := k, todo := k.order, done := [], words := [] } }
  let s := entered.foldl (fun s c => s.bump (CMP_CV_KEPT.FALLBACKS c) 1) s
  (s.wr CMP_STATUS.FALLBACK (f.map fun c => 2 ^ c).sum).countGuardDark.regionsInForce

/-! ### The tick that begins on an engine (R201, R202, R226, R242, R251, R254) -/

/-- A clone takes its source's staple class (R201). -/
def State.cloneClass (s : State) (e src : Nat) : State :=
  let old := s.rd (SPN_CLASS.CLASS e)
  let s := s.wrs [(SPN_CLASS.CLASS e, s.rd (SPN_CLASS.CLASS src)), (SPN_CLASS.STALE e, s.rd (SPN_CLASS.STALE src)),
    (SPN_CLASS.RAW e, s.rd (SPN_CLASS.RAW src)), (SPN_CLASS.SCORE e, s.rd (SPN_CLASS.SCORE src))]
  if s.rd (SPN_CLASS.CLASS e) = old then s else s.raise (83 + 4 * (e / 2))

/-- A mode change starts the class from 0 where no frame was written (R226). -/
def State.zeroClass (s : State) (e : Nat) : State :=
  if s.rd (SPN_CLASS.CLASS e) = 0 then s else (s.wr (SPN_CLASS.CLASS e) 0).raise (83 + 4 * (e / 2))

/-- CLONE_DARK of a clone at a tick edge: set where its source is fenced or has left its port, with source 249; cleared by a
change of its mode or source, or where its source is among the engines `back` that UNFENCE returns (R202). -/
def State.cloneDark (s : State) (e : Nat) (was : WarpCfg) (back : List Nat) : State :=
  let v := (s.engine e).fly.warp
  let s := if was.mode ≠ v.mode ∨ was.cloneSrc ≠ v.cloneSrc ∨ back.contains v.cloneSrc then s.wr (CNV_ENG_CFG.CLONE_DARK e) 0 else s
  if v.mode = 3 ∧ s.flag (CNV_ENG_CFG.CLONE_DARK e) = false ∧ (s.engFenced v.cloneSrc ∨ s.exists_ v.cloneSrc = false) then
    (s.wr (CNV_ENG_CFG.CLONE_DARK e) 1).raise 249
  else s

/-- The tick of engine `e` begins, lit or dark. -/
def State.beginTick (s : State) (e : Nat) (tickDark : Bool) : State :=
  let g := s.engine e
  let b := g.fly
  let src := if b.warp.mode = 3 then b.warp.cloneSrc else e
  let q := s.engine src
  let dark := s.darkWhy e b q.fly g.modeDark q.modeDark tickDark
  let shallow := s.comp.latched.shedSteps.contains 4
  let v := if dark.isSome then none else s.selectTable src shallow
  let dark := if v.isNone then some (dark.getD 0) else none
  let s := (s.showFly e).showTick e src dark shallow v
  let s := ((s.takeEdge e).calEdge e).diagRequests e
  let (s, notches) := if v.isSome then s.grantNotches e else (s, [])
  s.beginRun e (v.map Prod.snd) notches

/-! ### Host interface and integrity (R87, R88, R441, R457 to R459) -/

/-- The windows that begin at this edge (R441). -/
def State.windowsDue (s : State) : State :=
  { s with sig := { s.sig with windowDue := (List.range 8).filter fun k => s.tickNo % s.windowOf k == 0 } }

/-- Event reels at a tick edge: follow-ups, quotas, and the pending summary. -/
def State.evrEdge (s : State) : State :=
  (List.range 8).foldl (fun s v =>
    let s := (s.flushFollowUps v).setEvr v fun q => { q with used := [0, 0, 0, 0], summaryRipe := q.summary.isSome }
    s.trySummary v) s

/-! ### TICK_EDGE -/

/-- The blocks of the light path, from the new settings on. -/
def State.edgeEngines (s : State) (tickDark : Bool) : State :=
  let ended := (List.range 32).filter fun e => (s.engine e).modeDark
  let wrote := (List.range 32).filter fun e => (s.engine e).row.isSome
  let oks := (List.range 32).filter fun e => (s.engine e).row.isSome && (s.engine e).frameOk
  let warps := (List.range 32).map fun e => (s.engine e).fly.warp
  let back := s.unfencing 1
  let s := s.returnEngines
  let s := (List.range 32).foldl (fun s e => s.setEngine e EngState.shift) s
  let s := (List.range 16).foldl (fun s p => s.portMode p) s
  let s := s.engines.foldl (fun s e => s.linkEdge e) s
  let s := s.grantPermit.openComposition
  let s := (List.range 32).foldl (fun s e => s.openFrame e (s.engine (2 * (e / 2))).spin.cfg.split) s
  let clone (e : Nat) : Bool := (s.engine e).fly.warp.mode == 3
  let own := s.engines.filter fun e => !clone e
  let s := own.foldl (fun s e =>
    if wrote.contains e then s.takeClass e e (oks.contains e) (s.engine e).modeDark
    else if (s.engine e).modeDark then s.zeroClass e else s) s
  let s := (s.engines.filter clone).foldl (fun s e => s.cloneClass e (s.engine e).fly.warp.cloneSrc) s
  let s := s.engines.foldl (fun s e => s.cloneDark e (warps.getD e {}) back) s
  let s := s.engines.foldl (fun s e => s.beginTick e tickDark) s
  ended.foldl (fun s e => s.raise (82 + 4 * (e / 2))) s

/-- The tick edge is due: the tick runs, and its latch point has passed (R47). -/
def State.edgeDue (s : State) : Bool := s.tick.running && s.tick.latched

/-- Everything a tick edge does. -/
def State.tickEdge (s : State) : State :=
  let s := s.reach s.tick.nextEdge
  let s := s.engines.foldl (fun s e => s.endEngineTick e) s
  let s := (List.range 32).foldl (fun s e => (s.closeFrame e).settleMatrix e) s
  let s := s.applyWindow
  let tickDark := s.tick.darkNext
  let (s, fresh) := s.countEdge
  let dark := tickDark || s.tick.darkNext
  let s := s.decideLength fresh
  let s := s.takeCalCfg.switchEdge.failedTables
  let s := s.edgeEngines dark
  let loop := s.tickNo % max 2 (bitsOf s.light.loopCfg 0 8) == 0
  let s := { s with
    light := { s.light with loopDue := s.light.loopDue || loop }
    stk := { s.stk with paid := false } }
  ((s.windowsDue.evrEdge.writeFences.wakeReels false).readBackEdge).tickOut

/-- TICK_EDGE (R251). -/
def execTickEdge (s : State) : Out := .next (s.inService fun s => if s.edgeDue then s.tickEdge else s)

end Sys2Proof.Machine
end

