-- ==== Sys2Proof/Machine/Dispatch.lean ====
section
/-! DEFINITION. The dispatch of the commands to their meanings, one arm per row of the table of commands. -/

namespace Sys2Proof.Machine

def exec (i : Instr) (s : State) : Host.Outcome State Fault Refusal :=
  match i with
  | .nop r => Sys2Proof.Machine.execNop r s
  | .fence r => Sys2Proof.Machine.execFence r s
  | .waitTick r => Sys2Proof.Machine.execWaitTick r s
  | .readBack r => Sys2Proof.Machine.execReadBack r s
  | .readBackEnd r n => Sys2Proof.Machine.execReadBackEnd r n s
  | .unfence r => Sys2Proof.Machine.execUnfence r s
  | .surfaceDefine r => Sys2Proof.Machine.execSurfaceDefine r s
  | .surfaceCopy r => Sys2Proof.Machine.execSurfaceCopy r s
  | .copyWriteEnd r bs => Sys2Proof.Machine.execCopyWriteEnd r bs s
  | .surfaceState r => Sys2Proof.Machine.execSurfaceState r s
  | .atlasDefine r => Sys2Proof.Machine.execAtlasDefine r s
  | .layerSet r => Sys2Proof.Machine.execLayerSet r s
  | .canvasSet r => Sys2Proof.Machine.execCanvasSet r s
  | .commit r => Sys2Proof.Machine.execCommit r s
  | .guardSet r => Sys2Proof.Machine.execGuardSet r s
  | .guardCommit r => Sys2Proof.Machine.execGuardCommit r s
  | .regionSet r => Sys2Proof.Machine.execRegionSet r s
  | .scalerBind r => Sys2Proof.Machine.execScalerBind r s
  | .coefLoad r => Sys2Proof.Machine.execCoefLoad r s
  | .objWrite r => Sys2Proof.Machine.execObjWrite r s
  | .meshLoad r => Sys2Proof.Machine.execMeshLoad r s
  | .saddleLoad r => Sys2Proof.Machine.execSaddleLoad r s
  | .engineSet r => Sys2Proof.Machine.execEngineSet r s
  | .engineCommit r => Sys2Proof.Machine.execEngineCommit r s
  | .twistLoad r => Sys2Proof.Machine.execTwistLoad r s
  | .twistSet r => Sys2Proof.Machine.execTwistSet r s
  | .lightSet r => Sys2Proof.Machine.execLightSet r s
  | .calRequest r => Sys2Proof.Machine.execCalRequest r s
  | .calStore r => Sys2Proof.Machine.execCalStore r s
  | .flowWrite r => Sys2Proof.Machine.execFlowWrite r s
  | .doorbell r off full w => Sys2Proof.Machine.execDoorbell r off full w s
  | .descriptorFetch => Sys2Proof.Machine.execDescriptorFetch s
  | .descriptorArrival r ds => Sys2Proof.Machine.execDescriptorArrival r ds s
  | .hostReadError kind r => Sys2Proof.Machine.execHostReadError kind r s
  | .headWriteBack r => Sys2Proof.Machine.execHeadWriteBack r s
  | .evrHeadRead v count => Sys2Proof.Machine.execEvrHeadRead v count s
  | .alarmQueueWrite v => Sys2Proof.Machine.execAlarmQueueWrite v s
  | .hostInterfaceReset flr linkDown => Sys2Proof.Machine.execHostInterfaceReset flr linkDown s
  | .d3hotEntry => Sys2Proof.Machine.execD3hotEntry s
  | .d0Return => Sys2Proof.Machine.execD0Return s
  | .setupWrite off n v => Sys2Proof.Machine.execSetupWrite off n v s
  | .tickEnable w => Sys2Proof.Machine.execTickEnable w s
  | .tickDisable w => Sys2Proof.Machine.execTickDisable w s
  | .tickApply w => Sys2Proof.Machine.execTickApply w s
  | .crEnable r w => Sys2Proof.Machine.execCrEnable r w s
  | .crDisable r w => Sys2Proof.Machine.execCrDisable r w s
  | .crRestart r => Sys2Proof.Machine.execCrRestart r s
  | .evrEnable v w => Sys2Proof.Machine.execEvrEnable v w s
  | .icMsgDoorbell w => Sys2Proof.Machine.execIcMsgDoorbell w s
  | .icSrcSet w => Sys2Proof.Machine.execIcSrcSet w s
  | .icPendClear k w => Sys2Proof.Machine.execIcPendClear k w s
  | .icTgtClaim t => Sys2Proof.Machine.execIcTgtClaim t s
  | .icTgtComplete t w => Sys2Proof.Machine.execIcTgtComplete t w s
  | .release t w => Sys2Proof.Machine.execRelease t w s
  | .targetWake t w => Sys2Proof.Machine.execTargetWake t w s
  | .interruptArrival n => Sys2Proof.Machine.execInterruptArrival n s
  | .notify t => Sys2Proof.Machine.execNotify t s
  | .sknPortEnable p w => Sys2Proof.Machine.execSknPortEnable p w s
  | .retrain e => Sys2Proof.Machine.execRetrain e s
  | .accept e => Sys2Proof.Machine.execAccept e s
  | .lsafeRelease => Sys2Proof.Machine.execLsafeRelease s
  | .cbusEnable w => Sys2Proof.Machine.execCbusEnable w s
  | .logClear => Sys2Proof.Machine.execLogClear s
  | .allowValid n w => Sys2Proof.Machine.execAllowValid n w s
  | .bbnPortConfig p w => Sys2Proof.Machine.execBbnPortConfig p w s
  | .streamEnable c w => Sys2Proof.Machine.execStreamEnable c w s
  | .mapApply => Sys2Proof.Machine.execMapApply s
  | .toTest w => Sys2Proof.Machine.execToTest w s
  | .toField w => Sys2Proof.Machine.execToField w s
  | .toReturn w sig => Sys2Proof.Machine.execToReturn w sig s
  | .programRepair => Sys2Proof.Machine.execProgramRepair s
  | .bistStart w => Sys2Proof.Machine.execBistStart w s
  | .ceilingWrite w => Sys2Proof.Machine.execCeilingWrite w s
  | .longOperationEnd x => Sys2Proof.Machine.execLongOperationEnd x s
  | .porstLFall => Sys2Proof.Machine.execPorstLFall s
  | .porstLRise gpio => Sys2Proof.Machine.execPorstLRise gpio s
  | .pwrOkFall => Sys2Proof.Machine.execPwrOkFall s
  | .pwrOkRise => Sys2Proof.Machine.execPwrOkRise s
  | .lsafeOpen => Sys2Proof.Machine.execLsafeOpen s
  | .tickInEdge t => Sys2Proof.Machine.execTickInEdge t s
  | .clockLoss c => Sys2Proof.Machine.execClockLoss c s
  | .tickEdge => Sys2Proof.Machine.execTickEdge s
  | .latchPoint => Sys2Proof.Machine.execLatchPoint s
  | .tickOutPulseEnd => Sys2Proof.Machine.execTickOutPulseEnd s
  | .tickGapEnd => Sys2Proof.Machine.execTickGapEnd s
  | .slotStart e => Sys2Proof.Machine.execSlotStart e s
  | .tableEnd e => Sys2Proof.Machine.execTableEnd e s
  | .notch e => Sys2Proof.Machine.execNotch e s
  | .loadStart e => Sys2Proof.Machine.execLoadStart e s
  | .bandBlank e beta => Sys2Proof.Machine.execBandBlank e beta s
  | .underrun e => Sys2Proof.Machine.execUnderrun e s
  | .egressFetch e n => Sys2Proof.Machine.execEgressFetch e n s
  | .plyTransmit port strand => Sys2Proof.Machine.execPlyTransmit port strand s
  | .keepalive port strand => Sys2Proof.Machine.execKeepalive port strand s
  | .composeUnit => Sys2Proof.Machine.execComposeUnit s
  | .warpRow p waited => Sys2Proof.Machine.execWarpRow p waited s
  | .bandComplete e band stalled => Sys2Proof.Machine.execBandComplete e band stalled s
  | .objApplyWindow => Sys2Proof.Machine.execObjApplyWindow s
  | .regionSignature c r => Sys2Proof.Machine.execRegionSignature c r s
  | .ack e next => Sys2Proof.Machine.execAck e next s
  | .nak e q => Sys2Proof.Machine.execNak e q s
  | .rsStatus e estate lock flags => Sys2Proof.Machine.execRsStatus e estate lock flags s
  | .sensor e tag j value t16 => Sys2Proof.Machine.execSensor e tag j value t16 s
  | .string e bank str volt cur flags t16 => Sys2Proof.Machine.execString e bank str volt cur flags t16 s
  | .temp e array laser driver sensor => Sys2Proof.Machine.execTemp e array laser driver sensor s
  | .crcEcho e t16 crc => Sys2Proof.Machine.execCrcEcho e t16 crc s
  | .ident e x => Sys2Proof.Machine.execIdent e x s
  | .bandParked e band t16 => Sys2Proof.Machine.execBandParked e band t16 s
  | .configOk e id => Sys2Proof.Machine.execConfigOk e id s
  | .configReject e id cause => Sys2Proof.Machine.execConfigReject e id cause s
  | .engineMsg e source => Sys2Proof.Machine.execEngineMsg e source s
  | .late e seq => Sys2Proof.Machine.execLate e seq s
  | .darkTimer e strand => Sys2Proof.Machine.execDarkTimer e strand s
  | .badRecord e code arg => Sys2Proof.Machine.execBadRecord e code arg s
  | .rsBadMessage p kind => Sys2Proof.Machine.execRsBadMessage p kind s
  | .returnStrandLost p => Sys2Proof.Machine.execReturnStrandLost p s
  | .skeinNoAnswer e => Sys2Proof.Machine.execSkeinNoAnswer e s
  | .crcEchoMissing e => Sys2Proof.Machine.execCrcEchoMissing e s
  | .loopEdge => Sys2Proof.Machine.execLoopEdge s
  | .calibrationTimeout e b => Sys2Proof.Machine.execCalibrationTimeout e b s
  | .heatHoldExpiry e j => Sys2Proof.Machine.execHeatHoldExpiry e j s
  | .escalationWindow k => Sys2Proof.Machine.execEscalationWindow k s
  | .dieParityFail w third => Sys2Proof.Machine.execDieParityFail w third s
  | .tableAck mac ok e result id => Sys2Proof.Machine.execTableAck mac ok e result id s
  | .switchAck mac ok e result id => Sys2Proof.Machine.execSwitchAck mac ok e result id s
  | .cbusStatus mac ok e flags id => Sys2Proof.Machine.execCbusStatus mac ok e flags id s
  | .ambient mac ok lux => Sys2Proof.Machine.execAmbient mac ok lux s
  | .cbusMsg mac ok source => Sys2Proof.Machine.execCbusMsg mac ok source s
  | .stranger mac => Sys2Proof.Machine.execStranger mac s
  | .cbusRxFault kind => Sys2Proof.Machine.execCbusRxFault kind s
  | .tableRetry e => Sys2Proof.Machine.execTableRetry e s
  | .switchRetry => Sys2Proof.Machine.execSwitchRetry s
  | .plcaActiveChange active => Sys2Proof.Machine.execPlcaActiveChange active s
  | .cbusTransmit => Sys2Proof.Machine.execCbusTransmit s
  | .bbnFrameRx x => Sys2Proof.Machine.execBbnFrameRx x s
  | .streamFrameComplete c ns => Sys2Proof.Machine.execStreamFrameComplete c ns s
  | .streamFrameTimeout c => Sys2Proof.Machine.execStreamFrameTimeout c s
  | .gptpMessage p m => Sys2Proof.Machine.execGptpMessage p m s
  | .gptpLost p => Sys2Proof.Machine.execGptpLost p s
  | .pdelayReq p => Sys2Proof.Machine.execPdelayReq p s
  | .bbnLinkChange p block fec => Sys2Proof.Machine.execBbnLinkChange p block fec s
  | .stackTempRead ok reading => Sys2Proof.Machine.execStackTempRead ok reading s
  | .refreshBoundary pc rounds c0 => Sys2Proof.Machine.execRefreshBoundary pc rounds c0 s
  | .c3Window pc issued => Sys2Proof.Machine.execC3Window pc issued s
  | .agedTierJoin pc req arrival issued classA => Sys2Proof.Machine.execAgedTierJoin pc req arrival issued classA s
  | .laneTrack lane up => Sys2Proof.Machine.execLaneTrack lane up s
  | .stackParityFail v a n => Sys2Proof.Machine.execStackParityFail v a n s
  | .pcRetrainEnd pc ws => Sys2Proof.Machine.execPcRetrainEnd pc ws s
  | .thermalModelUpdate rails => Sys2Proof.Machine.execThermalModelUpdate rails s
  | .caseSensorRead ok value => Sys2Proof.Machine.execCaseSensorRead ok value s
  | .ceilingDecision => Sys2Proof.Machine.execCeilingDecision s
  | .hostDataReadEnd r bs => Sys2Proof.Machine.execHostDataReadEnd r bs s
  | .startUpStepEnd x => Sys2Proof.Machine.execStartUpStepEnd x s
  | .clockReturn c => Sys2Proof.Machine.execClockReturn c s
  | .lsafeClose => Sys2Proof.Machine.execLsafeClose s
  | .pcieLinkUp speed width => Sys2Proof.Machine.execPcieLinkUp speed width s
  | .msixEnableWrite enable mask => Sys2Proof.Machine.execMsixEnableWrite enable mask s
  | .returnStrandLock p lock => Sys2Proof.Machine.execReturnStrandLock p lock s
  | .hello port strand => Sys2Proof.Machine.execHello port strand s

end Sys2Proof.Machine
end

