-- ==== Sys2Proof/Machine/Step.lean ====
section
/-! DEFINITION. The step of the block: the command at the front of the queue has its effect; with no command waiting, 5 ns of
device time pass. -/

namespace Sys2Proof.Machine

/-- Nothing is commanded: one sequencer cycle of device time passes while the part is powered and clocked (R24, R34). DESIGN
CHOICE: a block without a command row for its clock lets time pass on an empty queue. -/
def State.idle (s : State) : State := if s.powered then { s with now := s.now + 5 } else s

/-- One step. -/
def step (s : State) : Host.Outcome State Fault Refusal :=
  match s.pending with
  | [] => .next s.idle
  | c :: rest => exec c { s with pending := rest }

/-- A word spells no command: the table of commands gives no row bits. -/
def State.withFetchWord (s : State) (nbits w : Nat) : State :=
  match decodeTableWord nbits w with
  | some c => { s with pending := c :: s.pending }
  | none => s

end Sys2Proof.Machine
end

