-- ==== Sys2Proof/Safety.lean ====
section
/-! DEFINITION. The terms that statements are made in: the invariant, when a set-up write or a descriptor is served, what a
command may change, and what an outcome answers. -/

namespace Sys2Proof.Machine

/-! ### The invariant -/

/-- The register file, the stack's bytes and the boot flash are in their canonical form, so that equal contents are equal
data. -/
def State.Inv (s : State) : Prop :=
  Tbl.wf regReset s.regs = true ∧ Memory.wf s.stk.mem = true ∧ Tbl.wf erased s.light.cal.flash = true

/-! ### What a command may change -/

/-- A part of the state beside the registers and device time. `stk` and `light` are without the stored bytes, and `pwr` without
the fuses: those are parts of their own. -/
inductive Part where
  | hif | ic | sig | tick | surf | comp | obj | eng | light | bbn | stk | thm | pwr
  /-- The bytes that the stack holds. -/
  | mem
  /-- The boot flash. -/
  | flash
  | fuses
  deriving DecidableEq, Repr

/-- The part is the same in both states. -/
def Part.same (r s : State) : Part → Prop
  | .hif => s.hif = r.hif
  | .ic => s.ic = r.ic
  | .sig => s.sig = r.sig
  | .tick => s.tick = r.tick
  | .surf => s.surf = r.surf
  | .comp => s.comp = r.comp
  | .obj => s.obj = r.obj
  | .eng => s.eng = r.eng
  | .light => { s.light with cal := { s.light.cal with flash := [] } } = { r.light with cal := { r.light.cal with flash := [] } }
  | .bbn => s.bbn = r.bbn
  | .stk => { s.stk with mem := [] } = { r.stk with mem := [] }
  | .thm => s.thm = r.thm
  | .pwr => { s.pwr with fuses := {} } = { r.pwr with fuses := {} }
  | .mem => s.stk.mem = r.stk.mem
  | .flash => s.light.cal.flash = r.light.cal.flash
  | .fuses => s.pwr.fuses = r.pwr.fuses

/-- The byte that the stack holds at a location. -/
def State.cell (s : State) (l : Nat) : Byte := Tbl.get memDefault s.stk.mem l

/-- The parts that a command may change; no command changes another. -/
def footprint : Instr → List Part
  | .nop _ => [.hif, .ic]
  | .fence _ => [.hif, .ic]
  | .waitTick _ => [.hif, .ic]
  | .readBack _ => [.hif, .ic]
  | .readBackEnd _ _ => [.hif, .ic, .stk]
  | .unfence _ => [.hif, .ic, .sig, .obj, .stk]
  | .surfaceDefine _ => [.hif, .ic, .surf]
  | .surfaceCopy _ => [.hif, .ic, .surf]
  | .copyWriteEnd _ _ => [.hif, .ic, .surf, .stk, .mem]
  | .surfaceState _ => [.hif, .ic, .surf]
  | .atlasDefine _ => [.hif, .ic, .surf]
  | .layerSet _ => [.hif, .ic, .comp]
  | .canvasSet _ => [.hif, .ic, .comp]
  | .commit _ => [.hif, .ic, .comp, .obj]
  | .guardSet _ => [.hif, .ic, .comp]
  | .guardCommit _ => [.hif, .ic, .comp, .obj]
  | .regionSet _ => [.hif, .ic, .sig]
  | .scalerBind _ => [.hif, .ic, .obj]
  | .coefLoad _ => [.hif, .ic]
  | .objWrite _ => [.hif, .ic]
  | .meshLoad _ => [.hif, .ic, .eng]
  | .saddleLoad _ => [.hif, .ic, .eng]
  | .engineSet _ => [.hif, .ic, .eng]
  | .engineCommit _ => [.hif, .ic, .comp, .obj]
  | .twistLoad _ => [.hif, .ic]
  | .twistSet _ => [.hif, .ic, .eng]
  | .lightSet _ => [.hif, .ic, .light]
  | .calRequest _ => [.hif, .ic, .light]
  | .calStore _ => [.hif, .ic, .light, .pwr]
  | .flowWrite _ => [.hif, .ic, .bbn]
  | .doorbell _ _ _ _ => [.hif, .ic]
  | .descriptorFetch => [.hif]
  | .descriptorArrival _ _ => [.hif, .ic]
  | .hostReadError _ _ => [.hif, .ic, .surf]
  | .headWriteBack _ => [.hif]
  | .evrHeadRead _ _ => [.hif, .ic]
  | .alarmQueueWrite _ => [.hif, .ic]
  | .hostInterfaceReset _ _ => [.hif, .sig, .surf, .comp, .pwr]
  | .d3hotEntry => [.hif]
  | .d0Return => [.hif, .ic]
  | .setupWrite _ _ _ => [.hif, .tick, .light, .pwr]
  | .tickEnable _ => [.ic, .tick, .comp, .eng]
  | .tickDisable _ => [.ic, .tick, .comp, .eng]
  | .tickApply _ => [.ic, .tick, .comp, .eng]
  | .crEnable _ _ => [.hif]
  | .crDisable _ _ => [.hif, .ic]
  | .crRestart _ => [.hif, .ic]
  | .evrEnable _ _ => [.hif]
  | .icMsgDoorbell _ => [.ic]
  | .icSrcSet _ => [.ic]
  | .icPendClear _ _ => [.pwr]
  | .icTgtClaim _ => [.ic, .pwr]
  | .icTgtComplete _ _ => [.pwr]
  | .release _ _ => [.pwr]
  | .targetWake _ _ => [.pwr]
  | .interruptArrival _ => [.hif, .ic]
  | .notify _ => [.hif, .ic, .pwr]
  | .sknPortEnable _ _ => [.ic, .eng, .light]
  | .retrain _ => [.ic, .eng, .light]
  | .accept _ => [.ic, .eng, .light]
  | .lsafeRelease => [.eng]
  | .cbusEnable _ => [.ic, .light]
  | .logClear => []
  | .allowValid _ _ => [.light]
  | .bbnPortConfig _ _ => [.ic, .tick, .surf, .bbn]
  | .streamEnable _ _ => [.ic, .surf, .bbn]
  | .mapApply => [.ic, .stk]
  | .toTest _ => [.pwr]
  | .toField _ => [.pwr]
  | .toReturn _ _ => [.pwr]
  | .programRepair => [.pwr]
  | .bistStart _ => [.ic, .obj, .eng, .light, .pwr]
  | .ceilingWrite _ => [.ic]
  | .longOperationEnd _ => [.hif, .ic, .sig, .obj, .eng, .light, .stk, .pwr, .mem, .flash, .fuses]
  | .porstLFall => [.hif, .ic, .sig, .tick, .surf, .comp, .obj, .eng, .light, .bbn, .stk, .thm, .pwr, .mem, .fuses]
  | .porstLRise _ => [.hif, .ic, .sig, .tick, .surf, .comp, .obj, .eng, .light, .bbn, .stk, .thm, .pwr, .mem, .fuses]
  | .pwrOkFall => [.hif, .ic, .sig, .obj, .eng, .light, .stk, .pwr, .mem]
  | .pwrOkRise => [.ic, .pwr]
  | .lsafeOpen => [.ic, .eng, .pwr]
  | .tickInEdge _ => [.ic, .tick]
  | .clockLoss _ => [.hif, .ic, .sig, .tick, .surf, .comp, .eng, .light, .bbn, .pwr]
  | .tickEdge => [.hif, .ic, .sig, .tick, .surf, .comp, .obj, .eng, .light, .stk, .pwr]
  | .latchPoint => [.hif, .ic, .sig, .tick, .comp, .obj, .eng, .light, .thm]
  | .tickOutPulseEnd => [.tick]
  | .tickGapEnd => [.ic, .eng]
  | .slotStart _ => [.ic, .eng]
  | .tableEnd _ => [.eng]
  | .notch _ => [.eng]
  | .loadStart _ => [.ic, .eng]
  | .bandBlank _ _ => [.ic, .eng]
  | .underrun _ => [.ic, .eng]
  | .egressFetch _ _ => [.eng]
  | .plyTransmit _ _ => [.eng]
  | .keepalive _ _ => [.eng]
  | .composeUnit => [.hif, .ic, .sig, .surf, .comp, .obj, .eng, .light, .stk, .mem]
  | .warpRow _ _ => [.eng, .stk, .mem]
  | .bandComplete _ _ _ => [.eng, .mem]
  | .objApplyWindow => [.hif, .ic, .sig, .obj]
  | .regionSignature _ _ => [.hif, .ic, .sig, .comp]
  | .ack _ _ => [.eng]
  | .nak _ _ => [.hif, .ic, .sig, .obj, .eng, .light]
  | .rsStatus _ _ _ _ => [.ic, .eng, .light]
  | .sensor _ _ _ _ _ => [.eng, .light]
  | .string _ _ _ _ _ _ _ => [.ic, .eng, .light]
  | .temp _ _ _ _ _ => [.eng, .light]
  | .crcEcho _ _ _ => [.hif, .ic, .sig, .obj, .eng, .light]
  | .ident _ _ => [.ic, .eng, .light]
  | .bandParked _ _ _ => [.ic, .sig, .eng]
  | .configOk _ _ => [.ic, .eng]
  | .configReject _ _ _ => [.ic, .eng, .light]
  | .engineMsg _ _ => [.ic, .eng]
  | .late _ _ => [.eng]
  | .darkTimer _ _ => [.ic, .eng, .light]
  | .badRecord _ _ _ => [.eng]
  | .rsBadMessage _ _ => []
  | .returnStrandLost _ => [.ic, .eng, .light]
  | .skeinNoAnswer _ => [.ic, .eng, .light]
  | .crcEchoMissing _ => [.hif, .ic, .sig, .obj, .eng, .light]
  | .loopEdge => [.ic, .light]
  | .calibrationTimeout _ _ => [.ic, .light]
  | .heatHoldExpiry _ _ => [.light]
  | .escalationWindow _ => [.hif, .ic, .sig]
  | .dieParityFail _ _ => [.hif, .ic, .sig, .surf, .comp, .obj, .eng, .light, .bbn]
  | .tableAck _ _ _ _ _ => [.ic, .light]
  | .switchAck _ _ _ _ _ => [.ic, .light]
  | .cbusStatus _ _ _ _ _ => [.ic, .light]
  | .ambient _ _ _ => [.ic]
  | .cbusMsg _ _ _ => [.ic]
  | .stranger _ => [.ic]
  | .cbusRxFault _ => [.ic]
  | .tableRetry _ => [.ic, .light]
  | .switchRetry => [.light]
  | .plcaActiveChange _ => [.ic]
  | .cbusTransmit => [.light]
  | .bbnFrameRx _ => [.ic, .surf, .bbn, .stk, .mem]
  | .streamFrameComplete _ _ => [.ic, .surf, .bbn]
  | .streamFrameTimeout _ => [.ic, .surf, .bbn]
  | .gptpMessage _ _ => [.ic, .tick, .bbn]
  | .gptpLost _ => [.ic, .tick, .bbn]
  | .pdelayReq _ => [.bbn]
  | .bbnLinkChange _ _ _ => [.ic, .tick, .surf, .bbn]
  | .stackTempRead _ _ => [.ic, .stk]
  | .refreshBoundary _ _ _ => [.stk]
  | .c3Window _ _ => [.stk]
  | .agedTierJoin _ _ _ _ _ => [.stk]
  | .laneTrack _ _ => [.ic]
  | .stackParityFail _ _ _ => [.hif, .ic, .sig, .surf, .obj, .eng, .light, .bbn, .stk]
  | .pcRetrainEnd _ _ => [.hif, .ic, .sig, .stk]
  | .thermalModelUpdate _ => [.ic, .thm, .pwr]
  | .caseSensorRead _ _ => [.ic, .thm, .pwr]
  | .ceilingDecision => [.ic, .thm]
  | .hostDataReadEnd _ _ => [.hif, .ic, .surf, .obj, .eng, .light]
  | .startUpStepEnd _ => [.ic, .obj, .light, .pwr, .mem, .fuses]
  | .clockReturn _ => [.ic, .eng, .light, .pwr]
  | .lsafeClose => [.eng, .pwr]
  | .pcieLinkUp _ _ => [.hif]
  | .msixEnableWrite _ _ => [.hif]
  | .returnStrandLock _ _ => []
  | .hello _ _ => [.eng]

/-- The commands that start-up, the pins, the clocks and the sensors give the part before READY too, and SETUP_WRITE, whose
accesses have rules of their own (R97, R477). -/
def anyTime : Instr → Bool
  | .setupWrite _ _ _ => true
  | .porstLFall => true
  | .porstLRise _ => true
  | .pwrOkFall => true
  | .pwrOkRise => true
  | .lsafeOpen => true
  | .clockLoss _ => true
  | .thermalModelUpdate _ => true
  | .caseSensorRead _ _ => true
  | .startUpStepEnd _ => true
  | .clockReturn _ => true
  | .lsafeClose => true
  | .pcieLinkUp _ _ => true
  | _ => false

/-- The set-up writes with a row of their own: dropped and counted while a long operation is active (R98). -/
def setupRow : Instr → Bool
  | .tickEnable _ => true
  | .tickDisable _ => true
  | .tickApply _ => true
  | .crEnable _ _ => true
  | .crDisable _ _ => true
  | .crRestart _ => true
  | .evrEnable _ _ => true
  | .icMsgDoorbell _ => true
  | .icSrcSet _ => true
  | .icPendClear _ _ => true
  | .icTgtComplete _ _ => true
  | .release _ _ => true
  | .targetWake _ _ => true
  | .sknPortEnable _ _ => true
  | .retrain _ => true
  | .accept _ => true
  | .lsafeRelease => true
  | .cbusEnable _ => true
  | .logClear => true
  | .allowValid _ _ => true
  | .bbnPortConfig _ _ => true
  | .streamEnable _ _ => true
  | .mapApply => true
  | .toTest _ => true
  | .toField _ => true
  | .toReturn _ _ => true
  | .programRepair => true
  | .bistStart _ => true
  | .ceilingWrite _ => true
  | _ => false

/-! ### Where a copy stores -/

/-- The address of the byte that comes `k` bytes after those a copy has written. -/
def copyTarget (j : CopyJob) (k : Nat) : Nat :=
  match j.image with
  | some off => j.desc.base + off + j.done + k
  | none => j.rectAddr (j.done + k)

/-! ### When a command is served -/

/-- In service with no long operation active: set-up writes are taken (R98, R477). -/
def State.Open (s : State) : Prop := s.ready = true ∧ s.flag DEV_STATUS.BUSY = false

/-- The descriptor at the front of reel `r` is `d`, which has opcode `op` that the reel's class allows (R71, R75). -/
structure State.Due (s : State) (r op : Nat) (d : Desc) : Prop where
  ready : s.ready = true
  reel : r < 64
  front : s.front r = some d
  opcode : dOpcode d = op
  allowed : badOpcode (s.reel r).cls op = false

/-- No bit of the descriptor outside its argument fields is set, and the life-cycle state allows its opcode (R82, R488). -/
def State.Clean (s : State) (d : Desc) (fields : List (Nat × Nat × Nat)) : Prop :=
  resvOk d fields = true ∧ s.lcForbids (dOpcode d) = false

/-- `t` with the descriptor `d` at the front of reel `r` completed, and any that R82 refuses by their opcode behind it. -/
def State.completed (t : State) (r : Nat) (d : Desc) (code detail : Nat) : State := (t.finish r d code detail).settle r

/-- A message that the part acts on: the engine exists, its sub-port is in service and the return strand is locked. -/
def State.Hears (s : State) (e : Nat) : Prop := s.ready = true ∧ s.exists_ e = true ∧ s.linkState e ≠ 0 ∧
  s.flag (SKN_PORT_STATUS.RS_LOCK (e / 2)) = true

/-- The state in which a message of engine `e` is acted on: its port's return strand is alive. -/
def State.heard (s : State) (e : Nat) : State := s.setPort (e / 2) fun l => { l with lastMsg := s.now, lost := false }

/-! ### What an outcome answers -/

/-- The outcome is a next state of which `P` holds. -/
def Answers (o : Out) (P : State → Prop) : Prop := ∃ t, o = .next t ∧ P t

/-- Every register word outside a list of offsets stands. -/
def State.Only (s : State) (offs : List Nat) (t : State) : Prop := ∀ a, a ∉ offs → t.word a = s.word a

end Sys2Proof.Machine
end

