-- ==== Sys2Proof/Certificates/Slice0/Obligations.lean ====
section
/-! DEFINITION. The statements for the provers: what the rules of the spec say of the commands, of the state and of the machine
as a whole. -/

open Sys2Proof Sys2Proof.Machine

/-! ### The queue, the step and the invariant -/

/-- One step of the block takes the command at the front of the queue and has its effect on the rest of the state. -/
def Obligations.StepRunsTheFrontCommand : Prop :=
  ∀ (s : State) (c : Instr) (rest : List Instr), s.pending = c :: rest → step s = exec c { s with pending := rest }

/-- With no command waiting, device time passes while the part is powered and clocked, and nothing else happens. The 5 ns of one
step are the model's choice (log entry 5). -/
def Obligations.IdleStepPassesTime : Prop :=
  ∀ s : State, s.pending = [] →
    (s.powered = true → step s = .next { s with now := s.now + 5 }) ∧ (s.powered = false → step s = .next s)

/-- Right after reset the invariant holds, no command waits, and every register word reads its reset value. -/
def Obligations.ResetMeetsInvariant : Prop :=
  State.reset.Inv ∧ State.reset.pending = [] ∧ State.reset.ready = false ∧ ∀ a, State.reset.word a = regReset a

/-- From every state that meets the invariant, a step that answers a next state gives one that meets it. -/
def Obligations.EveryStepKeepsInvariant : Prop :=
  ∀ s t : State, s.Inv → step s = .next t → t.Inv

/-- No command changes the queue of those that wait. -/
def Obligations.NoCommandTouchesTheQueue : Prop :=
  ∀ (c : Instr) (s t : State), exec c s = .next t → t.pending = s.pending

/-- Device time never steps back: only PORST_L, from whose rise it counts, starts it again. -/
def Obligations.TimeNeverStepsBack : Prop :=
  ∀ (c : Instr) (s t : State), exec c s = .next t → c ≠ .porstLFall → (∀ gpio, c ≠ .porstLRise gpio) → s.now ≤ t.now

/-- Every command answers a next state in every state: errors are effects on the state, and nothing stops the part. -/
def Obligations.EveryCommandAnswers : Prop :=
  ∀ (c : Instr) (s : State), Answers (exec c s) fun _ => True

/-- Outside service (before READY, while PORST_L is low, after a loss of SYS_CLK) no command has an effect but those of
start-up, pins, clocks and sensors, and the set-up port. -/
def Obligations.NothingWorksBeforeReady : Prop :=
  ∀ (c : Instr) (s : State), s.ready = false → anyTime c = false → exec c s = .next s

/-- While a long operation is active every set-up write with a row of its own is dropped and counted, and nothing else. -/
def Obligations.BusyDropsSetupWrites : Prop :=
  ∀ (c : Instr) (s : State), s.ready = true → s.flag DEV_STATUS.BUSY = true → setupRow c = true →
    exec c s = .next (s.bump DEV_SETUP_DROPPED.COUNT 1)

/-- A command changes no part of the state outside its footprint. -/
def Obligations.CommandsKeepToTheirFootprint : Prop :=
  ∀ (c : Instr) (s t : State), exec c s = .next t → ∀ p : Part, p ∉ footprint c → p.same s t

/-! ### The interrupt controller -/

/-- An arrival of a source, by IC_SRC_SET or by a message doorbell: it is pending, its counter counts one more and saturates, it
stays active where it was, and no other word of the register map changes. -/
def Obligations.ArrivalPendsTheSource : Prop :=
  (∀ (s : State) (w n : Nat), s.Inv → s.Open → n = w % 512 → n < 384 →
    Answers (exec (.icSrcSet w) s) fun t =>
      t.rd (IC_SRC_STATE.PENDING n) = 1 ∧ t.rd (IC_SRC_STATE.COUNT n) = min (s.rd (IC_SRC_STATE.COUNT n) + 1) 255 ∧
        t.rd (IC_SRC_STATE.ACTIVE n) = s.rd (IC_SRC_STATE.ACTIVE n) ∧ s.Only [(IC_SRC_STATE.PENDING n).off] t ∧
        t = { s with regs := t.regs, ic := t.ic }) ∧
  (∀ (s : State) (w : Nat), s.Open → 384 ≤ w % 512 → exec (.icSrcSet w) s = .next s) ∧
  (∀ (s : State) (w n : Nat), s.Inv → s.Open → n = w % 512 → 320 ≤ n → n ≤ 383 →
    Answers (exec (.icMsgDoorbell w) s) fun t =>
      t.rd (IC_SRC_STATE.PENDING n) = 1 ∧ t.rd (IC_SRC_STATE.COUNT n) = min (s.rd (IC_SRC_STATE.COUNT n) + 1) 255 ∧
        t.rd (IC_SRC_STATE.ACTIVE n) = s.rd (IC_SRC_STATE.ACTIVE n) ∧
        t.rd IC_STATS.MSG_COUNT = min (s.rd IC_STATS.MSG_COUNT + 1) 65535 ∧
        t.rd IC_STATS.MSG_BAD = s.rd IC_STATS.MSG_BAD ∧
        s.Only [(IC_SRC_STATE.PENDING n).off, IC_STATS.MSG_COUNT.off] t ∧ t = { s with regs := t.regs, ic := t.ic }) ∧
  (∀ (s : State) (w : Nat), s.Inv → s.Open → (w % 512 < 320 ∨ 383 < w % 512) →
    Answers (exec (.icMsgDoorbell w) s) fun t =>
      t.rd IC_STATS.MSG_BAD = min (s.rd IC_STATS.MSG_BAD + 1) 65535 ∧
        t.rd IC_STATS.MSG_COUNT = s.rd IC_STATS.MSG_COUNT ∧ s.Only [IC_STATS.MSG_BAD.off] t ∧ t = { s with regs := t.regs })

/-- A claim returns the best deliverable source with its count and priority, makes it active on the target and no longer
pending, and clears its counter; with none deliverable it returns source 0x1FF. -/
def Obligations.ClaimTakesTheBestSource : Prop :=
  (∀ (s : State) (t n : Nat), s.Inv → s.Open → t < 16 → (s.arm t).best ((s.arm t).deliverables t) = some n →
    Answers (exec (.icTgtClaim t) s) fun u =>
      u.ic.claimed = claimValue n (s.rd (IC_SRC_STATE.COUNT n)) (s.rd (IC_SRC_CFG.PRIORITY n)) ∧
        u.rd (IC_SRC_STATE.ACTIVE n) = 1 ∧ u.rd (IC_SRC_STATE.ACTIVE_TGT n) = t ∧ u.rd (IC_SRC_STATE.PENDING n) = 0 ∧
        u.rd (IC_SRC_STATE.COUNT n) = 0 ∧ u.rd (IC_TGT_STATE.ARMED t) = 1) ∧
  (∀ (s : State) (t : Nat), s.Inv → s.Open → t < 16 → (s.arm t).best ((s.arm t).deliverables t) = none →
    Answers (exec (.icTgtClaim t) s) fun u =>
      u.ic.claimed = 0x1FF#32 ∧ u.rd (IC_TGT_STATE.ARMED t) = 1 ∧ s.Only [(IC_TGT_STATE.ARMED t).off] u ∧
        u = { s with regs := u.regs, ic := u.ic })

/-- During a long operation a claim returns 0xB0B0_B0B0 and claims nothing. -/
def Obligations.BusyClaimTakesNothing : Prop :=
  ∀ (s : State) (t : Nat), s.ready = true → s.flag DEV_STATUS.BUSY = true → t < 16 →
    exec (.icTgtClaim t) s = .next { s with ic := { s.ic with claimed := 0xB0B0B0B0#32 } }

/-- R430. A completion of a source that is active on the target ends its service, and a source that arrived meanwhile is
deliverable again; any other completion is ignored and counted. Both re-arm the target. -/
def Obligations.CompletionEndsService : Prop :=
  (∀ (s : State) (t w n : Nat), s.Inv → s.Open → t < 16 → n = w % 512 → n < 384 → s.rd (IC_SRC_STATE.ACTIVE n) = 1 →
    s.rd (IC_SRC_STATE.ACTIVE_TGT n) = t →
    Answers (exec (.icTgtComplete t w) s) fun u =>
      u.rd (IC_SRC_STATE.ACTIVE n) = 0 ∧ u.rd (IC_SRC_STATE.PENDING n) = s.rd (IC_SRC_STATE.PENDING n) ∧
        u.rd (IC_SRC_STATE.COUNT n) = s.rd (IC_SRC_STATE.COUNT n) ∧ u.rd (IC_TGT_STATE.ARMED t) = 1 ∧
        u.rd (IC_TGT_STATS.BAD_COMPLETE t) = s.rd (IC_TGT_STATS.BAD_COMPLETE t) ∧
        (s.rd (IC_SRC_STATE.PENDING n) = 1 → s.rd (IC_SRC_CFG.ENABLE n) = 1 →
          u.groupOf n < u.running (s.rd (IC_SRC_CFG.TARGET n)) → n ∈ u.deliverables (s.rd (IC_SRC_CFG.TARGET n)))) ∧
  (∀ (s : State) (t w n : Nat), s.Inv → s.Open → t < 16 → n = w % 512 →
    (384 ≤ n ∨ s.rd (IC_SRC_STATE.ACTIVE n) = 0 ∨ s.rd (IC_SRC_STATE.ACTIVE_TGT n) ≠ t) →
    Answers (exec (.icTgtComplete t w) s) fun u =>
      u.rd (IC_TGT_STATS.BAD_COMPLETE t) = min (s.rd (IC_TGT_STATS.BAD_COMPLETE t) + 1) 65535 ∧
        u.rd (IC_TGT_STATE.ARMED t) = 1 ∧ s.Only [(IC_TGT_STATE.ARMED t).off, (IC_TGT_STATS.BAD_COMPLETE t).off] u ∧
        u = { s with regs := u.regs })

/-- R420. A write of a source number to IC_SRC_SET is an arrival of it, and one of 384 or above does nothing. A write of ones to
a pending register clears those pending bits; counters and active bits stay. During a long operation both writes are dropped and
counted. -/
def Obligations.PendingBitsClearByOnes : Prop :=
  (∀ (s : State) (n : Nat), s.Open → n < 384 → exec (.icSrcSet n) s = .next (s.arrive n)) ∧
  (∀ (s : State) (n : Nat), s.Open → 384 ≤ n → n < 512 → exec (.icSrcSet n) s = .next s) ∧
  (∀ (s : State) (k w : Nat), s.Inv → s.Open → k < 12 →
    Answers (exec (.icPendClear k w) s) fun t => ∀ n, n < 384 →
      t.rd (IC_SRC_STATE.PENDING n) = (if n / 32 = k ∧ bitOf w (n % 32) = true then 0 else s.rd (IC_SRC_STATE.PENDING n)) ∧
        t.rd (IC_SRC_STATE.COUNT n) = s.rd (IC_SRC_STATE.COUNT n) ∧
        t.rd (IC_SRC_STATE.ACTIVE n) = s.rd (IC_SRC_STATE.ACTIVE n)) ∧
  (∀ (s : State) (k w : Nat), s.ready = true → s.flag DEV_STATUS.BUSY = true →
    exec (.icSrcSet w) s = .next (s.bump DEV_SETUP_DROPPED.COUNT 1) ∧
      exec (.icPendClear k w) s = .next (s.bump DEV_SETUP_DROPPED.COUNT 1))

/-- RELEASE clears every active bit that the target holds, leaves the others, and arms the target; a write of 0 does nothing. -/
def Obligations.ReleaseClearsActiveBits : Prop :=
  (∀ (s : State) (t w : Nat), s.Inv → s.Open → t < 16 → bitOf w 0 = true →
    Answers (exec (.release t w) s) fun u =>
      u.rd (IC_TGT_STATE.ARMED t) = 1 ∧ ∀ n, n < 384 →
        u.rd (IC_SRC_STATE.ACTIVE n) = (if s.rd (IC_SRC_STATE.ACTIVE_TGT n) = t then 0 else s.rd (IC_SRC_STATE.ACTIVE n)) ∧
          u.rd (IC_SRC_STATE.PENDING n) = s.rd (IC_SRC_STATE.PENDING n)) ∧
  (∀ (s : State) (t w : Nat), s.Open → bitOf w 0 = false → exec (.release t w) s = .next s)

/-- A target takes KIND, VECTOR and ASLEEP as written; one that wakes is armed. -/
def Obligations.WakeArmsTheTarget : Prop :=
  ∀ (s : State) (t w : Nat), s.Inv → s.Open → t < 16 →
    Answers (exec (.targetWake t w) s) fun u =>
      u.rd (IC_TGT_CFG.KIND t) = bitsOf w 0 1 ∧ u.rd (IC_TGT_CFG.VECTOR t) = bitsOf w 1 6 ∧
        u.rd (IC_TGT_CFG.ASLEEP t) = bitsOf w 7 1 ∧
        u.rd (IC_TGT_STATE.ARMED t) =
          (if s.rd (IC_TGT_CFG.ASLEEP t) = 1 ∧ bitOf w 7 = false then 1 else s.rd (IC_TGT_STATE.ARMED t))

/-- A risen condition arrives, and its CONDITION record is formed: the state is that of the arrival with the record put where
its severity sends it. A source whose condition has not risen arrives at nothing. -/
def Obligations.RisenConditionArrives : Prop :=
  (∀ (s : State) (n : Nat) (a : Raised) (rest : List Raised), s.ready = true → takeRaised n s.ic.raised = some (a, rest) →
    exec (.interruptArrival n) s =
      .next ((({ s with ic := { s.ic with raised := rest } }).arrive n).postCondition n a.code)) ∧
  (∀ (s : State) (n : Nat), takeRaised n s.ic.raised = none → exec (.interruptArrival n) s = .next s)

/-- A target that is due notifies: it is disarmed and counts, and an MSI-X target's vector is sent, or becomes pending where the
vector or the function masks it; a PIN target asserts. -/
def Obligations.NotifySendsOrAsserts : Prop :=
  (∀ (s : State) (t : Nat), s.Inv → s.ready = true → s.notifyDue t = true → s.flag (IC_TGT_CFG.KIND t) = false →
    Answers (exec (.notify t) s) fun u =>
      u.rd (IC_TGT_STATE.ARMED t) = 0 ∧ u.rd (IC_TGT_STATS.NOTIFY t) = min (s.rd (IC_TGT_STATS.NOTIFY t) + 1) 65535 ∧
        s.Only [(IC_TGT_STATE.ARMED t).off, (IC_TGT_STATS.NOTIFY t).off] u ∧
        (if s.hif.msixMask = true ∨ (Tbl.get msixDefault s.hif.msixTable (4 * s.rd (IC_TGT_CFG.VECTOR t) + 3)).toNat % 2 = 1 then
          u.hif = { s.hif with pba := setBit s.hif.pba (s.rd (IC_TGT_CFG.VECTOR t)) 1 }
        else u.hif = { s.hif with msix := s.hif.msix ++ [s.rd (IC_TGT_CFG.VECTOR t)] })) ∧
  (∀ (s : State) (t : Nat), s.Inv → s.ready = true → s.notifyDue t = true → s.flag (IC_TGT_CFG.KIND t) = true →
    Answers (exec (.notify t) s) fun u =>
      u.rd (IC_TGT_STATE.ARMED t) = 0 ∧ u.rd (IC_TGT_STATS.NOTIFY t) = min (s.rd (IC_TGT_STATS.NOTIFY t) + 1) 65535 ∧
        u.hif = s.hif) ∧
  (∀ (s : State) (t : Nat), s.notifyDue t = false → exec (.notify t) s = .next s)

/-! ### Host interface and reels -/

/-- A completion counts: the executed count has one more, WAITING clears, LAST_CODE holds the code unless it is DONE, a reel
disabled meanwhile becomes inactive, and HALT_ON_FAIL with a code other than DONE, DEFERRED or SUPERSEDED halts an enabled reel.
-/
def Obligations.CompletionCountsTheDescriptor : Prop :=
  ∀ (s : State) (r code detail : Nat) (d : Desc), s.Inv → r < 64 → (s.reel r).carry = none → code < 256 →
    let t := s.finish r d code detail
    t.rd (HIF_CR_EXEC.EXEC r) = (s.rd (HIF_CR_EXEC.EXEC r) + 1) % 2 ^ 32 ∧ t.rd (HIF_CR_STATUS.WAITING r) = 0 ∧
      t.rd (HIF_CR_STATUS.LAST_CODE r) = (if code = 0 then s.rd (HIF_CR_STATUS.LAST_CODE r) else code) ∧
      t.rd (HIF_CR_STATUS.ACTIVE r) = (if s.flag (HIF_CR_CFG.ENABLE r) = true then s.rd (HIF_CR_STATUS.ACTIVE r) else 0) ∧
      t.rd (HIF_CR_STATUS.HALTED r) =
        (if dHaltOnFail d = true ∧ 2 < code ∧ s.flag (HIF_CR_CFG.ENABLE r) = true then 1 else s.rd (HIF_CR_STATUS.HALTED r))

/-- NOP completes at once with DONE. A FENCE of mode EXECUTED writes its VALUE and its record at once; one of mode AT_TICK whose
tick is still to come waits among the pending fences, and the reel goes on. A WAIT_TICK of a later tick holds its reel, and
WAITING shows it; one whose tick has passed completes at once. -/
def Obligations.ReelDescriptorsExecute : Prop :=
  (∀ (s : State) (r : Nat) (d : Desc), s.Due r 0x00 d → s.Clean d [] → dIndex d = 0 →
    exec (.nop r) s = .next (s.completed r d cDone 0)) ∧
  (∀ (s : State) (r : Nat) (d : Desc), s.Due r 0x01 d → s.Clean d [(8, 0, 64), (16, 0, 64), (24, 0, 2), (32, 0, 48)] →
    dIndex d = 0 → dF d 24 0 2 = 0 → dF d 32 0 48 = 0 → dF d 8 0 64 % 8 = 0 →
    exec (.fence r) s =
      .next ((((s.hostWrite (dF d 8 0 64) 8 (dF d 16 0 64)).outcome (s.originOf r d) cDone 0).executed r).settle r)) ∧
  (∀ (s : State) (r : Nat) (d : Desc), s.Due r 0x01 d → s.Clean d [(8, 0, 64), (16, 0, 64), (24, 0, 2), (32, 0, 48)] →
    dIndex d = 0 → dF d 24 0 2 = 2 → s.tickNo < dF d 32 0 48 → dF d 8 0 64 % 8 = 0 → s.hif.fences.length < 64 →
    let w : PendingFence :=
      { origin := s.originOf r d, addr := dF d 8 0 64, value := dF d 16 0 64, waits := [], tick := dF d 32 0 48 }
    let t : State := { s with hif := { s.hif with fences := s.hif.fences ++ [w] } }
    exec (.fence r) s = .next ((t.executed r).settle r)) ∧
  (∀ (s : State) (r : Nat) (d : Desc), s.Due r 0x02 d → s.Clean d [(8, 0, 2), (16, 0, 48)] → dIndex d = 0 →
    dB d 8 0 = false → 1 ≤ dF d 16 0 48 → dF d 16 0 48 ≤ 65535 →
    exec (.waitTick r) s =
      .next ((s.wr (HIF_CR_STATUS.WAITING r) 1).setReel r fun c =>
        { c with busy := some (.waitTick (s.tickNo + dF d 16 0 48) (dB d 8 1)) })) ∧
  (∀ (s : State) (r : Nat) (d : Desc), s.Due r 0x02 d → s.Clean d [(8, 0, 2), (16, 0, 48)] → dIndex d = 0 →
    dB d 8 0 = true → dB d 8 1 = false → dF d 16 0 48 ≤ s.tickNo →
    exec (.waitTick r) s = .next (s.completed r d cDone 0))

/-- READ_BACK of stack bytes, of histograms or of a CRC history begins its copy at once, and one of the canvas being lit waits
for the next tick edge. Each piece of a running copy is one posted write of the source's bytes as they stand; the piece that
reaches LENGTH completes the descriptor. -/
def Obligations.ReadBackCopies : Prop :=
  (∀ (s : State) (r : Nat) (d : Desc), s.Due r 0x03 d → s.Clean d [(8, 0, 64), (16, 0, 32), (20, 0, 3), (24, 0, 64)] →
    readBackFields d = true → s.readBackAddrs d = true → s.readBackFenced d = false →
    exec (.readBack r) s =
      .next (s.setReel r fun c => { c with
        busy := some (.readBack (rbSource d != 1) 0 (if rbSource d = 2 then s.histogramOf (dIndex d) else [])) })) ∧
  (∀ (s : State) (r n k : Nat) (d : Desc) (whole : List Byte), s.ready = true →
    s.held r = some (d, .readBack true k whole) → s.hif.d3hot = false → 0 < n → k + n < rbLength d →
    exec (.readBackEnd r n) s =
      .next (((s.readBackCount d k n).hostWrite (rbAddr d + k) n (ofLeBytes (s.readBackBytes d whole k n))).setReel r fun c =>
        { c with busy := some (.readBack true (k + n) whole) })) ∧
  (∀ (s : State) (r n k : Nat) (d : Desc) (whole : List Byte), s.ready = true →
    s.held r = some (d, .readBack true k whole) → s.hif.d3hot = false → 0 < n → k < rbLength d → rbLength d ≤ k + n →
    exec (.readBackEnd r n) s =
      .next ((((s.readBackCount d k (rbLength d - k)).hostWrite (rbAddr d + k) (rbLength d - k)
        (ofLeBytes (s.readBackBytes d whole k (rbLength d - k)))).completed r d cDone 0)))

/-- A doorbell takes a tail between the one held and the size of the reel past the executed count; refuses and counts any other
with notice 1; and a write elsewhere in the page, or a narrower one, is dropped and counted. -/
def Obligations.DoorbellTakesOrRefuses : Prop :=
  (∀ (s : State) (r : Nat) (w : Word), s.Inv → s.ready = true → r < 64 → s.tailOk r w.toNat = true →
    Answers (exec (.doorbell r 0 true w) s) fun t =>
      t.rd (HIF_CR_TAIL.TAIL r) = w.toNat ∧ s.Only [(HIF_CR_TAIL.TAIL r).off] t ∧ t = { s with regs := t.regs, hif := t.hif }) ∧
  (∀ (s : State) (r : Nat) (w : Word), s.ready = true → r < 64 → s.tailOk r w.toNat = false →
    exec (.doorbell r 0 true w) s =
      .next ((s.bump HIF_DB_ERRORS.REFUSED 1).notice 1 cBadField 1 r (s.reel r).fetchCount)) ∧
  (∀ (s : State) (r off : Nat) (full : Bool) (w : Word), s.Inv → s.ready = true → r < 64 → (off ≠ 0 ∨ full = false) →
    Answers (exec (.doorbell r off full w) s) fun t =>
      t.rd HIF_DB_ERRORS.STRAY = min (s.rd HIF_DB_ERRORS.STRAY + 1) 65535 ∧ s.Only [HIF_DB_ERRORS.STRAY.off] t ∧
        t = { s with regs := t.regs })

/-- The fetch arbiter grants one reel: with the link up and out of D3hot, the winner of the reels that ask has its descriptors
read; a winner of the NORMAL class makes each BULK reel that asked wait one grant more. Descriptors that arrive for a reel join
its queue, and those that R82 refuses by their opcode complete at once if they are at its front. -/
def Obligations.FetchAndArrival : Prop :=
  (∀ (s : State) (w : Nat), s.ready = true → s.hif.d3hot = false → s.flag HIF_STATUS.LINK_UP = true →
    s.countStalls.fetchWinner ((List.range 64).filter fun r => decide (0 < s.countStalls.grantSize r)) = some w →
    s.countStalls.fetchClass w ≠ 1 → exec .descriptorFetch s = .next (s.countStalls.grantFetch w)) ∧
  (∀ (s : State) (w : Nat), s.ready = true → s.hif.d3hot = false → s.flag HIF_STATUS.LINK_UP = true →
    s.countStalls.fetchWinner ((List.range 64).filter fun r => decide (0 < s.countStalls.grantSize r)) = some w →
    s.countStalls.fetchClass w = 1 →
    exec .descriptorFetch s =
      .next (((List.range 64).filter fun r => decide (0 < s.countStalls.grantSize r)).foldl (fun t r =>
        if r ≠ w ∧ (t.reel r).cls = 2 then t.setReel r fun c => { c with bulkWait := c.bulkWait + 1 } else t)
          (s.countStalls.grantFetch w))) ∧
  (∀ s : State, s.hif.d3hot = true ∨ s.flag HIF_STATUS.LINK_UP = false → exec .descriptorFetch s = .next s) ∧
  (∀ (s : State) (r : Nat) (ds : List Desc), s.ready = true → r < 64 → ds.length ≤ (s.reel r).inFlight →
    exec (.descriptorArrival r ds) s =
      .next ((s.setReel r fun c => { c with fetched := c.fetched ++ ds, inFlight := c.inFlight - ds.length }).settle r))

/-- Enabling a reel takes its settings and zeroes its tail and executed count; a second GUARDED reel, or a reel whose event reel
is not enabled, stays disabled with CFG_ERROR set; a write to an enabled reel only stores its fields. -/
def Obligations.EnablingAReelZeroesItsCounts : Prop :=
  (∀ (s : State) (r : Nat) (w : Word), s.Inv → s.Open → r < 64 → s.flag (HIF_CR_CFG.ENABLE r) = false →
    (bitsOf w.toNat 1 2 = 0 → (s.storeCrCfg r w.toNat).guardedTaken r = false) → s.evrOn (bitsOf w.toNat 8 3) = true →
    Answers (exec (.crEnable r w) s) fun t =>
      t.rd (HIF_CR_CFG.ENABLE r) = 1 ∧ t.rd (HIF_CR_STATUS.ACTIVE r) = 1 ∧ t.rd (HIF_CR_STATUS.HALTED r) = 0 ∧
        t.rd (HIF_CR_STATUS.CFG_ERROR r) = 0 ∧ t.rd (HIF_CR_TAIL.TAIL r) = 0 ∧ t.rd (HIF_CR_EXEC.EXEC r) = 0 ∧
        t.rd (HIF_CR_CFG.CLASS r) = bitsOf w.toNat 1 2 ∧ t.rd (HIF_CR_CFG.SIZE_LOG2 r) = bitsOf w.toNat 3 4 ∧
        t.rd (HIF_CR_CFG.EVR r) = bitsOf w.toNat 8 3 ∧
        s.Only [(HIF_CR_CFG.ENABLE r).off, (HIF_CR_STATUS.ACTIVE r).off, (HIF_CR_TAIL.TAIL r).off, (HIF_CR_EXEC.EXEC r).off] t ∧
        t = { s with regs := t.regs, hif := t.hif }) ∧
  (∀ (s : State) (r : Nat) (w : Word), s.Inv → s.Open → r < 64 → s.flag (HIF_CR_CFG.ENABLE r) = false →
    (bitsOf w.toNat 1 2 = 0 ∧ (s.storeCrCfg r w.toNat).guardedTaken r = true ∨ s.evrOn (bitsOf w.toNat 8 3) = false) →
    Answers (exec (.crEnable r w) s) fun t =>
      t.rd (HIF_CR_STATUS.CFG_ERROR r) = 1 ∧ t.rd (HIF_CR_CFG.ENABLE r) = 0 ∧
        s.Only [(HIF_CR_CFG.ENABLE r).off, (HIF_CR_STATUS.CFG_ERROR r).off] t ∧ t = { s with regs := t.regs }) ∧
  (∀ (s : State) (r : Nat) (w : Word), s.Inv → s.Open → r < 64 → s.flag (HIF_CR_CFG.ENABLE r) = true →
    Answers (exec (.crEnable r w) s) fun t =>
      t.rd (HIF_CR_CFG.ENABLE r) = 1 ∧ t.rd (HIF_CR_CFG.CLASS r) = bitsOf w.toNat 1 2 ∧
        t.rd (HIF_CR_TAIL.TAIL r) = s.rd (HIF_CR_TAIL.TAIL r) ∧ s.Only [(HIF_CR_CFG.ENABLE r).off] t ∧
        t = { s with regs := t.regs })

/-- Disabling an enabled reel stores the fields and stops the reel, which leaves ENABLE and WAITING 0; a disabled reel only
stores them. RESTART resumes a halted reel. -/
def Obligations.DisableAndRestart : Prop :=
  (∀ (s : State) (r : Nat) (w : Word), s.Inv → s.Open → r < 64 → s.flag (HIF_CR_CFG.ENABLE r) = true →
    exec (.crDisable r w) s = .next ((s.storeCrCfg r w.toNat).disableReel r)) ∧
  (∀ (s : State) (r : Nat), s.Inv → r < 64 →
    (s.disableReel r).rd (HIF_CR_CFG.ENABLE r) = 0 ∧ (s.disableReel r).rd (HIF_CR_STATUS.WAITING r) = 0) ∧
  (∀ (s : State) (r : Nat) (w : Word), s.Inv → s.Open → r < 64 → s.flag (HIF_CR_CFG.ENABLE r) = false →
    Answers (exec (.crDisable r w) s) fun t =>
      t.rd (HIF_CR_CFG.ENABLE r) = 0 ∧ t.rd (HIF_CR_CFG.EVR r) = bitsOf w.toNat 8 3 ∧ s.Only [(HIF_CR_CFG.ENABLE r).off] t ∧
        t = { s with regs := t.regs }) ∧
  (∀ (s : State) (r : Nat), s.Open → r < 64 → s.flag (HIF_CR_STATUS.HALTED r) = true →
    exec (.crRestart r) s = .next ((s.wr (HIF_CR_STATUS.HALTED r) 0).settle r)) ∧
  (∀ (s : State) (r : Nat), s.Open → s.flag (HIF_CR_STATUS.HALTED r) = false → exec (.crRestart r) s = .next s)

/-- Enabling an event reel zeroes its produced and consumed counts, and disabling it makes it inactive. A read of its consumed
count is taken where no more than its size is outstanding, and else sets HEAD_ERROR. A reel that owes the host its executed
count and has written none yet writes it back. -/
def Obligations.EventReelCounts : Prop :=
  (∀ (s : State) (v : Nat) (w : Word), s.Inv → s.Open → v < 8 → bitOf w.toNat 0 = true → s.evrOn v = false →
    Answers (exec (.evrEnable v w) s) fun t =>
      t.rd (HIF_EVR_CFG.ENABLE v) = 1 ∧ t.rd (HIF_EVR_CFG.SIZE_LOG2 v) = bitsOf w.toNat 1 4 ∧
        t.rd (HIF_EVR_CFG.IRQ_SEV v) = bitsOf w.toNat 5 2 ∧ t.rd (HIF_EVR_STATUS.ACTIVE v) = 1 ∧
        t.rd (HIF_EVR_PRODUCED.PRODUCED v) = 0 ∧ t.rd (HIF_EVR_CONSUMED.CONSUMED v) = 0 ∧
        s.Only [(HIF_EVR_CFG.ENABLE v).off, (HIF_EVR_STATUS.ACTIVE v).off, (HIF_EVR_PRODUCED.PRODUCED v).off,
          (HIF_EVR_CONSUMED.CONSUMED v).off] t ∧ t = { s with regs := t.regs, hif := t.hif }) ∧
  (∀ (s : State) (v : Nat) (w : Word), s.Inv → s.Open → v < 8 → bitOf w.toNat 0 = false → s.evrOn v = true →
    Answers (exec (.evrEnable v w) s) fun t =>
      t.rd (HIF_EVR_CFG.ENABLE v) = 0 ∧ t.rd (HIF_EVR_STATUS.ACTIVE v) = 0 ∧
        t.rd (HIF_EVR_PRODUCED.PRODUCED v) = s.rd (HIF_EVR_PRODUCED.PRODUCED v) ∧
        t = { s with regs := t.regs, hif := t.hif }) ∧
  (∀ (s : State) (v : Nat) (count : Word), s.ready = true → v < 8 → s.evrOn v = true → (s.evr v).lastHeadRead = none →
    s.hif.d3hot = false → s.flag HIF_STATUS.LINK_UP = true → s.evrFree v ≤ s.evrTail v + s.evrReserved v →
    s.spaceWanted v = true →
    exec (.evrHeadRead v count) s = .next
      (let t := s.setEvr v fun q => { q with lastHeadRead := some s.now }
       if (s.rd (HIF_EVR_PRODUCED.PRODUCED v) + 2 ^ 32 - count.toNat) % 2 ^ 32 ≤ t.evrSize v then
         (t.wrs [(HIF_EVR_CONSUMED.CONSUMED v, count.toNat), (HIF_EVR_STATUS.HEAD_ERROR v, 0)]).trySummary v
       else if s.flag (HIF_EVR_STATUS.HEAD_ERROR v) = true then t
       else (t.wr (HIF_EVR_STATUS.HEAD_ERROR v) 1).notice 4 cBadField 1 v (s.rd (HIF_EVR_PRODUCED.PRODUCED v)))) ∧
  (∀ (s : State) (r : Nat), s.ready = true → r < 64 → (s.reel r).lastWb = none → s.hif.d3hot = false →
    s.flag HIF_STATUS.LINK_UP = true → (s.reel r).wbDue = true → s.flag (HIF_CR_HEAD_WB.ENABLE r) = true →
    exec (.headWriteBack r) s =
      .next ((s.hostWrite (4 * s.rd (HIF_CR_HEAD_WB.ADDR r)) 4 (s.rd (HIF_CR_EXEC.EXEC r))).setReel r fun c =>
        { c with wbDue := false, lastWb := some s.now }))

/-- A queued alarm is written as a slot frees. A failed descriptor fetch of a reel with none in flight is counted, a failed data
read completes the descriptor that waits for it with HOST_READ_ERROR, and a failed read of a consumed count is counted. -/
def Obligations.AlarmsAndReadErrors : Prop :=
  (∀ (s : State) (v : Nat) (a : Alarm) (q : List Alarm), s.ready = true → v < 8 → (s.evr v).queue = a :: q →
    s.alarmRoom v = true →
    exec (.alarmQueueWrite v) s = .next (((s.putRecord v a.out).setEvr v fun e => { e with queue := q }).trySummary v)) ∧
  (∀ (s : State) (r : Nat), s.Inv → s.ready = true → r < 64 → (s.reel r).inFlight = 0 →
    Answers (exec (.hostReadError 0 r) s) fun t =>
      t.rd HIF_READ_ERRORS.DESC = min (s.rd HIF_READ_ERRORS.DESC + 1) 65535 ∧ s.Only [HIF_READ_ERRORS.DESC.off] t ∧
        t = { s with regs := t.regs }) ∧
  (∀ (s : State) (r : Nat) (d : Desc), s.ready = true → r < 64 → s.held r = some (d, .hostData) →
    exec (.hostReadError 1 r) s = .next ((s.bump HIF_READ_ERRORS.DATA 1).completed r d cHostReadError 0)) ∧
  (∀ (s : State) (v : Nat), s.Inv → s.ready = true → v < 8 →
    Answers (exec (.hostReadError 2 v) s) fun t =>
      t.rd HIF_READ_ERRORS.DATA = min (s.rd HIF_READ_ERRORS.DATA + 1) 65535 ∧ s.Only [HIF_READ_ERRORS.DATA.off] t ∧
        t = { s with regs := t.regs })

/-- A host-interface reset puts every HIF register but HIF_STATUS to its reset value, forgets every reel, pending fence and held
write, counts itself, shows a link that went down with it, and leaves every other register and the light. -/
def Obligations.HostResetStopsNothingElse : Prop :=
  ∀ (s : State) (flr down : Bool), s.Inv → s.ready = true →
    Answers (exec (.hostInterfaceReset flr down) s) fun t =>
      (∀ a, hifReg a = true → t.word a = regReset a) ∧
        (∀ a, hifReg a = false → a ≠ HIF_STATUS.LINK_UP.off → t.word a = s.word a) ∧
        t.rd HIF_STATUS.FLR_COUNT = (if flr = true then min (s.rd HIF_STATUS.FLR_COUNT + 1) 255 else s.rd HIF_STATUS.FLR_COUNT) ∧
        t.rd HIF_STATUS.RESET_COUNT =
          (if flr = true then s.rd HIF_STATUS.RESET_COUNT else min (s.rd HIF_STATUS.RESET_COUNT + 1) 255) ∧
        t.rd HIF_STATUS.LINK_UP = (if down = true then 0 else s.rd HIF_STATUS.LINK_UP) ∧
        t.hif.reels = [] ∧ t.hif.evrs = [] ∧ t.hif.fences = [] ∧
        t.hif.held = [] ∧ t.light = s.light ∧ t.eng = s.eng ∧ t.tick = s.tick ∧ t.ic = s.ic ∧ t.stk.mem = s.stk.mem

/-- D3hot holds what would be written, and the return to D0 writes it in order; the link comes up with its speed and width; a
configuration write sets MSI-X Enable and Function Mask. -/
def Obligations.LinkAndPowerStates : Prop :=
  (∀ s : State, s.ready = true → exec .d3hotEntry s = .next { s with hif := { s.hif with d3hot := true } }) ∧
  (∀ (s : State) (a n x : Nat), s.hif.d3hot = true →
    s.hostWrite a n x = { s with hif := { s.hif with held := s.hif.held ++ [⟨a, n, x⟩] } }) ∧
  (∀ s : State, s.ready = true → s.hif.d3hot = true →
    exec .d0Return s = .next ((List.range 8).foldl (fun (t : State) v => (t.drainAlarms v).trySummary v)
      ((List.range 64).foldl (fun (t : State) r => t.writeBack r)
        { s with hif := { s.hif with d3hot := false, out := s.hif.out ++ s.hif.held, held := [] } })).flushPba) ∧
  (∀ (s : State) (speed width : Nat), s.Inv → s.pwr.porst = true → s.pwr.sysClk = true → s.pwr.dead = false →
    s.pwr.pcieClk = true → speed < 8 → width < 16 →
    Answers (exec (.pcieLinkUp speed width) s) fun t =>
      t.rd HIF_STATUS.LINK_UP = 1 ∧ t.rd HIF_STATUS.SPEED = speed ∧ t.rd HIF_STATUS.WIDTH = width ∧
        s.Only [HIF_STATUS.LINK_UP.off] t) ∧
  (∀ (s : State) (enable mask : Bool), s.ready = true →
    exec (.msixEnableWrite enable mask) s =
      .next ({ s with hif := { s.hif with msixEnable := enable, msixMask := mask } }.flushPba))

/-- An aligned 32-bit write to a 32-bit register stores its RW bits and leaves the others; one to an unmapped offset is counted
in DEV_UNMAPPED; a narrower write to a mapped register is dropped and counted; and so is any while a long operation is active.
-/
def Obligations.SetupPortServesWrites : Prop :=
  (∀ (s : State) (off v : Nat) (r : RegRow), s.Inv → s.Open → off % 4 = 0 → v < 2 ^ 32 → inMsix off = false →
    findReg off = some (r, 0) → r.wide = false →
    let m := BitVec.ofNat 32 (r.accMask 0 .rw)
    Answers (exec (.setupWrite off 4 v) s) fun t =>
      t = (s.setWord off ((s.word off &&& ~~~m) ||| (BitVec.ofNat 32 v &&& m))).afterWrite off ∧
        (0x80000 ≤ off → off < 0x200000 → t.word off = (s.word off &&& ~~~m) ||| (BitVec.ofNat 32 v &&& m) ∧
          s.Only [off] t ∧ t = { s with regs := t.regs })) ∧
  (∀ (s : State) (off v : Nat), s.Inv → s.Open → off % 4 = 0 → v < 2 ^ 32 → inMsix off = false → findReg off = none →
    Answers (exec (.setupWrite off 4 v) s) fun t =>
      t.rd DEV_UNMAPPED.COUNT = min (s.rd DEV_UNMAPPED.COUNT + 1) (2 ^ 32 - 1) ∧ s.Only [DEV_UNMAPPED.COUNT.off] t ∧
        t = { s with regs := t.regs }) ∧
  (∀ (s : State) (off n v : Nat), s.Inv → s.Open → off % 4 = 0 → (n = 1 ∨ n = 2) → (findReg off).isSome = true →
    Answers (exec (.setupWrite off n v) s) fun t =>
      t.rd DEV_SETUP_DROPPED.COUNT = min (s.rd DEV_SETUP_DROPPED.COUNT + 1) (2 ^ 32 - 1) ∧
        s.Only [DEV_SETUP_DROPPED.COUNT.off] t ∧ t = { s with regs := t.regs }) ∧
  (∀ (s : State) (off v : Nat), s.Inv → s.ready = true → s.flag DEV_STATUS.BUSY = true → off % 4 = 0 → inMsix off = false →
    exec (.setupWrite off 4 v) s = .next (s.bump DEV_SETUP_DROPPED.COUNT 1))

/-- The host data of a descriptor, arrived whole, is stored: a palette with its surface, a mesh without a bad point, the ramps
of a saddle and a table of coefficients in their shadows; each descriptor completes with DONE. A coefficient table with a bad
phase completes with 0x29 and stores nothing. In D3hot, or with another length, the command is not due. -/
def Obligations.HostDataIsStored : Prop :=
  (∀ (s : State) (r : Nat) (d : Desc) (bs : List Byte), s.ready = true → s.held r = some (d, .hostData) →
    s.hif.d3hot = false → dOpcode d = 0x10 → bs.length = 1024 →
    exec (.hostDataReadEnd r bs) s =
      .next (((s.loadPalette (dF d 21 0 8) bs).defineSurface (dIndex d) (surfaceOf d)).completed r d cDone 0)) ∧
  (∀ (s : State) (r : Nat) (d : Desc) (bs : List Byte), s.ready = true → s.held r = some (d, .hostData) →
    s.hif.d3hot = false → dOpcode d = 0x31 → bs.length = 2048 →
    exec (.hostDataReadEnd r bs) s =
      .next ((s.setShadow (dIndex d) fun b =>
        { b with warp := b.warp.withSaddle d ((List.range 1024).map fun k => leAt bs (2 * k) 2) }).completed r d cDone 0)) ∧
  (∀ (s : State) (r : Nat) (d : Desc) (bs : List Byte), s.ready = true → s.held r = some (d, .hostData) →
    s.hif.d3hot = false → dOpcode d = 0x30 → bs.length = 19240 → (meshPoints bs).findIdx? pointBad = none →
    exec (.hostDataReadEnd r bs) s =
      .next ((s.setShadow (dIndex d) fun b => { b with warp := b.warp.withMesh d (meshPoints bs) }).completed r d cDone 0)) ∧
  (∀ (s : State) (r ph : Nat) (d : Desc) (bs : List Byte), s.ready = true → s.held r = some (d, .hostData) →
    s.hif.d3hot = false → dOpcode d = 0x29 → bs.length = 128 * coefTaps (dF d 16 0 1) →
    badPhase (coefTaps (dF d 16 0 1)) (coefsOf (coefTaps (dF d 16 0 1)) bs) = some ph →
    exec (.hostDataReadEnd r bs) s = .next (s.completed r d 0x29 ph)) ∧
  (∀ (s : State) (r : Nat) (d : Desc) (bs : List Byte), s.ready = true → s.held r = some (d, .hostData) →
    s.hif.d3hot = false → dOpcode d = 0x29 → bs.length = 128 * coefTaps (dF d 16 0 1) →
    badPhase (coefTaps (dF d 16 0 1)) (coefsOf (coefTaps (dF d 16 0 1)) bs) = none →
    exec (.hostDataReadEnd r bs) s =
      .next ((s.setSclShadow (dIndex d) fun x =>
        if dF d 16 0 1 = 0 then { x with coefH := some (coefsOf (coefTaps (dF d 16 0 1)) bs) }
        else { x with coefV := some (coefsOf (coefTaps (dF d 16 0 1)) bs) }).completed r d cDone 0)) ∧
  (∀ (s : State) (r : Nat) (d : Desc) (bs : List Byte), s.held r = some (d, .hostData) →
    (s.hif.d3hot = true ∨ bs.length ≠ hostDataLength d) → exec (.hostDataReadEnd r bs) s = .next s)


/-! ### The memory stack, surfaces and copies -/

/-- A byte stored through an address that maps to a pseudo-channel in service reads back through it, and every cell at another
location stands; a store to a fenced pseudo-channel is dropped, and a read of one gives 0. -/
def Obligations.StackReadsWhatWasStored : Prop :=
  (∀ (s : State) (a : Nat) (b : Byte), s.Inv → s.pcFenced (s.pcOf a) = false →
    (s.memSet a b).mem a = b ∧ ∀ l, l ≠ locate s.stk.masks a → (s.memSet a b).cell l = s.cell l) ∧
  (∀ (s : State) (a : Nat) (b : Byte), s.pcFenced (s.pcOf a) = true → s.memSet a b = s ∧ s.mem a = 0)

/-- SURFACE_DEFINE without a palette stores the surface, not ready, and its writes go on; a palette is read from the host first;
a format that its layout or size forbids completes with 0x22. SURFACE_STATE sets or clears ready and tells it in DETAIL.
ATLAS_DEFINE with nothing to copy stores its entry, and else starts a copy of the whole surface. -/
def Obligations.SurfacesAreDefined : Prop :=
  let fields : List (Nat × Nat × Nat) :=
    [(8, 0, 64), (16, 0, 16), (18, 0, 16), (20, 0, 4), (20, 4, 2), (21, 0, 8), (24, 0, 32), (32, 0, 64)]
  let good (d : Desc) : Prop := dIndex d < 4096 ∧ surfaceFields (surfaceOf d) (dF d 32 0 64) = true ∧
    dF d 8 0 64 % (if dF d 20 4 2 = 0 then 64 else 4096) = 0 ∧ dF d 8 0 64 + (surfaceOf d).footprint ≤ stackBytes ∧
    dF d 32 0 64 % 64 = 0 ∧ dF d 32 0 64 + 1024 ≤ 2 ^ 64
  (∀ (s : State) (r : Nat) (d : Desc), s.Due r 0x10 d → s.Clean d fields → good d → surfaceFormatBad (surfaceOf d) = false →
    dF d 32 0 64 = 0 →
    exec (.surfaceDefine r) s = .next ((s.setSurface (dIndex d) fun g =>
      { surfaceOf d with ready := false, writes := g.writes }).completed r d cDone 0)) ∧
  (∀ (s : State) (r : Nat) (d : Desc), s.Due r 0x10 d → s.Clean d fields → good d → surfaceFormatBad (surfaceOf d) = false →
    dF d 32 0 64 ≠ 0 →
    exec (.surfaceDefine r) s = .next (s.setReel r fun c => { c with busy := some .hostData })) ∧
  (∀ (s : State) (r : Nat) (d : Desc), s.Due r 0x10 d → s.Clean d fields → good d → surfaceFormatBad (surfaceOf d) = true →
    exec (.surfaceDefine r) s = .next (s.completed r d 0x22 0)) ∧
  (∀ (s : State) (r : Nat) (d : Desc), s.Due r 0x12 d → s.Clean d [(8, 0, 2)] → dIndex d < 4096 → dF d 8 0 2 = 0 →
    exec (.surfaceState r) s = .next (s.completed r d cDone
      (b2n (s.surface (dIndex d)).ready + 2 * ((s.surface (dIndex d)).writes % 512)))) ∧
  (∀ (s : State) (r : Nat) (d : Desc), s.Due r 0x12 d → s.Clean d [(8, 0, 2)] → dIndex d < 4096 →
    (dF d 8 0 2 = 1 ∨ dF d 8 0 2 = 2) →
    let t := s.setSurface (dIndex d) fun f => { f with ready := dF d 8 0 2 == 1 }
    exec (.surfaceState r) s = .next (t.completed r d cDone
      (b2n (t.surface (dIndex d)).ready + 2 * ((t.surface (dIndex d)).writes % 512)))) ∧
  (∀ (s : State) (r : Nat) (d : Desc), s.Due r 0x13 d → s.Clean d [(8, 0, 12), (10, 0, 2), (16, 0, 64)] → dIndex d < 256 →
    dF d 16 0 64 = 0 → dB d 10 0 = false →
    exec (.atlasDefine r) s = .next ((s.setAtlas (dIndex d) (atlasOf d)).completed r d cDone 0)) ∧
  (∀ (s : State) (r : Nat) (d : Desc), s.Due r 0x13 d → s.Clean d [(8, 0, 12), (10, 0, 2), (16, 0, 64)] → dIndex d < 256 →
    dF d 16 0 64 ≠ 0 → dF d 16 0 64 % 64 = 0 → dF d 16 0 64 + (s.surface (dF d 8 0 12)).footprint ≤ 2 ^ 64 → dB d 10 0 = true →
    (s.surface (dF d 8 0 12)).width ≠ 0 → (s.surface (dF d 8 0 12)).format = 0 →
    ∃ j : CopyJob, j.surface = dF d 8 0 12 ∧ j.desc = s.surface (dF d 8 0 12) ∧ j.image = some 0 ∧
      j.length = (s.surface (dF d 8 0 12)).footprint ∧ j.done = 0 ∧
      exec (.atlasDefine r) s = .next ((s.setCopy r (some j)).setReel r fun c => { c with busy := some .copy }))

/-- A SURFACE_COPY holds its reel while its bytes come. Each chunk is stored in order; the first begins a write into the
surface, and the last ends it, makes the surface ready and completes the descriptor. No cell changes but those of the bytes' own
addresses. -/
def Obligations.CopiesStoreWhereTheyPoint : Prop :=
  (∀ (s : State) (r : Nat) (d : Desc), s.Due r 0x11 d →
    s.Clean d [(8, 0, 64), (16, 0, 32), (20, 0, 1), (24, 0, 16), (26, 0, 16), (28, 0, 16), (30, 0, 16), (32, 0, 64), (40, 0, 32)] →
    dIndex d < 4096 → copyFields (s.surface (dIndex d)) d = true → copyAddrs (s.surface (dIndex d)) d = true →
    (dF d 20 0 1 = 1 ∨ (s.surface (dIndex d)).layout ≠ 2) →
    exec (.surfaceCopy r) s =
      .next ((s.setCopy r (some (copyJob (s.surface (dIndex d)) d))).setReel r fun c => { c with busy := some .copy })) ∧
  (∀ (s : State) (r : Nat) (d : Desc) (j : CopyJob) (bs : List Byte), s.ready = true → s.held r = some (d, .copy) →
    s.copyOf r = some j → s.hif.d3hot = false → bs ≠ [] → j.done + bs.length < j.length →
    exec (.copyWriteEnd r bs) s =
      .next (((if j.began then s else s.startWrite j.surface).copyBytes j bs).setCopy r
        (some { j with done := j.done + bs.length, began := true }))) ∧
  (∀ (s : State) (r : Nat) (d : Desc) (j : CopyJob) (bs : List Byte), s.ready = true → s.held r = some (d, .copy) →
    s.copyOf r = some j → s.hif.d3hot = false → bs ≠ [] → j.done + bs.length = j.length → dOpcode d = 0x11 →
    exec (.copyWriteEnd r bs) s =
      .next (((((if j.began then s else s.startWrite j.surface).copyBytes j bs).setCopy r none).endWrite j.surface
        true).completed r d cDone 0)) ∧
  (∀ (s t : State) (r : Nat) (d : Desc) (j : CopyJob) (bs : List Byte), s.Inv → s.held r = some (d, .copy) →
    s.copyOf r = some j → exec (.copyWriteEnd r bs) s = .next t →
    ∀ l, (∀ k, k < bs.length → l ≠ locate s.stk.masks (copyTarget j k)) → t.cell l = s.cell l)


/-! ### Shadow settings, and descriptors that wait for host data -/

/-- CANVAS_SET, LAYER_SET, REGION_SET and SCALER_BIND put their settings into the shadow, where they wait for a commit, and
change nothing else but what the completion does. A region that its canvas does not hold completes with BAD_FIELD. -/
def Obligations.ShadowSettingsWaitForACommit : Prop :=
  (∀ (s : State) (r : Nat) (d : Desc), s.Due r 0x21 d →
    s.Clean d [(8, 0, 64), (16, 0, 16), (18, 0, 16), (20, 0, 2), (22, 0, 16), (24, 0, 48)] → dIndex d < 8 →
    canvasFields (canvasOf d) = true → canvasAddrs (canvasOf d) = true →
    let t : State := { s with comp := { s.comp with shadowC := Tbl.put (fun _ => {}) (dIndex d) (canvasOf d) s.comp.shadowC } }
    exec (.canvasSet r) s = .next (t.completed r d cDone 0)) ∧
  (∀ (s : State) (r : Nat) (d : Desc), s.Due r 0x20 d →
    s.Clean d [(8, 0, 8), (9, 0, 8), (10, 0, 12), (12, 0, 64), (20, 0, 32), (24, 0, 32), (28, 0, 8), (29, 0, 3), (30, 0, 16),
      (32, 0, 48), (40, 0, 2), (41, 0, 5), (42, 0, 3), (43, 0, 8)] → dIndex d < 128 → layerFields (layerOf d) = true →
    let t : State := { s with comp := { s.comp with shadowL := Tbl.put (fun _ => {}) (dIndex d) (layerOf d) s.comp.shadowL } }
    exec (.layerSet r) s = .next (t.completed r d cDone 0)) ∧
  (∀ (s : State) (r : Nat) (d : Desc), s.Due r 0x25 d →
    s.Clean d [(8, 0, 6), (9, 0, 6), (10, 0, 64), (18, 0, 4), (19, 0, 8), (20, 0, 128)] → dIndex d < 8 →
    let key := 64 * dIndex d + dF d 8 0 6
    let g := regionOf d ((s.regionShadow key).stamp + 1)
    let t : State := { s with sig := { s.sig with shadow := Tbl.put (fun _ => {}) key g s.sig.shadow } }
    regionFields g = true →
    (g.enable = false → exec (.regionSet r) s = .next (t.completed r d cDone 0)) ∧
      (g.enable = true → g.guarded = false → g.x + g.w ≤ (s.shadowCanvas (dIndex d)).width →
        g.y + g.h ≤ (s.shadowCanvas (dIndex d)).height → exec (.regionSet r) s = .next (t.completed r d cDone 0)) ∧
      (g.enable = true → (s.shadowCanvas (dIndex d)).width < g.x + g.w →
        exec (.regionSet r) s = .next (s.completed r d cBadField 0x1701))) ∧
  (∀ (s : State) (r : Nat) (d : Desc), s.Due r 0x28 d → s.Clean d [(8, 0, 4)] → dIndex d < 32 →
    s.obj.fenced.contains (dIndex d) = false →
    exec (.scalerBind r) s = .next ((s.setSclShadow (dIndex d) fun x =>
      { x with reserve := dB d 8 0, canvas := dF d 8 1 3 }).completed r d cDone 0))

/-- ENGINE_SET, TWIST_SET, a MESH_LOAD of a mode without a mesh and a SADDLE_LOAD without loaded ramps put their settings into
the engine's shadow, and change neither the bundle latched, nor the one at the Spindle, nor the one at the Flyer. A MESH_LOAD of
a fenced engine completes with 0x0E. -/
def Obligations.EngineSettingsWaitForACommit : Prop :=
  let meshF : List (Nat × Nat × Nat) := [(8, 0, 64), (16, 0, 2), (16, 2, 3), (17, 0, 5), (20, 0, 32), (24, 0, 32)]
  let saddleF : List (Nat × Nat × Nat) := [(8, 0, 64), (16, 0, 64), (24, 0, 8), (25, 0, 2), (26, 0, 48), (32, 0, 144)]
  let engF : List (Nat × Nat × Nat) :=
    [(8, 0, 2), (9, 0, 5), (10, 0, 32), (40, 0, 64), (48, 0, 64), (56, 0, 8), (57, 0, 3), (58, 0, 12)]
  let saddleGood (d : Desc) (loaded : Bool) : Prop := (saddleRamps d).contains 3 = loaded ∧
    (∀ k, k < 4 → dF d (16 + 2 * k) 0 16 ≤ 2048) ∧ ∀ k, k < 3 → dF d (26 + 2 * k) 0 16 ≤ 4096
  (∀ (s : State) (r : Nat) (d : Desc), s.Due r 0x32 d → s.Clean d engF → dIndex d < 32 → (dIndex d % 2 = 0 ∨ dB d 8 1 = false) →
    1 ≤ dF d 9 0 5 → dF d 9 0 5 ≤ 16 → 6 ≤ dF d 56 0 4 → dF d 56 0 4 ≤ 12 → 6 ≤ dF d 56 4 4 → dF d 56 4 4 ≤ 14 →
    dF d 40 0 64 % 4096 = 0 → dB d 57 1 = false → dF d 48 0 64 = 0 → s.engFenced (dIndex d) = false →
    exec (.engineSet r) s = .next ((s.setShadow (dIndex d) fun b => { b with cfg := engineOf d }).completed r d cDone 0)) ∧
  (∀ (s : State) (r : Nat) (d : Desc), s.Due r 0x35 d →
    s.Clean d ([(8, 0, 1), (9, 0, 2), (10, 0, 8)] ++ (List.range 8).map fun c => (16 + c, 0, 6)) → dIndex d < 32 →
    twistSetFields d = true → s.engFenced (dIndex d) = false →
    exec (.twistSet r) s = .next ((s.setShadow (dIndex d) fun b => { b with sel := twistSelOf d }).completed r d cDone 0)) ∧
  (∀ (s : State) (r : Nat) (d : Desc), s.Due r 0x30 d → s.Clean d meshF → dIndex d < 32 → meshFields d = true →
    dF d 16 0 2 ≠ 2 → s.engFenced (dIndex d) = false →
    exec (.meshLoad r) s =
      .next ((s.setShadow (dIndex d) fun b => { b with warp := b.warp.withMesh d [] }).completed r d cDone 0)) ∧
  (∀ (s : State) (r : Nat) (d : Desc), s.Due r 0x31 d → s.Clean d saddleF → dIndex d < 32 → saddleGood d false →
    dF d 8 0 64 = 0 → s.engFenced (dIndex d) = false →
    exec (.saddleLoad r) s =
      .next ((s.setShadow (dIndex d) fun b => { b with warp := b.warp.withSaddle d [] }).completed r d cDone 0)) ∧
  (∀ (s : State) (e : Nat) (f : EngBundle → EngBundle), f (s.engine e).shadow ≠ {} →
    ((s.setShadow e f).engine e).shadow = f (s.engine e).shadow ∧ ((s.setShadow e f).engine e).lat = (s.engine e).lat ∧
      ((s.setShadow e f).engine e).spin = (s.engine e).spin ∧ ((s.setShadow e f).engine e).fly = (s.engine e).fly) ∧
  (∀ (s : State) (r : Nat) (d : Desc), s.Due r 0x30 d → s.Clean d meshF → dIndex d < 32 → meshFields d = true →
    dF d 16 0 2 ≠ 2 → s.engFenced (dIndex d) = true → exec (.meshLoad r) s = .next (s.completed r d 0x0E 0))

/-- A descriptor whose data comes from the host holds its reel until the data has arrived: a coefficient table, object contexts
that the stage has room for, a mesh, loaded ramps, and a twist table that no engine uses. A table in use completes with 0x36,
and contexts that find no room with the code of a full stage. -/
def Obligations.HostDataIsAwaited : Prop :=
  let waits (s : State) (r : Nat) : Out := .next (s.setReel r fun c => { c with busy := some .hostData })
  (∀ (s : State) (r : Nat) (d : Desc), s.Due r 0x29 d → s.Clean d [(8, 0, 64), (16, 0, 1)] → dIndex d < 32 →
    hostOk (dF d 8 0 64) (128 * coefTaps (dF d 16 0 1)) 64 = true → s.obj.fenced.contains (dIndex d) = false →
    exec (.coefLoad r) s = waits s r) ∧
  (∀ (s : State) (r : Nat) (d : Desc), s.Due r 0x2A d → s.Clean d [(8, 0, 64), (16, 0, 18), (20, 0, 14), (22, 0, 3)] →
    dIndex d = 0 → 1 ≤ dF d 20 0 14 → dF d 20 0 14 ≤ (if (s.originOf r d).cls = 0 then 16 else 7936) →
    dF d 16 0 18 + dF d 20 0 14 ≤ 262144 → hostOk (dF d 8 0 64) (32 * dF d 20 0 14) 32 = true →
    s.touchesFenced (dF d 16 0 18) (dF d 20 0 14) = false →
    (dF d 20 0 14 ≤ s.stageFree (s.originOf r d).cls → exec (.objWrite r) s = waits s r) ∧
      (s.stageFree (s.originOf r d).cls < dF d 20 0 14 →
        exec (.objWrite r) s = .next (s.completed r d cObjStageFull 0))) ∧
  (∀ (s : State) (r : Nat) (d : Desc), s.Due r 0x30 d →
    s.Clean d [(8, 0, 64), (16, 0, 2), (16, 2, 3), (17, 0, 5), (20, 0, 32), (24, 0, 32)] → dIndex d < 32 →
    meshFields d = true → dF d 16 0 2 = 2 → hostOk (dF d 8 0 64) 19240 64 = true → s.engFenced (dIndex d) = false →
    exec (.meshLoad r) s = waits s r) ∧
  (∀ (s : State) (r : Nat) (d : Desc), s.Due r 0x31 d →
    s.Clean d [(8, 0, 64), (16, 0, 64), (24, 0, 8), (25, 0, 2), (26, 0, 48), (32, 0, 144)] → dIndex d < 32 →
    (saddleRamps d).contains 3 = true → (∀ k, k < 4 → dF d (16 + 2 * k) 0 16 ≤ 2048) →
    (∀ k, k < 3 → dF d (26 + 2 * k) 0 16 ≤ 4096) → dF d 8 0 64 ≠ 0 → hostOk (dF d 8 0 64) 2048 64 = true →
    s.engFenced (dIndex d) = false → exec (.saddleLoad r) s = waits s r) ∧
  (∀ (s : State) (r : Nat) (d : Desc), s.Due r 0x34 d → s.Clean d [(8, 0, 64), (16, 0, 9)] → dIndex d < 64 →
    1 ≤ dF d 16 0 9 → dF d 16 0 9 ≤ 256 → hostOk (dF d 8 0 64) (64 + 16 * dF d 16 0 9) 64 = true →
    (s.tableInUse (dIndex d) = false → exec (.twistLoad r) s = waits s r) ∧
      (s.tableInUse (dIndex d) = true → exec (.twistLoad r) s = .next (s.completed r d 0x36 0)))


/-! ### Commits, light settings, calibration and flows -/

/-- A COMMIT, GUARD_COMMIT or ENGINE_COMMIT that passes its checks and the ledger is admitted: it waits for its latch point in
place of any earlier commit of the same canvas or engine. A COMMIT that fails a check completes with the check's code and raises
source 209 + 4c with it. A GUARD_SET that the ledger holds and that conflicts with nothing changes the reservation and RESERVED.
-/
def Obligations.CommitsAreAdmittedOrRejected : Prop :=
  (∀ (s : State) (r : Nat) (d : Desc), s.Due r 0x22 d → s.Clean d [(8, 0, 1)] → dIndex d < 8 →
    let c := dIndex d
    let probe := s.newCommit (s.originOf r d) (.canvas c (s.shadowCanvas c) (s.carriedSlots c) [] (s.carriedScalers c))
    let batches := s.carriable false c ((s.superseded probe.body).map (·.id))
    let w := { probe with body := .canvas c (s.shadowCanvas c) (s.carriedSlots c) batches (s.carriedScalers c) }
    let fails := s.commitFails w c (s.shadowCanvas c) (s.carriedSlots c) (s.carriedScalers c) (dB d 8 0)
    (fails = none → s.admits (s.waitingWith w) s.comp.shadowR c = none →
      exec (.commit r) s = .next (((s.enqueueCommit w batches).executed r).settle r)) ∧
    (∀ code detail, fails = some (code, detail) →
      exec (.commit r) s = .next ((s.raiseWith (209 + 4 * c) code).completed r d code detail))) ∧
  (∀ (s : State) (r : Nat) (d : Desc), s.Due r 0x24 d →
    s.Clean d [(8, 0, 2), (9, 0, 8), (10, 0, 3), (12, 0, 12), (16, 0, 96), (28, 0, 16), (30, 0, 48)] → dIndex d < 8 →
    (overlayOf d).enable = false → (overlayOf d).col.blend = 0 → (overlayOf d).col.matrix ≠ 3 →
    let c := dIndex d
    let probe := s.newCommit (s.originOf r d) (.guarded c (overlayOf d) (dB d 8 1) [])
    let batches := s.carriable true c ((s.superseded probe.body).map (·.id))
    s.fitsReservation (s.reservation c) (overlayOf d) (s.guardedLoad c batches) = true →
    exec (.guardCommit r) s = .next (((s.enqueueCommit { probe with body := .guarded c (overlayOf d) (dB d 8 1) batches }
      batches).executed r).settle r)) ∧
  (∀ (s : State) (r : Nat) (d : Desc), s.Due r 0x33 d → s.Clean d [] → dIndex d < 32 → s.engFenced (dIndex d) = false →
    let e := dIndex d
    let b := { (s.engine e).shadow with plan := none, matrix := none, seedLoad := none }
    let w := s.newCommit (s.originOf r d) (.engine e b)
    let ws := s.waitingWith w
    s.warpFails ws e b = none → spindleFails b = none → s.twistFails ws e b = none → s.admits ws s.comp.shadowR e = none →
    exec (.engineCommit r) s = .next (((s.enqueueCommit
      { w with body := .engine e { b with plan := s.planFor s.costArgs (s.costBundle ws (2 * (e / 2))).cfg.split b } }
      []).executed r).settle r)) ∧
  (∀ (s : State) (w : WaitCommit) (batches : List Nat),
    (s.enqueueCommit w batches).comp.waiting = (s.comp.waiting.filter fun x => !x.body.same w.body) ++ [w]) ∧
  (∀ (s : State) (r : Nat) (d : Desc), s.Due r 0x23 d →
    s.Clean d [(8, 0, 64), (16, 0, 6), (24, 0, 32), (28, 0, 32), (32, 0, 48)] → dIndex d < 8 →
    let c := dIndex d
    let v := reservationOf d
    v.format < 8 → v.fallback ≠ 3 → (v.some_ = false ∨ (v.x + v.w ≤ (s.shadowCanvas c).width ∧
      v.y + v.h ≤ (s.shadowCanvas c).height)) →
    s.admits s.comp.waiting (s.resWith c v) c = none → s.guardConflict c v = false →
    let t : State := { s with comp := { s.comp with shadowR := s.resWith c v } }
    exec (.guardSet r) s = .next ((t.wr (CMP_CV_STATE.RESERVED c) (b2n v.some_)).completed r d cDone 0))

/-- LIGHT_SET stores its settings. CAL_REQUEST raises a request for every string it names that is present and has none pending,
and answers how many in DETAIL; its STATUS action answers in DETAIL and changes nothing; an engine whose strings are not known
refuses it with 0x50. CAL_STORE begins the long operation that writes the other slot, where flash writes are allowed. FLOW_WRITE
writes an entry whole with its bucket full, unless the rules of flows refuse it. -/
def Obligations.LightCalibrationAndFlowDescriptors : Prop :=
  (∀ (s : State) (r : Nat) (d : Desc), s.Due r 0x38 d → s.Clean d (lightFields (dF d 8 0 2)) → dIndex d < 32 →
    lightRanges d = true → s.engFenced (dIndex d) = false →
    let t := (s.lightOf (dIndex d)).written.written d
    (dF d 8 0 2 ≠ 1 → t.gainZero = false → exec (.lightSet r) s = .next ((s.lightStore (dIndex d) d).completed r d cDone 0)) ∧
    (dF d 8 0 2 = 1 → t.notchEnable = true → notchCapacity s.gap t.notchW = 0 →
      exec (.lightSet r) s = .next (s.completed r d 0x44 0))) ∧
  (∀ (s : State) (r : Nat) (d : Desc), s.Due r 0x39 d → s.Clean d (calFields d) → dIndex d < 32 →
    s.engFenced (dIndex d) = false → dF d 8 0 2 ≠ 1 → dF d 8 0 2 ≠ 3 →
    let l := s.lightOf (dIndex d)
    let new := (calNamed d).filter fun i => (l.str i).state != stAbsent && !(l.calReqs.any fun r => r.str = i)
    (l.known = false → exec (.calRequest r) s = .next (s.completed r d 0x50 0)) ∧
    (l.known = true → dF d 8 0 2 = 0 →
      exec (.calRequest r) s = .next ((s.setLight (dIndex d) fun l =>
        new.foldl (fun l i => l.raiseCal i s.tickNo true) l).completed r d cDone new.length)) ∧
    (l.known = true → dF d 8 0 2 = 2 →
      exec (.calRequest r) s =
        .next (s.completed r d cDone (b2n l.respLoaded + 2 * b2n l.fromStore + 4 * l.calReqs.length)))) ∧
  (∀ (s : State) (r : Nat) (d : Desc), s.Inv → s.Due r 0x3A d → s.Clean d [] → dIndex d = 0 → s.flag DEV_STATUS.BUSY = false →
    s.flag THM_STATUS.WRITE_OK = true →
    Answers (exec (.calStore r) s) fun t =>
      t.rd DEV_STATUS.BUSY = 1 ∧ t.rd DEV_STATUS.LONG_OP = 2 ∧ t.pwr.long = some (.store r) ∧
        t.light.cal.writing = some (s.storePlan.1, withCheck (storeBody s.storePlan.2.1 s.storePlan.2.2)) ∧
        s.Only [DEV_STATUS.BUSY.off] t ∧ t.light.cal.flash = s.light.cal.flash) ∧
  (∀ (s : State) (r : Nat) (d : Desc), s.Due r 0x3A d → s.Clean d [] → dIndex d = 0 → s.flag DEV_STATUS.BUSY = true →
    exec (.calStore r) s = .next (s.completed r d cLongOpActive 0)) ∧
  (∀ (s : State) (r : Nat) (d : Desc), s.Due r 0x40 d →
    s.Clean d [(8, 0, 6), (9, 0, 8), (10, 0, 16), (12, 0, 16), (14, 0, 14), (16, 0, 5), (17, 0, 16), (20, 0, 128),
      (36, 0, 128), (52, 0, 48), (58, 0, 32)] → dIndex d < 4096 → flowRanges d (flowOf d) = true →
    (s.flowCode (dIndex d) (flowOf d) = none →
      exec (.flowWrite r) s = .next ((s.setFlow (dIndex d) (flowOf d)).completed r d cDone 0)) ∧
    ((flowOf d).valid = true → (flowOf d).port0 = false → (flowOf d).port1 = false →
      exec (.flowWrite r) s = .next (s.completed r d 0x60 0)))


/-! ### The tick -/

/-- ENABLE written 1 starts a FREE tick whose first edge lies LATCH_GUARD and 20 µs ahead; written 0 it stops the tick, with
TICK_OUT low. A write of APPLY whose values are out of range is refused with BAD_FIELD and source 4; one that the ledger holds
waits for its edge, and no value in force changes before it. -/
def Obligations.TickStartsStopsAndApplies : Prop :=
  let stored (s : State) (w : Nat) : State :=
    s.wrs [(TICK_CTRL.SOURCE, bitsOf w 1 2), (TICK_CTRL.GPTP_PORT, bitsOf w 3 1), (TICK_CTRL.PRESET, bitsOf w 4 4),
      (TICK_CTRL.ENABLE, b2n (bitOf w 0))]
  (∀ (s : State) (w : Word), s.Inv → s.Open → bitOf w.toNat 0 = true → bitOf w.toNat 8 = false → bitsOf w.toNat 1 2 = 0 →
    s.flag TICK_CTRL.ENABLE = false → s.rd DEV_STATUS.LC ≠ 0 → s.tick.apply = none →
    Answers (exec (.tickEnable w) s) fun t =>
      t.rd TICK_CTRL.ENABLE = 1 ∧ t.rd TICK_STATUS.SOURCE = 0 ∧ t.rd TICK_STATUS.LOCK = 0 ∧ t.tick.running = true ∧
        t.tick.latched = false ∧ t.tick.darkNext = true ∧
        t.tick.nextEdge = grid (s.now + 1000 * s.rd TICK_TIMING.LATCH_GUARD_US + 20000) ∧ t.now = s.now ∧
        s.Only [TICK_CTRL.ENABLE.off, TICK_STATUS.LOCK.off] t) ∧
  (∀ (s : State) (w : Word), s.Open → bitOf w.toNat 0 = false → bitOf w.toNat 8 = false → s.flag TICK_CTRL.ENABLE = true →
    s.tick.running = true →
    exec (.tickDisable w) s = .next (stored s w.toNat).stopTick) ∧
  (∀ s : State, s.stopTick.tick.running = false ∧ s.stopTick.tick.out = false ∧ s.stopTick.tick.latched = false) ∧
  (∀ (s : State) (w : Word), s.Inv → s.Open → bitOf w.toNat 8 = true → bitOf w.toNat 0 = s.flag TICK_CTRL.ENABLE →
    (stored s w.toNat).proposed.ranges = false →
    Answers (exec (.tickApply w) s) fun t =>
      t.rd TICK_STATUS.APPLY_REASON = 9 ∧ t.ic.raised = s.ic.raised ++ [⟨4, 0⟩] ∧ t.tick = s.tick ∧
        s.Only [TICK_CTRL.ENABLE.off, TICK_STATUS.LOCK.off] t) ∧
  (∀ (s : State) (w : Word), s.Inv → s.Open → bitOf w.toNat 8 = true → bitOf w.toNat 0 = s.flag TICK_CTRL.ENABLE →
    (stored s w.toNat).proposed.ranges = true → (stored s w.toNat).applyCode (stored s w.toNat).proposed = none →
    Answers (exec (.tickApply w) s) fun t =>
      t.rd TICK_STATUS.APPLY_PENDING = 1 ∧ t.rd TICK_PERIOD.PERIOD_NS = s.rd TICK_PERIOD.PERIOD_NS ∧
        t.tick = { s.tick with apply := some (stored s w.toNat).proposed, applyRipe := false } ∧
        s.Only [TICK_CTRL.ENABLE.off, TICK_STATUS.LOCK.off] t)

/-- LATCH_POINT, once before each edge of a running tick, marks the tick latched; TICK_EDGE, once the tick is latched, comes no
earlier than the edge was placed. At the edge the counter counts and the edge's time is held, and with SOURCE FREE the next edge
lies at e₀ + (n + 1) × P on the 5 ns grid with no error. TICK_OUT falls when its pulse ends. A TICK_IN edge reaches its time;
while PIN is not in force it does nothing more. -/
def Obligations.LatchPointsAndTickEdges : Prop :=
  (∀ s : State, s.ready = true → s.tick.running = true → s.tick.latched = false →
    Answers (exec .latchPoint s) fun t => t.tick.latched = true ∧ s.now ≤ t.now ∧ t.stk.mem = s.stk.mem) ∧
  (∀ s : State, (s.tick.running = false ∨ s.tick.latched = true) → exec .latchPoint s = .next s) ∧
  (∀ s : State, s.ready = true → s.tick.running = true → s.tick.latched = true →
    Answers (exec .tickEdge s) fun t => s.tick.nextEdge ≤ t.now ∧ s.now ≤ t.now ∧ t.stk.mem = s.stk.mem) ∧
  (∀ s : State, (s.tick.running = false ∨ s.tick.latched = false) → exec .tickEdge s = .next s) ∧
  (∀ s : State, s.Inv → s.tick.apply = none → s.now < 2 ^ 64 →
    s.countEdge.1.rd TICK_COUNT.COUNT = (s.rd TICK_COUNT.COUNT + 1) % 2 ^ 48 ∧ s.countEdge.1.rd TICK_EDGE_TIME.TIME_NS = s.now ∧
      s.countEdge.1.tick.latched = false) ∧
  (∀ (s : State) (fresh : Bool), s.Inv → s.rd TICK_STATUS.SOURCE = 0 →
    (s.decideLength fresh).tick.nextEdge = grid (s.tick.e0 + (s.tick.n + 1) * s.rd TICK_PERIOD.PERIOD_NS) ∧
      (s.decideLength fresh).tick.n = s.tick.n + 1 ∧ (s.decideLength fresh).rd TICK_PHASE_ERR.ERR_NS = 0 ∧
      (s.decideLength fresh).rd TICK_GPTP_INDEX.INDEX = 0) ∧
  (∀ s : State, s.ready = true → s.tick.out = true →
    exec .tickOutPulseEnd s = .next { s with now := max s.now s.tick.outEnd, tick := { s.tick with out := false } }) ∧
  (∀ (s : State) (t : Nat), s.ready = true → (s.tick.running = false ∨ s.rd TICK_STATUS.SOURCE ≠ 1) →
    exec (.tickInEdge t) s = .next { s with now := max s.now t }) ∧
  (∀ (s : State) (t : Nat), s.ready = true → s.now ≤ t → s.tick.running = true → s.rd TICK_STATUS.SOURCE = 1 →
    s.tick.accepted = none → s.tick.candidate = none → s.tick.settled = true →
    exec (.tickInEdge t) s = .next { s with now := t, tick := { s.tick with candidate := some t } })


/-! ### The Flyer -/

/-- The tick gap ends one gap after the edge. A slot of a leading engine starts at its instant of the table and queues its
loads; the table's END parks every band. A granted notch fires in the gap and is counted, on its engine and on its string. -/
def Obligations.TheTableOfATickRuns : Prop :=
  (∀ s : State, s.ready = true → s.tick.running = true → (∀ e, e < 32 → s.litNow e = false) →
    exec .tickGapEnd s = .next { s with now := max s.now (s.edgeTime + s.gap) }) ∧
  (∀ s : State, s.ready = true → s.tick.running = true →
    let z := s.reach (s.edgeTime + s.gap)
    let due := (List.range 32).filter fun e => z.litNow e && !(z.engine e).run.gapDone
    let open_ := due.foldl (fun (s : State) e => s.setRun e fun r => { r with gapDone := true }) z
    exec .tickGapEnd s = .next (due.foldl (fun (s : State) e => match (s.engine e).run.nextSlot with
      | some t => if s.leads e then s.startSlot e 0 t else s
      | none => s) open_)) ∧
  (∀ (s : State) (e : Nat) (t : TwistSlot), s.ready = true → e < 32 → s.leads e = true → (s.engine e).run.gapDone = true →
    (s.engine e).run.nextSlot = some t →
    exec (.slotStart e) s = .next ((s.reach (s.edgeTime + s.gap + 5 * t.start)).startSlot e (s.engine e).run.slot t)) ∧
  (∀ (r : FlyRun) (i : Nat) (t : TwistSlot), (r.applySlot i t).slot = i + 1 ∧
    ∀ l ∈ (r.applySlot i t).loads, l.at_.slot = i → l.queued = true) ∧
  (∀ (s : State) (e : Nat) (t : TwistTable), s.ready = true → e < 32 → s.leads e = true → (s.engine e).run.gapDone = true →
    (s.engine e).run.table = some t → (s.engine e).run.slot = t.slots.length → s.clonesOf e = [] →
    exec (.tableEnd e) s = .next ((s.reach (s.edgeTime + s.gap + 5 * t.end_)).setRun e fun r =>
      { r with shows := r.shows.map fun _ => none })) ∧
  (∀ (s : State) (e : Nat) (n : NotchRun), s.Inv → s.ready = true → e < 32 → s.litNow e = true →
    (s.engine e).run.gapDone = false → (s.engine e).run.notches.find? (fun n => !n.fired) = some n → n.bank < 3 → n.string < 9 →
    Answers (exec (.notch e) s) fun t =>
      t.rd (FLY_ENG_NOTCH.FIRED e) = min (s.rd (FLY_ENG_NOTCH.FIRED e) + 1) 65535 ∧
        t.rd (LGT_STR_COUNTS.NOTCHES e (9 * n.bank + n.string)) =
          min (s.rd (LGT_STR_COUNTS.NOTCHES e (9 * n.bank + n.string)) + 1) 65535 ∧
        t.now = max s.now (notchAt s.edgeTime (s.lightOf e).act.notchW n.n) ∧
        s.Only [(FLY_ENG_NOTCH.FIRED e).off, (LGT_STR_COUNTS.NOTCHES e (9 * n.bank + n.string)).off] t)

/-- A queued load begins at its instant where its band is complete, and else ends the tick with cause 1 in the slot in progress.
An underrun ends a lit tick with its cause. The decision before a reset is made 100 units ahead of it, and a load that is not
complete then is abandoned. Egress data is read for the first load that still wants bytes. -/
def Obligations.LoadsBeginOrEndTheTick : Prop :=
  (∀ (s : State) (e j : Nat) (l : LoadRun), s.ready = true → e < 32 → s.litNow e = true → s.nextLoad e = some (j, l) →
    s.bandReady e l = true →
    exec (.loadStart e) s = .next ((s.reach (s.edgeTime + s.gap + 5 * l.at_.q)).setRun e fun r => { r with
      loads := setAt r.loads j fun l => { l with started := true }, cells := setAt r.cells l.at_.band fun _ => some j })) ∧
  (∀ (s : State) (e j : Nat) (l : LoadRun), s.ready = true → e < 32 → s.litNow e = true → s.nextLoad e = some (j, l) →
    s.bandReady e l = false →
    exec (.loadStart e) s =
      .next ((s.reach (s.edgeTime + s.gap + 5 * l.at_.q)).abortTick e ((s.engine e).run.slot - 1) 1)) ∧
  (∀ (s : State) (e c : Nat), s.ready = true → e < 32 → s.litNow e = true → s.underrun e = some c →
    exec (.underrun e) s = .next (s.abortTick e ((s.engine e).run.slot - 1) c)) ∧
  (∀ (s : State) (e : Nat), s.underrun e = none → exec (.underrun e) s = .next s) ∧
  (∀ (s : State) (e b j : Nat) (t : TwistTable) (n x : TwistSlot), s.ready = true → e < 32 → s.litNow e = true →
    (s.engine e).run.gapDone = true → (s.engine e).run.table = some t → t.slots[(s.engine e).run.slot]? = some n →
    (t.slots.drop (s.engine e).run.slot).find? (fun x => bitOf x.reset b) = some x → x.start ≤ n.start + 100 →
    let z := s.reach (s.edgeTime + s.gap + 5 * x.start - 500)
    (z.engine e).run.nextShown b = some j →
    (z.loadComplete e j = true → exec (.bandBlank e b) s = .next z) ∧
      (z.loadComplete e j = false → z.clonesOf e = [] → exec (.bandBlank e b) s = .next (z.blankOne e b j))) ∧
  (∀ (s : State) (e n j : Nat) (l : LoadRun), s.ready = true → e < 32 → s.leads e = true → s.bandReady e l = true →
    let c := (s.engine e).fly.cfg
    let whole := c.width / 8 * (c.height / c.bands)
    ((s.engine e).run.loads.zipIdx).find? (fun p => !p.1.abandoned && !p.1.dead && decide (p.1.data.length < whole)) =
      some (l, j) → s.clonesOf e = [] →
    let k := min n (min (whole - l.data.length) (s.egressShare e - s.fill e))
    let a := s.blockAt e l.at_ + l.data.length
    exec (.egressFetch e n) s = .next (if (s.countFenced a k).litNow e then (s.countFenced a k).egress e j (s.memRead a k) whole
      else s.countFenced a k))

/-! ### The Skein link -/

/-- From R297. A write of ENABLE 0 takes every sub-port of the port OFF, and one of 1 takes those that are OFF to TRAIN where
the port may train. RETRAIN and DARK_TIMER take a sub-port from IDENT to HOLD to TRAIN; ACCEPT takes the offered SERIAL of a
HOLD with REASON 0x40 on to CONFIG; 10 ms in TRAIN and IDENT, or eight edges in CONFIG, without an answer retrain with REASON
0x43; a return strand that has been silent for 20 µs raises source 18 + 4p, counts, and retrains every sub-port of the port that
is not OFF. To TRAIN means that the state shows 1, that REASON holds the cause if it has one, and that a sub-port that was not
OFF counts a retrain. -/
def Obligations.SubPortsFollowTheLinkTable : Prop :=
  (∀ (s : State) (p : Nat) (w : Word), s.Open → p < 16 →
    let x := w.toNat
    let z := s.wrs [(SKN_PORT_CFG.ENABLE p, bitsOf x 0 1), (SKN_PORT_CFG.REPLAY_MAX p, bitsOf x 1 3),
      (SKN_PORT_CFG.ID_LOCK p, bitsOf x 4 1), (SKN_PORT_CFG.RS_INVERT p, bitsOf x 5 1),
      (SKN_PORT_CFG.MSG_ENABLE p, bitsOf x 6 1), (SKN_PORT_CFG.TX_INVERT p, bitsOf x 7 4)]
    (bitOf x 0 = false → exec (.sknPortEnable p w) s = .next ((z.enginesOf p).foldl (fun s e => s.linkOff e) z)) ∧
      (bitOf x 0 = true → exec (.sknPortEnable p w) s =
        .next ((z.enginesOf p).foldl (fun s e => if s.linkState e = 0 ∧ s.portMayTrain p then s.train e none else s) z))) ∧
  (∀ (s : State) (e : Nat), s.Open → s.exists_ e = true → 2 ≤ s.linkState e → exec (.retrain e) s = .next (s.train e none)) ∧
  (∀ (s : State) (e : Nat), s.Open → s.linkState e < 2 → exec (.retrain e) s = .next s) ∧
  (∀ (s : State) (e x : Nat), s.Open → (s.engine e).link.offered = some x → s.linkState e = 6 →
    s.rd (SKN_ENG_STATUS.REASON e) = 0x40 → exec (.accept e) s = .next ((s.acceptIdent e x).enterConfig e)) ∧
  (∀ (s : State) (e k : Nat), s.Hears e → 2 ≤ s.linkState e → s.Inv →
    exec (.darkTimer e k) s =
      .next (((s.heard e).wrs [(SKN_ENG_LAST_EVENT.CODE e, 6), (SKN_ENG_LAST_EVENT.ARG e, k)]).train e none)) ∧
  (∀ (s : State) (e k : Nat), s.Hears e → s.linkState e = 1 → s.Inv →
    exec (.darkTimer e k) s =
      .next ((s.heard e).wrs [(SKN_ENG_LAST_EVENT.CODE e, 6), (SKN_ENG_LAST_EVENT.ARG e, k)])) ∧
  (∀ (s : State) (e : Nat), s.Open → (s.linkState e ≠ 6 ∨ s.rd (SKN_ENG_STATUS.REASON e) ≠ 0x40) →
    exec (.accept e) s = .next s) ∧
  (∀ (s : State) (e : Nat), s.ready = true → s.exists_ e = true →
    ((s.linkState e = 1 ∨ s.linkState e = 2) ∧ (s.engine e).link.trainAt + 10000000 ≤ s.now ∨
      s.linkState e = 4 ∧ 8 ≤ (s.engine e).link.configEdges) →
    exec (.skeinNoAnswer e) s = .next (s.train e (some 0x43))) ∧
  (∀ (s : State) (p : Nat), s.ready = true → p < 16 → (s.portLink p).lost = false → (s.portLink p).lastMsg + 20000 ≤ s.now →
    let live := (s.enginesOf p).filter fun e => s.linkState e != 0
    live ≠ [] → exec (.returnStrandLost p) s =
      .next (live.foldl (fun s e => s.train e none)
        (((s.setPort p fun l => { l with lost := true }).raise (18 + 4 * p)).bump (SKN_PORT_LINK.RS_LOSSES p) 1))) ∧
  (∀ (s : State) (p : Nat) (lock : Bool), s.ready = true → p < 16 →
    exec (.returnStrandLock p lock) s = .next (s.wr (SKN_PORT_STATUS.RS_LOCK p) (b2n lock))) ∧
  (∀ (s : State) (e : Nat) (c : Option Nat), s.Inv → s.exists_ e = true → s.linkState e ≠ 5 →
    (s.train e c).linkState e = 1 ∧ (∀ k, c = some k → k < 256 → (s.train e c).rd (SKN_ENG_STATUS.REASON e) = k) ∧
      (s.train e c).rd (SKN_PORT_LINK.RETRAINS (e / 2)) =
        (if s.linkState e = 0 then s.rd (SKN_PORT_LINK.RETRAINS (e / 2)) else
          min (s.rd (SKN_PORT_LINK.RETRAINS (e / 2)) + 1) 65535))

/-- From R303 and R304. An opening while the permit is granted withdraws it: PERMIT shows 0, LSAFE_OUT is low, the opening
counts, and RELEASE is to be written anew. LSAFE_IN_L going low starts HOLD_MS. RELEASE is taken while LSAFE_IN_L is low, and is
ignored while it is high. -/
def Obligations.PermitFollowsTheInterlock : Prop :=
  (∀ s : State, s.Inv → s.pwr.porst = true → s.permit = true →
    Answers (exec .lsafeOpen s) fun t => t.permit = false ∧ t.rd SKN_LSAFE_STATUS.IN_OPEN = 1 ∧
      t.rd SKN_LSAFE_STATUS.OUT = 0 ∧ t.pwr.lsafeOut = false ∧ t.eng.released = false ∧ t.eng.lsafeLowAt = none ∧
      t.rd SKN_LSAFE_COUNT.OPENINGS = min (s.rd SKN_LSAFE_COUNT.OPENINGS + 1) 65535 ∧
      t.rd SKN_LSAFE_STATUS.AWAIT_RELEASE = s.rd SKN_LSAFE_CFG.LATCH) ∧
  (∀ s : State, s.pwr.porst = true → s.eng.lsafeLowAt = none →
    exec .lsafeClose s =
      .next ({ s.wr SKN_LSAFE_STATUS.IN_OPEN 0 with
        eng := { s.eng with lsafeLowAt := some s.now }, pwr := { s.pwr with lsafeHigh := false } })) ∧
  (∀ s : State, s.Open → s.flag SKN_LSAFE_STATUS.IN_OPEN = true → exec .lsafeRelease s = .next s) ∧
  (∀ s : State, s.Open → s.flag SKN_LSAFE_STATUS.IN_OPEN = false →
    exec .lsafeRelease s =
      .next ({ s.wr SKN_LSAFE_STATUS.AWAIT_RELEASE 0 with eng := { s.eng with released := true } }))

/-! ### Plies and messages of the Skein link -/

/-- From R271: a strand that becomes free sends a waiting ABORT, else a BAND_BLANK, else, on the timing strand, an EVENT replay.
A HELLO and a KEEPALIVE fall due once each on a strand. ACK drops from the store every ply before NEXT_SEQ, up to half of the
number range back. A NAK counts and is acted on: the NAK of a stored DATA ply whose load is not over and whose replays are not
used up is a replay, one of a load that is over counts as late, an ABORT or BAND_BLANK takes no replay, and an EVENT whose
replay would come too late is exhausted. -/
def Obligations.PliesGoOutAndAreAcknowledged : Prop :=
  (∀ (s : State) (p k : Nat), s.ready = true → p < 16 → k < 4 → s.linkState (s.engineOfStrand p k) ≠ 0 →
    bitOf s.pwr.sknClk (p / 4) = true →
    let e := s.engineOfStrand p k
    let l := (s.engine e).link
    (∀ a r, l.aborts = a :: r → exec (.plyTransmit p k) s = .next (s.sendAbort e p k a r)) ∧
      (∀ b r, l.aborts = [] → l.blanks = b :: r → exec (.plyTransmit p k) s =
        .next (((s.setLink e fun l => { l with blanks := r }).storePly e b).putPly p k kBlank b.seq b.payload false)) ∧
      (∀ v r, l.aborts = [] → l.blanks = [] → (s.strands e).head? = some k → l.evReplays = v :: r →
        exec (.plyTransmit p k) s = .next ((s.setLink e fun l => { l with evReplays := r }).putPly p k v.kind v.seq
          (if v.kind = kEvent then eventPayload s.now v.recs else v.payload) true)) ∧
      (l.aborts = [] → l.blanks = [] → (s.strands e).head? ≠ some k →
        exec (.plyTransmit p k) s = .next (s.transmitDue e p k false))) ∧
  (∀ (s : State) (p k : Nat), s.ready = true → p < 16 → k < 4 → 2 ≤ s.linkState (s.engineOfStrand p k) →
    (s.engine (s.engineOfStrand p k)).link.kaDue.contains k = false →
    exec (.keepalive p k) s = .next (s.setLink (s.engineOfStrand p k) fun l => { l with kaDue := l.kaDue ++ [k] })) ∧
  (∀ (s : State) (p k : Nat), s.ready = true → p < 16 → k < 4 →
    (s.linkState (s.engineOfStrand p k) = 2 ∨ s.linkState (s.engineOfStrand p k) = 1 ∧
      (s.engine (s.engineOfStrand p k)).link.trainAt + 100000 ≤ s.now) →
    (s.engine (s.engineOfStrand p k)).link.helloDue.contains k = false →
    exec (.hello p k) s = .next (s.setLink (s.engineOfStrand p k) fun l => { l with helloDue := l.helloDue ++ [k] })) ∧
  (∀ (s : State) (e n : Nat), s.Hears e →
    exec (.ack e n) s = .next ((s.heard e).setLink e fun l => { l with
      store := l.store.filter fun q => let k := (n + 16384 - q.ply.seq) % 16384; k == 0 || decide (8192 < k) })) ∧
  (∀ (s : State) (e q : Nat), s.Hears e →
    exec (.nak e q) s = .next (((s.heard e).bump (SKN_ENG_ERRORS.NAKS e) 1).nak e (q % 16384))) ∧
  (∀ (s : State) (e q : Nat) (x : Stored), (s.engine e).link.store.find? (fun x => x.ply.seq == q) = some x →
    ((x.ply.kind = kAbort ∨ x.ply.kind = kBlank) → s.nak e q = s.error eSkeinParity e) ∧
      (x.ply.kind = kData → s.loadOver e x.ply = true →
        s.nak e q = (s.bump (SKN_ENG_ERRORS.LATE_NAKS e) 1).error eSkeinParity e) ∧
      (x.ply.kind = kData → s.loadOver e x.ply = false → max 1 (s.rd (SKN_PORT_CFG.REPLAY_MAX (e / 2))) ≤ x.replays →
        s.nak e q = ((s.loseData e x.ply).exhaust e (some kData)).error eSkeinParity e) ∧
      (x.ply.kind = kData → s.loadOver e x.ply = false → x.replays < max 1 (s.rd (SKN_PORT_CFG.REPLAY_MAX (e / 2))) →
        s.nak e q = (s.replay e x).error eSkeinParity e) ∧
      (x.ply.kind = kEvent → x.replays < max 1 (s.rd (SKN_PORT_CFG.REPLAY_MAX (e / 2))) →
        replayInTime s.now x.ply.recs = false → s.nak e q = (s.exhaust e (some kEvent)).error eSkeinParity e))

/-- From R289, R297 and R298. STATUS shows ESTATE and LOCK, and takes a sub-port in TRAIN to IDENT once every strand reports
lock; in a later state a strand out of lock retrains. IDENT in IDENT goes to HOLD with REASON 0x41 where STRANDS does not fit,
with REASON 0x40 where the identity is locked to another, and else to READY with the identity in force. CONFIG_OK of the latest
CONFIG_ID goes to RUN and CONFIG_REJECT to HOLD with REASON 0x42; of another CONFIG_ID they change no state. -/
def Obligations.IdentificationAndConfiguration : Prop :=
  (∀ (s : State) (e estate lock flags : Nat), s.Inv → s.Hears e → estate < 8 → lock < 16 →
    let y := ((s.heard e).wrs [(SKN_ENG_STATUS.LOCK e, lock), (SKN_ENG_STATUS.ESTATE e, estate)]).setLink e fun l =>
      { l with sensorFault := bitOf flags 2 }
    let z := if bitOf flags 2 then y.setEngine e fun g => { g with
      ticks := g.ticks.modifyHead fun t => { t with fault := true } } else y
    z.rd (SKN_ENG_STATUS.LOCK e) = lock ∧ z.rd (SKN_ENG_STATUS.ESTATE e) = estate ∧
      (s.linkState e = 1 → s.allLocked e lock = true → exec (.rsStatus e estate lock flags) s = .next (z.setLinkState e 2)) ∧
      (s.linkState e = 1 → s.allLocked e lock = false → exec (.rsStatus e estate lock flags) s = .next z) ∧
      (s.linkState e ≠ 1 → s.allLocked e lock = true → exec (.rsStatus e estate lock flags) s = .next z) ∧
      (s.linkState e ≠ 1 → s.allLocked e lock = false → exec (.rsStatus e estate lock flags) s = .next (z.train e none))) ∧
  (∀ (s : State) (e x : Nat), s.Hears e → s.linkState e = 2 →
    let z := s.heard e
    (identStrands x ≠ (s.strands e).length → exec (.ident e x) s = .next (z.holdLink e 0x41)) ∧
      (∀ h, identStrands x = (s.strands e).length → s.flag (SKN_PORT_CFG.ID_LOCK (e / 2)) = true →
        (s.engine e).link.held = some h → h ≠ identSerial x →
        exec (.ident e x) s = .next ((z.setLink e fun l => { l with offered := some x }).holdLink e 0x40)) ∧
      (identStrands x = (s.strands e).length →
        (s.flag (SKN_PORT_CFG.ID_LOCK (e / 2)) = false ∨ (s.engine e).link.held = none ∨
          (s.engine e).link.held = some (identSerial x)) →
        exec (.ident e x) s = .next ((z.acceptIdent e x).setLinkState e 3))) ∧
  (∀ (s : State) (e id : Nat), s.Inv → s.Hears e → s.linkState e = 4 →
    let z := (s.heard e).wrs [(SKN_ENG_LAST_EVENT.CODE e, 2), (SKN_ENG_LAST_EVENT.ARG e, id)]
    ((s.engine e).link.asked = some id →
        exec (.configOk e id) s = .next ((z.setLink e fun l => { l with configEdges := 0 }).setLinkState e 5)) ∧
      ((s.engine e).link.asked ≠ some id → exec (.configOk e id) s = .next z)) ∧
  (∀ (s : State) (e id cause : Nat), s.Inv → s.Hears e → s.linkState e = 4 →
    let z := (s.heard e).wrs [(SKN_ENG_LAST_EVENT.CODE e, 3), (SKN_ENG_LAST_EVENT.ARG e, id + 2 ^ 16 * cause)]
    ((s.engine e).link.asked = some id → exec (.configReject e id cause) s = .next (z.holdLink e 0x42)) ∧
      ((s.engine e).link.asked ≠ some id → exec (.configReject e id cause) s = .next z))

/-- From R285, R286, R290 and R451. TEMP is shown; SENSOR and STRING are taken; every EVENT message is shown in
SKN_ENG_LAST_EVENT before it acts: ENGINE_MSG of the message sources is a doorbell where MSG_ENABLE is 1, and else is counted as
dropped; LATE and the codes R290 does not list are counted; BAND_PARKED counts a blank and marks the load. Bad messages of a
port are counted by their kind. A plane CRC that its echo matches is settled; a mismatch and a missing echo are counted,
recorded and taken as PLANE_CRC errors, a mismatch with source 19 + 4p. -/
def Obligations.EngineMessagesAreTaken : Prop :=
  (∀ (s : State) (e a l d x : Nat), s.Inv → s.Hears e → a < 2 ^ 16 → l < 2 ^ 16 → d < 2 ^ 16 → x < 2 ^ 16 →
    Answers (exec (.temp e a l d x) s) fun t => t.rd (SKN_ENG_TEMP_A.ARRAY e) = a ∧ t.rd (SKN_ENG_TEMP_A.LASER e) = l ∧
      t.rd (SKN_ENG_TEMP_B.DRIVER e) = d ∧ t.rd (SKN_ENG_TEMP_B.SENSOR e) = x) ∧
  (∀ (s : State) (e tag j v t16 : Nat), s.Hears e →
    exec (.sensor e tag j v t16) s = .next ((s.heard e).sensorMsg e tag j v t16)) ∧
  (∀ (s : State) (e b k v c f t16 : Nat), s.Hears e →
    exec (.string e b k v c f t16) s = .next ((s.heard e).stringMsg e b k v c f t16)) ∧
  (∀ (s : State) (e n : Nat), s.Inv → s.Hears e →
    let z := (s.heard e).wrs [(SKN_ENG_LAST_EVENT.CODE e, 4), (SKN_ENG_LAST_EVENT.ARG e, n)]
    (s.flag (SKN_PORT_CFG.MSG_ENABLE (e / 2)) = true → 320 ≤ n → n ≤ 383 →
        exec (.engineMsg e n) s = .next ((z.bump IC_STATS.MSG_COUNT 1).arrive n)) ∧
      (s.flag (SKN_PORT_CFG.MSG_ENABLE (e / 2)) = false ∨ n < 320 ∨ 383 < n →
        exec (.engineMsg e n) s = .next (z.bump (SKN_PORT_DROPS.MSG_DROPPED (e / 2)) 1))) ∧
  (∀ (s : State) (e q : Nat), s.Hears e →
    exec (.late e q) s = .next (((s.heard e).wrs [(SKN_ENG_LAST_EVENT.CODE e, 5), (SKN_ENG_LAST_EVENT.ARG e, q)]).bump
      (SKN_ENG_EVENTS.LATE e) 1)) ∧
  (∀ (s : State) (e c x : Nat), s.Hears e → c = 0 ∨ 6 < c →
    exec (.badRecord e c x) s = .next (((s.heard e).wrs [(SKN_ENG_LAST_EVENT.CODE e, c), (SKN_ENG_LAST_EVENT.ARG e, x)]).bump
      (SKN_PORT_DROPS.UNKNOWN (e / 2)) 1)) ∧
  (∀ (s : State) (p k : Nat), s.ready = true → p < 16 →
    exec (.rsBadMessage p k) s = .next (s.bump (if k = 0 then SKN_PORT_RS_ERR.CODE_ERRORS p else if k = 1 then
      SKN_PORT_RS_ERR.CRC_ERRORS p else SKN_PORT_DROPS.UNKNOWN p) 1)) ∧
  (∀ (s : State) (e b t16 : Nat), s.Inv → s.Hears e → (s.engine e).fly.warp.mode ≠ 3 → t16 = s.tickNo % 65536 →
    let z := (s.heard e).wrs [(SKN_ENG_LAST_EVENT.CODE e, 1), (SKN_ENG_LAST_EVENT.ARG e, b + 2 ^ 8 * t16)]
    exec (.bandParked e b t16) s =
      .next (((z.countBlank e b).bump (FLY_ENG_BLANKS.ENGINE_SIDE e) 1).setRun e fun r => r.markParked b)) ∧
  (∀ (s : State) (e b t16 : Nat), s.Inv → s.Hears e →
    let z := (s.heard e).wrs [(SKN_ENG_LAST_EVENT.CODE e, 1), (SKN_ENG_LAST_EVENT.ARG e, b + 2 ^ 8 * t16)]
    let y := (z.countBlank e b).bump (FLY_ENG_BLANKS.ENGINE_SIDE e) 1
    ((s.engine e).fly.warp.mode = 3 → exec (.bandParked e b t16) s = .next y) ∧
      ((s.engine e).fly.warp.mode ≠ 3 → (t16 + 1) % 65536 = s.tickNo % 65536 →
        exec (.bandParked e b t16) s = .next (y.parkLast e b))) ∧
  (∀ (s : State) (e t16 crc : Nat) (c : CrcEntry), s.Hears e →
    (s.crcs e).find? (fun c => c.tick % 65536 == t16 && c.status == 4 && decide (s.now ≤ c.endAt + 200000)) = some c →
    let settled (st : Nat) := (s.heard e).setCrcs e fun h => h.map fun x =>
      if x.tick = c.tick then { x with status := st, echo := crc } else x
    (crc = c.crc → exec (.crcEcho e t16 crc) s = .next (settled 0)) ∧
      (crc ≠ c.crc → exec (.crcEcho e t16 crc) s =
        .next (((((settled 1).bump (SIG_ENG_CRC.MISMATCH e) 1).postPlaneCrc e 1 c.tick c.crc crc).raise
          (19 + 4 * (e / 2))).error ePlaneCrc e))) ∧
  (∀ (s : State) (e : Nat) (c : CrcEntry), s.ready = true →
    ((s.crcs e).filter fun c => c.status == 4 && decide (c.endAt + 200000 ≤ s.now)).getLast? = some c →
    exec (.crcEchoMissing e) s =
      .next ((((s.setCrcs e fun h => h.map fun x => if x.tick = c.tick then { x with status := 2 } else x).bump
        (SIG_ENG_CRC.MISSING e) 1).postPlaneCrc e 2 c.tick c.crc 0).error ePlaneCrc e))

/-! ### Composition, warp and signatures -/

/-- From R54, R178, R203, R221 and R448. The compositor composes the unit at the head of its order, and rests when none is left.
A warp stage works its next engine row once the canvas rows it reaches stand, and rests else. The stack's acknowledgement of a
band's last write marks the band, and that of the last band completes the frame. The object apply window opens after the latch
point, once nothing is left to compose. A region's signature is shown, compared and watched when the last row of the region has
been issued; a signature among the expected values, or none expected, clears RUN and the region's mismatch bit, and one that is
not raises RUN by one, sets the bit and counts the frame once. -/
def Obligations.FramesAreComposedAndChecked : Prop :=
  (∀ (s : State) (c u : Nat) (l : List (Nat × Nat)), s.ready = true → s.comp.todo = (c, u) :: l →
    let k := s.comp.composing
    let words := s.unitWords k c u
    exec .composeUnit s = .next (((((s.issueUnit (k.canvas c) u words).countHank (s.unitBlocks k c u)).bump
      OBJ_ERRORS.MIRROR_USED (s.mirrorReads k c u)).fencedReads).unitDone c u words)) ∧
  (∀ (s : State), s.comp.todo = [] → exec .composeUnit s = .next s) ∧
  (∀ (s : State) (p w e y : Nat), s.ready = true → p < 16 → s.nextRow p = some (e, y) →
    (s.rowReady e y = false → exec (.warpRow p w) s = .next s) ∧
      (s.rowReady e y = true → Answers (exec (.warpRow p w) s) fun t =>
        let z := ((s.workRow e y).bump (CNV_PORT_STATS.STALL_US p) w).fencedReads
        t = { z with stk := { z.stk with lost := z.stk.lost.filter fun q => q.1 != 16 + p } })) ∧
  (∀ (s : State) (p w : Nat), s.nextRow p = none → exec (.warpRow p w) s = .next s) ∧
  (∀ (s : State) (e b n y : Nat), s.ready = true → e < 32 → b < (s.engine e).spin.cfg.bands → (s.engine e).row = some y →
    (b + 1) * ((s.engine e).spin.cfg.height / (s.engine e).spin.cfg.bands) ≤ y → (s.engine e).acked.contains b = false →
    (s.engine e).lostBands.contains b = false →
    let z := (s.setEngine e fun g => { g with acked := b :: g.acked }).bump (SPN_PORT_STATS.WRITE_STALL_US (e / 2)) n
    exec (.bandComplete e b n) s =
      .next (if (z.engine e).acked.length = (s.engine e).spin.cfg.bands then z.frameComplete e else z)) ∧
  (∀ s : State, s.ready = true → s.tick.latched = true → s.comp.todo = [] → exec .objApplyWindow s = .next s.applyWindow) ∧
  (∀ s : State, s.comp.todo ≠ [] ∨ s.tick.latched = false → exec .objApplyWindow s = .next s) ∧
  (∀ (s : State) (c r : Nat), s.ready = true → c < 8 → r < 64 →
    let key := 64 * c + r
    let g := Tbl.get (fun _ => ({} : Region)) s.sig.force key
    let cv := s.comp.composing.canvas c
    let q := g.clip cv
    g.enable = true → cv.enable = true → q.area ≠ 0 → s.sig.checked.contains key = false →
    s.comp.done.contains (c, (q.y1 - 1) / 8) = true →
    let crc := signatureOf (s.regionWords c cv.width q)
    let z := ({ s with sig := { s.sig with checked := key :: s.sig.checked } } : State).wr (SIG_RGN_CRC.CRC key) crc
    exec (.regionSignature c r) s = .next ((z.compareRegion c r g crc).watchRegion c r g crc)) ∧
  (∀ (s : State) (c r crc : Nat) (g : Region), s.Inv → c < 8 → r < 64 →
    (g.nexp = 0 ∨ (g.expect.take g.nexp).contains crc = true) →
    let t := s.compareRegion c r g crc
    t.rd (SIG_RGN_STATE.RUN (64 * c + r)) = 0 ∧ bitOf (t.rd (SIG_CV_MISMATCH.MISMATCH c)) r = false ∧
      t.rd (SIG_CV_COUNTS.MISMATCHES c) = s.rd (SIG_CV_COUNTS.MISMATCHES c)) ∧
  (∀ (s : State) (c r crc : Nat) (g : Region), 0 < g.nexp → (g.expect.take g.nexp).contains crc = false → g.guarded = false →
    let run := min 15 (s.rd (SIG_RGN_STATE.RUN (64 * c + r)) + 1)
    s.compareRegion c r g crc =
      ((((s.wrs [(SIG_CV_MISMATCH.MISMATCH c, setBit (s.rd (SIG_CV_MISMATCH.MISMATCH c)) r 1),
        (SIG_RGN_STATE.RUN (64 * c + r), run)]).countMismatch c).postSignature 1 c r 0 crc).raiseMismatch c))

/-! ### Light timers, error windows and die words -/

/-- From R318 to R320, R329, R342, R439 to R441 and R443. A due loop edge takes the loop settings of every engine, shows σ_g of
every group and updates every engine of the loop; one not due does nothing. A calibration that is late is abandoned. A HEAT_OFF
string returns to service, or to spare, HEAT_HOLD after its last heat. An escalation window that is due starts. An error of a
fenced resource is not counted; any other adds one to the instance's count and total, and raises its level when the count
reaches THRESHOLD. The failing parity of a die word is an error of its kind, a word of the object store counts among the object
errors too, and the third failure makes the word 0. -/
def Obligations.LightTimersAndErrorsRun : Prop :=
  (∀ s : State, s.ready = true → s.light.loopDue = true →
    let period := max 2 (bitsOf s.light.loopCfg 0 8)
    let x : State := { s with light := { s.light with loopDue := false } }
    let y := x.engines.foldl (fun (s : State) e => (s.setLight e fun l => l.takeLoop).showLight e) x
    let sg := y.groupSigmas s.tickNo period
    let z := (sg.zipIdx).foldl (fun (s : State) (p : (Nat × Option Nat) × Nat) => s.wrs [(LGT_GROUP.SIGMA p.2, p.1.1),
        (LGT_GROUP.LIMITER p.2, p.1.2.getD 0), (LGT_GROUP.LIMITED p.2, b2n (decide (p.1.1 < 65536)))])
      { y with light := { y.light with sigma := sg.map Prod.fst } }
    let edge := s.tickNo
    exec .loopEdge s = .next ((z.engines.filter z.loops).foldl (fun s e => s.loopEngine e edge period) z)) ∧
  (∀ s : State, s.light.loopDue = false → exec .loopEdge s = .next s) ∧
  (∀ (s : State) (e b : Nat) (c : CalRun), s.ready = true → (s.lightOf e).cal b = some c →
    (c.fit.isNone = true → c.start + 16 * s.calTimeout ≤ s.tickNo →
        exec (.calibrationTimeout e b) s = .next (s.abandonCal e b false)) ∧
      (c.fit.isSome = true ∨ s.tickNo < c.start + 16 * s.calTimeout → exec (.calibrationTimeout e b) s = .next s)) ∧
  (∀ (s : State) (e i : Nat), s.ready = true → i < 27 → ((s.lightOf e).str i).state = stHeatOff →
    let x := (s.reach (Tbl.get (fun _ => 0) (s.lightOf e).heatAt i + 100000000 * (s.lightOf e).act.heatHold)).setLight e fun l =>
      if i % 9 = 8 then l.setStr i fun p => { p with state := stIdle, spareFor := 15 } else l.giveBack i
    exec (.heatHoldExpiry e i) s =
      .next (((x.wr (LGT_STR_STATUS.STATE e i) ((x.lightOf e).str i).state).restage e (i / 9)).showVerified e i)) ∧
  (∀ (s : State) (k : Nat), s.ready = true → s.sig.windowDue.contains k = true →
    exec (.escalationWindow k) s = .next
      (({ s with sig := { s.sig with windowDue := s.sig.windowDue.filter (· ≠ k) } } : State).windowStart k)) ∧
  (∀ (s : State) (k i : Nat), s.resFenced k i = true → s.error k i = s) ∧
  (∀ (s : State) (k i : Nat), s.resFenced k i = false →
    let z := s.setErr k i fun x => { x with count := satAdd 16 x.count 1, total := satAdd 32 x.total 1, hit := true }
    s.error k i = if max 1 (s.rd (SIG_KIND_CFG.THRESHOLD k)) ≤ (z.err k i).count then z.rise k i else z) ∧
  (∀ (s : State) (w : DieWord) (third : Bool), s.ready = true →
    let z := s.error (dieKind w).1 (dieKind w).2
    let y := if (dieKind w).1 = eObject then z.bump OBJ_ERRORS.PARITY 1 else z
    exec (.dieParityFail w third) s = .next (if third then y.zeroDie w else y))

/-! ### The coach bus -/

/-- From R356 to R358, R363 to R366 and R370. An enable takes NODE_ID and the MAC address and shows the coordinator role; a
disable leaves PLCA. LOG_CLEAR empties the log. An allow-list entry written VALID is refused with the code of the first check it
fails, and is valid where that is 0. A frame of a source in no valid entry is dropped, counted and logged; one whose entry does
not accept it is refused and counted; an accepted AMBIENT is shown with its tick, an accepted MSG is a doorbell, and an accepted
STATUS shows its flag with its tick. Receive faults are counted by their kind, and a collision under PLCA and a second
coordinator raise source 288. While the bus is off nothing is received. -/
def Obligations.CoachBusAdmitsListedFrames : Prop :=
  (∀ (s : State) (w : Word), s.Inv → s.Open → bitOf w.toNat 0 = true → s.cbusOn = false →
    Answers (exec (.cbusEnable w) s) fun t => t.cbusOn = true ∧ t.light.nodeId = bitsOf w.toNat 1 5 ∧
      t.light.mac = s.rd CBUS_MAC_LO.MAC + 2 ^ 32 * s.rd CBUS_MAC_HI.MAC ∧
      t.rd CBUS_STATUS.COORDINATOR = b2n (bitsOf w.toNat 1 5 == 0)) ∧
  (∀ (s : State) (w : Word), s.Inv → s.Open → bitOf w.toNat 0 = false →
    Answers (exec (.cbusEnable w) s) fun t => t.cbusOn = false ∧
      (s.cbusOn = true → t.rd CBUS_STATUS.COORDINATOR = 0 ∧ t.rd CBUS_STATUS.PLCA_ACTIVE = 0)) ∧
  (∀ s : State, s.Open → s.Inv → Answers (exec .logClear s) fun t => ∀ i, i < 8 →
    t.rd (CBUS_LOG_MAC_HI.COUNT i) = 0 ∧ t.rd (CBUS_LOG_MAC_LO.MAC i) = 0 ∧ t.rd (CBUS_LOG_MAC_HI.MAC i) = 0 ∧
      t.rd (CBUS_LOG_TICK.TICK i) = 0) ∧
  (∀ (s : State) (n : Nat) (w : Word), s.Open → n < 32 →
    let x := w.toNat
    let z := s.wrs [(CBUS_ALLOW_CFG.VALID n, 0), (CBUS_ALLOW_CFG.ROLE n, bitsOf x 1 2), (CBUS_ALLOW_CFG.NODE_ID n, bitsOf x 3 5),
      (CBUS_ALLOW_CFG.ENGINE n, bitsOf x 8 5), (CBUS_ALLOW_CFG.PAIR n, bitsOf x 13 1), (CBUS_ALLOW_CFG.MSG_OK n, bitsOf x 14 1)]
    exec (.allowValid n w) s = .next (if bitOf x 0 then (z.wrs [(CBUS_STATUS.CFG_CODE, z.allowCode n),
      (CBUS_ALLOW_CFG.VALID n, b2n (z.allowCode n == 0))]).trySwitch else z.trySwitch)) ∧
  (∀ (s : State) (mac : Nat), s.ready = true → s.cbusOn = true → s.listed mac = none →
    exec (.stranger mac) s = .next (s.stranger mac)) ∧
  (∀ (s : State) (mac : Nat), s.Inv →
    (s.stranger mac).rd CBUS_DROPS.STRANGER = min (s.rd CBUS_DROPS.STRANGER + 1) 65535) ∧
  (∀ (s : State) (mac lux n : Nat) (ok : Bool), s.ready = true → s.cbusOn = true → s.listed mac = some n →
    exec (.ambient mac ok lux) s = .next (if ok = true ∧ s.rd (CBUS_ALLOW_CFG.ROLE n) = 1 then
      s.wrs [(CBUS_ALLOW_DATA.VALUE n, bitsOf lux 8 16), (CBUS_ALLOW_DATA.TICK n, s.tickNo % 65536)]
      else s.bump CBUS_DROPS.REFUSED 1)) ∧
  (∀ (s : State) (mac x n : Nat) (ok : Bool), s.ready = true → s.cbusOn = true → s.listed mac = some n →
    exec (.cbusMsg mac ok x) s =
      .next (if ok = true ∧ 320 ≤ x ∧ x ≤ 383 ∧ s.flag (CBUS_ALLOW_CFG.MSG_OK n) = true then
        (s.bump IC_STATS.MSG_COUNT 1).arrive x else s.bump CBUS_DROPS.REFUSED 1)) ∧
  (∀ (s : State) (mac e f id n : Nat), s.Inv → s.ready = true → s.cbusOn = true → s.listed mac = some n →
    (s.covered n).contains e = true → (s.lightOf e).staged.isSome = true →
    exec (.cbusStatus mac true e f id) s =
      .next (s.wrs [(CBUS_ALLOW_DATA.VALUE n, bitsOf f 1 1), (CBUS_ALLOW_DATA.TICK n, s.tickNo % 65536)])) ∧
  (∀ (s : State) (mac e f id n : Nat) (t : BoardTable), s.ready = true → s.cbusOn = true → s.listed mac = some n →
    (s.covered n).contains e = true → (s.lightOf e).staged = none → s.light.switch = none → (s.lightOf e).force = some t →
    (bitOf f 0 = true ∨ id ≠ t.id) →
    let z := (s.wrs [(CBUS_ALLOW_DATA.VALUE n, bitsOf f 1 1), (CBUS_ALLOW_DATA.TICK n, s.tickNo % 65536)]).setLight e fun l =>
      { l with staged := some { table := { t with id := l.nextId % 65536, models := [] }, order := s.light.nextOrder },
               nextId := l.nextId + 1 }
    exec (.cbusStatus mac true e f id) s = .next ((({ z with light := { z.light with nextOrder := z.light.nextOrder + 1 } } :
      State).bump CBUS_DELIVERY.RESYNCS 1).notePending e)) ∧
  (∀ (s : State) (k : Nat), s.ready = true → s.cbusOn = true → exec (.cbusRxFault k) s = .next (match k with
    | 0 => s.bump CBUS_ERRORS.FCS 1
    | 1 => if s.flag CBUS_STATUS.PLCA_ACTIVE then (s.bump CBUS_ERRORS.COLLISIONS 1).raise 288 else s.bump CBUS_ERRORS.CSMA_COLL 1
    | 2 => if s.flag CBUS_STATUS.COORDINATOR then (s.bump CBUS_ERRORS.DUP_COORD 1).raise 288 else s
    | _ => s)) ∧
  (∀ (s : State) (a : Bool), s.ready = true → s.cbusOn = true → s.flag CBUS_STATUS.PLCA_ACTIVE ≠ a →
    exec (.plcaActiveChange a) s = .next ((s.wr CBUS_STATUS.PLCA_ACTIVE (b2n a)).raise 290)) ∧
  (∀ (s : State) (mac x e id r : Nat) (ok : Bool), s.cbusOn = false →
    exec (.stranger mac) s = .next s ∧ exec (.ambient mac ok x) s = .next s ∧ exec (.cbusMsg mac ok x) s = .next s ∧
      exec (.cbusStatus mac ok e x id) s = .next s ∧ exec (.tableAck mac ok e r id) s = .next s ∧
      exec (.switchAck mac ok e r id) s = .next s ∧ exec .cbusTransmit s = .next s)

/-- From R367 to R369 and R371. A TABLE_ACK of the staged table that was stored acknowledges it, and one that refuses it
withdraws the table, counts the failure and raises source 291; RETRY_MS without an answer sends the table again, and after
TABLE_TRIES withdraws it. A SWITCH_ACK answers the SWITCH it names, once; RETRY_MS with boards unanswered sends the SWITCH
again. The device's transmit opportunity sends a SWITCH that is due before any table, and else the first of the tables that
wait, to its board. -/
def Obligations.TablesAndSwitchesAreDelivered : Prop :=
  (∀ (s : State) (mac e id n : Nat) (g : Staged), s.ready = true → s.cbusOn = true → s.listed mac = some n →
    (s.covered n).contains e = true → (s.lightOf e).staged = some g → g.table.id = id → g.failed = false → g.acked = false →
    exec (.tableAck mac true e 0 id) s =
        .next (s.setLight e fun l => { l with staged := some { g with acked := true, due := false } }).trySwitch ∧
      exec (.tableAck mac true e 1 id) s = .next (s.withdraw e)) ∧
  (∀ (s : State) (e : Nat), s.withdraw e =
    ((((s.setLight e fun l => { l with staged := l.staged.map fun g => { g with failed := true, due := false } }).bump
      CBUS_DELIVERY.TABLE_FAILS 1).raise 291)).trySwitch) ∧
  (∀ (s : State) (e : Nat) (g : Staged), s.ready = true → s.cbusOn = true → (s.boardOf e).isSome = true →
    (s.lightOf e).staged = some g → g.acked = false → g.failed = false → g.due = false → 0 < g.sends →
    g.lastSend + s.retryNs ≤ s.now →
    exec (.tableRetry e) s = .next (if g.sends < max 1 (s.rd CBUS_TIMING.TABLE_TRIES) then
      s.setLight e fun l => { l with staged := some { g with due := true } } else s.withdraw e)) ∧
  (∀ (s : State) (mac e r n : Nat) (w : Switch), s.ready = true → s.cbusOn = true → s.listed mac = some n →
    (s.covered n).contains e = true → s.light.switch = some w → r ≤ 2 →
    exec (.switchAck mac true e r w.id) s = .next { s with light := { s.light with switch := some { w with
      entries := w.entries.map fun x => if x.engine = e ∧ x.answer = none then { x with answer := some r } else x } } }) ∧
  (∀ (s : State) (w : Switch), s.ready = true → s.cbusOn = true → s.light.switch = some w → w.due = false →
    (∃ x ∈ w.entries, x.answer = none) → w.lastSend + s.retryNs ≤ s.now →
    let left := (w.tick + 2 ^ 32 - s.tickNo % 2 ^ 32) % 2 ^ 32
    1 < left → left < 2 ^ 31 →
    exec .switchRetry s = .next { s with light := { s.light with switch := some { w with due := true } } }) ∧
  (∀ (s : State) (w : Switch), s.ready = true → s.cbusOn = true → s.light.switch = some w → w.due = true →
    exec .cbusTransmit s = .next { s.sendFrame (2 ^ 48 - 1) 3 (switchBody w) with light :=
      { (s.sendFrame (2 ^ 48 - 1) 3 (switchBody w)).light with switch := some { w with due := false, lastSend := s.now } } }) ∧
  (∀ (s : State) (a : Bool) (o e n : Nat) (g : Staged), s.ready = true → s.cbusOn = true →
    s.light.switch.filter (·.due) = none → bestTable s.tablesDue = some (a, o, e) → (s.lightOf e).staged = some g →
    s.boardOf e = some n →
    exec .cbusTransmit s = .next ((s.sendFrame (s.allowMac n) 1 (tableBody e g.table)).setLight e fun l =>
      { l with staged := some { g with due := false, sends := g.sends + 1, lastSend := s.now } }))

/-! ### The backbone -/

/-- From R374, R375 and R391 to R394. LINK follows block lock and FEC lock, and its change raises source 292; its loss loses the
frames that came through the port, asCapable and the 802.1AS lock. A configuration write is stored; with the function off the
802.1AS state is DISABLED, and with it on it leaves DISABLED for LISTENING. A Sync and an Announce count where the function runs
and the link is up; missing messages lead from UNLOCKED and LOCKED to LOST and from no other state; a valid measured delay of at
most 800 ns is shown and makes the port asCapable; a Pdelay_Req is answered, and the device sends its own in turn. -/
def Obligations.LinkAndTimeStatesFollow : Prop :=
  (∀ (s : State) (p : Nat) (block fec : Bool), s.Inv → s.ready = true → p < 2 → s.bbnOn p = true → s.pwr.bbnClk = true →
    let z := s.wrs [(BBN_PORT_STATUS.BLOCK_LOCK p, b2n block),
      (BBN_PORT_STATUS.FEC_LOCK p, b2n (fec && !(s.rd (BBN_PORT_CFG.FEC p) == 0)))]
    exec (.bbnLinkChange p block fec) s = .next (z.setBbnLink p (block && (s.rd (BBN_PORT_CFG.FEC p) == 0 || fec)))) ∧
  (∀ (s : State) (p : Nat), s.flag (BBN_PORT_STATUS.LINK p) = true → s.setBbnLink p true = s) ∧
  (∀ (s : State) (p : Nat), s.flag (BBN_PORT_STATUS.LINK p) = false →
    s.setBbnLink p false = s ∧ s.setBbnLink p true = (s.wr (BBN_PORT_STATUS.LINK p) 1).raise 292) ∧
  (∀ (s : State) (p : Nat), s.flag (BBN_PORT_STATUS.LINK p) = true → s.setBbnLink p false =
    (((((s.wr (BBN_PORT_STATUS.LINK p) 0).raise 292).loseFrames p).wr (BBN_PORT_STATUS.AS_CAPABLE p) 0).loseGptp p)) ∧
  (∀ (s : State) (p : Nat) (w : Word), s.Open → p < 2 →
    let x := w.toNat
    let z := s.wrs [(BBN_PORT_CFG.ENABLE p, bitsOf x 0 1), (BBN_PORT_CFG.FEC p, bitsOf x 1 2),
      (BBN_PORT_CFG.GPTP_ENABLE p, bitsOf x 3 1), (BBN_PORT_CFG.RX_INVERT p, bitsOf x 4 1),
      (BBN_PORT_CFG.TX_INVERT p, bitsOf x 5 1), (BBN_PORT_CFG.MAX_FRAME p, bitsOf x 16 14)]
    let drops := s.rd (BBN_PORT_CFG.FEC p) != bitsOf x 1 2 || s.rd (BBN_PORT_CFG.RX_INVERT p) != bitsOf x 4 1 ||
      s.rd (BBN_PORT_CFG.TX_INVERT p) != bitsOf x 5 1
    let y := if s.flag (BBN_PORT_CFG.ENABLE p) && (!bitOf x 0 || drops) then z.bbnLock p false false else z
    exec (.bbnPortConfig p w) s = .next (if y.gptpOn p = true then (if y.gptpState p = 0 then y.setGptpState p 1 else y)
      else (y.setGptp p fun g => { g with heard := false, good := 0 }).setGptpState p 0)) ∧
  (∀ (s : State) (p : Nat) (m : GptpMsg), s.ready = true → p < 2 → s.gptpOn p = true →
    s.flag (BBN_PORT_STATUS.LINK p) = true → exec (.gptpMessage p m) s = .next (match m with
      | .announce clock => s.announceMsg p clock
      | .sync offset residual rate logSync => if (s.gptp p).heard = true then s.syncMsg p offset residual rate logSync else s
      | .delay ns valid => s.delayMsg p ns valid
      | .pdelayReq seq => (s.sendPeer p 1 seq).sendPeer p 2 seq)) ∧
  (∀ (s : State) (p : Nat) (m : GptpMsg), s.ready = true → s.gptpOn p = false ∨ s.flag (BBN_PORT_STATUS.LINK p) = false →
    exec (.gptpMessage p m) s = .next s ∧ exec (.pdelayReq p) s = .next s) ∧
  (∀ (s : State) (p : Nat), s.ready = true → p < 2 → s.gptpState p = 2 ∨ s.gptpState p = 3 →
    exec (.gptpLost p) s = .next ((s.setGptp p fun g => { g with heard := false }).setGptpState p 4)) ∧
  (∀ (s : State) (p : Nat), s.gptpState p ≠ 2 → s.gptpState p ≠ 3 → exec (.gptpLost p) s = .next s) ∧
  (∀ (s : State) (p : Nat), s.ready = true → p < 2 → s.gptpOn p = true → s.flag (BBN_PORT_STATUS.LINK p) = true →
    exec (.pdelayReq p) s = .next ((s.sendPeer p 0 (s.gptp p).pdelaySeq).setGptp p fun g =>
      { g with pdelaySeq := (g.pdelaySeq + 1) % 65536 })) ∧
  (∀ (s : State) (p ns : Nat), s.Inv → p < 2 → ns ≤ 800 →
    (s.delayMsg p ns true).rd (BBN_GPTP_DELAY.LINK_DELAY_NS p) = ns ∧
      (s.delayMsg p ns true).rd (BBN_PORT_STATUS.AS_CAPABLE p) = 1)

/-- From R376, R378, R381 to R385 and R389. A received frame that is damaged or out of its sizes is counted as an error, one
that matches no entry as a stranger, and one that matches goes to the policer and buffer of its entry. A write of BBN_SC_CFG
that enables a context checks it, and a code other than 0 leaves it disabled with the code shown; a passing one makes it active
with no frame held; one that disables loses the open frame with cause 6. The acknowledged last write of an open frame completes
it, counts it and shows its side; FRAME_TIMEOUT_MS after it began an open frame is lost with cause 3. The loss of a frame counts
it, shows its cause and has a TILE context await KEY. -/
def Obligations.StreamsAreIngested : Prop :=
  (∀ (s : State) (x : Frame), s.ready = true → x.port < 2 → s.flag (BBN_PORT_STATUS.LINK x.port) = true →
    let y := (s.bump (BBN_PORT_FEC.CORRECTED x.port) x.fecCorrected).bump (BBN_PORT_FEC.UNCORRECTED x.port) x.fecUncorrected
    let z : State := { y with bbn := { y.bbn with buffered := leave x.left y.bbn.buffered } }
    let damaged := x.bad = true ∨ 0 < x.fecUncorrected ∨ x.len < 64 ∨ clampN (z.rd (BBN_PORT_CFG.MAX_FRAME x.port)) 1518 9600 < x.len
    (damaged → exec (.bbnFrameRx x) s = .next (z.bump (BBN_PORT_DROPS.ERRORS x.port) 1)) ∧
      (¬ damaged → x.gptp = true → exec (.bbnFrameRx x) s = .next z) ∧
      (¬ damaged → x.gptp = false → (z.accepts x = false ∨ z.flowFor x = none) →
        exec (.bbnFrameRx x) s = .next (z.bump (BBN_PORT_DROPS.STRANGER x.port) 1)) ∧
      (∀ n f, ¬ damaged → x.gptp = false → z.accepts x = true → z.flowFor x = some (n, f) →
        exec (.bbnFrameRx x) s = .next (z.flowFrame n f x))) ∧
  (∀ (s : State) (c : Nat) (w : Word), s.Inv → s.Open → c < 256 → bitOf w.toNat 0 = true → s.flag (BBN_SC_STATUS.ACTIVE c) = false →
    let surf := s.rd (BBN_SC_SURF.SURFACE_A c) + 2 ^ 16 * s.rd (BBN_SC_SURF.SURFACE_B c)
    (s.streamCheck w.toNat surf ≠ 0 → Answers (exec (.streamEnable c w) s) fun t =>
        t.rd (BBN_SC_CFG.ENABLE c) = 0 ∧ t.rd (BBN_SC_STATUS.ACTIVE c) = 0 ∧
          t.rd (BBN_SC_STATUS.CFG_CODE c) = s.streamCheck w.toNat surf) ∧
      (s.streamCheck w.toNat surf = 0 → Answers (exec (.streamEnable c w) s) fun t =>
        t.rd (BBN_SC_CFG.ENABLE c) = 1 ∧ t.rd (BBN_SC_STATUS.ACTIVE c) = 1 ∧ t.rd (BBN_SC_STATUS.CFG_CODE c) = 0 ∧
          t.rd (BBN_SC_STATUS.IN_FRAME c) = 0 ∧ t.rd (BBN_SC_STATUS.HAVE_FRAME c) = 0 ∧
          t.rd (BBN_SC_STATUS.AWAIT_KEY c) = b2n (bitsOf w.toNat 1 2 == 1))) ∧
  (∀ (s : State) (c : Nat) (w : Word), s.Open → c < 256 → bitOf w.toNat 0 = false →
    let x := w.toNat
    let z := s.wrs [(BBN_SC_CFG.TYPE c, bitsOf x 1 2), (BBN_SC_CFG.ALT c, bitsOf x 3 1), (BBN_SC_CFG.EOF_IRQ c, bitsOf x 4 1),
      (BBN_SC_CFG.PT_CHECK c, bitsOf x 5 1), (BBN_SC_CFG.PT c, bitsOf x 6 7), (BBN_SC_CFG.SAMPLING c, bitsOf x 16 3),
      (BBN_SC_CFG.DEPTH10 c, bitsOf x 19 1)]
    exec (.streamEnable c w) s = .next ((z.loseFrame c 6).wrs [(BBN_SC_CFG.ENABLE c, 0), (BBN_SC_STATUS.ACTIVE c, 0),
      (BBN_SC_STATUS.AWAIT_KEY c, 0)])) ∧
  (∀ (s : State) (c ns : Nat), s.Inv → s.ready = true → c < 256 → s.inFrame c = true → (s.stream c).lastSeen = true →
    Answers (exec (.streamFrameComplete c ns) s) fun t => t.rd (BBN_SC_STATUS.IN_FRAME c) = 0 ∧
      t.rd (BBN_SC_STATUS.LAST c) = (s.stream c).side % 2 ∧ t.rd (BBN_SC_STATUS.HAVE_FRAME c) = 1 ∧
      t.rd (BBN_SC_FRAMES.COMPLETE c) = min (s.rd (BBN_SC_FRAMES.COMPLETE c) + 1) 65535 ∧
      ((s.stream c).key = true → bitOf (s.stream c).cfg 3 = false → t.rd (BBN_SC_STATUS.AWAIT_KEY c) = 0) ∧
      ((s.stream c).cls = 0 → t.rd BBN_CLASS_A.WORST_NS = max (s.rd BBN_CLASS_A.WORST_NS) (min ns 65535))) ∧
  (∀ (s : State) (c : Nat), s.ready = true → c < 256 → s.inFrame c = true →
    exec (.streamFrameTimeout c) s =
      .next ((s.reach ((s.stream c).began + 1000000 * (s.stream c).timeout)).loseFrame c 3)) ∧
  (∀ (s : State) (c k : Nat), s.Inv → c < 256 → k < 16 →
    (s.countLost c k).rd (BBN_SC_STATUS.LOST_CAUSE c) = k ∧
      (s.countLost c k).rd (BBN_SC_FRAMES.LOST c) = min (s.rd (BBN_SC_FRAMES.LOST c) + 1) 65535 ∧
      (bitsOf (s.stream c).cfg 1 2 = 1 → (s.countLost c k).rd (BBN_SC_STATUS.AWAIT_KEY c) = 1)) ∧
  (∀ (s : State) (c k : Nat), s.inFrame c = false → s.loseFrame c k = s)

/-! ### The memory stack -/

/-- From R397 to R399, R402 to R407, R409 to R412 and R414. An invalid mask set and a stack in use are refused with their codes
and source 279, and a valid set comes into force whole. A sub-request of class C2 or C3 that is old, owed by the C3 floor or a
Class A write joins the aged tier; a new window clears what C3 moved. A reading is shown, one of 86 °C or more and a failed
readout make the stack hot, one of 82 °C or less normal, and one between leaves it. Tracking moves a lane by a step and holds it
at the limit. A failing burst counts, is an error of the stack, is logged by its row, and is exhausted one failure after the
last replay. Training ends a pseudo-channel's fence where every lane has its window, and leaves it FENCED else. An UNFENCE of a
unit that is not fenced completes at once, one of a unit that self-test fenced completes with FENCED, and any other waits. -/
def Obligations.TheStackIsKept : Prop :=
  (∀ s : State, s.Open → masksOk s.masksWritten = false →
    exec .mapApply s = .next ((s.wr STK_STATUS.MAP_CODE 0x71).raise 279)) ∧
  (∀ s : State, s.Open → masksOk s.masksWritten = true → s.stackBusy = true →
    exec .mapApply s = .next ((s.wr STK_STATUS.MAP_CODE 0x72).raise 279)) ∧
  (∀ s : State, s.Inv → s.Open → masksOk s.masksWritten = true → s.stackBusy = false →
    Answers (exec .mapApply s) fun t => t.stk.masks = s.masksWritten ∧ t.rd STK_STATUS.MAP_CODE = 0) ∧
  (∀ (s : State) (pc req at_ issued : Nat) (a : Bool), s.ready = true → pc < 32 → req < 90 → 2 ≤ requesterClass req → at_ ≤ s.now →
    (at_ + s.ageLimit (requesterClass req) ≤ s.now ∨ (requesterClass req = 3 ∧ s.c3Moved pc < s.c3Floor) ∨ a = true ∧ req = 87) →
    exec (.agedTierJoin pc req at_ issued a) s = .next { s with stk := { s.stk with
      aged := joinAged (pc, req, at_) (dropAged pc issued s.stk.aged) } }) ∧
  (∀ (s : State) (pc issued : Nat), s.ready = true → pc < 32 →
    exec (.c3Window pc issued) s = .next { s with stk := { s.stk with
      c3 := Tbl.put (fun _ => 0) pc 0 s.stk.c3, aged := dropAged pc issued s.stk.aged } }) ∧
  (∀ (s : State) (pc n : Nat) (c0 : Bool), s.ready = true → pc < 32 →
    exec (.refreshBoundary pc n c0) s = .next (s.refreshBoundary pc n c0)) ∧
  (∀ (s : State) (t : Int), s.ready = true →
    let z := s.wrs [(STK_TEMP.READING, toField t 8), (STK_TEMP.VALID, 1)]
    (86 ≤ t → exec (.stackTempRead true t) s = .next (z.setHot true)) ∧
      (t ≤ 82 → exec (.stackTempRead true t) s = .next (z.setHot false)) ∧
      (82 < t → t < 86 → exec (.stackTempRead true t) s = .next z) ∧
      exec (.stackTempRead false t) s = .next (((s.bump STK_TEMP.FAILS 1).raise 277).setHot true)) ∧
  (∀ (s : State) (lane : Nat) (up : Bool), s.Inv → s.ready = true → lane < 128 → s.flag STK_CFG.TRACK = true →
    let d : Int := if up then 1 else -1
    let drift := signedOf (s.rd (STK_LANE.DRIFT lane)) 3 + d
    (-2 ≤ drift → drift ≤ 2 → Answers (exec (.laneTrack lane up) s) fun t =>
        t.rd (STK_LANE.RD_DELAY lane) = (clampI ((s.rd (STK_LANE.RD_DELAY lane) : Int) + d) 0 127).toNat ∧
          t.rd (STK_LANE.WR_DELAY lane) = (clampI ((s.rd (STK_LANE.WR_DELAY lane) : Int) + d) 0 127).toNat ∧
          signedOf (t.rd (STK_LANE.DRIFT lane)) 3 = drift) ∧
      (drift < -2 ∨ 2 < drift → s.flag (STK_LANE.AT_LIMIT lane) = false →
        exec (.laneTrack lane up) s = .next ((s.wr (STK_LANE.AT_LIMIT lane) 1).raise 276)) ∧
      (drift < -2 ∨ 2 < drift → s.flag (STK_LANE.AT_LIMIT lane) = true → exec (.laneTrack lane up) s = .next s)) ∧
  (∀ (s : State) (v : StackVictim) (a n : Nat), s.ready = true → a < stackBytes → 1 ≤ n → n ≤ s.replayMax + 1 →
    s.pcFenced (s.pcOf a) = false →
    let l := locate s.stk.masks a
    let z := ((s.bump (STK_PC_ERR.REPLAYS (pcOfLoc l)) 1).error eStack (pcOfLoc l)).logRow (pcOfLoc l) (bankOfLoc l) (rowOfLoc l) 1
    exec (.stackParityFail v a n) s =
      .next (if n = z.replayMax + 1 then ((z.bump STK_REPLAY.EXHAUSTED 1).raise 272).exhausted v a else z)) ∧
  (∀ (s : State) (pc : Nat) (ws : List LaneSweep), s.ready = true → s.stk.retraining.contains pc = true →
    let x : State := { s with stk := { s.stk with retraining := s.stk.retraining.filter (· ≠ pc) } }
    let z := x.trainPc pc ws
    exec (.pcRetrainEnd pc ws) s =
      .next (if z.pcTrained pc then (z.setPcFenced pc false).returned 0 pc else z.endUnfences 0 pc cFenced 1)) ∧
  (∀ (s : State) (r : Nat) (d : Desc), s.Due r 0x04 d → s.Clean d [(8, 0, 3), (9, 0, 3), (10, 0, 16)] → dIndex d = 0 →
    dF d 8 0 3 < 4 → dF d 9 0 3 = 0 → unfenceRange (dF d 8 0 3) 0 (dF d 10 0 16) = true →
    (s.unitFenced (dF d 8 0 3) (dF d 10 0 16) = false → exec (.unfence r) s = .next (s.completed r d cDone 0)) ∧
      (s.unitFenced (dF d 8 0 3) (dF d 10 0 16) = true → s.selfFenced (dF d 8 0 3) (dF d 10 0 16) = true →
        exec (.unfence r) s = .next (s.completed r d cFenced 2)) ∧
      (s.unitFenced (dF d 8 0 3) (dF d 10 0 16) = true → s.selfFenced (dF d 8 0 3) (dF d 10 0 16) = false →
        exec (.unfence r) s =
          .next ((s.awaitReturn r (dF d 8 0 3) (dF d 10 0 16)).setReel r fun c => { c with busy := some .unfence })))

/-! ### Power and temperature -/

/-- From R464, R465, R467, R469 and R473. The rails are read each millisecond and their sum is shown, and with a case reading
the model is updated. A case reading that is good is kept, and a bad one stands at 105 °C and counts among the failures in a
row. A decision lowers the ceiling C by a step, not below 40 W, when a hotspot is at T_HIGH or the mean power is above C; it
raises C by a step, not above CEIL_HOST, when the hotspots are HYST below and the mean power fits below C by a step; either
counts. A ceiling written below C lowers it at once. -/
def Obligations.TheCeilingFollowsTheHeat : Prop :=
  (∀ (s : State) (l : List RailMs), s.powered = true →
    let y := (List.range 10).foldl (fun (s : State) r => s.railRead r (l.getD r none)) s
    let z := y.wr THM_POWER.TOTAL_MW (min 131071 y.totalMw)
    (z.thm.caseAt = none → exec (.thermalModelUpdate l) s =
        .next { z with thm := { z.thm with powerSum := z.thm.powerSum + z.totalMw, powerN := z.thm.powerN + 1 } }) ∧
      exec (.thermalModelUpdate l) s = .next (s.thermalUpdate l)) ∧
  (∀ (s : State) (ok : Bool) (v : Int), s.powered = true → (s.ready = true ∨ 3 ≤ s.pwr.step) →
    Answers (exec (.caseSensorRead ok v) s) fun t => t.thm.caseAt = some s.now ∧
      (ok = true ∧ -14080 ≤ v ∧ v ≤ 38400 → t.thm.case = v ∧ t.thm.caseOk = true ∧ t.thm.caseFails = 0) ∧
      (¬ (ok = true ∧ -14080 ≤ v ∧ v ≤ 38400) → t.thm.case = 26880 ∧ t.thm.caseOk = false ∧
        t.thm.caseFails = min 3 (s.thm.caseFails + 1))) ∧
  (∀ s : State, s.Inv → s.ready = true → 40 < s.ceilNow →
    (s.onHot s.tHigh ≤ s.hotMax ∨ 1000 * s.ceilNow * s.thm.powerN < s.thm.powerSum) →
    Answers (exec .ceilingDecision s) fun t =>
      t.ceilNow = max 40 (s.ceilNow - s.ceilStep) ∧ t.rd THM_COUNTS.LOWERED = min (s.rd THM_COUNTS.LOWERED + 1) 65535 ∧
        t.thm.loweredAt = some s.now ∧ t.thm.powerSum = 0 ∧ t.thm.powerN = 0) ∧
  (∀ s : State, s.Inv → s.ready = true → s.hotMax < s.onHot s.tHigh → s.thm.powerSum ≤ 1000 * s.ceilNow * s.thm.powerN →
    s.hotMax ≤ s.onHot (s.tHigh - s.tHyst : Nat) → s.thm.powerSum ≤ 1000 * (s.ceilNow - s.ceilStep) * s.thm.powerN →
    s.ceilNow < s.ceilHost →
    Answers (exec .ceilingDecision s) fun t =>
      t.ceilNow = min s.ceilHost (s.ceilNow + s.ceilStep) ∧ t.rd THM_COUNTS.RAISED = min (s.rd THM_COUNTS.RAISED + 1) 65535 ∧
        t.thm.powerSum = 0 ∧ t.thm.powerN = 0) ∧
  (∀ (s : State) (w : Word), s.Inv → s.Open →
    let z := s.wrs [(THM_CFG.CEILING, bitsOf w.toNat 0 6), (THM_CFG.STEP_W, bitsOf w.toNat 6 3),
      (THM_CFG.INTERVAL, bitsOf w.toNat 16 5), (THM_CFG.EXPERT, bitsOf w.toNat 31 1)]
    (z.ceilHost < z.ceilNow → Answers (exec (.ceilingWrite w) s) fun t => t.ceilNow = z.ceilHost ∧
        t.rd THM_COUNTS.LOWERED = min (s.rd THM_COUNTS.LOWERED + 1) 65535) ∧
      (z.ceilNow ≤ z.ceilHost → Answers (exec (.ceilingWrite w) s) fun t => t.ceilNow = s.ceilNow ∧
        t.rd THM_COUNTS.LOWERED = s.rd THM_COUNTS.LOWERED))

/-! ### Life cycle, self-test and power -/

/-- From R474 and R488 to R494. A life-cycle write begins a long operation: BUSY and its kind show. The one bit the present
state allows goes on to program its fuses, RETURN only with a valid token; any other request, one outside the write window, and
a false token are refused, with RESULT REFUSED_STATE, REFUSED_TEMP or TOKEN_BAD at its end. Three good cells end it with DONE,
and the new state is pending; a refused one programs nothing. A repair is refused outside TEST, outside the write window, or
with eight groups used. A self-test is refused outside TEST and RETURN, and with no group or groups 0 and 1; else it begins with
its lowest group, and its last group's end is the operation's. -/
def Obligations.LongOperationsRun : Prop :=
  (∀ (s : State) (w : Nat) (sig : Bool), s.Open →
    (bitOf w 0 = true → exec (.toTest w) s = .next (s.lcWrite w false)) ∧
      (bitOf w 1 = true → exec (.toField w) s = .next (s.lcWrite w false)) ∧
      (bitOf w 2 = true → exec (.toReturn w sig) s = .next (s.lcWrite w sig))) ∧
  (∀ (s : State) (w : Nat) (sig : Bool), s.Inv → 0 < w → w < 8 →
    let t := s.lcWrite w sig
    t.rd DEV_STATUS.BUSY = 1 ∧ t.rd DEV_STATUS.LONG_OP = 1 ∧
      t.rd SELF_OP_STATUS.OP = (if w < 2 then 1 else if w < 4 then 2 else 3) ∧
      t.pwr.refusal = (if s.lcAllowed ≠ some w then some rRefusedState else if s.flag THM_STATUS.WRITE_OK = false then some rRefusedTemp
        else if w = 4 ∧ s.tokenOk sig = false then some rTokenBad else none) ∧ t.pwr.fuses = s.pwr.fuses) ∧
  (∀ (s : State) (b n r : Nat) (ok : Bool), s.Inv → s.ready = true → s.pwr.long = some (.lifeCycle b) → s.pwr.refusal = some r →
    r ≠ rDone → r < 8 → Answers (exec (.longOperationEnd (.fuses n ok)) s) fun t =>
      t.rd DEV_STATUS.BUSY = 0 ∧ t.rd SELF_OP_STATUS.RESULT = r ∧ t.pwr.fuses = s.pwr.fuses ∧ t.pwr.long = none) ∧
  (∀ (s : State) (b n : Nat), s.Inv → s.ready = true → s.pwr.long = some (.lifeCycle b) → s.pwr.refusal = none → 3 ≤ n →
    Answers (exec (.longOperationEnd (.fuses n true)) s) fun t =>
      t.rd DEV_STATUS.BUSY = 0 ∧ t.rd SELF_OP_STATUS.RESULT = rDone ∧ t.rd SELF_LC.PENDING = 1 ∧ t.pwr.long = none ∧
        t.pwr.fuses = { s.pwr.fuses with cells := setAt s.pwr.fuses.cells b fun c => c ||| 7 }) ∧
  (∀ s : State, s.Inv → s.Open → Answers (exec .programRepair s) fun t =>
    t.rd DEV_STATUS.BUSY = 1 ∧ t.rd SELF_OP_STATUS.OP = 4 ∧ t.pwr.long = some .repair ∧
      t.pwr.refusal = (if s.rd DEV_STATUS.LC ≠ 1 then some rRefusedState else if s.flag THM_STATUS.WRITE_OK = false then some rRefusedTemp
        else if 8 ≤ s.pwr.fuses.repairs.length then some rFuseFull else none)) ∧
  (∀ (s : State) (w : Nat), s.Inv → s.Open → bitOf w 16 = true →
    (s.rd DEV_STATUS.LC ≠ 1 ∧ s.rd DEV_STATUS.LC ≠ 3 ∨ w % 4096 = 0 ∨ w % 4 ≠ 0) →
    Answers (exec (.bistStart w) s) fun t => t.rd SELF_OP_STATUS.OP = 5 ∧ t.rd SELF_OP_STATUS.RESULT = rRefusedState ∧
      t.rd DEV_STATUS.BUSY = 0 ∧ t.pwr.long = s.pwr.long) ∧
  (∀ (s : State) (w : Nat), s.Inv → s.Open → bitOf w 16 = true → (s.rd DEV_STATUS.LC = 1 ∨ s.rd DEV_STATUS.LC = 3) →
    w % 4096 ≠ 0 → w % 4 = 0 →
    let l := (List.range 12).filter fun g => bitOf (w % 4096) g
    exec (.bistStart w) s =
      .next (((s.wr SELF_BIST_CTRL.GROUPS (w % 4096)).beginLong (.bist l) 3 5 none).beginGroup (l.headD 0))) ∧
  (∀ (s : State) (g h : Nat) (l : List Nat) (x : GroupRun), s.ready = true →
    (s.pwr.long = some (.bist [g]) → exec (.longOperationEnd (.group x)) s = .next ((s.endGroup g x).endLong rDone)) ∧
      (s.pwr.long = some (.bist (g :: h :: l)) → exec (.longOperationEnd (.group x)) s =
        .next (({ s.endGroup g x with pwr := { (s.endGroup g x).pwr with long := some (.bist (h :: l)) } }).beginGroup h))) ∧
  (∀ (s : State) (x : LongEnd), s.pwr.long = none → exec (.longOperationEnd x) s = .next s)

/-- From R8, R24, R303, R476 to R478, R496, R497, R521, R522 and R528. PORST_L low holds every block in reset; the fuses, the
boot flash and the pins outlast it. At its rise device time is 0, the straps are sampled, and start-up begins if PWR_OK is high.
The steps of start-up follow one another, READY comes with the last, and no step ends while PWR_OK is low. In service PWR_OK
falling withdraws the permit, shows PWR_LOW and raises source 3, and its rise clears PWR_LOW. The loss of SYS_CLK in service
takes every sub-port OFF and leaves the part dead until PORST_L; that of a Skein clock drops the lock of its sub-ports, which
train when it returns; that of the backbone's takes both links down; that of PCIE_CLK with the link up resets the host
interface. -/
def Obligations.PowerAndClocksAreFollowed : Prop :=
  (∀ s : State, Answers (exec .porstLFall s) fun t => t.pwr.porst = false ∧ t.regs = State.reset.regs ∧ t.now = 0 ∧ t.ready = false ∧
    t.stk = State.reset.stk ∧ t.light.cal.flash = s.light.cal.flash ∧ t.pwr.fuses.cells = s.pwr.fuses.cells ∧
    t.pwr.fuses.repairs = s.pwr.fuses.repairs ∧ t.pwr.pwrOk = s.pwr.pwrOk ∧ t.pwr.sysClk = s.pwr.sysClk) ∧
  (∀ (s : State) (gpio : Nat), s.pwr.porst = false → Answers (exec (.porstLRise gpio) s) fun t =>
    t.pwr.porst = true ∧ t.now = 0 ∧ t.ready = false ∧ t.rd DEV_STRAPS.STRAPS = gpio % 16 ∧
      t.pwr.step = (if s.pwr.pwrOk = true then 1 else 0) ∧ t.light.cal.flash = s.light.cal.flash ∧
      t.pwr.fuses.cells = s.pwr.fuses.cells) ∧
  (∀ (s : State) (x : StepEnd), s.pwr.porst = true → s.pwr.pwrOk = true → s.pwr.sysClk = true → s.ready = false → s.pwr.dead = false →
    exec (.startUpStepEnd x) s = .next (s.stepEnd x)) ∧
  (∀ (s : State) (x : StepEnd), s.pwr.porst = false ∨ s.pwr.pwrOk = false ∨ s.pwr.sysClk = false →
    exec (.startUpStepEnd x) s = .next s) ∧
  (∀ (s : State) (f : FuseRead) (ws : List LaneSweep),
    (s.pwr.step = 1 → (s.stepEnd .plls).pwr.step = 2) ∧ (s.pwr.step = 2 → (s.stepEnd (.fuses f)).pwr.step = 3) ∧
      (s.pwr.step = 4 → (s.stepEnd .rows).pwr.step = 5) ∧
      (s.pwr.step = 5 → s.stepEnd (.training ws) = (s.trainAll ws).reachReady)) ∧
  (∀ s : State, s.ready = true → s.pwr.pwrOk = true → exec .pwrOkFall s = .next s.pwrFall) ∧
  (∀ s : State, s.ready = false → s.pwr.pwrOk = true →
    exec .pwrOkFall s = .next { s with pwr := { s.pwr with pwrOk := false } }) ∧
  (∀ s : State, s.ready = true → s.pwr.pwrOk = true → s.pwr.long = none →
    let z : State := { s with pwr := { s.pwr with pwrOk := false } }
    (z.withdrawPermit.pwr.long = none → exec .pwrOkFall s = .next ((z.withdrawPermit.wr DEV_STATUS.PWR_LOW 1).raise 3))) ∧
  (∀ s : State, s.ready = true → s.pwr.pwrOk = false → exec .pwrOkRise s =
    .next (({ s with pwr := { s.pwr with pwrOk := true } } : State).wr DEV_STATUS.PWR_LOW 0 |>.raise 3)) ∧
  (∀ s : State, s.ready = false → s.pwr.pwrOk = false → s.pwr.porst = true → s.pwr.step = 0 → s.pwr.dead = false →
    exec .pwrOkRise s = .next { s with pwr := { s.pwr with pwrOk := true, step := 1 } }) ∧
  (∀ s : State, s.ready = true → Answers (exec (.clockLoss .sys) s) fun t => t.pwr.dead = true ∧ t.pwr.sysClk = false) ∧
  (∀ (s : State) (k : Nat), s.ready = true → k < 4 →
    let z : State := { s with pwr := { s.pwr with sknClk := setBit s.pwr.sknClk k 0 } }
    exec (.clockLoss (.skn k)) s = .next ((z.clockedLinks k).foldl State.loseLock z)) ∧
  (∀ s : State, s.ready = true →
    let z : State := { s with pwr := { s.pwr with bbnClk := false } }
    exec (.clockLoss .bbn) s = .next ((z.bbnLock 0 false false).bbnLock 1 false false)) ∧
  (∀ s : State, s.pwr.porst = true → s.flag HIF_STATUS.LINK_UP = true →
    exec (.clockLoss .pcie) s = .next (({ s with pwr := { s.pwr with pcieClk := false } } : State).hostReset false true)) ∧
  (∀ (s : State) (k : Nat), s.ready = true → k < 4 → bitOf s.pwr.sknClk k = false →
    let z : State := { s with pwr := { s.pwr with sknClk := setBit s.pwr.sknClk k 1 } }
    exec (.clockReturn (.skn k)) s = .next ((z.clockedLinks k).foldl (fun s e => s.train e none) z)) ∧
  (∀ s : State, exec (.clockReturn .sys) s = .next { s with pwr := { s.pwr with sysClk := true } } ∧
    exec (.clockReturn .bbn) s = .next { s with pwr := { s.pwr with bbnClk := true } } ∧
    exec (.clockReturn .pcie) s = .next { s with pwr := { s.pwr with pcieClk := true } })

/-! ### The stranger log -/

/-- R365. A frame of a source in no valid entry whose MAC address the log holds increments its entry's count and changes no
other entry. One the log does not hold is recorded in a free entry with its MAC address and the tick counter [31:0], and raises
source 289. With no entry free it is counted in LOG_FULL, and nothing is raised. LOG_CLEAR empties the log, which has 8 entries.
-/
def Obligations.StrangersAreLogged : Prop :=
  let used (s : State) (i : Nat) : Prop := s.rd (CBUS_LOG_MAC_HI.COUNT i) ≠ 0
  let holds (s : State) (mac i : Nat) : Prop := used s i ∧ s.rd (CBUS_LOG_MAC_LO.MAC i) + 2 ^ 32 * s.rd (CBUS_LOG_MAC_HI.MAC i) = mac
  let same (s t : State) (i : Nat) : Prop := ∀ a ∈ [(CBUS_LOG_MAC_LO.MAC i).off, (CBUS_LOG_MAC_HI.MAC i).off,
    (CBUS_LOG_TICK.TICK i).off], t.word a = s.word a
  (∀ (s : State) (mac : Nat), s.Inv → s.ready = true → s.cbusOn = true → s.listed mac = none → mac < 2 ^ 48 →
    (∃ i, i < 8 ∧ holds s mac i) → Answers (exec (.stranger mac) s) fun t => ∃ i, i < 8 ∧ holds s mac i ∧
      t.rd (CBUS_LOG_MAC_HI.COUNT i) = min (s.rd (CBUS_LOG_MAC_HI.COUNT i) + 1) 65535 ∧
      t.rd CBUS_DROPS.LOG_FULL = s.rd CBUS_DROPS.LOG_FULL ∧
      s.Only [CBUS_DROPS.STRANGER.off, (CBUS_LOG_MAC_HI.COUNT i).off] t ∧ t = { s with regs := t.regs }) ∧
  (∀ (s : State) (mac : Nat), s.Inv → s.ready = true → s.cbusOn = true → s.listed mac = none → mac < 2 ^ 48 →
    (∀ i, i < 8 → ¬ holds s mac i) → (∃ i, i < 8 ∧ ¬ used s i) → Answers (exec (.stranger mac) s) fun t => ∃ i, i < 8 ∧ ¬ used s i ∧
      t.rd (CBUS_LOG_MAC_LO.MAC i) + 2 ^ 32 * t.rd (CBUS_LOG_MAC_HI.MAC i) = mac ∧ t.rd (CBUS_LOG_MAC_HI.COUNT i) = 1 ∧
      t.rd (CBUS_LOG_TICK.TICK i) = s.tickNo % 2 ^ 32 ∧ t.ic.raised = s.ic.raised ++ [⟨289, 0⟩] ∧
      ∀ k, k < 8 → k ≠ i → same s t k) ∧
  (∀ (s : State) (mac : Nat), s.Inv → s.ready = true → s.cbusOn = true → s.listed mac = none → mac < 2 ^ 48 →
    (∀ i, i < 8 → ¬ holds s mac i) → (∀ i, i < 8 → used s i) → Answers (exec (.stranger mac) s) fun t =>
      t.rd CBUS_DROPS.LOG_FULL = min (s.rd CBUS_DROPS.LOG_FULL + 1) 15 ∧ t.ic = s.ic ∧ s.Only [CBUS_DROPS.STRANGER.off] t) ∧
  (∀ s : State, s.Inv → s.Open → Answers (exec .logClear s) fun t => ∀ i, i < 8 → ¬ used t i)
end

