-- ==== Sys2Proof/Laws/Tbl.lean ====
section
/-! SUPPORT. Laws of the sparse tables: writing keeps the canonical form, a read after a write, and reads elsewhere. -/

namespace Sys2Proof.Machine

variable {α : Type} [DecidableEq α]

/-- `lo` is below `k`. -/
def above (lo : Option Nat) (k : Nat) : Prop := ∀ l, lo = some l → l < k

theorem Tbl.wfFrom_cons {d : Nat → α} {lo : Option Nat} {i : Nat} {v : α} {r : Tbl α} :
    Tbl.wfFrom d lo ((i, v) :: r) = true ↔ above lo i ∧ v ≠ d i ∧ Tbl.wfFrom d (some i) r = true := by
  cases lo <;> simp [Tbl.wfFrom, above, and_assoc]

theorem Tbl.wfFrom_weaken {d : Nat → α} {lo hi : Option Nat} {t : Tbl α} (h : Tbl.wfFrom d hi t = true)
    (hl : ∀ k, above hi k → above lo k) : Tbl.wfFrom d lo t = true := by
  cases t with
  | nil => simp [Tbl.wfFrom]
  | cons p r =>
    rw [Tbl.wfFrom_cons] at h ⊢
    exact ⟨hl _ h.1, h.2⟩

theorem above_trans {lo : Option Nat} {i k : Nat} (h : above lo i) (hk : above (some i) k) : above lo k :=
  fun l e => Nat.lt_trans (h l e) (hk i rfl)

theorem Tbl.wfFrom_insert {d : Nat → α} {k : Nat} {v : α} (hv : v ≠ d k) :
    ∀ {t : Tbl α} {lo : Option Nat}, above lo k → Tbl.wfFrom d lo t = true → Tbl.wfFrom d lo (Tbl.insert k v t) = true := by
  intro t
  induction t with
  | nil => intro lo ha _; exact Tbl.wfFrom_cons.2 ⟨ha, hv, rfl⟩
  | cons p r ih =>
    intro lo ha h
    obtain ⟨h1, h2, h3⟩ := Tbl.wfFrom_cons.1 h
    unfold Tbl.insert
    split
    · next e => subst e; exact Tbl.wfFrom_cons.2 ⟨ha, hv, h3⟩
    · split
      · next hlt =>
        exact Tbl.wfFrom_cons.2 ⟨ha, hv, Tbl.wfFrom_cons.2 ⟨fun l e => by cases e; exact hlt, h2, h3⟩⟩
      · refine Tbl.wfFrom_cons.2 ⟨h1, h2, ih (fun l e => ?_) h3⟩
        cases e; omega

theorem Tbl.wfFrom_erase {d : Nat → α} {k : Nat} :
    ∀ {t : Tbl α} {lo : Option Nat}, Tbl.wfFrom d lo t = true → Tbl.wfFrom d lo (Tbl.erase k t) = true := by
  intro t
  induction t with
  | nil => intro lo _; rfl
  | cons p r ih =>
    intro lo h
    obtain ⟨h1, h2, h3⟩ := Tbl.wfFrom_cons.1 h
    unfold Tbl.erase
    split
    · exact Tbl.wfFrom_weaken h3 fun _ hk => above_trans h1 hk
    · split
      · exact h
      · exact Tbl.wfFrom_cons.2 ⟨h1, h2, ih h3⟩

theorem Tbl.wfFrom_filter {d : Nat → α} {f : Nat × α → Bool} :
    ∀ {t : Tbl α} {lo : Option Nat}, Tbl.wfFrom d lo t = true → Tbl.wfFrom d lo (t.filter f) = true := by
  intro t
  induction t with
  | nil => intro lo _; rfl
  | cons p r ih =>
    intro lo h
    obtain ⟨h1, h2, h3⟩ := Tbl.wfFrom_cons.1 h
    rw [List.filter_cons]
    split
    · exact Tbl.wfFrom_cons.2 ⟨h1, h2, ih h3⟩
    · exact ih (Tbl.wfFrom_weaken h3 fun _ hk => above_trans h1 hk)

/-- A write keeps the canonical form. -/
theorem Tbl.wf_put {d : Nat → α} {k : Nat} {v : α} {t : Tbl α} (h : Tbl.wf d t = true) : Tbl.wf d (Tbl.put d k v t) = true := by
  unfold Tbl.put
  split
  · exact Tbl.wfFrom_erase h
  · next hv => exact Tbl.wfFrom_insert hv (fun _ e => by cases e) h

/-- Dropping entries keeps the canonical form. -/
theorem Tbl.wf_filter {d : Nat → α} {f : Nat × α → Bool} {t : Tbl α} (h : Tbl.wf d t = true) : Tbl.wf d (t.filter f) = true :=
  Tbl.wfFrom_filter h

theorem Tbl.wf_nil {d : Nat → α} : Tbl.wf d ([] : Tbl α) = true := rfl

omit [DecidableEq α] in
theorem Tbl.get_insert {d : Nat → α} {k j : Nat} {v : α} :
    ∀ {t : Tbl α}, Tbl.get d (Tbl.insert k v t) j = if j = k then v else Tbl.get d t j := by
  intro t
  induction t with
  | nil => simp only [Tbl.insert, Tbl.get]; (repeat' split) <;> first | rfl | omega
  | cons p r ih =>
    unfold Tbl.insert
    split
    · next e => subst e; simp only [Tbl.get]; (repeat' split) <;> first | rfl | omega
    · split
      · simp only [Tbl.get]; (repeat' split) <;> first | rfl | omega
      · simp only [Tbl.get, ih]; (repeat' split) <;> first | rfl | omega

/-- In a canonical table a key at or below the bound is not listed. -/
theorem Tbl.get_below {d : Nat → α} {i k : Nat} (hk : k ≤ i) : ∀ {t : Tbl α}, Tbl.wfFrom d (some i) t = true → Tbl.get d t k = d k := by
  intro t h
  cases t with
  | nil => rfl
  | cons p r =>
    have := (Tbl.wfFrom_cons.1 h).1 i rfl
    unfold Tbl.get
    rw [if_neg (by omega), if_pos (by omega)]

theorem Tbl.get_erase {d : Nat → α} {k j : Nat} :
    ∀ {t : Tbl α} {lo : Option Nat}, Tbl.wfFrom d lo t = true →
      Tbl.get d (Tbl.erase k t) j = if j = k then d k else Tbl.get d t j := by
  intro t
  induction t with
  | nil => intro lo _; simp only [Tbl.erase, Tbl.get]; split <;> simp_all
  | cons p r ih =>
    intro lo h
    obtain ⟨_, _, h3⟩ := Tbl.wfFrom_cons.1 h
    unfold Tbl.erase
    split
    · next e =>
      subst e
      by_cases hj : j = p.1
      · rw [if_pos hj, hj]; exact Tbl.get_below (Nat.le_refl _) h3
      · rw [if_neg hj]
        conv => rhs; unfold Tbl.get
        rw [if_neg (fun e => hj e.symm)]
        split
        · next hlt => exact Tbl.get_below (Nat.le_of_lt hlt) h3
        · rfl
    · split
      · next hne hlt =>
        by_cases hj : j = k
        · subst hj; rw [if_pos rfl]; unfold Tbl.get; rw [if_neg hne, if_pos hlt]
        · rw [if_neg hj]
      · next hne hlt =>
        simp only [Tbl.get, ih h3]
        (repeat' split) <;> first | rfl | omega

/-- A read after a write: the value written at its key, and elsewhere what was there. -/
theorem Tbl.get_put {d : Nat → α} {k j : Nat} {v : α} {t : Tbl α} (h : Tbl.wf d t = true) :
    Tbl.get d (Tbl.put d k v t) j = if j = k then v else Tbl.get d t j := by
  unfold Tbl.put
  split
  · next e => rw [Tbl.get_erase h, e]
  · exact Tbl.get_insert

/-- A read after a write of a value that an unlisted key does not read as, in any table. -/
theorem Tbl.get_put_ne {d : Nat → α} {k j : Nat} {v : α} {t : Tbl α} (h : v ≠ d k) :
    Tbl.get d (Tbl.put d k v t) j = if j = k then v else Tbl.get d t j := by
  unfold Tbl.put
  rw [if_neg h]
  exact Tbl.get_insert

end Sys2Proof.Machine
end

