-- ==== Sys2Proof/Laws/Regs.lean ====
section
/-! SUPPORT. Laws of the registers: what a field reads after it, or another field, is written, and which words a write leaves. -/

namespace Sys2Proof.Machine

/-- The registers are canonical. -/
def State.Canon (s : State) : Prop := Tbl.wf regReset s.regs = true

theorem State.word_setWord {s : State} (h : s.Canon) (o a : Nat) (w : Word) :
    (s.setWord o w).word a = if a = o then w else s.word a := Tbl.get_put h

theorem State.setWord_canon {s : State} (h : s.Canon) (o : Nat) (w : Word) : (s.setWord o w).Canon := Tbl.wf_put h

theorem State.wr_canon {s : State} (h : s.Canon) (f : Fld) (v : Nat) : (s.wr f v).Canon := by
  unfold State.wr
  split
  · exact setWord_canon h _ _
  · exact setWord_canon (setWord_canon h _ _) _ _

theorem State.bump_canon {s : State} (h : s.Canon) (f : Fld) (n : Nat) : (s.bump f n).Canon := wr_canon h _ _

theorem State.wrs_canon {l : List (Fld × Nat)} : ∀ {s : State}, s.Canon → (s.wrs l).Canon := by
  induction l with
  | nil => intro s h; exact h
  | cons p l ih => intro s h; exact ih (wr_canon h _ _)

theorem State.wrs_cons (s : State) (p : Fld × Nat) (l : List (Fld × Nat)) : s.wrs (p :: l) = (s.wr p.1 p.2).wrs l := rfl
theorem State.wrs_nil (s : State) : s.wrs [] = s := rfl

/-- A number as its bits below `lo`, those from `lo` on, and those from `lo + w` on. -/
theorem insertBits_eq (x lo w v : Nat) :
    insertBits x lo w v = 2 ^ (lo + w) * (x / 2 ^ (lo + w)) + (2 ^ lo * (v % 2 ^ w) + x % 2 ^ lo) := by
  have e1 : 2 ^ (lo + w) * (x / 2 ^ (lo + w)) + (2 ^ lo * (x / 2 ^ lo % 2 ^ w) + x % 2 ^ lo) = x := by
    have a := Nat.div_add_mod x (2 ^ lo)
    have b := Nat.div_add_mod (x / 2 ^ lo) (2 ^ w)
    have c : x / 2 ^ (lo + w) = x / 2 ^ lo / 2 ^ w := by rw [Nat.pow_add, Nat.div_div_eq_div_mul]
    rw [c, Nat.pow_add, ← Nat.add_assoc, Nat.mul_assoc, ← Nat.mul_add, b, a]
  unfold insertBits bitsOf
  rw [Nat.shiftRight_eq_div_pow, Nat.mul_comm (x / 2 ^ lo % 2 ^ w), Nat.mul_comm (v % 2 ^ w)]
  omega

theorem insertBits_testBit (x lo w v i : Nat) :
    (insertBits x lo w v).testBit i = if lo ≤ i ∧ i < lo + w then v.testBit (i - lo) else x.testBit i := by
  rw [insertBits_eq]
  have hlt : 2 ^ lo * (v % 2 ^ w) + x % 2 ^ lo < 2 ^ (lo + w) := by
    have a := Nat.mod_lt x (Nat.two_pow_pos lo)
    have b := Nat.mod_lt v (Nat.two_pow_pos w)
    have d : 2 ^ lo * (v % 2 ^ w + 1) ≤ 2 ^ lo * 2 ^ w := Nat.mul_le_mul_left _ b
    rw [Nat.pow_add]; rw [Nat.mul_add] at d; omega
  rw [Nat.testBit_two_pow_mul_add _ hlt]
  by_cases h : i < lo + w
  · rw [if_pos h, Nat.testBit_two_pow_mul_add _ (Nat.mod_lt x (Nat.two_pow_pos lo))]
    by_cases k : i < lo
    · rw [if_pos k, if_neg (by omega), Nat.testBit_mod_two_pow]; simp [k]
    · rw [if_neg k, if_pos ⟨by omega, h⟩, Nat.testBit_mod_two_pow]; simp; omega
  · rw [if_neg h, if_neg (by omega), Nat.testBit_div_two_pow]
    congr 1; omega

/-- One bit of the register of a field. -/
theorem State.regOf_testBit (s : State) (f : Fld) (i : Nat) : (s.regOf f).testBit i =
    if i < 32 then (s.word f.off).getLsbD i else (decide (32 ≤ f.hi) && (s.word (f.off + 4)).getLsbD (i - 32)) := by
  unfold State.regOf
  split
  · next h =>
    split
    · rfl
    · next k => rw [Nat.testBit_lt_two_pow (Nat.lt_of_lt_of_le (s.word f.off).isLt (Nat.pow_le_pow_right (by omega) (by omega)))]; simp; omega
  · next h =>
    rw [Nat.add_comm, Nat.testBit_two_pow_mul_add _ (s.word f.off).isLt]
    split
    · rfl
    · simp [BitVec.testBit_toNat]; omega

/-- One bit of a word after a field is written. -/
theorem State.word_wr_bit {s : State} (h : s.Canon) (g : Fld) (v a i : Nat) (hi : i < 32) :
    ((s.wr g v).word a).getLsbD i =
      if a = g.off ∧ g.lo ≤ i ∧ i < g.hi + 1 then v.testBit (i - g.lo)
      else if a = g.off + 4 ∧ 32 ≤ g.hi ∧ g.lo ≤ i + 32 ∧ i + 32 < g.hi + 1 then v.testBit (i + 32 - g.lo)
      else (s.word a).getLsbD i := by
  unfold State.wr
  by_cases hw : g.hi < 32
  · simp only [hw, if_true, word_setWord h]
    by_cases e : a = g.off
    · subst e
      simp only [if_true, BitVec.getLsbD_ofNat, hi, decide_true, Bool.true_and, insertBits_testBit, regOf_testBit, true_and]
      by_cases k : g.lo ≤ i ∧ i < g.hi + 1
      · rw [if_pos (by omega), if_pos k]
      · rw [if_neg (by omega), if_neg k, if_neg (by omega)]
    · rw [if_neg e, if_neg (by simp [e]), if_neg (by omega)]
  · simp only [hw, if_false, word_setWord (setWord_canon h _ _), word_setWord h]
    by_cases e : a = g.off + 4
    · subst e
      simp only [if_true, BitVec.getLsbD_ofNat, hi, decide_true, Bool.true_and, Nat.testBit_div_two_pow, insertBits_testBit,
        regOf_testBit]
      rw [if_neg (by omega : ¬(g.off + 4 = g.off ∧ _))]
      by_cases k : g.lo ≤ i + 32 ∧ i + 32 < g.hi + 1
      · rw [if_pos (by omega), if_pos ⟨trivial, by omega, k⟩]
      · rw [if_neg (by omega), if_neg (by omega), if_neg (by omega)]
        simp; omega
    · rw [if_neg e]
      by_cases e2 : a = g.off
      · subst e2
        simp only [if_true, BitVec.getLsbD_ofNat, hi, decide_true, Bool.true_and, insertBits_testBit, regOf_testBit, true_and]
        by_cases k : g.lo ≤ i ∧ i < g.hi + 1
        · rw [if_pos (by omega), if_pos k]
        · rw [if_neg (by omega), if_neg k, if_neg (by omega)]
      · rw [if_neg e2, if_neg (by simp [e2]), if_neg (by simp [e])]

theorem State.rd_testBit (s : State) (f : Fld) (j : Nat) : (s.rd f).testBit j =
    (decide (j < f.hi + 1 - f.lo) && (s.regOf f).testBit (f.lo + j)) := by
  unfold State.rd bitsOf
  rw [Nat.testBit_mod_two_pow, Nat.testBit_shiftRight]

/-- Two fields that share no bit. -/
def Fld.apart (f g : Fld) : Prop := 8 * f.off + f.hi < 8 * g.off + g.lo ∨ 8 * g.off + g.hi < 8 * f.off + f.lo

/-- A field reads what was last written to it. -/
theorem State.rd_wr {s : State} (h : s.Canon) (f : Fld) (v : Nat) (hf : f.hi < 64) :
    (s.wr f v).rd f = v % 2 ^ (f.hi + 1 - f.lo) := by
  apply Nat.eq_of_testBit_eq
  intro j
  rw [rd_testBit, Nat.testBit_mod_two_pow, regOf_testBit]
  by_cases hj : j < f.hi + 1 - f.lo
  · simp only [hj, decide_true, Bool.true_and]
    split
    · next k => rw [word_wr_bit h _ _ _ _ k, if_pos (by omega)]; congr 1; omega
    · next k =>
      rw [word_wr_bit h _ _ _ _ (by omega), if_neg (by omega), if_pos (by omega)]
      have e : f.lo + j - 32 + 32 - f.lo = j := by omega
      rw [e]; simp; omega
  · simp [hj]

/-- A field that shares no bit with the field written reads as before. -/
theorem State.rd_wr_apart {s : State} (h : s.Canon) {f g : Fld} (v : Nat) (hfg : f.apart g) (hf : f.hi < 64) :
    (s.wr g v).rd f = s.rd f := by
  unfold Fld.apart at hfg
  apply Nat.eq_of_testBit_eq
  intro j
  rw [rd_testBit, rd_testBit, regOf_testBit, regOf_testBit]
  by_cases hj : j < f.hi + 1 - f.lo
  · simp only [hj, decide_true, Bool.true_and]
    split
    · next k => rw [word_wr_bit h _ _ _ _ k, if_neg (by omega), if_neg (by omega)]
    · next k => rw [word_wr_bit h _ _ _ _ (by omega), if_neg (by omega), if_neg (by omega)]
  · simp [hj]

/-- A word that holds no bit of the field written stands. -/
theorem State.word_wr {s : State} (h : s.Canon) {g : Fld} (v a : Nat) (ha : a ≠ g.off) (hb : 32 ≤ g.hi → a ≠ g.off + 4) :
    (s.wr g v).word a = s.word a := by
  unfold State.wr
  split
  · rw [word_setWord h, if_neg ha]
  · next k => rw [word_setWord (setWord_canon h _ _), word_setWord h, if_neg ha, if_neg (hb (by omega))]

/-- A field is narrower than its register. -/
theorem State.rd_lt (s : State) (f : Fld) : s.rd f < 2 ^ (f.hi + 1 - f.lo) := Nat.mod_lt _ (Nat.two_pow_pos _)

/-- A counter after it counts. -/
theorem State.rd_bump {s : State} (h : s.Canon) (f : Fld) (n : Nat) (hf : f.hi < 64) :
    (s.bump f n).rd f = min (s.rd f + n) (2 ^ (f.hi + 1 - f.lo) - 1) := by
  unfold State.bump satAdd
  rw [rd_wr h _ _ hf]
  apply Nat.mod_eq_of_lt
  have := Nat.two_pow_pos (f.hi + 1 - f.lo)
  omega

theorem State.rd_bump_apart {s : State} (h : s.Canon) {f g : Fld} (n : Nat) (hfg : f.apart g) (hf : f.hi < 64) :
    (s.bump g n).rd f = s.rd f := rd_wr_apart h _ hfg hf

/-- What a field reads rests on the registers alone. -/
theorem State.rd_congr {s t : State} (h : t.regs = s.regs) (f : Fld) : t.rd f = s.rd f := by
  simp only [State.rd, State.regOf, State.word, h]

theorem State.word_congr {s t : State} (h : t.regs = s.regs) (a : Nat) : t.word a = s.word a := by
  simp only [State.word, h]

/-- What a write does to the registers rests on the registers alone. -/
theorem State.wr_congr {s t : State} (h : t.regs = s.regs) (f : Fld) (v : Nat) : (t.wr f v).regs = (s.wr f v).regs := by
  unfold State.wr
  simp only [State.regOf, State.setWord, State.word, h]
  split <;> rfl

theorem State.bump_congr {s t : State} (h : t.regs = s.regs) (f : Fld) (n : Nat) : (t.bump f n).regs = (s.bump f n).regs := by
  unfold State.bump
  rw [State.rd_congr h, State.wr_congr h]

end Sys2Proof.Machine
end

