-- ==== Sys2Proof/Laws/State.lean ====
section
/-! SUPPORT. Field by field, what the updates of the state leave, so that no proof unfolds a record update. -/

namespace Sys2Proof.Machine

variable (s : State)

/-- Two states that agree in every field. -/
theorem State.eq_of {s t : State} (h1 : s.regs = t.regs) (h2 : s.now = t.now) (h3 : s.hif = t.hif) (h4 : s.ic = t.ic)
    (h5 : s.sig = t.sig) (h6 : s.tick = t.tick) (h7 : s.surf = t.surf) (h8 : s.comp = t.comp) (h9 : s.obj = t.obj)
    (h10 : s.eng = t.eng) (h11 : s.light = t.light) (h12 : s.bbn = t.bbn) (h13 : s.stk = t.stk) (h14 : s.thm = t.thm)
    (h15 : s.pwr = t.pwr) (h16 : s.freeCtr = t.freeCtr) (h17 : s.pending = t.pending) : s = t := by
  cases s; cases t; simp_all

/-! ### setWord -/

@[simp] theorem State.setWord_now (o : Nat) (w : Word) : (s.setWord o w).now = s.now := rfl
@[simp] theorem State.setWord_hif (o : Nat) (w : Word) : (s.setWord o w).hif = s.hif := rfl
@[simp] theorem State.setWord_ic (o : Nat) (w : Word) : (s.setWord o w).ic = s.ic := rfl
@[simp] theorem State.setWord_sig (o : Nat) (w : Word) : (s.setWord o w).sig = s.sig := rfl
@[simp] theorem State.setWord_tick (o : Nat) (w : Word) : (s.setWord o w).tick = s.tick := rfl
@[simp] theorem State.setWord_surf (o : Nat) (w : Word) : (s.setWord o w).surf = s.surf := rfl
@[simp] theorem State.setWord_comp (o : Nat) (w : Word) : (s.setWord o w).comp = s.comp := rfl
@[simp] theorem State.setWord_obj (o : Nat) (w : Word) : (s.setWord o w).obj = s.obj := rfl
@[simp] theorem State.setWord_eng (o : Nat) (w : Word) : (s.setWord o w).eng = s.eng := rfl
@[simp] theorem State.setWord_light (o : Nat) (w : Word) : (s.setWord o w).light = s.light := rfl
@[simp] theorem State.setWord_bbn (o : Nat) (w : Word) : (s.setWord o w).bbn = s.bbn := rfl
@[simp] theorem State.setWord_stk (o : Nat) (w : Word) : (s.setWord o w).stk = s.stk := rfl
@[simp] theorem State.setWord_thm (o : Nat) (w : Word) : (s.setWord o w).thm = s.thm := rfl
@[simp] theorem State.setWord_pwr (o : Nat) (w : Word) : (s.setWord o w).pwr = s.pwr := rfl
@[simp] theorem State.setWord_freeCtr (o : Nat) (w : Word) : (s.setWord o w).freeCtr = s.freeCtr := rfl
@[simp] theorem State.setWord_pending (o : Nat) (w : Word) : (s.setWord o w).pending = s.pending := rfl

/-! ### wr -/

@[simp] theorem State.wr_now (f : Fld) (v : Nat) : (s.wr f v).now = s.now := by
  unfold State.wr; (try dsimp only); split <;> rfl
@[simp] theorem State.wr_hif (f : Fld) (v : Nat) : (s.wr f v).hif = s.hif := by
  unfold State.wr; (try dsimp only); split <;> rfl
@[simp] theorem State.wr_ic (f : Fld) (v : Nat) : (s.wr f v).ic = s.ic := by
  unfold State.wr; (try dsimp only); split <;> rfl
@[simp] theorem State.wr_sig (f : Fld) (v : Nat) : (s.wr f v).sig = s.sig := by
  unfold State.wr; (try dsimp only); split <;> rfl
@[simp] theorem State.wr_tick (f : Fld) (v : Nat) : (s.wr f v).tick = s.tick := by
  unfold State.wr; (try dsimp only); split <;> rfl
@[simp] theorem State.wr_surf (f : Fld) (v : Nat) : (s.wr f v).surf = s.surf := by
  unfold State.wr; (try dsimp only); split <;> rfl
@[simp] theorem State.wr_comp (f : Fld) (v : Nat) : (s.wr f v).comp = s.comp := by
  unfold State.wr; (try dsimp only); split <;> rfl
@[simp] theorem State.wr_obj (f : Fld) (v : Nat) : (s.wr f v).obj = s.obj := by
  unfold State.wr; (try dsimp only); split <;> rfl
@[simp] theorem State.wr_eng (f : Fld) (v : Nat) : (s.wr f v).eng = s.eng := by
  unfold State.wr; (try dsimp only); split <;> rfl
@[simp] theorem State.wr_light (f : Fld) (v : Nat) : (s.wr f v).light = s.light := by
  unfold State.wr; (try dsimp only); split <;> rfl
@[simp] theorem State.wr_bbn (f : Fld) (v : Nat) : (s.wr f v).bbn = s.bbn := by
  unfold State.wr; (try dsimp only); split <;> rfl
@[simp] theorem State.wr_stk (f : Fld) (v : Nat) : (s.wr f v).stk = s.stk := by
  unfold State.wr; (try dsimp only); split <;> rfl
@[simp] theorem State.wr_thm (f : Fld) (v : Nat) : (s.wr f v).thm = s.thm := by
  unfold State.wr; (try dsimp only); split <;> rfl
@[simp] theorem State.wr_pwr (f : Fld) (v : Nat) : (s.wr f v).pwr = s.pwr := by
  unfold State.wr; (try dsimp only); split <;> rfl
@[simp] theorem State.wr_freeCtr (f : Fld) (v : Nat) : (s.wr f v).freeCtr = s.freeCtr := by
  unfold State.wr; (try dsimp only); split <;> rfl
@[simp] theorem State.wr_pending (f : Fld) (v : Nat) : (s.wr f v).pending = s.pending := by
  unfold State.wr; (try dsimp only); split <;> rfl

/-! ### bump -/

@[simp] theorem State.bump_now (f : Fld) (n : Nat) : (s.bump f n).now = s.now := State.wr_now s f _
@[simp] theorem State.bump_hif (f : Fld) (n : Nat) : (s.bump f n).hif = s.hif := State.wr_hif s f _
@[simp] theorem State.bump_ic (f : Fld) (n : Nat) : (s.bump f n).ic = s.ic := State.wr_ic s f _
@[simp] theorem State.bump_sig (f : Fld) (n : Nat) : (s.bump f n).sig = s.sig := State.wr_sig s f _
@[simp] theorem State.bump_tick (f : Fld) (n : Nat) : (s.bump f n).tick = s.tick := State.wr_tick s f _
@[simp] theorem State.bump_surf (f : Fld) (n : Nat) : (s.bump f n).surf = s.surf := State.wr_surf s f _
@[simp] theorem State.bump_comp (f : Fld) (n : Nat) : (s.bump f n).comp = s.comp := State.wr_comp s f _
@[simp] theorem State.bump_obj (f : Fld) (n : Nat) : (s.bump f n).obj = s.obj := State.wr_obj s f _
@[simp] theorem State.bump_eng (f : Fld) (n : Nat) : (s.bump f n).eng = s.eng := State.wr_eng s f _
@[simp] theorem State.bump_light (f : Fld) (n : Nat) : (s.bump f n).light = s.light := State.wr_light s f _
@[simp] theorem State.bump_bbn (f : Fld) (n : Nat) : (s.bump f n).bbn = s.bbn := State.wr_bbn s f _
@[simp] theorem State.bump_stk (f : Fld) (n : Nat) : (s.bump f n).stk = s.stk := State.wr_stk s f _
@[simp] theorem State.bump_thm (f : Fld) (n : Nat) : (s.bump f n).thm = s.thm := State.wr_thm s f _
@[simp] theorem State.bump_pwr (f : Fld) (n : Nat) : (s.bump f n).pwr = s.pwr := State.wr_pwr s f _
@[simp] theorem State.bump_freeCtr (f : Fld) (n : Nat) : (s.bump f n).freeCtr = s.freeCtr := State.wr_freeCtr s f _
@[simp] theorem State.bump_pending (f : Fld) (n : Nat) : (s.bump f n).pending = s.pending := State.wr_pending s f _

/-! ### wrs -/

@[simp] theorem State.wrs_now (l : List (Fld × Nat)) : (s.wrs l).now = s.now := by
  induction l generalizing s with
  | nil => rfl
  | cons p l ih => rw [State.wrs_cons, ih, State.wr_now]
@[simp] theorem State.wrs_hif (l : List (Fld × Nat)) : (s.wrs l).hif = s.hif := by
  induction l generalizing s with
  | nil => rfl
  | cons p l ih => rw [State.wrs_cons, ih, State.wr_hif]
@[simp] theorem State.wrs_ic (l : List (Fld × Nat)) : (s.wrs l).ic = s.ic := by
  induction l generalizing s with
  | nil => rfl
  | cons p l ih => rw [State.wrs_cons, ih, State.wr_ic]
@[simp] theorem State.wrs_sig (l : List (Fld × Nat)) : (s.wrs l).sig = s.sig := by
  induction l generalizing s with
  | nil => rfl
  | cons p l ih => rw [State.wrs_cons, ih, State.wr_sig]
@[simp] theorem State.wrs_tick (l : List (Fld × Nat)) : (s.wrs l).tick = s.tick := by
  induction l generalizing s with
  | nil => rfl
  | cons p l ih => rw [State.wrs_cons, ih, State.wr_tick]
@[simp] theorem State.wrs_surf (l : List (Fld × Nat)) : (s.wrs l).surf = s.surf := by
  induction l generalizing s with
  | nil => rfl
  | cons p l ih => rw [State.wrs_cons, ih, State.wr_surf]
@[simp] theorem State.wrs_comp (l : List (Fld × Nat)) : (s.wrs l).comp = s.comp := by
  induction l generalizing s with
  | nil => rfl
  | cons p l ih => rw [State.wrs_cons, ih, State.wr_comp]
@[simp] theorem State.wrs_obj (l : List (Fld × Nat)) : (s.wrs l).obj = s.obj := by
  induction l generalizing s with
  | nil => rfl
  | cons p l ih => rw [State.wrs_cons, ih, State.wr_obj]
@[simp] theorem State.wrs_eng (l : List (Fld × Nat)) : (s.wrs l).eng = s.eng := by
  induction l generalizing s with
  | nil => rfl
  | cons p l ih => rw [State.wrs_cons, ih, State.wr_eng]
@[simp] theorem State.wrs_light (l : List (Fld × Nat)) : (s.wrs l).light = s.light := by
  induction l generalizing s with
  | nil => rfl
  | cons p l ih => rw [State.wrs_cons, ih, State.wr_light]
@[simp] theorem State.wrs_bbn (l : List (Fld × Nat)) : (s.wrs l).bbn = s.bbn := by
  induction l generalizing s with
  | nil => rfl
  | cons p l ih => rw [State.wrs_cons, ih, State.wr_bbn]
@[simp] theorem State.wrs_stk (l : List (Fld × Nat)) : (s.wrs l).stk = s.stk := by
  induction l generalizing s with
  | nil => rfl
  | cons p l ih => rw [State.wrs_cons, ih, State.wr_stk]
@[simp] theorem State.wrs_thm (l : List (Fld × Nat)) : (s.wrs l).thm = s.thm := by
  induction l generalizing s with
  | nil => rfl
  | cons p l ih => rw [State.wrs_cons, ih, State.wr_thm]
@[simp] theorem State.wrs_pwr (l : List (Fld × Nat)) : (s.wrs l).pwr = s.pwr := by
  induction l generalizing s with
  | nil => rfl
  | cons p l ih => rw [State.wrs_cons, ih, State.wr_pwr]
@[simp] theorem State.wrs_freeCtr (l : List (Fld × Nat)) : (s.wrs l).freeCtr = s.freeCtr := by
  induction l generalizing s with
  | nil => rfl
  | cons p l ih => rw [State.wrs_cons, ih, State.wr_freeCtr]
@[simp] theorem State.wrs_pending (l : List (Fld × Nat)) : (s.wrs l).pending = s.pending := by
  induction l generalizing s with
  | nil => rfl
  | cons p l ih => rw [State.wrs_cons, ih, State.wr_pending]

/-! ### reach -/

@[simp] theorem State.reach_regs (n : Nat) : (s.reach n).regs = s.regs := rfl
@[simp] theorem State.reach_hif (n : Nat) : (s.reach n).hif = s.hif := rfl
@[simp] theorem State.reach_ic (n : Nat) : (s.reach n).ic = s.ic := rfl
@[simp] theorem State.reach_sig (n : Nat) : (s.reach n).sig = s.sig := rfl
@[simp] theorem State.reach_tick (n : Nat) : (s.reach n).tick = s.tick := rfl
@[simp] theorem State.reach_surf (n : Nat) : (s.reach n).surf = s.surf := rfl
@[simp] theorem State.reach_comp (n : Nat) : (s.reach n).comp = s.comp := rfl
@[simp] theorem State.reach_obj (n : Nat) : (s.reach n).obj = s.obj := rfl
@[simp] theorem State.reach_eng (n : Nat) : (s.reach n).eng = s.eng := rfl
@[simp] theorem State.reach_light (n : Nat) : (s.reach n).light = s.light := rfl
@[simp] theorem State.reach_bbn (n : Nat) : (s.reach n).bbn = s.bbn := rfl
@[simp] theorem State.reach_stk (n : Nat) : (s.reach n).stk = s.stk := rfl
@[simp] theorem State.reach_thm (n : Nat) : (s.reach n).thm = s.thm := rfl
@[simp] theorem State.reach_pwr (n : Nat) : (s.reach n).pwr = s.pwr := rfl
@[simp] theorem State.reach_freeCtr (n : Nat) : (s.reach n).freeCtr = s.freeCtr := rfl
@[simp] theorem State.reach_pending (n : Nat) : (s.reach n).pending = s.pending := rfl
@[simp] theorem State.reach_word (n : Nat) (x : Nat) : (s.reach n).word x = s.word x := State.word_congr (s.reach_regs n) x
@[simp] theorem State.reach_rd (n : Nat) (x : Fld) : (s.reach n).rd x = s.rd x := State.rd_congr (s.reach_regs n) x
@[simp] theorem State.reach_flag (n : Nat) (x : Fld) : (s.reach n).flag x = s.flag x := by simp only [State.flag, State.reach_rd]
@[simp] theorem State.reach_canon (n : Nat) : (s.reach n).Canon = s.Canon := by simp only [State.Canon, State.reach_regs]

/-! ### hostWrite -/

@[simp] theorem State.hostWrite_regs (a n d : Nat) : (s.hostWrite a n d).regs = s.regs := by
  unfold State.hostWrite; (try dsimp only); split <;> rfl
@[simp] theorem State.hostWrite_now (a n d : Nat) : (s.hostWrite a n d).now = s.now := by
  unfold State.hostWrite; (try dsimp only); split <;> rfl
@[simp] theorem State.hostWrite_ic (a n d : Nat) : (s.hostWrite a n d).ic = s.ic := by
  unfold State.hostWrite; (try dsimp only); split <;> rfl
@[simp] theorem State.hostWrite_sig (a n d : Nat) : (s.hostWrite a n d).sig = s.sig := by
  unfold State.hostWrite; (try dsimp only); split <;> rfl
@[simp] theorem State.hostWrite_tick (a n d : Nat) : (s.hostWrite a n d).tick = s.tick := by
  unfold State.hostWrite; (try dsimp only); split <;> rfl
@[simp] theorem State.hostWrite_surf (a n d : Nat) : (s.hostWrite a n d).surf = s.surf := by
  unfold State.hostWrite; (try dsimp only); split <;> rfl
@[simp] theorem State.hostWrite_comp (a n d : Nat) : (s.hostWrite a n d).comp = s.comp := by
  unfold State.hostWrite; (try dsimp only); split <;> rfl
@[simp] theorem State.hostWrite_obj (a n d : Nat) : (s.hostWrite a n d).obj = s.obj := by
  unfold State.hostWrite; (try dsimp only); split <;> rfl
@[simp] theorem State.hostWrite_eng (a n d : Nat) : (s.hostWrite a n d).eng = s.eng := by
  unfold State.hostWrite; (try dsimp only); split <;> rfl
@[simp] theorem State.hostWrite_light (a n d : Nat) : (s.hostWrite a n d).light = s.light := by
  unfold State.hostWrite; (try dsimp only); split <;> rfl
@[simp] theorem State.hostWrite_bbn (a n d : Nat) : (s.hostWrite a n d).bbn = s.bbn := by
  unfold State.hostWrite; (try dsimp only); split <;> rfl
@[simp] theorem State.hostWrite_stk (a n d : Nat) : (s.hostWrite a n d).stk = s.stk := by
  unfold State.hostWrite; (try dsimp only); split <;> rfl
@[simp] theorem State.hostWrite_thm (a n d : Nat) : (s.hostWrite a n d).thm = s.thm := by
  unfold State.hostWrite; (try dsimp only); split <;> rfl
@[simp] theorem State.hostWrite_pwr (a n d : Nat) : (s.hostWrite a n d).pwr = s.pwr := by
  unfold State.hostWrite; (try dsimp only); split <;> rfl
@[simp] theorem State.hostWrite_freeCtr (a n d : Nat) : (s.hostWrite a n d).freeCtr = s.freeCtr := by
  unfold State.hostWrite; (try dsimp only); split <;> rfl
@[simp] theorem State.hostWrite_pending (a n d : Nat) : (s.hostWrite a n d).pending = s.pending := by
  unfold State.hostWrite; (try dsimp only); split <;> rfl
@[simp] theorem State.hostWrite_word (a n d : Nat) (x : Nat) : (s.hostWrite a n d).word x = s.word x := State.word_congr (s.hostWrite_regs a n d) x
@[simp] theorem State.hostWrite_rd (a n d : Nat) (x : Fld) : (s.hostWrite a n d).rd x = s.rd x := State.rd_congr (s.hostWrite_regs a n d) x
@[simp] theorem State.hostWrite_flag (a n d : Nat) (x : Fld) : (s.hostWrite a n d).flag x = s.flag x := by simp only [State.flag, State.hostWrite_rd]
@[simp] theorem State.hostWrite_canon (a n d : Nat) : (s.hostWrite a n d).Canon = s.Canon := by simp only [State.Canon, State.hostWrite_regs]

/-! ### setReel -/

@[simp] theorem State.setReel_regs (r : Nat) (f : CmdReel → CmdReel) : (s.setReel r f).regs = s.regs := rfl
@[simp] theorem State.setReel_now (r : Nat) (f : CmdReel → CmdReel) : (s.setReel r f).now = s.now := rfl
@[simp] theorem State.setReel_ic (r : Nat) (f : CmdReel → CmdReel) : (s.setReel r f).ic = s.ic := rfl
@[simp] theorem State.setReel_sig (r : Nat) (f : CmdReel → CmdReel) : (s.setReel r f).sig = s.sig := rfl
@[simp] theorem State.setReel_tick (r : Nat) (f : CmdReel → CmdReel) : (s.setReel r f).tick = s.tick := rfl
@[simp] theorem State.setReel_surf (r : Nat) (f : CmdReel → CmdReel) : (s.setReel r f).surf = s.surf := rfl
@[simp] theorem State.setReel_comp (r : Nat) (f : CmdReel → CmdReel) : (s.setReel r f).comp = s.comp := rfl
@[simp] theorem State.setReel_obj (r : Nat) (f : CmdReel → CmdReel) : (s.setReel r f).obj = s.obj := rfl
@[simp] theorem State.setReel_eng (r : Nat) (f : CmdReel → CmdReel) : (s.setReel r f).eng = s.eng := rfl
@[simp] theorem State.setReel_light (r : Nat) (f : CmdReel → CmdReel) : (s.setReel r f).light = s.light := rfl
@[simp] theorem State.setReel_bbn (r : Nat) (f : CmdReel → CmdReel) : (s.setReel r f).bbn = s.bbn := rfl
@[simp] theorem State.setReel_stk (r : Nat) (f : CmdReel → CmdReel) : (s.setReel r f).stk = s.stk := rfl
@[simp] theorem State.setReel_thm (r : Nat) (f : CmdReel → CmdReel) : (s.setReel r f).thm = s.thm := rfl
@[simp] theorem State.setReel_pwr (r : Nat) (f : CmdReel → CmdReel) : (s.setReel r f).pwr = s.pwr := rfl
@[simp] theorem State.setReel_freeCtr (r : Nat) (f : CmdReel → CmdReel) : (s.setReel r f).freeCtr = s.freeCtr := rfl
@[simp] theorem State.setReel_pending (r : Nat) (f : CmdReel → CmdReel) : (s.setReel r f).pending = s.pending := rfl
@[simp] theorem State.setReel_word (r : Nat) (f : CmdReel → CmdReel) (x : Nat) : (s.setReel r f).word x = s.word x := State.word_congr (s.setReel_regs r f) x
@[simp] theorem State.setReel_rd (r : Nat) (f : CmdReel → CmdReel) (x : Fld) : (s.setReel r f).rd x = s.rd x := State.rd_congr (s.setReel_regs r f) x
@[simp] theorem State.setReel_flag (r : Nat) (f : CmdReel → CmdReel) (x : Fld) : (s.setReel r f).flag x = s.flag x := by simp only [State.flag, State.setReel_rd]
@[simp] theorem State.setReel_canon (r : Nat) (f : CmdReel → CmdReel) : (s.setReel r f).Canon = s.Canon := by simp only [State.Canon, State.setReel_regs]

/-! ### setEvr -/

@[simp] theorem State.setEvr_regs (v : Nat) (f : EvReel → EvReel) : (s.setEvr v f).regs = s.regs := rfl
@[simp] theorem State.setEvr_now (v : Nat) (f : EvReel → EvReel) : (s.setEvr v f).now = s.now := rfl
@[simp] theorem State.setEvr_ic (v : Nat) (f : EvReel → EvReel) : (s.setEvr v f).ic = s.ic := rfl
@[simp] theorem State.setEvr_sig (v : Nat) (f : EvReel → EvReel) : (s.setEvr v f).sig = s.sig := rfl
@[simp] theorem State.setEvr_tick (v : Nat) (f : EvReel → EvReel) : (s.setEvr v f).tick = s.tick := rfl
@[simp] theorem State.setEvr_surf (v : Nat) (f : EvReel → EvReel) : (s.setEvr v f).surf = s.surf := rfl
@[simp] theorem State.setEvr_comp (v : Nat) (f : EvReel → EvReel) : (s.setEvr v f).comp = s.comp := rfl
@[simp] theorem State.setEvr_obj (v : Nat) (f : EvReel → EvReel) : (s.setEvr v f).obj = s.obj := rfl
@[simp] theorem State.setEvr_eng (v : Nat) (f : EvReel → EvReel) : (s.setEvr v f).eng = s.eng := rfl
@[simp] theorem State.setEvr_light (v : Nat) (f : EvReel → EvReel) : (s.setEvr v f).light = s.light := rfl
@[simp] theorem State.setEvr_bbn (v : Nat) (f : EvReel → EvReel) : (s.setEvr v f).bbn = s.bbn := rfl
@[simp] theorem State.setEvr_stk (v : Nat) (f : EvReel → EvReel) : (s.setEvr v f).stk = s.stk := rfl
@[simp] theorem State.setEvr_thm (v : Nat) (f : EvReel → EvReel) : (s.setEvr v f).thm = s.thm := rfl
@[simp] theorem State.setEvr_pwr (v : Nat) (f : EvReel → EvReel) : (s.setEvr v f).pwr = s.pwr := rfl
@[simp] theorem State.setEvr_freeCtr (v : Nat) (f : EvReel → EvReel) : (s.setEvr v f).freeCtr = s.freeCtr := rfl
@[simp] theorem State.setEvr_pending (v : Nat) (f : EvReel → EvReel) : (s.setEvr v f).pending = s.pending := rfl
@[simp] theorem State.setEvr_word (v : Nat) (f : EvReel → EvReel) (x : Nat) : (s.setEvr v f).word x = s.word x := State.word_congr (s.setEvr_regs v f) x
@[simp] theorem State.setEvr_rd (v : Nat) (f : EvReel → EvReel) (x : Fld) : (s.setEvr v f).rd x = s.rd x := State.rd_congr (s.setEvr_regs v f) x
@[simp] theorem State.setEvr_flag (v : Nat) (f : EvReel → EvReel) (x : Fld) : (s.setEvr v f).flag x = s.flag x := by simp only [State.flag, State.setEvr_rd]
@[simp] theorem State.setEvr_canon (v : Nat) (f : EvReel → EvReel) : (s.setEvr v f).Canon = s.Canon := by simp only [State.Canon, State.setEvr_regs]

/-! ### setEngine -/

@[simp] theorem State.setEngine_regs (e : Nat) (f : EngState → EngState) : (s.setEngine e f).regs = s.regs := rfl
@[simp] theorem State.setEngine_now (e : Nat) (f : EngState → EngState) : (s.setEngine e f).now = s.now := rfl
@[simp] theorem State.setEngine_hif (e : Nat) (f : EngState → EngState) : (s.setEngine e f).hif = s.hif := rfl
@[simp] theorem State.setEngine_ic (e : Nat) (f : EngState → EngState) : (s.setEngine e f).ic = s.ic := rfl
@[simp] theorem State.setEngine_sig (e : Nat) (f : EngState → EngState) : (s.setEngine e f).sig = s.sig := rfl
@[simp] theorem State.setEngine_tick (e : Nat) (f : EngState → EngState) : (s.setEngine e f).tick = s.tick := rfl
@[simp] theorem State.setEngine_surf (e : Nat) (f : EngState → EngState) : (s.setEngine e f).surf = s.surf := rfl
@[simp] theorem State.setEngine_comp (e : Nat) (f : EngState → EngState) : (s.setEngine e f).comp = s.comp := rfl
@[simp] theorem State.setEngine_obj (e : Nat) (f : EngState → EngState) : (s.setEngine e f).obj = s.obj := rfl
@[simp] theorem State.setEngine_light (e : Nat) (f : EngState → EngState) : (s.setEngine e f).light = s.light := rfl
@[simp] theorem State.setEngine_bbn (e : Nat) (f : EngState → EngState) : (s.setEngine e f).bbn = s.bbn := rfl
@[simp] theorem State.setEngine_stk (e : Nat) (f : EngState → EngState) : (s.setEngine e f).stk = s.stk := rfl
@[simp] theorem State.setEngine_thm (e : Nat) (f : EngState → EngState) : (s.setEngine e f).thm = s.thm := rfl
@[simp] theorem State.setEngine_pwr (e : Nat) (f : EngState → EngState) : (s.setEngine e f).pwr = s.pwr := rfl
@[simp] theorem State.setEngine_freeCtr (e : Nat) (f : EngState → EngState) : (s.setEngine e f).freeCtr = s.freeCtr := rfl
@[simp] theorem State.setEngine_pending (e : Nat) (f : EngState → EngState) : (s.setEngine e f).pending = s.pending := rfl
@[simp] theorem State.setEngine_word (e : Nat) (f : EngState → EngState) (x : Nat) : (s.setEngine e f).word x = s.word x := State.word_congr (s.setEngine_regs e f) x
@[simp] theorem State.setEngine_rd (e : Nat) (f : EngState → EngState) (x : Fld) : (s.setEngine e f).rd x = s.rd x := State.rd_congr (s.setEngine_regs e f) x
@[simp] theorem State.setEngine_flag (e : Nat) (f : EngState → EngState) (x : Fld) : (s.setEngine e f).flag x = s.flag x := by simp only [State.flag, State.setEngine_rd]
@[simp] theorem State.setEngine_canon (e : Nat) (f : EngState → EngState) : (s.setEngine e f).Canon = s.Canon := by simp only [State.Canon, State.setEngine_regs]

/-! ### setRun -/

@[simp] theorem State.setRun_regs (e : Nat) (f : FlyRun → FlyRun) : (s.setRun e f).regs = s.regs := rfl
@[simp] theorem State.setRun_now (e : Nat) (f : FlyRun → FlyRun) : (s.setRun e f).now = s.now := rfl
@[simp] theorem State.setRun_hif (e : Nat) (f : FlyRun → FlyRun) : (s.setRun e f).hif = s.hif := rfl
@[simp] theorem State.setRun_ic (e : Nat) (f : FlyRun → FlyRun) : (s.setRun e f).ic = s.ic := rfl
@[simp] theorem State.setRun_sig (e : Nat) (f : FlyRun → FlyRun) : (s.setRun e f).sig = s.sig := rfl
@[simp] theorem State.setRun_tick (e : Nat) (f : FlyRun → FlyRun) : (s.setRun e f).tick = s.tick := rfl
@[simp] theorem State.setRun_surf (e : Nat) (f : FlyRun → FlyRun) : (s.setRun e f).surf = s.surf := rfl
@[simp] theorem State.setRun_comp (e : Nat) (f : FlyRun → FlyRun) : (s.setRun e f).comp = s.comp := rfl
@[simp] theorem State.setRun_obj (e : Nat) (f : FlyRun → FlyRun) : (s.setRun e f).obj = s.obj := rfl
@[simp] theorem State.setRun_light (e : Nat) (f : FlyRun → FlyRun) : (s.setRun e f).light = s.light := rfl
@[simp] theorem State.setRun_bbn (e : Nat) (f : FlyRun → FlyRun) : (s.setRun e f).bbn = s.bbn := rfl
@[simp] theorem State.setRun_stk (e : Nat) (f : FlyRun → FlyRun) : (s.setRun e f).stk = s.stk := rfl
@[simp] theorem State.setRun_thm (e : Nat) (f : FlyRun → FlyRun) : (s.setRun e f).thm = s.thm := rfl
@[simp] theorem State.setRun_pwr (e : Nat) (f : FlyRun → FlyRun) : (s.setRun e f).pwr = s.pwr := rfl
@[simp] theorem State.setRun_freeCtr (e : Nat) (f : FlyRun → FlyRun) : (s.setRun e f).freeCtr = s.freeCtr := rfl
@[simp] theorem State.setRun_pending (e : Nat) (f : FlyRun → FlyRun) : (s.setRun e f).pending = s.pending := rfl
@[simp] theorem State.setRun_word (e : Nat) (f : FlyRun → FlyRun) (x : Nat) : (s.setRun e f).word x = s.word x := State.word_congr (s.setRun_regs e f) x
@[simp] theorem State.setRun_rd (e : Nat) (f : FlyRun → FlyRun) (x : Fld) : (s.setRun e f).rd x = s.rd x := State.rd_congr (s.setRun_regs e f) x
@[simp] theorem State.setRun_flag (e : Nat) (f : FlyRun → FlyRun) (x : Fld) : (s.setRun e f).flag x = s.flag x := by simp only [State.flag, State.setRun_rd]
@[simp] theorem State.setRun_canon (e : Nat) (f : FlyRun → FlyRun) : (s.setRun e f).Canon = s.Canon := by simp only [State.Canon, State.setRun_regs]

/-! ### setLink -/

@[simp] theorem State.setLink_regs (e : Nat) (f : SubPort → SubPort) : (s.setLink e f).regs = s.regs := rfl
@[simp] theorem State.setLink_now (e : Nat) (f : SubPort → SubPort) : (s.setLink e f).now = s.now := rfl
@[simp] theorem State.setLink_hif (e : Nat) (f : SubPort → SubPort) : (s.setLink e f).hif = s.hif := rfl
@[simp] theorem State.setLink_ic (e : Nat) (f : SubPort → SubPort) : (s.setLink e f).ic = s.ic := rfl
@[simp] theorem State.setLink_sig (e : Nat) (f : SubPort → SubPort) : (s.setLink e f).sig = s.sig := rfl
@[simp] theorem State.setLink_tick (e : Nat) (f : SubPort → SubPort) : (s.setLink e f).tick = s.tick := rfl
@[simp] theorem State.setLink_surf (e : Nat) (f : SubPort → SubPort) : (s.setLink e f).surf = s.surf := rfl
@[simp] theorem State.setLink_comp (e : Nat) (f : SubPort → SubPort) : (s.setLink e f).comp = s.comp := rfl
@[simp] theorem State.setLink_obj (e : Nat) (f : SubPort → SubPort) : (s.setLink e f).obj = s.obj := rfl
@[simp] theorem State.setLink_light (e : Nat) (f : SubPort → SubPort) : (s.setLink e f).light = s.light := rfl
@[simp] theorem State.setLink_bbn (e : Nat) (f : SubPort → SubPort) : (s.setLink e f).bbn = s.bbn := rfl
@[simp] theorem State.setLink_stk (e : Nat) (f : SubPort → SubPort) : (s.setLink e f).stk = s.stk := rfl
@[simp] theorem State.setLink_thm (e : Nat) (f : SubPort → SubPort) : (s.setLink e f).thm = s.thm := rfl
@[simp] theorem State.setLink_pwr (e : Nat) (f : SubPort → SubPort) : (s.setLink e f).pwr = s.pwr := rfl
@[simp] theorem State.setLink_freeCtr (e : Nat) (f : SubPort → SubPort) : (s.setLink e f).freeCtr = s.freeCtr := rfl
@[simp] theorem State.setLink_pending (e : Nat) (f : SubPort → SubPort) : (s.setLink e f).pending = s.pending := rfl
@[simp] theorem State.setLink_word (e : Nat) (f : SubPort → SubPort) (x : Nat) : (s.setLink e f).word x = s.word x := State.word_congr (s.setLink_regs e f) x
@[simp] theorem State.setLink_rd (e : Nat) (f : SubPort → SubPort) (x : Fld) : (s.setLink e f).rd x = s.rd x := State.rd_congr (s.setLink_regs e f) x
@[simp] theorem State.setLink_flag (e : Nat) (f : SubPort → SubPort) (x : Fld) : (s.setLink e f).flag x = s.flag x := by simp only [State.flag, State.setLink_rd]
@[simp] theorem State.setLink_canon (e : Nat) (f : SubPort → SubPort) : (s.setLink e f).Canon = s.Canon := by simp only [State.Canon, State.setLink_regs]

/-! ### setPort -/

@[simp] theorem State.setPort_regs (p : Nat) (f : PortLink → PortLink) : (s.setPort p f).regs = s.regs := rfl
@[simp] theorem State.setPort_now (p : Nat) (f : PortLink → PortLink) : (s.setPort p f).now = s.now := rfl
@[simp] theorem State.setPort_hif (p : Nat) (f : PortLink → PortLink) : (s.setPort p f).hif = s.hif := rfl
@[simp] theorem State.setPort_ic (p : Nat) (f : PortLink → PortLink) : (s.setPort p f).ic = s.ic := rfl
@[simp] theorem State.setPort_sig (p : Nat) (f : PortLink → PortLink) : (s.setPort p f).sig = s.sig := rfl
@[simp] theorem State.setPort_tick (p : Nat) (f : PortLink → PortLink) : (s.setPort p f).tick = s.tick := rfl
@[simp] theorem State.setPort_surf (p : Nat) (f : PortLink → PortLink) : (s.setPort p f).surf = s.surf := rfl
@[simp] theorem State.setPort_comp (p : Nat) (f : PortLink → PortLink) : (s.setPort p f).comp = s.comp := rfl
@[simp] theorem State.setPort_obj (p : Nat) (f : PortLink → PortLink) : (s.setPort p f).obj = s.obj := rfl
@[simp] theorem State.setPort_light (p : Nat) (f : PortLink → PortLink) : (s.setPort p f).light = s.light := rfl
@[simp] theorem State.setPort_bbn (p : Nat) (f : PortLink → PortLink) : (s.setPort p f).bbn = s.bbn := rfl
@[simp] theorem State.setPort_stk (p : Nat) (f : PortLink → PortLink) : (s.setPort p f).stk = s.stk := rfl
@[simp] theorem State.setPort_thm (p : Nat) (f : PortLink → PortLink) : (s.setPort p f).thm = s.thm := rfl
@[simp] theorem State.setPort_pwr (p : Nat) (f : PortLink → PortLink) : (s.setPort p f).pwr = s.pwr := rfl
@[simp] theorem State.setPort_freeCtr (p : Nat) (f : PortLink → PortLink) : (s.setPort p f).freeCtr = s.freeCtr := rfl
@[simp] theorem State.setPort_pending (p : Nat) (f : PortLink → PortLink) : (s.setPort p f).pending = s.pending := rfl
@[simp] theorem State.setPort_word (p : Nat) (f : PortLink → PortLink) (x : Nat) : (s.setPort p f).word x = s.word x := State.word_congr (s.setPort_regs p f) x
@[simp] theorem State.setPort_rd (p : Nat) (f : PortLink → PortLink) (x : Fld) : (s.setPort p f).rd x = s.rd x := State.rd_congr (s.setPort_regs p f) x
@[simp] theorem State.setPort_flag (p : Nat) (f : PortLink → PortLink) (x : Fld) : (s.setPort p f).flag x = s.flag x := by simp only [State.flag, State.setPort_rd]
@[simp] theorem State.setPort_canon (p : Nat) (f : PortLink → PortLink) : (s.setPort p f).Canon = s.Canon := by simp only [State.Canon, State.setPort_regs]

/-! ### setLight -/

@[simp] theorem State.setLight_regs (e : Nat) (f : LightEng → LightEng) : (s.setLight e f).regs = s.regs := rfl
@[simp] theorem State.setLight_now (e : Nat) (f : LightEng → LightEng) : (s.setLight e f).now = s.now := rfl
@[simp] theorem State.setLight_hif (e : Nat) (f : LightEng → LightEng) : (s.setLight e f).hif = s.hif := rfl
@[simp] theorem State.setLight_ic (e : Nat) (f : LightEng → LightEng) : (s.setLight e f).ic = s.ic := rfl
@[simp] theorem State.setLight_sig (e : Nat) (f : LightEng → LightEng) : (s.setLight e f).sig = s.sig := rfl
@[simp] theorem State.setLight_tick (e : Nat) (f : LightEng → LightEng) : (s.setLight e f).tick = s.tick := rfl
@[simp] theorem State.setLight_surf (e : Nat) (f : LightEng → LightEng) : (s.setLight e f).surf = s.surf := rfl
@[simp] theorem State.setLight_comp (e : Nat) (f : LightEng → LightEng) : (s.setLight e f).comp = s.comp := rfl
@[simp] theorem State.setLight_obj (e : Nat) (f : LightEng → LightEng) : (s.setLight e f).obj = s.obj := rfl
@[simp] theorem State.setLight_eng (e : Nat) (f : LightEng → LightEng) : (s.setLight e f).eng = s.eng := rfl
@[simp] theorem State.setLight_bbn (e : Nat) (f : LightEng → LightEng) : (s.setLight e f).bbn = s.bbn := rfl
@[simp] theorem State.setLight_stk (e : Nat) (f : LightEng → LightEng) : (s.setLight e f).stk = s.stk := rfl
@[simp] theorem State.setLight_thm (e : Nat) (f : LightEng → LightEng) : (s.setLight e f).thm = s.thm := rfl
@[simp] theorem State.setLight_pwr (e : Nat) (f : LightEng → LightEng) : (s.setLight e f).pwr = s.pwr := rfl
@[simp] theorem State.setLight_freeCtr (e : Nat) (f : LightEng → LightEng) : (s.setLight e f).freeCtr = s.freeCtr := rfl
@[simp] theorem State.setLight_pending (e : Nat) (f : LightEng → LightEng) : (s.setLight e f).pending = s.pending := rfl
@[simp] theorem State.setLight_word (e : Nat) (f : LightEng → LightEng) (x : Nat) : (s.setLight e f).word x = s.word x := State.word_congr (s.setLight_regs e f) x
@[simp] theorem State.setLight_rd (e : Nat) (f : LightEng → LightEng) (x : Fld) : (s.setLight e f).rd x = s.rd x := State.rd_congr (s.setLight_regs e f) x
@[simp] theorem State.setLight_flag (e : Nat) (f : LightEng → LightEng) (x : Fld) : (s.setLight e f).flag x = s.flag x := by simp only [State.flag, State.setLight_rd]
@[simp] theorem State.setLight_canon (e : Nat) (f : LightEng → LightEng) : (s.setLight e f).Canon = s.Canon := by simp only [State.Canon, State.setLight_regs]

/-! ### setStream -/

@[simp] theorem State.setStream_regs (n : Nat) (f : StreamCtx → StreamCtx) : (s.setStream n f).regs = s.regs := rfl
@[simp] theorem State.setStream_now (n : Nat) (f : StreamCtx → StreamCtx) : (s.setStream n f).now = s.now := rfl
@[simp] theorem State.setStream_hif (n : Nat) (f : StreamCtx → StreamCtx) : (s.setStream n f).hif = s.hif := rfl
@[simp] theorem State.setStream_ic (n : Nat) (f : StreamCtx → StreamCtx) : (s.setStream n f).ic = s.ic := rfl
@[simp] theorem State.setStream_sig (n : Nat) (f : StreamCtx → StreamCtx) : (s.setStream n f).sig = s.sig := rfl
@[simp] theorem State.setStream_tick (n : Nat) (f : StreamCtx → StreamCtx) : (s.setStream n f).tick = s.tick := rfl
@[simp] theorem State.setStream_surf (n : Nat) (f : StreamCtx → StreamCtx) : (s.setStream n f).surf = s.surf := rfl
@[simp] theorem State.setStream_comp (n : Nat) (f : StreamCtx → StreamCtx) : (s.setStream n f).comp = s.comp := rfl
@[simp] theorem State.setStream_obj (n : Nat) (f : StreamCtx → StreamCtx) : (s.setStream n f).obj = s.obj := rfl
@[simp] theorem State.setStream_eng (n : Nat) (f : StreamCtx → StreamCtx) : (s.setStream n f).eng = s.eng := rfl
@[simp] theorem State.setStream_light (n : Nat) (f : StreamCtx → StreamCtx) : (s.setStream n f).light = s.light := rfl
@[simp] theorem State.setStream_stk (n : Nat) (f : StreamCtx → StreamCtx) : (s.setStream n f).stk = s.stk := rfl
@[simp] theorem State.setStream_thm (n : Nat) (f : StreamCtx → StreamCtx) : (s.setStream n f).thm = s.thm := rfl
@[simp] theorem State.setStream_pwr (n : Nat) (f : StreamCtx → StreamCtx) : (s.setStream n f).pwr = s.pwr := rfl
@[simp] theorem State.setStream_freeCtr (n : Nat) (f : StreamCtx → StreamCtx) : (s.setStream n f).freeCtr = s.freeCtr := rfl
@[simp] theorem State.setStream_pending (n : Nat) (f : StreamCtx → StreamCtx) : (s.setStream n f).pending = s.pending := rfl
@[simp] theorem State.setStream_word (n : Nat) (f : StreamCtx → StreamCtx) (x : Nat) : (s.setStream n f).word x = s.word x := State.word_congr (s.setStream_regs n f) x
@[simp] theorem State.setStream_rd (n : Nat) (f : StreamCtx → StreamCtx) (x : Fld) : (s.setStream n f).rd x = s.rd x := State.rd_congr (s.setStream_regs n f) x
@[simp] theorem State.setStream_flag (n : Nat) (f : StreamCtx → StreamCtx) (x : Fld) : (s.setStream n f).flag x = s.flag x := by simp only [State.flag, State.setStream_rd]
@[simp] theorem State.setStream_canon (n : Nat) (f : StreamCtx → StreamCtx) : (s.setStream n f).Canon = s.Canon := by simp only [State.Canon, State.setStream_regs]

/-! ### setSurface -/

@[simp] theorem State.setSurface_regs (i : Nat) (f : Surface → Surface) : (s.setSurface i f).regs = s.regs := rfl
@[simp] theorem State.setSurface_now (i : Nat) (f : Surface → Surface) : (s.setSurface i f).now = s.now := rfl
@[simp] theorem State.setSurface_hif (i : Nat) (f : Surface → Surface) : (s.setSurface i f).hif = s.hif := rfl
@[simp] theorem State.setSurface_ic (i : Nat) (f : Surface → Surface) : (s.setSurface i f).ic = s.ic := rfl
@[simp] theorem State.setSurface_sig (i : Nat) (f : Surface → Surface) : (s.setSurface i f).sig = s.sig := rfl
@[simp] theorem State.setSurface_tick (i : Nat) (f : Surface → Surface) : (s.setSurface i f).tick = s.tick := rfl
@[simp] theorem State.setSurface_comp (i : Nat) (f : Surface → Surface) : (s.setSurface i f).comp = s.comp := rfl
@[simp] theorem State.setSurface_obj (i : Nat) (f : Surface → Surface) : (s.setSurface i f).obj = s.obj := rfl
@[simp] theorem State.setSurface_eng (i : Nat) (f : Surface → Surface) : (s.setSurface i f).eng = s.eng := rfl
@[simp] theorem State.setSurface_light (i : Nat) (f : Surface → Surface) : (s.setSurface i f).light = s.light := rfl
@[simp] theorem State.setSurface_bbn (i : Nat) (f : Surface → Surface) : (s.setSurface i f).bbn = s.bbn := rfl
@[simp] theorem State.setSurface_stk (i : Nat) (f : Surface → Surface) : (s.setSurface i f).stk = s.stk := rfl
@[simp] theorem State.setSurface_thm (i : Nat) (f : Surface → Surface) : (s.setSurface i f).thm = s.thm := rfl
@[simp] theorem State.setSurface_pwr (i : Nat) (f : Surface → Surface) : (s.setSurface i f).pwr = s.pwr := rfl
@[simp] theorem State.setSurface_freeCtr (i : Nat) (f : Surface → Surface) : (s.setSurface i f).freeCtr = s.freeCtr := rfl
@[simp] theorem State.setSurface_pending (i : Nat) (f : Surface → Surface) : (s.setSurface i f).pending = s.pending := rfl
@[simp] theorem State.setSurface_word (i : Nat) (f : Surface → Surface) (x : Nat) : (s.setSurface i f).word x = s.word x := State.word_congr (s.setSurface_regs i f) x
@[simp] theorem State.setSurface_rd (i : Nat) (f : Surface → Surface) (x : Fld) : (s.setSurface i f).rd x = s.rd x := State.rd_congr (s.setSurface_regs i f) x
@[simp] theorem State.setSurface_flag (i : Nat) (f : Surface → Surface) (x : Fld) : (s.setSurface i f).flag x = s.flag x := by simp only [State.flag, State.setSurface_rd]
@[simp] theorem State.setSurface_canon (i : Nat) (f : Surface → Surface) : (s.setSurface i f).Canon = s.Canon := by simp only [State.Canon, State.setSurface_regs]

/-! ### memSet -/

@[simp] theorem State.memSet_regs (a : Nat) (b : Byte) : (s.memSet a b).regs = s.regs := by
  unfold State.memSet; (try dsimp only); split <;> rfl
@[simp] theorem State.memSet_now (a : Nat) (b : Byte) : (s.memSet a b).now = s.now := by
  unfold State.memSet; (try dsimp only); split <;> rfl
@[simp] theorem State.memSet_hif (a : Nat) (b : Byte) : (s.memSet a b).hif = s.hif := by
  unfold State.memSet; (try dsimp only); split <;> rfl
@[simp] theorem State.memSet_ic (a : Nat) (b : Byte) : (s.memSet a b).ic = s.ic := by
  unfold State.memSet; (try dsimp only); split <;> rfl
@[simp] theorem State.memSet_sig (a : Nat) (b : Byte) : (s.memSet a b).sig = s.sig := by
  unfold State.memSet; (try dsimp only); split <;> rfl
@[simp] theorem State.memSet_tick (a : Nat) (b : Byte) : (s.memSet a b).tick = s.tick := by
  unfold State.memSet; (try dsimp only); split <;> rfl
@[simp] theorem State.memSet_surf (a : Nat) (b : Byte) : (s.memSet a b).surf = s.surf := by
  unfold State.memSet; (try dsimp only); split <;> rfl
@[simp] theorem State.memSet_comp (a : Nat) (b : Byte) : (s.memSet a b).comp = s.comp := by
  unfold State.memSet; (try dsimp only); split <;> rfl
@[simp] theorem State.memSet_obj (a : Nat) (b : Byte) : (s.memSet a b).obj = s.obj := by
  unfold State.memSet; (try dsimp only); split <;> rfl
@[simp] theorem State.memSet_eng (a : Nat) (b : Byte) : (s.memSet a b).eng = s.eng := by
  unfold State.memSet; (try dsimp only); split <;> rfl
@[simp] theorem State.memSet_light (a : Nat) (b : Byte) : (s.memSet a b).light = s.light := by
  unfold State.memSet; (try dsimp only); split <;> rfl
@[simp] theorem State.memSet_bbn (a : Nat) (b : Byte) : (s.memSet a b).bbn = s.bbn := by
  unfold State.memSet; (try dsimp only); split <;> rfl
@[simp] theorem State.memSet_thm (a : Nat) (b : Byte) : (s.memSet a b).thm = s.thm := by
  unfold State.memSet; (try dsimp only); split <;> rfl
@[simp] theorem State.memSet_pwr (a : Nat) (b : Byte) : (s.memSet a b).pwr = s.pwr := by
  unfold State.memSet; (try dsimp only); split <;> rfl
@[simp] theorem State.memSet_freeCtr (a : Nat) (b : Byte) : (s.memSet a b).freeCtr = s.freeCtr := by
  unfold State.memSet; (try dsimp only); split <;> rfl
@[simp] theorem State.memSet_pending (a : Nat) (b : Byte) : (s.memSet a b).pending = s.pending := by
  unfold State.memSet; (try dsimp only); split <;> rfl
@[simp] theorem State.memSet_word (a : Nat) (b : Byte) (x : Nat) : (s.memSet a b).word x = s.word x := State.word_congr (s.memSet_regs a b) x
@[simp] theorem State.memSet_rd (a : Nat) (b : Byte) (x : Fld) : (s.memSet a b).rd x = s.rd x := State.rd_congr (s.memSet_regs a b) x
@[simp] theorem State.memSet_flag (a : Nat) (b : Byte) (x : Fld) : (s.memSet a b).flag x = s.flag x := by simp only [State.flag, State.memSet_rd]
@[simp] theorem State.memSet_canon (a : Nat) (b : Byte) : (s.memSet a b).Canon = s.Canon := by simp only [State.Canon, State.memSet_regs]

/-! ### raiseWith -/

@[simp] theorem State.raiseWith_regs (n c : Nat) : (s.raiseWith n c).regs = s.regs := rfl
@[simp] theorem State.raiseWith_now (n c : Nat) : (s.raiseWith n c).now = s.now := rfl
@[simp] theorem State.raiseWith_hif (n c : Nat) : (s.raiseWith n c).hif = s.hif := rfl
@[simp] theorem State.raiseWith_sig (n c : Nat) : (s.raiseWith n c).sig = s.sig := rfl
@[simp] theorem State.raiseWith_tick (n c : Nat) : (s.raiseWith n c).tick = s.tick := rfl
@[simp] theorem State.raiseWith_surf (n c : Nat) : (s.raiseWith n c).surf = s.surf := rfl
@[simp] theorem State.raiseWith_comp (n c : Nat) : (s.raiseWith n c).comp = s.comp := rfl
@[simp] theorem State.raiseWith_obj (n c : Nat) : (s.raiseWith n c).obj = s.obj := rfl
@[simp] theorem State.raiseWith_eng (n c : Nat) : (s.raiseWith n c).eng = s.eng := rfl
@[simp] theorem State.raiseWith_light (n c : Nat) : (s.raiseWith n c).light = s.light := rfl
@[simp] theorem State.raiseWith_bbn (n c : Nat) : (s.raiseWith n c).bbn = s.bbn := rfl
@[simp] theorem State.raiseWith_stk (n c : Nat) : (s.raiseWith n c).stk = s.stk := rfl
@[simp] theorem State.raiseWith_thm (n c : Nat) : (s.raiseWith n c).thm = s.thm := rfl
@[simp] theorem State.raiseWith_pwr (n c : Nat) : (s.raiseWith n c).pwr = s.pwr := rfl
@[simp] theorem State.raiseWith_freeCtr (n c : Nat) : (s.raiseWith n c).freeCtr = s.freeCtr := rfl
@[simp] theorem State.raiseWith_pending (n c : Nat) : (s.raiseWith n c).pending = s.pending := rfl
@[simp] theorem State.raiseWith_word (n c : Nat) (x : Nat) : (s.raiseWith n c).word x = s.word x := State.word_congr (s.raiseWith_regs n c) x
@[simp] theorem State.raiseWith_rd (n c : Nat) (x : Fld) : (s.raiseWith n c).rd x = s.rd x := State.rd_congr (s.raiseWith_regs n c) x
@[simp] theorem State.raiseWith_flag (n c : Nat) (x : Fld) : (s.raiseWith n c).flag x = s.flag x := by simp only [State.flag, State.raiseWith_rd]
@[simp] theorem State.raiseWith_canon (n c : Nat) : (s.raiseWith n c).Canon = s.Canon := by simp only [State.Canon, State.raiseWith_regs]

/-! ### raise -/

@[simp] theorem State.raise_regs (n : Nat) : (s.raise n).regs = s.regs := rfl
@[simp] theorem State.raise_now (n : Nat) : (s.raise n).now = s.now := rfl
@[simp] theorem State.raise_hif (n : Nat) : (s.raise n).hif = s.hif := rfl
@[simp] theorem State.raise_sig (n : Nat) : (s.raise n).sig = s.sig := rfl
@[simp] theorem State.raise_tick (n : Nat) : (s.raise n).tick = s.tick := rfl
@[simp] theorem State.raise_surf (n : Nat) : (s.raise n).surf = s.surf := rfl
@[simp] theorem State.raise_comp (n : Nat) : (s.raise n).comp = s.comp := rfl
@[simp] theorem State.raise_obj (n : Nat) : (s.raise n).obj = s.obj := rfl
@[simp] theorem State.raise_eng (n : Nat) : (s.raise n).eng = s.eng := rfl
@[simp] theorem State.raise_light (n : Nat) : (s.raise n).light = s.light := rfl
@[simp] theorem State.raise_bbn (n : Nat) : (s.raise n).bbn = s.bbn := rfl
@[simp] theorem State.raise_stk (n : Nat) : (s.raise n).stk = s.stk := rfl
@[simp] theorem State.raise_thm (n : Nat) : (s.raise n).thm = s.thm := rfl
@[simp] theorem State.raise_pwr (n : Nat) : (s.raise n).pwr = s.pwr := rfl
@[simp] theorem State.raise_freeCtr (n : Nat) : (s.raise n).freeCtr = s.freeCtr := rfl
@[simp] theorem State.raise_pending (n : Nat) : (s.raise n).pending = s.pending := rfl
@[simp] theorem State.raise_word (n : Nat) (x : Nat) : (s.raise n).word x = s.word x := State.word_congr (s.raise_regs n) x
@[simp] theorem State.raise_rd (n : Nat) (x : Fld) : (s.raise n).rd x = s.rd x := State.rd_congr (s.raise_regs n) x
@[simp] theorem State.raise_flag (n : Nat) (x : Fld) : (s.raise n).flag x = s.flag x := by simp only [State.flag, State.raise_rd]
@[simp] theorem State.raise_canon (n : Nat) : (s.raise n).Canon = s.Canon := by simp only [State.Canon, State.raise_regs]

/-! ### setTarget -/

@[simp] theorem State.setTarget_regs (n : Nat) (f : IcTarget → IcTarget) : (s.setTarget n f).regs = s.regs := rfl
@[simp] theorem State.setTarget_now (n : Nat) (f : IcTarget → IcTarget) : (s.setTarget n f).now = s.now := rfl
@[simp] theorem State.setTarget_hif (n : Nat) (f : IcTarget → IcTarget) : (s.setTarget n f).hif = s.hif := rfl
@[simp] theorem State.setTarget_sig (n : Nat) (f : IcTarget → IcTarget) : (s.setTarget n f).sig = s.sig := rfl
@[simp] theorem State.setTarget_tick (n : Nat) (f : IcTarget → IcTarget) : (s.setTarget n f).tick = s.tick := rfl
@[simp] theorem State.setTarget_surf (n : Nat) (f : IcTarget → IcTarget) : (s.setTarget n f).surf = s.surf := rfl
@[simp] theorem State.setTarget_comp (n : Nat) (f : IcTarget → IcTarget) : (s.setTarget n f).comp = s.comp := rfl
@[simp] theorem State.setTarget_obj (n : Nat) (f : IcTarget → IcTarget) : (s.setTarget n f).obj = s.obj := rfl
@[simp] theorem State.setTarget_eng (n : Nat) (f : IcTarget → IcTarget) : (s.setTarget n f).eng = s.eng := rfl
@[simp] theorem State.setTarget_light (n : Nat) (f : IcTarget → IcTarget) : (s.setTarget n f).light = s.light := rfl
@[simp] theorem State.setTarget_bbn (n : Nat) (f : IcTarget → IcTarget) : (s.setTarget n f).bbn = s.bbn := rfl
@[simp] theorem State.setTarget_stk (n : Nat) (f : IcTarget → IcTarget) : (s.setTarget n f).stk = s.stk := rfl
@[simp] theorem State.setTarget_thm (n : Nat) (f : IcTarget → IcTarget) : (s.setTarget n f).thm = s.thm := rfl
@[simp] theorem State.setTarget_pwr (n : Nat) (f : IcTarget → IcTarget) : (s.setTarget n f).pwr = s.pwr := rfl
@[simp] theorem State.setTarget_freeCtr (n : Nat) (f : IcTarget → IcTarget) : (s.setTarget n f).freeCtr = s.freeCtr := rfl
@[simp] theorem State.setTarget_pending (n : Nat) (f : IcTarget → IcTarget) : (s.setTarget n f).pending = s.pending := rfl
@[simp] theorem State.setTarget_word (n : Nat) (f : IcTarget → IcTarget) (x : Nat) : (s.setTarget n f).word x = s.word x := State.word_congr (s.setTarget_regs n f) x
@[simp] theorem State.setTarget_rd (n : Nat) (f : IcTarget → IcTarget) (x : Fld) : (s.setTarget n f).rd x = s.rd x := State.rd_congr (s.setTarget_regs n f) x
@[simp] theorem State.setTarget_flag (n : Nat) (f : IcTarget → IcTarget) (x : Fld) : (s.setTarget n f).flag x = s.flag x := by simp only [State.flag, State.setTarget_rd]
@[simp] theorem State.setTarget_canon (n : Nat) (f : IcTarget → IcTarget) : (s.setTarget n f).Canon = s.Canon := by simp only [State.Canon, State.setTarget_regs]

/-! ### An update of other fields than the registers -/

section
variable (now : Nat) (hif : HifState) (ic : IcState) (sig : SigState) (tick : TickState) (surf : SurfState) (comp : CompSt)
  (obj : SclObjState) (eng : EngSt) (light : LightSt) (bbn : BbnSt) (stk : StkSt) (thm : ThmSt) (pwr : PwrSt) (ctr : Nat)
  (pending : List Instr)

@[simp] theorem State.mk_word (x : Nat) :
    (State.mk s.regs now hif ic sig tick surf comp obj eng light bbn stk thm pwr ctr pending).word x = s.word x := rfl
@[simp] theorem State.mk_rd (x : Fld) :
    (State.mk s.regs now hif ic sig tick surf comp obj eng light bbn stk thm pwr ctr pending).rd x = s.rd x := rfl
@[simp] theorem State.mk_flag (x : Fld) :
    (State.mk s.regs now hif ic sig tick surf comp obj eng light bbn stk thm pwr ctr pending).flag x = s.flag x := rfl
@[simp] theorem State.mk_canon :
    (State.mk s.regs now hif ic sig tick surf comp obj eng light bbn stk thm pwr ctr pending).Canon = s.Canon := rfl
end

end Sys2Proof.Machine
end

