-- ==== Sys2Proof/Laws/Ic.lean ====
section
/-! SUPPORT. What the operations of the interrupt controller do: an arrival, a claim's choice, and the pins that follow. -/

namespace Sys2Proof.Machine

/-- What a fold keeps where each of its steps does. -/
theorem foldl_keeps {α β : Type} {P : β → Prop} {f : β → α → β} {l : List α} (hf : ∀ x a, a ∈ l → P x → P (f x a)) :
    ∀ {x : β}, P x → P (l.foldl f x) := by
  induction l with
  | nil => intro x h; exact h
  | cons a l ih =>
    intro x h
    exact ih (fun x b hb => hf x b (List.mem_cons_of_mem _ hb)) (hf x a (List.mem_cons_self ..) h)

/-- A field that no step of a fold of register writes touches. -/
theorem foldl_rd {α : Type} {f : State → α → State} {l : List α} {x : Fld} {s : State} (h : s.Canon)
    (hf : ∀ y a, a ∈ l → State.Canon y → State.Canon (f y a) ∧ (f y a).rd x = y.rd x) :
    (l.foldl f s).Canon ∧ (l.foldl f s).rd x = s.rd x :=
  foldl_keeps (P := fun y => State.Canon y ∧ y.rd x = s.rd x)
    (fun y a ha hy => ⟨(hf y a ha hy.1).1, (hf y a ha hy.1).2.trans hy.2⟩) ⟨h, rfl⟩

/-- The pins follow the deliverable sets: ASSERTING bits may clear, and nothing else of the registers changes. -/
theorem State.settlePins_rd {s : State} (h : s.Canon) {x : Fld} (hx : ∀ t, t < 16 → x.apart (IC_TGT_STATE.ASSERTING t))
    (hi : x.hi < 64) : s.settlePins.Canon ∧ s.settlePins.rd x = s.rd x := by
  unfold State.settlePins
  have k := foldl_rd (x := x) (l := List.range 16) (s := s) (f := fun s t =>
    if s.flag (IC_TGT_STATE.ASSERTING t) &&
        (!s.flag (IC_TGT_CFG.KIND t) || s.flag (IC_TGT_CFG.ASLEEP t) || (s.deliverables t).isEmpty)
    then s.wr (IC_TGT_STATE.ASSERTING t) 0 else s) h (fun y t ht hy => by
      split
      · exact ⟨wr_canon hy _ _, rd_wr_apart hy _ (hx t (List.mem_range.1 ht)) hi⟩
      · exact ⟨hy, rfl⟩)
  simpa using k

theorem State.settlePins_ic (s : State) : s.settlePins.ic = s.ic := by
  unfold State.settlePins
  refine foldl_keeps (P := fun y => State.ic y = s.ic) (fun y t _ hy => ?_) rfl
  split
  · simpa using hy
  · exact hy

theorem State.settlePins_hif (s : State) : s.settlePins.hif = s.hif := by
  unfold State.settlePins
  refine foldl_keeps (P := fun y => State.hif y = s.hif) (fun y t _ hy => ?_) rfl
  split
  · simpa using hy
  · exact hy

theorem State.countFor_regs (s : State) (n : Nat) : (s.countFor n).regs = s.regs := by
  unfold State.countFor; split <;> simp

/-- The registers after an arrival: the counter has one more and the source is pending. -/
theorem State.arrive_regs (s : State) (n : Nat) :
    (s.arrive n).regs = ((s.bump (IC_SRC_STATE.COUNT n) 1).wr (IC_SRC_STATE.PENDING n) 1).regs := by
  unfold State.arrive
  rw [State.countFor_regs]
  exact State.wr_congr rfl _ _

/-- An arrival changes the registers and the controller alone. -/
theorem State.arrive_parts (s : State) (n : Nat) :
    s.arrive n = { s with regs := (s.arrive n).regs, ic := (s.arrive n).ic } := by
  apply State.eq_of <;> dsimp only <;> (unfold State.arrive State.countFor; split <;> simp [State.markPending])

/-- The best of a list is one of it. -/
theorem State.best_mem {s : State} {n : Nat} : ∀ {l : List Nat}, s.best l = some n → n ∈ l := by
  intro l
  induction l with
  | nil => intro h; cases h
  | cons a r ih =>
    unfold State.best
    cases e : s.best r with
    | none => intro h; simp at h; simp [h]
    | some b =>
      dsimp only
      split
      · intro h; cases h; exact List.mem_cons_of_mem _ (ih e)
      · intro h; cases h; exact List.mem_cons_self ..

end Sys2Proof.Machine
end

