-- ==== Sys2Proof/Laws/Keeps/Base.lean ====
section
/-! SUPPORT. What every command keeps: the queue of the commands that wait, device time never stepping back, the canonical form
of the registers, of the stack's bytes and of the boot flash, and every part of the state that is not in its footprint. One
lemma per operation says that it keeps them. -/

namespace Sys2Proof.Machine

/-- From `r` on to `s`, the queue stands, device time has not stepped back, canonical tables are canonical still, and no part
but those of `F` has changed. -/
structure Keeps (F : List Part) (r s : State) : Prop where
  pending : s.pending = r.pending
  time : r.now ≤ s.now
  regs : Tbl.wf regReset r.regs = true → Tbl.wf regReset s.regs = true
  mem : Memory.wf r.stk.mem = true → Memory.wf s.stk.mem = true
  flash : Tbl.wf erased r.light.cal.flash = true → Tbl.wf erased s.light.cal.flash = true
  parts : ∀ p, p ∈ F ∨ p.same r s

/-- The footprint `F` covers the parts of a list. -/
abbrev Covers (F l : List Part) : Prop := ∀ p ∈ l, p ∈ F

theorem Covers.sub {F l m : List Part} (h : Covers F l) (k : Covers l m) : Covers F m := fun p hp => h p (k p hp)

theorem Covers.one {F l : List Part} {p : Part} (h : Covers F l) (k : p ∈ l) : p ∈ F := h p k

/-- What `KeepsOut` says of an outcome. -/
def keepsOut (F : List Part) (r : State) : Out → Prop
  | .next s => Keeps F r s
  | .fault _ => True
  | .refused _ => True

/-- What `KeepsRes` says of a result. -/
def keepsRes (F : List Part) (r : State) : Res → Prop
  | .done s _ _ => Keeps F r s
  | .wait s _ => Keeps F r s
  | .admitted s => Keeps F r s
  | .rest => True

/-- The outcome of a meaning, if a next state, keeps them. -/
structure KeepsOut (F : List Part) (r : State) (x : Out) : Prop where
  holds : keepsOut F r x

/-- Whatever executing a descriptor comes to keeps them. -/
structure KeepsRes (F : List Part) (r : State) (x : Res) : Prop where
  holds : keepsRes F r x

theorem Part.same_refl (s : State) (p : Part) : p.same s s := by cases p <;> rfl

theorem Part.same_trans {r s t : State} {p : Part} (a : p.same r s) (b : p.same s t) : p.same r t := by
  cases p <;> exact Eq.trans b a

theorem Keeps.refl {F : List Part} (s : State) : Keeps F s s :=
  ⟨rfl, Nat.le_refl _, id, id, id, fun p => .inr (p.same_refl s)⟩

theorem Keeps.trans {F : List Part} {r s t : State} (a : Keeps F r s) (b : Keeps F s t) : Keeps F r t :=
  ⟨b.pending.trans a.pending, Nat.le_trans a.time b.time, b.regs ∘ a.regs, b.mem ∘ a.mem, b.flash ∘ a.flash, fun p =>
    match a.parts p, b.parts p with
    | .inl h, _ => .inl h
    | _, .inl h => .inl h
    | .inr h, .inr k => .inr (Part.same_trans h k)⟩

/-- The parts after an update that is itself within the footprint. -/
theorem Keeps.step {F : List Part} {r s t : State} (h : Keeps F r s) (k : ∀ p, p ∈ F ∨ p.same s t) :
    ∀ p, p ∈ F ∨ p.same r t := fun p =>
  match h.parts p, k p with
  | .inl h, _ => .inl h
  | _, .inl h => .inl h
  | .inr h, .inr k => .inr (Part.same_trans h k)

/-- An update of other fields than the registers, the time and the queue, part by part. -/
theorem Keeps.of_eq {F : List Part} {r s : State} {hif ic sig tick surf comp obj eng light bbn stk thm pwr ctr}
    (h : Keeps F r s) (hm : stk.mem = s.stk.mem) (hf : light.cal.flash = s.light.cal.flash)
    (h1 : hif = s.hif ∨ .hif ∈ F) (h2 : ic = s.ic ∨ .ic ∈ F) (h3 : sig = s.sig ∨ .sig ∈ F) (h4 : tick = s.tick ∨ .tick ∈ F)
    (h5 : surf = s.surf ∨ .surf ∈ F) (h6 : comp = s.comp ∨ .comp ∈ F) (h7 : obj = s.obj ∨ .obj ∈ F)
    (h8 : eng = s.eng ∨ .eng ∈ F) (h9 : light = s.light ∨ .light ∈ F) (h10 : bbn = s.bbn ∨ .bbn ∈ F)
    (h11 : stk = s.stk ∨ .stk ∈ F) (h12 : thm = s.thm ∨ .thm ∈ F) (h13 : pwr = s.pwr ∨ .pwr ∈ F)
    (h14 : pwr.fuses = s.pwr.fuses ∨ .fuses ∈ F) :
    Keeps F r (State.mk s.regs s.now hif ic sig tick surf comp obj eng light bbn stk thm pwr ctr s.pending) :=
  ⟨h.pending, h.time, h.regs, fun x => by simpa only [hm] using h.mem x, fun x => by simpa only [hf] using h.flash x,
   h.step fun p => by
    cases p with
    | hif => exact h1.symm
    | ic => exact h2.symm
    | sig => exact h3.symm
    | tick => exact h4.symm
    | surf => exact h5.symm
    | comp => exact h6.symm
    | obj => exact h7.symm
    | eng => exact h8.symm
    | light => exact h9.symm.imp_right fun e => by simp only [Part.same, e]
    | bbn => exact h10.symm
    | stk => exact h11.symm.imp_right fun e => by simp only [Part.same, e]
    | thm => exact h12.symm
    | pwr => exact h13.symm.imp_right fun e => by simp only [Part.same, e]
    | mem => exact .inr hm
    | flash => exact .inr hf
    | fuses => exact h14.symm⟩

theorem Keeps.setRegs {F : List Part} {r s : State} {x : Tbl Word} (h : Keeps F r s)
    (k : Tbl.wf regReset s.regs = true → Tbl.wf regReset x = true) : Keeps F r { s with regs := x } :=
  ⟨h.pending, h.time, k ∘ h.regs, h.mem, h.flash, h.step fun p => .inr (by cases p <;> rfl)⟩

theorem Keeps.setNow {F : List Part} {r s : State} {t : Nat} (h : Keeps F r s) (k : s.now ≤ t) :
    Keeps F r { s with now := t } :=
  ⟨h.pending, Nat.le_trans h.time k, h.regs, h.mem, h.flash, h.step fun p => .inr (by cases p <;> rfl)⟩

theorem Keeps.setMem {F : List Part} {r s : State} {x : List Host.Cell} (hF : .mem ∈ F) (h : Keeps F r s)
    (k : Memory.wf s.stk.mem = true → Memory.wf x = true) : Keeps F r { s with stk := { s.stk with mem := x } } :=
  ⟨h.pending, h.time, h.regs, k ∘ h.mem, h.flash, h.step fun p => by
    cases p with
    | mem => exact .inl hF
    | _ => exact .inr rfl⟩

theorem Keeps.setFlash {F : List Part} {r s : State} {x : Tbl (BitVec 8)} (hF : .flash ∈ F) (h : Keeps F r s)
    (k : Tbl.wf erased s.light.cal.flash = true → Tbl.wf erased x = true) :
    Keeps F r { s with light := { s.light with cal := { s.light.cal with flash := x } } } :=
  ⟨h.pending, h.time, h.regs, h.mem, k ∘ h.flash, h.step fun p => by
    cases p with
    | flash => exact .inl hF
    | _ => exact .inr rfl⟩

theorem Keeps.ite {F : List Part} {r a b : State} {c : Prop} [Decidable c] (ha : Keeps F r a) (hb : Keeps F r b) :
    Keeps F r (if c then a else b) := by
  split
  · exact ha
  · exact hb

theorem KeepsOut.ite {F : List Part} {r : State} {a b : Out} {c : Prop} [Decidable c] (ha : KeepsOut F r a)
    (hb : KeepsOut F r b) : KeepsOut F r (if c then a else b) := by
  split
  · exact ha
  · exact hb

theorem KeepsRes.ite {F : List Part} {r : State} {a b : Res} {c : Prop} [Decidable c] (ha : KeepsRes F r a)
    (hb : KeepsRes F r b) : KeepsRes F r (if c then a else b) := by
  split
  · exact ha
  · exact hb

theorem Keeps.foldl {α : Type} {F : List Part} {r s : State} {f : State → α → State} {l : List α}
    (hf : ∀ x a, Keeps F r x → Keeps F r (f x a)) (h : Keeps F r s) : Keeps F r (l.foldl f s) := by
  induction l generalizing s with
  | nil => exact h
  | cons a l ih => exact ih (hf _ _ h)

/-- A state in between that keeps them. -/
theorem Keeps.take {F : List Part} {r s : State} {P : Prop} (h : Keeps F r s) (k : Keeps F r s → P) : P := k h

theorem Keeps.next {F : List Part} {r s : State} (h : Keeps F r s) : KeepsOut F r (.next s) := ⟨h⟩
theorem Keeps.done {F : List Part} {r s : State} {c d : Nat} (h : Keeps F r s) : KeepsRes F r (.done s c d) := ⟨h⟩
theorem Keeps.wait {F : List Part} {r s : State} {b : Busy} (h : Keeps F r s) : KeepsRes F r (.wait s b) := ⟨h⟩
theorem Keeps.admitted {F : List Part} {r s : State} (h : Keeps F r s) : KeepsRes F r (.admitted s) := ⟨h⟩
theorem Keeps.rest {F : List Part} {r : State} : KeepsRes F r .rest := ⟨trivial⟩

end Sys2Proof.Machine
end

