-- ==== Sys2Proof/Laws/Keeps/Ops.lean ====
section
/-! SUPPORT. What every command keeps, operation by operation: those of Machine/Ops.lean. -/

namespace Sys2Proof.Machine

variable {F : List Part} {r : State}

theorem State.setWord_keeps {s : State} {a : Nat} {w : Word} (h : Keeps F r s) : Keeps F r (s.setWord a w) :=
  h.setRegs fun x => Tbl.wf_put x

theorem State.wr_keeps {s1 : State} {a1 : Fld} {a2 : Nat} (hs1 : Keeps F r s1) : Keeps F r (State.wr s1 a1 a2) := by
  unfold State.wr
  try lift_lets
  with_reducible repeat' first
    | (refine Keeps.ite ?_ ?_) <;> try lift_lets | assumption | apply State.setWord_keeps
    | (intro x; refine Keeps.take (s := x) ?_ fun hx => ?_; rotate_left; clear_value x; rotate_left; unfold x; try lift_lets)
    | intro x

theorem State.bump_keeps {s1 : State} {a1 : Fld} {a2 : Nat} (hs1 : Keeps F r s1) : Keeps F r (State.bump s1 a1 a2) := by
  unfold State.bump
  with_reducible repeat' first
    | assumption | apply State.wr_keeps

theorem State.countC3_keeps {s1 : State} {a1 a2 : Nat} (hF : Covers F [.stk]) (hs1 : Keeps F r s1) :
    Keeps F r (State.countC3 s1 a1 a2) := by
  unfold State.countC3
  try lift_lets
  with_reducible repeat' first
    | exact .inr (hF.one (by decide)) | exact .inl rfl | rfl | (refine Keeps.ite ?_ ?_) <;> try lift_lets | assumption
    | (refine Keeps.foldl (fun _ _ _ => ?_) ?_) <;> try lift_lets | (refine Covers.sub hF ?_; decide)
    | (intro x; refine Keeps.take (s := x) ?_ fun hx => ?_; rotate_left; clear_value x; rotate_left; unfold x; try lift_lets)
    | intro x | refine Keeps.of_eq ?_ ?_ ?_ ?_ ?_ ?_ ?_ ?_ ?_ ?_ ?_ ?_ ?_ ?_ ?_ ?_ ?_

theorem State.countFenced_keeps {s1 : State} {a1 a2 : Nat} (hs1 : Keeps F r s1) :
    Keeps F r (State.countFenced s1 a1 a2) := by
  unfold State.countFenced
  try lift_lets
  with_reducible repeat' first
    | (refine Keeps.ite ?_ ?_) <;> try lift_lets | assumption | apply State.bump_keeps
    | (refine Keeps.foldl (fun _ _ _ => ?_) ?_) <;> try lift_lets
    | (intro x; refine Keeps.take (s := x) ?_ fun hx => ?_; rotate_left; clear_value x; rotate_left; unfold x; try lift_lets)
    | intro x

theorem State.fencedReads_keeps {s1 : State} (hs1 : Keeps F r s1) : Keeps F r (State.fencedReads s1) := by
  unfold State.fencedReads
  try lift_lets
  with_reducible repeat' first
    | exact .inl rfl | rfl | assumption | apply State.bump_keeps
    | (refine Keeps.foldl (fun _ _ _ => ?_) ?_) <;> try lift_lets
    | (intro x; refine Keeps.take (s := x) ?_ fun hx => ?_; rotate_left; clear_value x; rotate_left; unfold x; try lift_lets)
    | intro x | refine Keeps.of_eq ?_ ?_ ?_ ?_ ?_ ?_ ?_ ?_ ?_ ?_ ?_ ?_ ?_ ?_ ?_ ?_ ?_

theorem State.hostWrite_keeps {s1 : State} {a1 a2 a3 : Nat} (hF : Covers F [.hif]) (hs1 : Keeps F r s1) :
    Keeps F r (State.hostWrite s1 a1 a2 a3) := by
  unfold State.hostWrite
  try lift_lets
  with_reducible repeat' first
    | exact .inr (hF.one (by decide)) | exact .inl rfl | rfl | (refine Keeps.ite ?_ ?_) <;> try lift_lets | assumption
    | (refine Covers.sub hF ?_; decide)
    | (intro x; refine Keeps.take (s := x) ?_ fun hx => ?_; rotate_left; clear_value x; rotate_left; unfold x; try lift_lets)
    | intro x | refine Keeps.of_eq ?_ ?_ ?_ ?_ ?_ ?_ ?_ ?_ ?_ ?_ ?_ ?_ ?_ ?_ ?_ ?_ ?_

theorem State.inService_keeps {s1 : State} {a1 : State → State} (hs1 : Keeps F r s1) (ha1 : ∀ y0, Keeps F r y0 → Keeps F r
    (a1 y0)) : Keeps F r (State.inService s1 a1) := by
  unfold State.inService
  with_reducible repeat' first
    | (refine Keeps.ite ?_ ?_) | assumption | apply ha1 | (refine fun x (hx : Keeps F r x) => ?_; try lift_lets)
    | (intro x; refine Keeps.take (s := x) ?_ fun hx => ?_; rotate_left; clear_value x; rotate_left; unfold x; try lift_lets)
    | intro x

theorem State.memSet_keeps {s : State} {a : Nat} {b : Byte} (hF : Covers F [.mem]) (h : Keeps F r s) : Keeps F r (s.memSet a b) := by
  unfold State.memSet
  lift_lets
  intro l
  split
  · exact h
  · exact h.setMem (hF _ (by decide)) fun x => Tbl.wf_put x

theorem State.memWrite_keeps {s : State} {a : Nat} {bs : List Byte} (hF : Covers F [.mem]) (h : Keeps F r s) : Keeps F r (s.memWrite a bs) := by
  induction bs generalizing s a with
  | nil => exact h
  | cons b bs ih => exact ih (State.memSet_keeps (hF.sub (by decide)) h)

theorem State.reach_keeps {s : State} {t : Nat} (h : Keeps F r s) : Keeps F r (s.reach t) :=
  h.setNow (Nat.le_max_left _ _)

theorem State.setEngine_keeps {s1 : State} {a1 : Nat} {a2 : EngState → EngState} (hF : Covers F [.eng])
    (hs1 : Keeps F r s1) : Keeps F r (State.setEngine s1 a1 a2) := by
  unfold State.setEngine
  try lift_lets
  with_reducible repeat' first
    | exact .inr (hF.one (by decide)) | exact .inl rfl | rfl | assumption | (refine Covers.sub hF ?_; decide)
    | (intro x; refine Keeps.take (s := x) ?_ fun hx => ?_; rotate_left; clear_value x; rotate_left; unfold x; try lift_lets)
    | intro x | refine Keeps.of_eq ?_ ?_ ?_ ?_ ?_ ?_ ?_ ?_ ?_ ?_ ?_ ?_ ?_ ?_ ?_ ?_ ?_

theorem State.setEvr_keeps {s1 : State} {a1 : Nat} {a2 : EvReel → EvReel} (hF : Covers F [.hif]) (hs1 : Keeps F r s1) :
    Keeps F r (State.setEvr s1 a1 a2) := by
  unfold State.setEvr
  try lift_lets
  with_reducible repeat' first
    | exact .inr (hF.one (by decide)) | exact .inl rfl | rfl | assumption | (refine Covers.sub hF ?_; decide)
    | (intro x; refine Keeps.take (s := x) ?_ fun hx => ?_; rotate_left; clear_value x; rotate_left; unfold x; try lift_lets)
    | intro x | refine Keeps.of_eq ?_ ?_ ?_ ?_ ?_ ?_ ?_ ?_ ?_ ?_ ?_ ?_ ?_ ?_ ?_ ?_ ?_

theorem State.setLight_keeps {s1 : State} {a1 : Nat} {a2 : LightEng → LightEng} (hF : Covers F [.light])
    (hs1 : Keeps F r s1) : Keeps F r (State.setLight s1 a1 a2) := by
  unfold State.setLight
  try lift_lets
  with_reducible repeat' first
    | exact .inr (hF.one (by decide)) | exact .inl rfl | rfl | assumption | (refine Covers.sub hF ?_; decide)
    | (intro x; refine Keeps.take (s := x) ?_ fun hx => ?_; rotate_left; clear_value x; rotate_left; unfold x; try lift_lets)
    | intro x | refine Keeps.of_eq ?_ ?_ ?_ ?_ ?_ ?_ ?_ ?_ ?_ ?_ ?_ ?_ ?_ ?_ ?_ ?_ ?_

theorem State.setLink_keeps {s1 : State} {a1 : Nat} {a2 : SubPort → SubPort} (hF : Covers F [.eng]) (hs1 : Keeps F r s1) :
    Keeps F r (State.setLink s1 a1 a2) := by
  unfold State.setLink
  with_reducible repeat' first
    | assumption | apply State.setEngine_keeps | (refine Covers.sub hF ?_; decide)

theorem State.setPort_keeps {s1 : State} {a1 : Nat} {a2 : PortLink → PortLink} (hF : Covers F [.eng])
    (hs1 : Keeps F r s1) : Keeps F r (State.setPort s1 a1 a2) := by
  unfold State.setPort
  try lift_lets
  with_reducible repeat' first
    | exact .inr (hF.one (by decide)) | exact .inl rfl | rfl | assumption | (refine Covers.sub hF ?_; decide)
    | (intro x; refine Keeps.take (s := x) ?_ fun hx => ?_; rotate_left; clear_value x; rotate_left; unfold x; try lift_lets)
    | intro x | refine Keeps.of_eq ?_ ?_ ?_ ?_ ?_ ?_ ?_ ?_ ?_ ?_ ?_ ?_ ?_ ?_ ?_ ?_ ?_

theorem State.setReel_keeps {s1 : State} {a1 : Nat} {a2 : CmdReel → CmdReel} (hF : Covers F [.hif]) (hs1 : Keeps F r s1) :
    Keeps F r (State.setReel s1 a1 a2) := by
  unfold State.setReel
  try lift_lets
  with_reducible repeat' first
    | exact .inr (hF.one (by decide)) | exact .inl rfl | rfl | assumption | (refine Covers.sub hF ?_; decide)
    | (intro x; refine Keeps.take (s := x) ?_ fun hx => ?_; rotate_left; clear_value x; rotate_left; unfold x; try lift_lets)
    | intro x | refine Keeps.of_eq ?_ ?_ ?_ ?_ ?_ ?_ ?_ ?_ ?_ ?_ ?_ ?_ ?_ ?_ ?_ ?_ ?_

theorem State.setRun_keeps {s1 : State} {a1 : Nat} {a2 : FlyRun → FlyRun} (hF : Covers F [.eng]) (hs1 : Keeps F r s1) :
    Keeps F r (State.setRun s1 a1 a2) := by
  unfold State.setRun
  with_reducible repeat' first
    | assumption | apply State.setEngine_keeps | (refine Covers.sub hF ?_; decide)

theorem State.setStream_keeps {s1 : State} {a1 : Nat} {a2 : StreamCtx → StreamCtx} (hF : Covers F [.bbn])
    (hs1 : Keeps F r s1) : Keeps F r (State.setStream s1 a1 a2) := by
  unfold State.setStream
  try lift_lets
  with_reducible repeat' first
    | exact .inr (hF.one (by decide)) | exact .inl rfl | rfl | assumption | (refine Covers.sub hF ?_; decide)
    | (intro x; refine Keeps.take (s := x) ?_ fun hx => ?_; rotate_left; clear_value x; rotate_left; unfold x; try lift_lets)
    | intro x | refine Keeps.of_eq ?_ ?_ ?_ ?_ ?_ ?_ ?_ ?_ ?_ ?_ ?_ ?_ ?_ ?_ ?_ ?_ ?_

theorem State.setSurface_keeps {s1 : State} {a1 : Nat} {a2 : Surface → Surface} (hF : Covers F [.surf])
    (hs1 : Keeps F r s1) : Keeps F r (State.setSurface s1 a1 a2) := by
  unfold State.setSurface
  try lift_lets
  with_reducible repeat' first
    | exact .inr (hF.one (by decide)) | exact .inl rfl | rfl | assumption | (refine Covers.sub hF ?_; decide)
    | (intro x; refine Keeps.take (s := x) ?_ fun hx => ?_; rotate_left; clear_value x; rotate_left; unfold x; try lift_lets)
    | intro x | refine Keeps.of_eq ?_ ?_ ?_ ?_ ?_ ?_ ?_ ?_ ?_ ?_ ?_ ?_ ?_ ?_ ?_ ?_ ?_

theorem State.store_keeps {s1 : State} {a1 : Nat} {a2 : List Byte} (hF : Covers F [.mem]) (hs1 : Keeps F r s1) :
    Keeps F r (State.store s1 a1 a2) := by
  unfold State.store
  with_reducible repeat' first
    | assumption | apply State.memWrite_keeps | apply State.countFenced_keeps | (refine Covers.sub hF ?_; decide)

theorem State.store3_keeps {s1 : State} {a1 : Nat} {a2 : List Byte} (hF : Covers F [.stk, .mem]) (hs1 : Keeps F r s1) :
    Keeps F r (State.store3 s1 a1 a2) := by
  unfold State.store3
  with_reducible repeat' first
    | assumption | apply State.store_keeps | apply State.countC3_keeps | (refine Covers.sub hF ?_; decide)

theorem State.wrs_keeps {s1 : State} {a1 : List (Fld × Nat)} (hs1 : Keeps F r s1) : Keeps F r (State.wrs s1 a1) := by
  unfold State.wrs
  with_reducible repeat' first
    | assumption | apply State.wr_keeps | (refine Keeps.foldl (fun _ _ _ => ?_) ?_)

end Sys2Proof.Machine
end

