-- ==== Sys2Proof/Laws/Keeps/Flags.lean ====
section
/-! SUPPORT. What every command keeps, operation by operation: those of Machine/Flags.lean. -/

namespace Sys2Proof.Machine

variable {F : List Part} {r : State}

theorem State.arm_keeps {s1 : State} {a1 : Nat} (hs1 : Keeps F r s1) : Keeps F r (State.arm s1 a1) := by
  unfold State.arm
  with_reducible repeat' first
    | assumption | apply State.wr_keeps

theorem State.setTarget_keeps {s1 : State} {a1 : Nat} {a2 : IcTarget → IcTarget} (hF : Covers F [.ic])
    (hs1 : Keeps F r s1) : Keeps F r (State.setTarget s1 a1 a2) := by
  unfold State.setTarget
  try lift_lets
  with_reducible repeat' first
    | exact .inr (hF.one (by decide)) | exact .inl rfl | rfl | assumption | (refine Covers.sub hF ?_; decide)
    | (intro x; refine Keeps.take (s := x) ?_ fun hx => ?_; rotate_left; clear_value x; rotate_left; unfold x; try lift_lets)
    | intro x | refine Keeps.of_eq ?_ ?_ ?_ ?_ ?_ ?_ ?_ ?_ ?_ ?_ ?_ ?_ ?_ ?_ ?_ ?_ ?_

theorem State.countFor_keeps {s1 : State} {a1 : Nat} (hF : Covers F [.ic]) (hs1 : Keeps F r s1) :
    Keeps F r (State.countFor s1 a1) := by
  unfold State.countFor
  with_reducible repeat' first
    | (refine Keeps.ite ?_ ?_) | assumption | apply State.setTarget_keeps | (refine Covers.sub hF ?_; decide)

theorem State.markPending_keeps {s1 : State} {a1 : Nat} (hF : Covers F [.ic]) (hs1 : Keeps F r s1) :
    Keeps F r (State.markPending s1 a1) := by
  unfold State.markPending
  try lift_lets
  with_reducible repeat' first
    | exact .inr (hF.one (by decide)) | exact .inl rfl | rfl | (refine Keeps.ite ?_ ?_) <;> try lift_lets | assumption
    | (refine Covers.sub hF ?_; decide)
    | (intro x; refine Keeps.take (s := x) ?_ fun hx => ?_; rotate_left; clear_value x; rotate_left; unfold x; try lift_lets)
    | intro x | refine Keeps.of_eq ?_ ?_ ?_ ?_ ?_ ?_ ?_ ?_ ?_ ?_ ?_ ?_ ?_ ?_ ?_ ?_ ?_

theorem State.arrive_keeps {s1 : State} {a1 : Nat} (hF : Covers F [.ic]) (hs1 : Keeps F r s1) :
    Keeps F r (State.arrive s1 a1) := by
  unfold State.arrive
  with_reducible repeat' first
    | assumption | apply State.countFor_keeps | apply State.wr_keeps | apply State.markPending_keeps
    | apply State.bump_keeps | (refine Covers.sub hF ?_; decide)

theorem State.raiseWith_keeps {s1 : State} {a1 a2 : Nat} (hF : Covers F [.ic]) (hs1 : Keeps F r s1) :
    Keeps F r (State.raiseWith s1 a1 a2) := by
  unfold State.raiseWith
  try lift_lets
  with_reducible repeat' first
    | exact .inr (hF.one (by decide)) | exact .inl rfl | rfl | assumption | (refine Covers.sub hF ?_; decide)
    | (intro x; refine Keeps.take (s := x) ?_ fun hx => ?_; rotate_left; clear_value x; rotate_left; unfold x; try lift_lets)
    | intro x | refine Keeps.of_eq ?_ ?_ ?_ ?_ ?_ ?_ ?_ ?_ ?_ ?_ ?_ ?_ ?_ ?_ ?_ ?_ ?_

theorem State.raise_keeps {s1 : State} {a1 : Nat} (hF : Covers F [.ic]) (hs1 : Keeps F r s1) :
    Keeps F r (State.raise s1 a1) := by
  unfold State.raise
  with_reducible repeat' first
    | assumption | apply State.raiseWith_keeps | (refine Covers.sub hF ?_; decide)

theorem State.putRecord_keeps {s1 : State} {a1 : Nat} {a2 : Record} (hF : Covers F [.hif, .ic]) (hs1 : Keeps F r s1) :
    Keeps F r (State.putRecord s1 a1 a2) := by
  unfold State.putRecord
  try lift_lets
  with_reducible repeat' first
    | (refine Keeps.ite ?_ ?_) <;> try lift_lets | assumption | apply State.hostWrite_keeps | apply State.wr_keeps
    | apply State.raise_keeps | (refine Covers.sub hF ?_; decide)
    | (intro x; refine Keeps.take (s := x) ?_ fun hx => ?_; rotate_left; clear_value x; rotate_left; unfold x; try lift_lets)
    | intro x

theorem State.drainList_keeps {s : State} {v : Nat} {l : List Alarm} (hF : Covers F [.hif, .ic]) (h : Keeps F r s) : Keeps F r (s.drainList v l) := by
  induction l generalizing s with
  | nil => exact State.setEvr_keeps (hF.sub (by decide)) h
  | cons a l ih =>
    unfold State.drainList
    split
    · exact ih (State.putRecord_keeps (hF.sub (by decide)) h)
    · exact State.setEvr_keeps (hF.sub (by decide)) h

theorem State.drainAlarms_keeps {s1 : State} {a1 : Nat} (hF : Covers F [.hif, .ic]) (hs1 : Keeps F r s1) :
    Keeps F r (State.drainAlarms s1 a1) := by
  unfold State.drainAlarms
  with_reducible repeat' first
    | (refine Keeps.ite ?_ ?_) | assumption | apply State.drainList_keeps | (refine Covers.sub hF ?_; decide)

theorem State.dropRecord_keeps {s1 : State} {a1 : Nat} {a2 : Record} (hF : Covers F [.hif]) (hs1 : Keeps F r s1) :
    Keeps F r (State.dropRecord s1 a1 a2) := by
  unfold State.dropRecord
  try lift_lets
  with_reducible repeat' first
    | assumption | apply State.bump_keeps | apply State.setEvr_keeps | (refine Covers.sub hF ?_; decide)
    | (intro x; refine Keeps.take (s := x) ?_ fun hx => ?_; rotate_left; clear_value x; rotate_left; unfold x; try lift_lets)
    | intro x

theorem State.emitAlarm_keeps {s1 : State} {a1 : Nat} {a2 : Alarm} (hF : Covers F [.hif, .ic]) (hs1 : Keeps F r s1) :
    Keeps F r (State.emitAlarm s1 a1 a2) := by
  unfold State.emitAlarm
  try lift_lets
  with_reducible repeat' first
    | (refine Keeps.ite ?_ ?_) <;> try lift_lets | assumption | apply State.drainAlarms_keeps | apply State.putRecord_keeps
    | apply State.setEvr_keeps | apply State.wr_keeps | (refine Covers.sub hF ?_; decide)
    | (intro x; refine Keeps.take (s := x) ?_ fun hx => ?_; rotate_left; clear_value x; rotate_left; unfold x; try lift_lets)
    | intro x

theorem State.flushFollowUps_keeps {s1 : State} {a1 : Nat} (hF : Covers F [.hif, .ic]) (hs1 : Keeps F r s1) :
    Keeps F r (State.flushFollowUps s1 a1) := by
  unfold State.flushFollowUps
  try lift_lets
  with_reducible repeat' first
    | assumption | apply State.emitAlarm_keeps | apply State.setEvr_keeps
    | (refine Keeps.foldl (fun _ _ _ => ?_) ?_) <;> try lift_lets | (refine Covers.sub hF ?_; decide)
    | (intro x; refine Keeps.take (s := x) ?_ fun hx => ?_; rotate_left; clear_value x; rotate_left; unfold x; try lift_lets)
    | intro x

theorem State.msgDoorbell_keeps {s1 : State} {a1 : Nat} (hF : Covers F [.ic]) (hs1 : Keeps F r s1) :
    Keeps F r (State.msgDoorbell s1 a1) := by
  unfold State.msgDoorbell
  with_reducible repeat' first
    | (refine Keeps.ite ?_ ?_) | assumption | apply State.arrive_keeps | apply State.bump_keeps
    | (refine Covers.sub hF ?_; decide)

theorem State.postAlarm_keeps {s1 : State} {a1 : Nat} {a2 : Ident} {a3 : Record} (hF : Covers F [.hif, .ic])
    (hs1 : Keeps F r s1) : Keeps F r (State.postAlarm s1 a1 a2 a3) := by
  unfold State.postAlarm
  with_reducible repeat' first
    | (refine Keeps.ite ?_ ?_) | assumption | apply State.bump_keeps | apply State.emitAlarm_keeps
    | apply State.setEvr_keeps | (refine Covers.sub hF ?_; decide)

theorem State.postOther_keeps {s1 : State} {a1 a2 : Nat} {a3 : Record} (hF : Covers F [.hif, .ic]) (hs1 : Keeps F r s1) :
    Keeps F r (State.postOther s1 a1 a2 a3) := by
  unfold State.postOther
  try lift_lets
  with_reducible repeat' first
    | (refine Keeps.ite ?_ ?_) <;> try lift_lets | assumption | apply State.bump_keeps | apply State.drainAlarms_keeps
    | apply State.setEvr_keeps | apply State.putRecord_keeps | apply State.dropRecord_keeps
    | (refine Covers.sub hF ?_; decide)
    | (intro x; refine Keeps.take (s := x) ?_ fun hx => ?_; rotate_left; clear_value x; rotate_left; unfold x; try lift_lets)
    | intro x

theorem State.notice_keeps {s1 : State} {a1 a2 a3 a4 a5 : Nat} (hF : Covers F [.hif, .ic]) (hs1 : Keeps F r s1) :
    Keeps F r (State.notice s1 a1 a2 a3 a4 a5) := by
  unfold State.notice
  try lift_lets
  with_reducible repeat' first
    | (refine Keeps.ite ?_ ?_) <;> try lift_lets | assumption | apply State.postAlarm_keeps | apply State.postOther_keeps
    | (refine Covers.sub hF ?_; decide)
    | (intro x; refine Keeps.take (s := x) ?_ fun hx => ?_; rotate_left; clear_value x; rotate_left; unfold x; try lift_lets)
    | intro x

theorem State.post_keeps {s1 : State} {a1 : Nat} {a2 : Ident} {a3 : Record} (hF : Covers F [.hif, .ic])
    (hs1 : Keeps F r s1) : Keeps F r (State.post s1 a1 a2 a3) := by
  unfold State.post
  with_reducible repeat' first
    | (refine Keeps.ite ?_ ?_) | assumption | apply State.postAlarm_keeps | apply State.postOther_keeps
    | (refine Covers.sub hF ?_; decide)

theorem State.postCondition_keeps {s1 : State} {a1 a2 : Nat} (hF : Covers F [.hif, .ic]) (hs1 : Keeps F r s1) :
    Keeps F r (State.postCondition s1 a1 a2) := by
  unfold State.postCondition
  try lift_lets
  with_reducible repeat' first
    | (refine Keeps.ite ?_ ?_) <;> try lift_lets | assumption | apply State.post_keeps | (refine Covers.sub hF ?_; decide)
    | (intro x; refine Keeps.take (s := x) ?_ fun hx => ?_; rotate_left; clear_value x; rotate_left; unfold x; try lift_lets)
    | intro x

theorem State.postEscalation_keeps {s1 : State} {a1 a2 a3 a4 a5 a6 : Nat} {a7 a8 : Bool} (hF : Covers F [.hif, .ic])
    (hs1 : Keeps F r s1) : Keeps F r (State.postEscalation s1 a1 a2 a3 a4 a5 a6 a7 a8) := by
  unfold State.postEscalation
  with_reducible repeat' first
    | assumption | apply State.post_keeps | (refine Covers.sub hF ?_; decide)

theorem State.postPlaneCrc_keeps {s1 : State} {a1 a2 a3 a4 a5 : Nat} (hF : Covers F [.hif, .ic]) (hs1 : Keeps F r s1) :
    Keeps F r (State.postPlaneCrc s1 a1 a2 a3 a4 a5) := by
  unfold State.postPlaneCrc
  with_reducible repeat' first
    | assumption | apply State.post_keeps | (refine Covers.sub hF ?_; decide)

theorem State.postSignature_keeps {s1 : State} {a1 a2 a3 a4 a5 : Nat} (hF : Covers F [.hif, .ic]) (hs1 : Keeps F r s1) :
    Keeps F r (State.postSignature s1 a1 a2 a3 a4 a5) := by
  unfold State.postSignature
  with_reducible repeat' first
    | assumption | apply State.post_keeps | (refine Covers.sub hF ?_; decide)

theorem State.raiseLink_keeps {s1 : State} {a1 : Nat} (hF : Covers F [.ic]) (hs1 : Keeps F r s1) :
    Keeps F r (State.raiseLink s1 a1) := by
  unfold State.raiseLink
  with_reducible repeat' first
    | assumption | apply State.raiseWith_keeps | (refine Covers.sub hF ?_; decide)

theorem State.sendMsix_keeps {s1 : State} {a1 : Nat} (hF : Covers F [.hif]) (hs1 : Keeps F r s1) :
    Keeps F r (State.sendMsix s1 a1) := by
  unfold State.sendMsix
  try lift_lets
  with_reducible repeat' first
    | exact .inr (hF.one (by decide)) | exact .inl rfl | rfl | (refine Keeps.ite ?_ ?_) <;> try lift_lets | assumption
    | (refine Covers.sub hF ?_; decide)
    | (intro x; refine Keeps.take (s := x) ?_ fun hx => ?_; rotate_left; clear_value x; rotate_left; unfold x; try lift_lets)
    | intro x | refine Keeps.of_eq ?_ ?_ ?_ ?_ ?_ ?_ ?_ ?_ ?_ ?_ ?_ ?_ ?_ ?_ ?_ ?_ ?_

theorem State.settlePins_keeps {s1 : State} (hF : Covers F [.pwr]) (hs1 : Keeps F r s1) :
    Keeps F r (State.settlePins s1) := by
  unfold State.settlePins
  try lift_lets
  with_reducible repeat' first
    | exact .inr (hF.one (by decide)) | exact .inl rfl | rfl | (refine Keeps.ite ?_ ?_) <;> try lift_lets | assumption
    | apply State.wr_keeps | (refine Keeps.foldl (fun _ _ _ => ?_) ?_) <;> try lift_lets | (refine Covers.sub hF ?_; decide)
    | (intro x; refine Keeps.take (s := x) ?_ fun hx => ?_; rotate_left; clear_value x; rotate_left; unfold x; try lift_lets)
    | intro x | refine Keeps.of_eq ?_ ?_ ?_ ?_ ?_ ?_ ?_ ?_ ?_ ?_ ?_ ?_ ?_ ?_ ?_ ?_ ?_

theorem State.writeSummary_keeps {s1 : State} {a1 : Nat} (hF : Covers F [.hif, .ic]) (hs1 : Keeps F r s1) :
    Keeps F r (State.writeSummary s1 a1) := by
  unfold State.writeSummary
  try lift_lets
  with_reducible repeat' first
    | exact .inr (hF.one (by decide)) | exact .inl rfl | rfl | (refine Keeps.ite ?_ ?_) <;> try lift_lets | assumption
    | apply State.putRecord_keeps | apply State.setEvr_keeps | apply State.bump_keeps | (split <;> try lift_lets)
    | (refine Covers.sub hF ?_; decide)
    | (intro x; refine Keeps.take (s := x) ?_ fun hx => ?_; rotate_left; clear_value x; rotate_left; unfold x; try lift_lets)
    | intro x | refine Keeps.of_eq ?_ ?_ ?_ ?_ ?_ ?_ ?_ ?_ ?_ ?_ ?_ ?_ ?_ ?_ ?_ ?_ ?_

end Sys2Proof.Machine
end

