-- ==== Sys2Proof/Laws/Keeps/Interrupts.lean ====
section
/-! SUPPORT. What every command keeps, operation by operation: those of Machine/Interrupts.lean. -/

namespace Sys2Proof.Machine

variable {F : List Part} {r : State}

theorem State.setClaimed_keeps {s1 : State} {a1 : Word} (hF : Covers F [.ic]) (hs1 : Keeps F r s1) :
    Keeps F r (State.setClaimed s1 a1) := by
  unfold State.setClaimed
  try lift_lets
  with_reducible repeat' first
    | exact .inr (hF.one (by decide)) | exact .inl rfl | rfl | assumption | (refine Covers.sub hF ?_; decide)
    | (intro x; refine Keeps.take (s := x) ?_ fun hx => ?_; rotate_left; clear_value x; rotate_left; unfold x; try lift_lets)
    | intro x | refine Keeps.of_eq ?_ ?_ ?_ ?_ ?_ ?_ ?_ ?_ ?_ ?_ ?_ ?_ ?_ ?_ ?_ ?_ ?_

theorem State.claimFor_keeps {s1 : State} {a1 : Nat} {a2 : Option Nat} (hF : Covers F [.ic, .pwr]) (hs1 : Keeps F r s1) :
    Keeps F r (State.claimFor s1 a1 a2) := by
  unfold State.claimFor
  try lift_lets
  with_reducible repeat' first
    | exact .inr (hF.one (by decide)) | exact .inl rfl | rfl | assumption | apply State.setClaimed_keeps
    | apply State.settlePins_keeps | apply State.wrs_keeps | (split <;> try lift_lets) | (refine Covers.sub hF ?_; decide)
    | (intro x; refine Keeps.take (s := x) ?_ fun hx => ?_; rotate_left; clear_value x; rotate_left; unfold x; try lift_lets)
    | intro x | refine Keeps.of_eq ?_ ?_ ?_ ?_ ?_ ?_ ?_ ?_ ?_ ?_ ?_ ?_ ?_ ?_ ?_ ?_ ?_

theorem State.claim_keeps {s1 : State} {a1 : Nat} (hF : Covers F [.ic, .pwr]) (hs1 : Keeps F r s1) :
    Keeps F r (State.claim s1 a1) := by
  unfold State.claim
  try lift_lets
  with_reducible repeat' first
    | assumption | apply State.arm_keeps | apply State.claimFor_keeps | (refine Covers.sub hF ?_; decide)
    | (intro x; refine Keeps.take (s := x) ?_ fun hx => ?_; rotate_left; clear_value x; rotate_left; unfold x; try lift_lets)
    | intro x

theorem State.clearPend_keeps {s1 : State} {a1 a2 : Nat} (hs1 : Keeps F r s1) : Keeps F r (State.clearPend s1 a1 a2) := by
  unfold State.clearPend
  with_reducible repeat' first
    | (refine Keeps.ite ?_ ?_) | assumption | apply State.wr_keeps | (refine Keeps.foldl (fun _ _ _ => ?_) ?_)

theorem State.complete_keeps {s1 : State} {a1 a2 : Nat} (hF : Covers F [.pwr]) (hs1 : Keeps F r s1) :
    Keeps F r (State.complete s1 a1 a2) := by
  unfold State.complete
  try lift_lets
  with_reducible repeat' first
    | (refine Keeps.ite ?_ ?_) <;> try lift_lets | assumption | apply State.arm_keeps | apply State.settlePins_keeps
    | apply State.wr_keeps | apply State.bump_keeps | (refine Covers.sub hF ?_; decide)
    | (intro x; refine Keeps.take (s := x) ?_ fun hx => ?_; rotate_left; clear_value x; rotate_left; unfold x; try lift_lets)
    | intro x

theorem State.flushPba_keeps {s1 : State} (hF : Covers F [.hif]) (hs1 : Keeps F r s1) : Keeps F r (State.flushPba s1) := by
  unfold State.flushPba
  try lift_lets
  with_reducible repeat' first
    | exact .inr (hF.one (by decide)) | exact .inl rfl | rfl | (refine Keeps.ite ?_ ?_) <;> try lift_lets | assumption
    | (refine Keeps.foldl (fun _ _ _ => ?_) ?_) <;> try lift_lets | (refine Covers.sub hF ?_; decide)
    | (intro x; refine Keeps.take (s := x) ?_ fun hx => ?_; rotate_left; clear_value x; rotate_left; unfold x; try lift_lets)
    | intro x | refine Keeps.of_eq ?_ ?_ ?_ ?_ ?_ ?_ ?_ ?_ ?_ ?_ ?_ ?_ ?_ ?_ ?_ ?_ ?_

theorem State.release_keeps {s1 : State} {a1 : Nat} (hF : Covers F [.pwr]) (hs1 : Keeps F r s1) :
    Keeps F r (State.release s1 a1) := by
  unfold State.release
  try lift_lets
  with_reducible repeat' first
    | (refine Keeps.ite ?_ ?_) <;> try lift_lets | assumption | apply State.wr_keeps | apply State.settlePins_keeps
    | apply State.arm_keeps | (refine Keeps.foldl (fun _ _ _ => ?_) ?_) <;> try lift_lets
    | (refine Covers.sub hF ?_; decide)
    | (intro x; refine Keeps.take (s := x) ?_ fun hx => ?_; rotate_left; clear_value x; rotate_left; unfold x; try lift_lets)
    | intro x

theorem State.setup_keeps {s1 : State} {a1 : State → State} (hs1 : Keeps F r s1) (ha1 : ∀ y0, Keeps F r y0 → Keeps F r
    (a1 y0)) : Keeps F r (State.setup s1 a1) := by
  unfold State.setup
  with_reducible repeat' first
    | (refine Keeps.ite ?_ ?_) | assumption | apply ha1 | apply State.inService_keeps | apply State.bump_keeps
    | (refine fun x (hx : Keeps F r x) => ?_; try lift_lets)
    | (intro x; refine Keeps.take (s := x) ?_ fun hx => ?_; rotate_left; clear_value x; rotate_left; unfold x; try lift_lets)
    | intro x

theorem execIcMsgDoorbell_keeps {a0 : Nat} {s2 : State} (hF : Covers F [.ic]) (hs2 : Keeps F r s2) :
    KeepsOut F r (execIcMsgDoorbell a0 s2) := by
  unfold execIcMsgDoorbell
  with_reducible repeat' first
    | assumption | apply State.setup_keeps | apply State.msgDoorbell_keeps | refine Keeps.next ?_
    | (refine Covers.sub hF ?_; decide) | (refine fun x (hx : Keeps F r x) => ?_; try lift_lets)
    | (intro x; refine Keeps.take (s := x) ?_ fun hx => ?_; rotate_left; clear_value x; rotate_left; unfold x; try lift_lets)
    | intro x

theorem execIcPendClear_keeps {a0 a1 : Nat} {s3 : State} (hF : Covers F [.pwr]) (hs3 : Keeps F r s3) :
    KeepsOut F r (execIcPendClear a0 a1 s3) := by
  unfold execIcPendClear
  with_reducible repeat' first
    | (refine KeepsOut.ite ?_ ?_) | (refine Keeps.ite ?_ ?_) | assumption | apply State.setup_keeps
    | apply State.settlePins_keeps | apply State.clearPend_keeps | refine Keeps.next ?_ | (refine Covers.sub hF ?_; decide)
    | (refine fun x (hx : Keeps F r x) => ?_; try lift_lets)
    | (intro x; refine Keeps.take (s := x) ?_ fun hx => ?_; rotate_left; clear_value x; rotate_left; unfold x; try lift_lets)
    | intro x

theorem execIcSrcSet_keeps {a0 : Nat} {s2 : State} (hF : Covers F [.ic]) (hs2 : Keeps F r s2) :
    KeepsOut F r (execIcSrcSet a0 s2) := by
  unfold execIcSrcSet
  with_reducible repeat' first
    | (refine KeepsOut.ite ?_ ?_) | (refine Keeps.ite ?_ ?_) | assumption | apply State.setup_keeps
    | apply State.arrive_keeps | refine Keeps.next ?_ | (refine Covers.sub hF ?_; decide)
    | (refine fun x (hx : Keeps F r x) => ?_; try lift_lets)
    | (intro x; refine Keeps.take (s := x) ?_ fun hx => ?_; rotate_left; clear_value x; rotate_left; unfold x; try lift_lets)
    | intro x

theorem execIcTgtClaim_keeps {a0 : Nat} {s2 : State} (hF : Covers F [.ic, .pwr]) (hs2 : Keeps F r s2) :
    KeepsOut F r (execIcTgtClaim a0 s2) := by
  unfold execIcTgtClaim
  with_reducible repeat' first
    | (refine KeepsOut.ite ?_ ?_) | (refine Keeps.ite ?_ ?_) | assumption | apply State.inService_keeps
    | apply State.setClaimed_keeps | apply State.claim_keeps | refine Keeps.next ?_ | (refine Covers.sub hF ?_; decide)
    | (refine fun x (hx : Keeps F r x) => ?_; try lift_lets)
    | (intro x; refine Keeps.take (s := x) ?_ fun hx => ?_; rotate_left; clear_value x; rotate_left; unfold x; try lift_lets)
    | intro x

theorem execIcTgtComplete_keeps {a0 a1 : Nat} {s3 : State} (hF : Covers F [.pwr]) (hs3 : Keeps F r s3) :
    KeepsOut F r (execIcTgtComplete a0 a1 s3) := by
  unfold execIcTgtComplete
  with_reducible repeat' first
    | (refine KeepsOut.ite ?_ ?_) | (refine Keeps.ite ?_ ?_) | assumption | apply State.setup_keeps
    | apply State.complete_keeps | refine Keeps.next ?_ | (refine Covers.sub hF ?_; decide)
    | (refine fun x (hx : Keeps F r x) => ?_; try lift_lets)
    | (intro x; refine Keeps.take (s := x) ?_ fun hx => ?_; rotate_left; clear_value x; rotate_left; unfold x; try lift_lets)
    | intro x

theorem execInterruptArrival_keeps {a0 : Nat} {s2 : State} (hF : Covers F [.hif, .ic]) (hs2 : Keeps F r s2) :
    KeepsOut F r (execInterruptArrival a0 s2) := by
  unfold execInterruptArrival
  try lift_lets
  with_reducible repeat' first
    | exact .inr (hF.one (by decide)) | exact .inl rfl | rfl | assumption | apply State.inService_keeps
    | apply State.postCondition_keeps | apply State.arrive_keeps | refine Keeps.next ?_ | (split <;> try lift_lets)
    | (refine Covers.sub hF ?_; decide) | (refine fun x (hx : Keeps F r x) => ?_; try lift_lets)
    | (intro x; refine Keeps.take (s := x) ?_ fun hx => ?_; rotate_left; clear_value x; rotate_left; unfold x; try lift_lets)
    | intro x | refine Keeps.of_eq ?_ ?_ ?_ ?_ ?_ ?_ ?_ ?_ ?_ ?_ ?_ ?_ ?_ ?_ ?_ ?_ ?_

theorem execMsixEnableWrite_keeps {a0 a1 : Bool} {s3 : State} (hF : Covers F [.hif]) (hs3 : Keeps F r s3) :
    KeepsOut F r (execMsixEnableWrite a0 a1 s3) := by
  unfold execMsixEnableWrite
  try lift_lets
  with_reducible repeat' first
    | exact .inr (hF.one (by decide)) | exact .inl rfl | rfl | assumption | apply State.inService_keeps
    | apply State.flushPba_keeps | refine Keeps.next ?_ | (refine Covers.sub hF ?_; decide)
    | (refine fun x (hx : Keeps F r x) => ?_; try lift_lets)
    | (intro x; refine Keeps.take (s := x) ?_ fun hx => ?_; rotate_left; clear_value x; rotate_left; unfold x; try lift_lets)
    | intro x | refine Keeps.of_eq ?_ ?_ ?_ ?_ ?_ ?_ ?_ ?_ ?_ ?_ ?_ ?_ ?_ ?_ ?_ ?_ ?_

theorem execNotify_keeps {a0 : Nat} {s2 : State} (hF : Covers F [.hif, .ic, .pwr]) (hs2 : Keeps F r s2) :
    KeepsOut F r (execNotify a0 s2) := by
  unfold execNotify
  try lift_lets
  with_reducible repeat' first
    | (refine KeepsOut.ite ?_ ?_) <;> try lift_lets | (refine Keeps.ite ?_ ?_) <;> try lift_lets | assumption
    | apply State.inService_keeps | apply State.wr_keeps | apply State.bump_keeps | apply State.setTarget_keeps
    | apply State.settlePins_keeps | apply State.sendMsix_keeps | refine Keeps.next ?_ | (refine Covers.sub hF ?_; decide)
    | (refine fun x (hx : Keeps F r x) => ?_; try lift_lets)
    | (intro x; refine Keeps.take (s := x) ?_ fun hx => ?_; rotate_left; clear_value x; rotate_left; unfold x; try lift_lets)
    | intro x

theorem execRelease_keeps {a0 a1 : Nat} {s3 : State} (hF : Covers F [.pwr]) (hs3 : Keeps F r s3) :
    KeepsOut F r (execRelease a0 a1 s3) := by
  unfold execRelease
  with_reducible repeat' first
    | (refine KeepsOut.ite ?_ ?_) | (refine Keeps.ite ?_ ?_) | assumption | apply State.setup_keeps
    | apply State.release_keeps | refine Keeps.next ?_ | (refine Covers.sub hF ?_; decide)
    | (refine fun x (hx : Keeps F r x) => ?_; try lift_lets)
    | (intro x; refine Keeps.take (s := x) ?_ fun hx => ?_; rotate_left; clear_value x; rotate_left; unfold x; try lift_lets)
    | intro x

theorem execTargetWake_keeps {a0 a1 : Nat} {s3 : State} (hF : Covers F [.pwr]) (hs3 : Keeps F r s3) :
    KeepsOut F r (execTargetWake a0 a1 s3) := by
  unfold execTargetWake
  try lift_lets
  with_reducible repeat' first
    | (refine KeepsOut.ite ?_ ?_) <;> try lift_lets | (refine Keeps.ite ?_ ?_) <;> try lift_lets | assumption
    | apply State.setup_keeps | apply State.wrs_keeps | apply State.settlePins_keeps | apply State.arm_keeps
    | refine Keeps.next ?_ | (refine Covers.sub hF ?_; decide) | (refine fun x (hx : Keeps F r x) => ?_; try lift_lets)
    | (intro x; refine Keeps.take (s := x) ?_ fun hx => ?_; rotate_left; clear_value x; rotate_left; unfold x; try lift_lets)
    | intro x

end Sys2Proof.Machine
end

