-- ==== Sys2Proof/Laws/Keeps/Operands.lean ====
section
/-! SUPPORT. What every command keeps, operation by operation: those of Machine/Operands.lean. -/

namespace Sys2Proof.Machine

variable {F : List Part} {r : State}

theorem State.checked_keeps {s1 : State} {a1 : Option Nat} {a2 : Unit → Res} (hs1 : Keeps F r s1)
    (ha2 : ∀ y0, KeepsRes F r (a2 y0)) : KeepsRes F r (State.checked s1 a1 a2) := by
  unfold State.checked
  with_reducible repeat' first
    | exact .inl rfl | rfl | assumption | apply ha2 | exact Keeps.rest | refine Keeps.done ?_ | refine Keeps.wait ?_
    | refine Keeps.admitted ?_ | split | (refine fun x (hx : Keeps F r x) => ?_; try lift_lets)
    | (intro x; refine Keeps.take (s := x) ?_ fun hx => ?_; rotate_left; clear_value x; rotate_left; unfold x; try lift_lets)
    | intro x | refine Keeps.of_eq ?_ ?_ ?_ ?_ ?_ ?_ ?_ ?_ ?_ ?_ ?_ ?_ ?_ ?_ ?_ ?_ ?_

end Sys2Proof.Machine
end

