-- ==== Sys2Proof/Laws/Keeps/ReelOps.lean ====
section
/-! SUPPORT. What every command keeps, operation by operation: those of Machine/ReelOps.lean. -/

namespace Sys2Proof.Machine

variable {F : List Part} {r : State}

theorem State.haltOn_keeps {s1 : State} {a1 : Nat} {a2 : Desc} {a3 : Nat} (hF : Covers F [.hif, .ic])
    (hs1 : Keeps F r s1) : Keeps F r (State.haltOn s1 a1 a2 a3) := by
  unfold State.haltOn
  with_reducible repeat' first
    | (refine Keeps.ite ?_ ?_) | assumption | apply State.notice_keeps | apply State.wr_keeps
    | (refine Covers.sub hF ?_; decide)

theorem State.executed_keeps {s1 : State} {a1 : Nat} (hF : Covers F [.hif]) (hs1 : Keeps F r s1) :
    Keeps F r (State.executed s1 a1) := by
  unfold State.executed
  try lift_lets
  with_reducible repeat' first
    | (refine Keeps.ite ?_ ?_) <;> try lift_lets | assumption | apply State.setReel_keeps | apply State.wr_keeps
    | (refine Covers.sub hF ?_; decide)
    | (intro x; refine Keeps.take (s := x) ?_ fun hx => ?_; rotate_left; clear_value x; rotate_left; unfold x; try lift_lets)
    | intro x

theorem State.freeSlot_keeps {s1 : State} {a1 : Origin} (hF : Covers F [.hif]) (hs1 : Keeps F r s1) :
    Keeps F r (State.freeSlot s1 a1) := by
  unfold State.freeSlot
  with_reducible repeat' first
    | (refine Keeps.ite ?_ ?_) | assumption | apply State.setEvr_keeps | (refine Covers.sub hF ?_; decide)

theorem State.putReserved_keeps {s1 : State} {a1 : Nat} {a2 : Record} (hF : Covers F [.hif, .ic]) (hs1 : Keeps F r s1) :
    Keeps F r (State.putReserved s1 a1 a2) := by
  unfold State.putReserved
  try lift_lets
  with_reducible repeat' first
    | (refine Keeps.ite ?_ ?_) <;> try lift_lets | assumption | apply State.bump_keeps | apply State.drainAlarms_keeps
    | apply State.dropRecord_keeps | apply State.putRecord_keeps | (refine Covers.sub hF ?_; decide)
    | (intro x; refine Keeps.take (s := x) ?_ fun hx => ?_; rotate_left; clear_value x; rotate_left; unfold x; try lift_lets)
    | intro x

theorem State.outcome_keeps {s1 : State} {a1 : Origin} {a2 a3 : Nat} (hF : Covers F [.hif, .ic]) (hs1 : Keeps F r s1) :
    Keeps F r (State.outcome s1 a1 a2 a3) := by
  unfold State.outcome
  try lift_lets
  with_reducible repeat' first
    | (refine Keeps.ite ?_ ?_) <;> try lift_lets | assumption | apply State.wr_keeps | apply State.freeSlot_keeps
    | apply State.postOther_keeps | apply State.postAlarm_keeps | apply State.putReserved_keeps
    | (refine Covers.sub hF ?_; decide)
    | (intro x; refine Keeps.take (s := x) ?_ fun hx => ?_; rotate_left; clear_value x; rotate_left; unfold x; try lift_lets)
    | intro x

theorem State.finish_keeps {s1 : State} {a1 : Nat} {a2 : Desc} {a3 a4 : Nat} (hF : Covers F [.hif, .ic])
    (hs1 : Keeps F r s1) : Keeps F r (State.finish s1 a1 a2 a3 a4) := by
  unfold State.finish
  with_reducible repeat' first
    | assumption | apply State.haltOn_keeps | apply State.executed_keeps | apply State.outcome_keeps
    | (refine Covers.sub hF ?_; decide)

theorem State.settleReel_keeps {s : State} {c n : Nat} (hF : Covers F [.hif, .ic]) (h : Keeps F r s) : Keeps F r (s.settleReel c n) := by
  induction n generalizing s with
  | zero => exact h
  | succ n ih =>
    unfold State.settleReel
    split
    · exact h
    · split
      · exact ih (State.finish_keeps (hF.sub (by decide)) h)
      · exact h

theorem State.settle_keeps {s1 : State} {a1 : Nat} (hF : Covers F [.hif, .ic]) (hs1 : Keeps F r s1) :
    Keeps F r (State.settle s1 a1) := by
  unfold State.settle
  with_reducible repeat' first
    | assumption | apply State.settleReel_keeps | (refine Covers.sub hF ?_; decide)

theorem State.apply_keeps {s : State} {c : Nat} {d : Desc} {x : Res} (hF : Covers F [.hif, .ic]) (h : Keeps F r s) (hx : KeepsRes F r x) :
    Keeps F r (s.apply c d x) := by
  cases x with
  | done t _ _ => exact State.settle_keeps (hF.sub (by decide)) (State.finish_keeps (hF.sub (by decide)) hx.holds)
  | wait t b => unfold State.apply; dsimp only; exact State.setReel_keeps (hF.sub (by decide)) hx.holds
  | admitted t => exact State.settle_keeps (hF.sub (by decide)) (State.executed_keeps (hF.sub (by decide)) hx.holds)
  | rest => exact h

theorem State.deferredRecord_keeps {s1 : State} {a1 : Origin} (hF : Covers F [.hif, .ic]) (hs1 : Keeps F r s1) :
    Keeps F r (State.deferredRecord s1 a1) := by
  unfold State.deferredRecord
  with_reducible repeat' first
    | (refine Keeps.ite ?_ ?_) | assumption | apply State.postOther_keeps | (refine Covers.sub hF ?_; decide)

theorem State.runFront_keeps {s1 : State} {a1 a2 : Nat} {a3 : Nat → Desc → State → Res} (hF : Covers F [.hif, .ic])
    (hs1 : Keeps F r s1) (ha3 : ∀ y0 y1 y2, Keeps F r y2 → KeepsRes F r (a3 y0 y1 y2)) :
    Keeps F r (State.runFront s1 a1 a2 a3) := by
  unfold State.runFront
  with_reducible repeat' first
    | exact .inr (hF.one (by decide)) | exact .inl rfl | rfl | (refine Keeps.ite ?_ ?_) | assumption | apply ha3
    | apply State.apply_keeps | split | (refine Covers.sub hF ?_; decide)
    | (refine fun x (hx : Keeps F r x) => ?_; try lift_lets)
    | (intro x; refine Keeps.take (s := x) ?_ fun hx => ?_; rotate_left; clear_value x; rotate_left; unfold x; try lift_lets)
    | intro x | refine Keeps.of_eq ?_ ?_ ?_ ?_ ?_ ?_ ?_ ?_ ?_ ?_ ?_ ?_ ?_ ?_ ?_ ?_ ?_

theorem State.descriptor_keeps {s1 : State} {a1 a2 : Nat} {a3 : Nat → Desc → State → Res} (hF : Covers F [.hif, .ic])
    (hs1 : Keeps F r s1) (ha3 : ∀ y0 y1 y2, Keeps F r y2 → KeepsRes F r (a3 y0 y1 y2)) :
    Keeps F r (State.descriptor s1 a1 a2 a3) := by
  unfold State.descriptor
  with_reducible repeat' first
    | (refine Keeps.ite ?_ ?_) | assumption | apply ha3 | apply State.inService_keeps | apply State.runFront_keeps
    | (refine Covers.sub hF ?_; decide) | (refine fun x (hx : Keeps F r x) => ?_; try lift_lets)
    | (intro x; refine Keeps.take (s := x) ?_ fun hx => ?_; rotate_left; clear_value x; rotate_left; unfold x; try lift_lets)
    | intro x

theorem State.endHeld_keeps {s1 : State} {a1 : Nat} {a2 : Desc} {a3 a4 : Nat} (hF : Covers F [.hif, .ic])
    (hs1 : Keeps F r s1) : Keeps F r (State.endHeld s1 a1 a2 a3 a4) := by
  unfold State.endHeld
  with_reducible repeat' first
    | assumption | apply State.settle_keeps | apply State.finish_keeps | (refine Covers.sub hF ?_; decide)

end Sys2Proof.Machine
end

