-- ==== Sys2Proof/Laws/Keeps/Surfaces.lean ====
section
/-! SUPPORT. What every command keeps, operation by operation: those of Machine/Surfaces.lean. -/

namespace Sys2Proof.Machine

variable {F : List Part} {r : State}

theorem State.copyBytes_keeps {s1 : State} {a1 : CopyJob} {a2 : List Byte} (hF : Covers F [.stk, .mem])
    (hs1 : Keeps F r s1) : Keeps F r (State.copyBytes s1 a1 a2) := by
  unfold State.copyBytes
  try lift_lets
  with_reducible repeat' first
    | exact .inr (hF.one (by decide)) | exact .inl rfl | rfl | assumption | apply State.store3_keeps
    | apply State.countFenced_keeps | apply State.memSet_keeps | apply State.countC3_keeps
    | (refine Keeps.foldl (fun _ _ _ => ?_) ?_) <;> try lift_lets | (split <;> try lift_lets)
    | (refine Covers.sub hF ?_; decide)
    | (intro x; refine Keeps.take (s := x) ?_ fun hx => ?_; rotate_left; clear_value x; rotate_left; unfold x; try lift_lets)
    | intro x | refine Keeps.of_eq ?_ ?_ ?_ ?_ ?_ ?_ ?_ ?_ ?_ ?_ ?_ ?_ ?_ ?_ ?_ ?_ ?_

theorem State.defineSurface_keeps {s1 : State} {a1 : Nat} {a2 : Surface} (hF : Covers F [.surf]) (hs1 : Keeps F r s1) :
    Keeps F r (State.defineSurface s1 a1 a2) := by
  unfold State.defineSurface
  with_reducible repeat' first
    | assumption | apply State.setSurface_keeps | (refine Covers.sub hF ?_; decide)

theorem State.setCopy_keeps {s1 : State} {a1 : Nat} {a2 : Option CopyJob} (hF : Covers F [.surf]) (hs1 : Keeps F r s1) :
    Keeps F r (State.setCopy s1 a1 a2) := by
  unfold State.setCopy
  try lift_lets
  with_reducible repeat' first
    | exact .inr (hF.one (by decide)) | exact .inl rfl | rfl | assumption | (refine Covers.sub hF ?_; decide)
    | (intro x; refine Keeps.take (s := x) ?_ fun hx => ?_; rotate_left; clear_value x; rotate_left; unfold x; try lift_lets)
    | intro x | refine Keeps.of_eq ?_ ?_ ?_ ?_ ?_ ?_ ?_ ?_ ?_ ?_ ?_ ?_ ?_ ?_ ?_ ?_ ?_

theorem State.endWrite_keeps {s1 : State} {a1 : Nat} {a2 : Bool} (hF : Covers F [.surf]) (hs1 : Keeps F r s1) :
    Keeps F r (State.endWrite s1 a1 a2) := by
  unfold State.endWrite
  with_reducible repeat' first
    | (refine Keeps.ite ?_ ?_) | assumption | apply State.setSurface_keeps | (refine Covers.sub hF ?_; decide)

theorem State.setAtlas_keeps {s1 : State} {a1 : Nat} {a2 : Atlas} (hF : Covers F [.surf]) (hs1 : Keeps F r s1) :
    Keeps F r (State.setAtlas s1 a1 a2) := by
  unfold State.setAtlas
  try lift_lets
  with_reducible repeat' first
    | exact .inr (hF.one (by decide)) | exact .inl rfl | rfl | assumption | (refine Covers.sub hF ?_; decide)
    | (intro x; refine Keeps.take (s := x) ?_ fun hx => ?_; rotate_left; clear_value x; rotate_left; unfold x; try lift_lets)
    | intro x | refine Keeps.of_eq ?_ ?_ ?_ ?_ ?_ ?_ ?_ ?_ ?_ ?_ ?_ ?_ ?_ ?_ ?_ ?_ ?_

theorem State.endCopy_keeps {s1 : State} {a1 : Nat} {a2 : Desc} {a3 : CopyJob} {a4 : Bool} {a5 a6 : Nat}
    (hF : Covers F [.hif, .ic, .surf]) (hs1 : Keeps F r s1) : Keeps F r (State.endCopy s1 a1 a2 a3 a4 a5 a6) := by
  unfold State.endCopy
  try lift_lets
  with_reducible repeat' first
    | (refine Keeps.ite ?_ ?_) <;> try lift_lets | assumption | apply State.setCopy_keeps | apply State.endWrite_keeps
    | apply State.setAtlas_keeps | apply State.endHeld_keeps | (refine Covers.sub hF ?_; decide)
    | (intro x; refine Keeps.take (s := x) ?_ fun hx => ?_; rotate_left; clear_value x; rotate_left; unfold x; try lift_lets)
    | intro x

theorem State.loadPalette_keeps {s1 : State} {a1 : Nat} {a2 : List Byte} (hF : Covers F [.surf]) (hs1 : Keeps F r s1) :
    Keeps F r (State.loadPalette s1 a1 a2) := by
  unfold State.loadPalette
  try lift_lets
  with_reducible repeat' first
    | exact .inr (hF.one (by decide)) | exact .inl rfl | rfl | assumption
    | (refine Keeps.foldl (fun _ _ _ => ?_) ?_) <;> try lift_lets | (refine Covers.sub hF ?_; decide)
    | (intro x; refine Keeps.take (s := x) ?_ fun hx => ?_; rotate_left; clear_value x; rotate_left; unfold x; try lift_lets)
    | intro x | refine Keeps.of_eq ?_ ?_ ?_ ?_ ?_ ?_ ?_ ?_ ?_ ?_ ?_ ?_ ?_ ?_ ?_ ?_ ?_

theorem State.startWrite_keeps {s1 : State} {a1 : Nat} (hF : Covers F [.surf]) (hs1 : Keeps F r s1) :
    Keeps F r (State.startWrite s1 a1) := by
  unfold State.startWrite
  with_reducible repeat' first
    | assumption | apply State.setSurface_keeps | (refine Covers.sub hF ?_; decide)

theorem atlasDefineBody_keeps {a0 : Nat} {a1 : Desc} {s3 : State} (hF : Covers F [.surf]) (hs3 : Keeps F r s3) :
    KeepsRes F r (atlasDefineBody a0 a1 s3) := by
  unfold atlasDefineBody
  try lift_lets
  with_reducible repeat' first
    | (refine KeepsRes.ite ?_ ?_) <;> try lift_lets | (refine Keeps.ite ?_ ?_) <;> try lift_lets | assumption
    | apply State.checked_keeps | apply State.setCopy_keeps | apply State.setAtlas_keeps | exact Keeps.rest
    | refine Keeps.done ?_ | refine Keeps.wait ?_ | refine Keeps.admitted ?_ | (refine Covers.sub hF ?_; decide)
    | (refine fun x (hx : Keeps F r x) => ?_; try lift_lets)
    | (intro x; refine Keeps.take (s := x) ?_ fun hx => ?_; rotate_left; clear_value x; rotate_left; unfold x; try lift_lets)
    | intro x

theorem execAtlasDefine_keeps {a0 : Nat} {s2 : State} (hF : Covers F [.hif, .ic, .surf]) (hs2 : Keeps F r s2) :
    KeepsOut F r (execAtlasDefine a0 s2) := by
  unfold execAtlasDefine
  with_reducible repeat' first
    | assumption | apply State.descriptor_keeps | apply atlasDefineBody_keeps | refine Keeps.next ?_
    | (refine Covers.sub hF ?_; decide) | (refine fun x (hx : Keeps F r x) => ?_; try lift_lets)
    | (intro x; refine Keeps.take (s := x) ?_ fun hx => ?_; rotate_left; clear_value x; rotate_left; unfold x; try lift_lets)
    | intro x

theorem execCopyWriteEnd_keeps {a0 : Nat} {a1 : List Byte} {s3 : State} (hF : Covers F [.hif, .ic, .surf, .stk, .mem])
    (hs3 : Keeps F r s3) : KeepsOut F r (execCopyWriteEnd a0 a1 s3) := by
  unfold execCopyWriteEnd
  try lift_lets
  with_reducible repeat' first
    | exact .inr (hF.one (by decide)) | exact .inl rfl | rfl | (refine KeepsOut.ite ?_ ?_) <;> try lift_lets
    | (refine Keeps.ite ?_ ?_) <;> try lift_lets | assumption | apply State.inService_keeps | apply State.startWrite_keeps
    | apply State.copyBytes_keeps | apply State.endCopy_keeps | apply State.setCopy_keeps | refine Keeps.next ?_
    | (split <;> try lift_lets) | (refine Covers.sub hF ?_; decide) | (refine fun x (hx : Keeps F r x) => ?_; try lift_lets)
    | (intro x; refine Keeps.take (s := x) ?_ fun hx => ?_; rotate_left; clear_value x; rotate_left; unfold x; try lift_lets)
    | intro x | refine Keeps.of_eq ?_ ?_ ?_ ?_ ?_ ?_ ?_ ?_ ?_ ?_ ?_ ?_ ?_ ?_ ?_ ?_ ?_

theorem surfaceCopyBody_keeps {a0 : Nat} {a1 : Desc} {s3 : State} (hF : Covers F [.surf]) (hs3 : Keeps F r s3) :
    KeepsRes F r (surfaceCopyBody a0 a1 s3) := by
  unfold surfaceCopyBody
  try lift_lets
  with_reducible repeat' first
    | (refine KeepsRes.ite ?_ ?_) <;> try lift_lets | (refine Keeps.ite ?_ ?_) <;> try lift_lets | assumption
    | apply State.checked_keeps | apply State.setCopy_keeps | exact Keeps.rest | refine Keeps.done ?_ | refine Keeps.wait ?_
    | refine Keeps.admitted ?_ | (refine Covers.sub hF ?_; decide) | (refine fun x (hx : Keeps F r x) => ?_; try lift_lets)
    | (intro x; refine Keeps.take (s := x) ?_ fun hx => ?_; rotate_left; clear_value x; rotate_left; unfold x; try lift_lets)
    | intro x

theorem execSurfaceCopy_keeps {a0 : Nat} {s2 : State} (hF : Covers F [.hif, .ic, .surf]) (hs2 : Keeps F r s2) :
    KeepsOut F r (execSurfaceCopy a0 s2) := by
  unfold execSurfaceCopy
  with_reducible repeat' first
    | assumption | apply State.descriptor_keeps | apply surfaceCopyBody_keeps | refine Keeps.next ?_
    | (refine Covers.sub hF ?_; decide) | (refine fun x (hx : Keeps F r x) => ?_; try lift_lets)
    | (intro x; refine Keeps.take (s := x) ?_ fun hx => ?_; rotate_left; clear_value x; rotate_left; unfold x; try lift_lets)
    | intro x

theorem surfaceDefineBody_keeps {a0 : Nat} {a1 : Desc} {s3 : State} (hF : Covers F [.surf]) (hs3 : Keeps F r s3) :
    KeepsRes F r (surfaceDefineBody a0 a1 s3) := by
  unfold surfaceDefineBody
  try lift_lets
  with_reducible repeat' first
    | (refine KeepsRes.ite ?_ ?_) <;> try lift_lets | (refine Keeps.ite ?_ ?_) <;> try lift_lets | assumption
    | apply State.checked_keeps | apply State.defineSurface_keeps | exact Keeps.rest | refine Keeps.done ?_
    | refine Keeps.wait ?_ | refine Keeps.admitted ?_ | (refine Covers.sub hF ?_; decide)
    | (refine fun x (hx : Keeps F r x) => ?_; try lift_lets)
    | (intro x; refine Keeps.take (s := x) ?_ fun hx => ?_; rotate_left; clear_value x; rotate_left; unfold x; try lift_lets)
    | intro x

theorem execSurfaceDefine_keeps {a0 : Nat} {s2 : State} (hF : Covers F [.hif, .ic, .surf]) (hs2 : Keeps F r s2) :
    KeepsOut F r (execSurfaceDefine a0 s2) := by
  unfold execSurfaceDefine
  with_reducible repeat' first
    | assumption | apply State.descriptor_keeps | apply surfaceDefineBody_keeps | refine Keeps.next ?_
    | (refine Covers.sub hF ?_; decide) | (refine fun x (hx : Keeps F r x) => ?_; try lift_lets)
    | (intro x; refine Keeps.take (s := x) ?_ fun hx => ?_; rotate_left; clear_value x; rotate_left; unfold x; try lift_lets)
    | intro x

theorem surfaceStateBody_keeps {a0 : Nat} {a1 : Desc} {s3 : State} (hF : Covers F [.surf]) (hs3 : Keeps F r s3) :
    KeepsRes F r (surfaceStateBody a0 a1 s3) := by
  unfold surfaceStateBody
  try lift_lets
  with_reducible repeat' first
    | (refine KeepsRes.ite ?_ ?_) <;> try lift_lets | (refine Keeps.ite ?_ ?_) <;> try lift_lets | assumption
    | apply State.checked_keeps | apply State.setSurface_keeps | exact Keeps.rest | refine Keeps.done ?_
    | refine Keeps.wait ?_ | refine Keeps.admitted ?_ | (refine Covers.sub hF ?_; decide)
    | (refine fun x (hx : Keeps F r x) => ?_; try lift_lets)
    | (intro x; refine Keeps.take (s := x) ?_ fun hx => ?_; rotate_left; clear_value x; rotate_left; unfold x; try lift_lets)
    | intro x

theorem execSurfaceState_keeps {a0 : Nat} {s2 : State} (hF : Covers F [.hif, .ic, .surf]) (hs2 : Keeps F r s2) :
    KeepsOut F r (execSurfaceState a0 s2) := by
  unfold execSurfaceState
  with_reducible repeat' first
    | assumption | apply State.descriptor_keeps | apply surfaceStateBody_keeps | refine Keeps.next ?_
    | (refine Covers.sub hF ?_; decide) | (refine fun x (hx : Keeps F r x) => ?_; try lift_lets)
    | (intro x; refine Keeps.take (s := x) ?_ fun hx => ?_; rotate_left; clear_value x; rotate_left; unfold x; try lift_lets)
    | intro x

theorem paletteData_keeps {a0 : Desc} {a1 : List Byte} {s3 : State} (hF : Covers F [.surf]) (hs3 : Keeps F r s3) :
    KeepsRes F r (paletteData a0 a1 s3) := by
  unfold paletteData
  with_reducible repeat' first
    | assumption | apply State.defineSurface_keeps | apply State.loadPalette_keeps | exact Keeps.rest | refine Keeps.done ?_
    | refine Keeps.wait ?_ | refine Keeps.admitted ?_ | (refine Covers.sub hF ?_; decide)

end Sys2Proof.Machine
end

