-- ==== Sys2Proof/Laws/Keeps/TickOps.lean ====
section
/-! SUPPORT. What every command keeps, operation by operation: those of Machine/TickOps.lean. -/

namespace Sys2Proof.Machine

variable {F : List Part} {r : State}

theorem State.placeNext_keeps {s1 : State} {a1 : Int} (hF : Covers F [.tick]) (hs1 : Keeps F r s1) :
    Keeps F r (State.placeNext s1 a1) := by
  unfold State.placeNext
  try lift_lets
  with_reducible repeat' first
    | exact .inr (hF.one (by decide)) | exact .inl rfl | rfl | assumption | (refine Covers.sub hF ?_; decide)
    | (intro x; refine Keeps.take (s := x) ?_ fun hx => ?_; rotate_left; clear_value x; rotate_left; unfold x; try lift_lets)
    | intro x | refine Keeps.of_eq ?_ ?_ ?_ ?_ ?_ ?_ ?_ ?_ ?_ ?_ ?_ ?_ ?_ ?_ ?_ ?_ ?_

theorem State.flywheel_keeps {s1 : State} (hF : Covers F [.tick]) (hs1 : Keeps F r s1) : Keeps F r (State.flywheel s1) := by
  unfold State.flywheel
  try lift_lets
  with_reducible repeat' first
    | exact .inr (hF.one (by decide)) | exact .inl rfl | rfl | assumption | apply State.wr_keeps
    | apply State.placeNext_keeps | (refine Covers.sub hF ?_; decide)
    | (intro x; refine Keeps.take (s := x) ?_ fun hx => ?_; rotate_left; clear_value x; rotate_left; unfold x; try lift_lets)
    | intro x | refine Keeps.of_eq ?_ ?_ ?_ ?_ ?_ ?_ ?_ ?_ ?_ ?_ ?_ ?_ ?_ ?_ ?_ ?_ ?_

theorem State.setLock_keeps {s1 : State} {a1 : Nat} (hF : Covers F [.ic, .tick]) (hs1 : Keeps F r s1) :
    Keeps F r (State.setLock s1 a1) := by
  unfold State.setLock
  try lift_lets
  with_reducible repeat' first
    | exact .inr (hF.one (by decide)) | exact .inl rfl | rfl | (refine Keeps.ite ?_ ?_) <;> try lift_lets | assumption
    | apply State.wr_keeps | apply State.raise_keeps | (refine Covers.sub hF ?_; decide)
    | (intro x; refine Keeps.take (s := x) ?_ fun hx => ?_; rotate_left; clear_value x; rotate_left; unfold x; try lift_lets)
    | intro x | refine Keeps.of_eq ?_ ?_ ?_ ?_ ?_ ?_ ?_ ?_ ?_ ?_ ?_ ?_ ?_ ?_ ?_ ?_ ?_

theorem State.measure_keeps {s1 : State} {a1 : Int} (hF : Covers F [.ic, .tick]) (hs1 : Keeps F r s1) :
    Keeps F r (State.measure s1 a1) := by
  unfold State.measure
  try lift_lets
  with_reducible repeat' first
    | exact .inr (hF.one (by decide)) | exact .inl rfl | rfl | (refine Keeps.ite ?_ ?_) <;> try lift_lets | assumption
    | apply State.wr_keeps | apply State.setLock_keeps | apply State.placeNext_keeps | (refine Covers.sub hF ?_; decide)
    | (intro x; refine Keeps.take (s := x) ?_ fun hx => ?_; rotate_left; clear_value x; rotate_left; unfold x; try lift_lets)
    | intro x | refine Keeps.of_eq ?_ ?_ ?_ ?_ ?_ ?_ ?_ ?_ ?_ ?_ ?_ ?_ ?_ ?_ ?_ ?_ ?_

theorem State.pinHoldover_keeps {s1 : State} (hF : Covers F [.ic, .tick]) (hs1 : Keeps F r s1) :
    Keeps F r (State.pinHoldover s1) := by
  unfold State.pinHoldover
  try lift_lets
  with_reducible repeat' first
    | exact .inr (hF.one (by decide)) | exact .inl rfl | rfl | (refine Keeps.ite ?_ ?_) <;> try lift_lets | assumption
    | apply State.setLock_keeps | (refine Covers.sub hF ?_; decide)
    | (intro x; refine Keeps.take (s := x) ?_ fun hx => ?_; rotate_left; clear_value x; rotate_left; unfold x; try lift_lets)
    | intro x | refine Keeps.of_eq ?_ ?_ ?_ ?_ ?_ ?_ ?_ ?_ ?_ ?_ ?_ ?_ ?_ ?_ ?_ ?_ ?_

theorem State.pinFlywheel_keeps {s1 : State} (hF : Covers F [.ic, .tick]) (hs1 : Keeps F r s1) :
    Keeps F r (State.pinFlywheel s1) := by
  unfold State.pinFlywheel
  try lift_lets
  with_reducible repeat' first
    | exact .inr (hF.one (by decide)) | exact .inl rfl | rfl | (refine Keeps.ite ?_ ?_) <;> try lift_lets | assumption
    | apply State.bump_keeps | apply State.flywheel_keeps | apply State.pinHoldover_keeps
    | (refine Covers.sub hF ?_; decide)
    | (intro x; refine Keeps.take (s := x) ?_ fun hx => ?_; rotate_left; clear_value x; rotate_left; unfold x; try lift_lets)
    | intro x | refine Keeps.of_eq ?_ ?_ ?_ ?_ ?_ ?_ ?_ ?_ ?_ ?_ ?_ ?_ ?_ ?_ ?_ ?_ ?_

theorem State.settlePin_keeps {s1 : State} (hF : Covers F [.ic, .tick]) (hs1 : Keeps F r s1) :
    Keeps F r (State.settlePin s1) := by
  unfold State.settlePin
  with_reducible repeat' first
    | (refine Keeps.ite ?_ ?_) | assumption | apply State.pinFlywheel_keeps | (refine Covers.sub hF ?_; decide)

theorem State.showIndex_keeps {s1 : State} (hs1 : Keeps F r s1) : Keeps F r (State.showIndex s1) := by
  unfold State.showIndex
  with_reducible repeat' first
    | (refine Keeps.ite ?_ ?_) | assumption | apply State.wr_keeps

theorem State.tryPair_keeps {s1 : State} (hF : Covers F [.ic, .tick]) (hs1 : Keeps F r s1) :
    Keeps F r (State.tryPair s1) := by
  unfold State.tryPair
  try lift_lets
  with_reducible repeat' first
    | exact .inr (hF.one (by decide)) | exact .inl rfl | rfl | (refine Keeps.ite ?_ ?_) <;> try lift_lets | assumption
    | apply State.measure_keeps | (split <;> try lift_lets) | (refine Covers.sub hF ?_; decide)
    | (intro x; refine Keeps.take (s := x) ?_ fun hx => ?_; rotate_left; clear_value x; rotate_left; unfold x; try lift_lets)
    | intro x | refine Keeps.of_eq ?_ ?_ ?_ ?_ ?_ ?_ ?_ ?_ ?_ ?_ ?_ ?_ ?_ ?_ ?_ ?_ ?_

end Sys2Proof.Machine
end

