-- ==== Sys2Proof/Laws/Keeps/Backbone.lean ====
section
/-! SUPPORT. What every command keeps, operation by operation: those of Machine/Backbone.lean. -/

namespace Sys2Proof.Machine

variable {F : List Part} {r : State}

theorem State.setGptp_keeps {s1 : State} {a1 : Nat} {a2 : Gptp → Gptp} (hF : Covers F [.bbn]) (hs1 : Keeps F r s1) :
    Keeps F r (State.setGptp s1 a1 a2) := by
  unfold State.setGptp
  try lift_lets
  with_reducible repeat' first
    | exact .inr (hF.one (by decide)) | exact .inl rfl | rfl | assumption | (refine Covers.sub hF ?_; decide)
    | (intro x; refine Keeps.take (s := x) ?_ fun hx => ?_; rotate_left; clear_value x; rotate_left; unfold x; try lift_lets)
    | intro x | refine Keeps.of_eq ?_ ?_ ?_ ?_ ?_ ?_ ?_ ?_ ?_ ?_ ?_ ?_ ?_ ?_ ?_ ?_ ?_

theorem State.setGptpState_keeps {s1 : State} {a1 a2 : Nat} (hF : Covers F [.ic, .tick, .bbn]) (hs1 : Keeps F r s1) :
    Keeps F r (State.setGptpState s1 a1 a2) := by
  unfold State.setGptpState
  try lift_lets
  with_reducible repeat' first
    | (refine Keeps.ite ?_ ?_) <;> try lift_lets | assumption | apply State.wr_keeps | apply State.setGptp_keeps
    | apply State.raise_keeps | apply State.setLock_keeps | (refine Covers.sub hF ?_; decide)
    | (intro x; refine Keeps.take (s := x) ?_ fun hx => ?_; rotate_left; clear_value x; rotate_left; unfold x; try lift_lets)
    | intro x

theorem State.loseGptp_keeps {s1 : State} {a1 : Nat} (hF : Covers F [.ic, .tick, .bbn]) (hs1 : Keeps F r s1) :
    Keeps F r (State.loseGptp s1 a1) := by
  unfold State.loseGptp
  with_reducible repeat' first
    | (refine Keeps.ite ?_ ?_) | assumption | apply State.setGptpState_keeps | apply State.setGptp_keeps
    | (refine Covers.sub hF ?_; decide)

theorem State.announceMsg_keeps {s1 : State} {a1 a2 : Nat} (hF : Covers F [.ic, .tick, .bbn]) (hs1 : Keeps F r s1) :
    Keeps F r (State.announceMsg s1 a1 a2) := by
  unfold State.announceMsg
  try lift_lets
  with_reducible repeat' first
    | (refine Keeps.ite ?_ ?_) <;> try lift_lets | assumption | apply State.setGptpState_keeps | apply State.loseGptp_keeps
    | apply State.setGptp_keeps | apply State.wr_keeps | (refine Covers.sub hF ?_; decide)
    | (intro x; refine Keeps.take (s := x) ?_ fun hx => ?_; rotate_left; clear_value x; rotate_left; unfold x; try lift_lets)
    | intro x

theorem State.countLost_keeps {s1 : State} {a1 a2 : Nat} (hF : Covers F [.ic]) (hs1 : Keeps F r s1) :
    Keeps F r (State.countLost s1 a1 a2) := by
  unfold State.countLost
  try lift_lets
  with_reducible repeat' first
    | (refine Keeps.ite ?_ ?_) <;> try lift_lets | assumption | apply State.raise_keeps | apply State.wr_keeps
    | apply State.bump_keeps | (refine Covers.sub hF ?_; decide)
    | (intro x; refine Keeps.take (s := x) ?_ fun hx => ?_; rotate_left; clear_value x; rotate_left; unfold x; try lift_lets)
    | intro x

theorem State.loseFrame_keeps {s1 : State} {a1 a2 : Nat} (hF : Covers F [.ic, .surf, .bbn]) (hs1 : Keeps F r s1) :
    Keeps F r (State.loseFrame s1 a1 a2) := by
  unfold State.loseFrame
  with_reducible repeat' first
    | (refine Keeps.ite ?_ ?_) | assumption | apply State.countLost_keeps | apply State.setStream_keeps
    | apply State.wr_keeps | apply State.endWrite_keeps | (refine Covers.sub hF ?_; decide)

theorem State.loseFrames_keeps {s1 : State} {a1 : Nat} (hF : Covers F [.ic, .surf, .bbn]) (hs1 : Keeps F r s1) :
    Keeps F r (State.loseFrames s1 a1) := by
  unfold State.loseFrames
  with_reducible repeat' first
    | (refine Keeps.ite ?_ ?_) | assumption | apply State.loseFrame_keeps | (refine Keeps.foldl (fun _ _ _ => ?_) ?_)
    | (refine Covers.sub hF ?_; decide)

theorem State.setBbnLink_keeps {s1 : State} {a1 : Nat} {a2 : Bool} (hF : Covers F [.ic, .tick, .surf, .bbn])
    (hs1 : Keeps F r s1) : Keeps F r (State.setBbnLink s1 a1 a2) := by
  unfold State.setBbnLink
  try lift_lets
  with_reducible repeat' first
    | (refine Keeps.ite ?_ ?_) <;> try lift_lets | assumption | apply State.raise_keeps | apply State.wr_keeps
    | apply State.loseGptp_keeps | apply State.loseFrames_keeps | (refine Covers.sub hF ?_; decide)
    | (intro x; refine Keeps.take (s := x) ?_ fun hx => ?_; rotate_left; clear_value x; rotate_left; unfold x; try lift_lets)
    | intro x

theorem State.bbnLock_keeps {s1 : State} {a1 : Nat} {a2 a3 : Bool} (hF : Covers F [.ic, .tick, .surf, .bbn])
    (hs1 : Keeps F r s1) : Keeps F r (State.bbnLock s1 a1 a2 a3) := by
  unfold State.bbnLock
  try lift_lets
  with_reducible repeat' first
    | assumption | apply State.wrs_keeps | apply State.setBbnLink_keeps | (refine Covers.sub hF ?_; decide)
    | (intro x; refine Keeps.take (s := x) ?_ fun hx => ?_; rotate_left; clear_value x; rotate_left; unfold x; try lift_lets)
    | intro x

theorem State.beginFrame_keeps {s1 : State} {a1 a2 a3 : Nat} {a4 : Bool} (hF : Covers F [.ic, .surf, .bbn])
    (hs1 : Keeps F r s1) : Keeps F r (State.beginFrame s1 a1 a2 a3 a4) := by
  unfold State.beginFrame
  try lift_lets
  with_reducible repeat' first
    | exact .inr (hF.one (by decide)) | exact .inl rfl | rfl | (refine Keeps.ite ?_ ?_) <;> try lift_lets | assumption
    | apply State.loseFrame_keeps | apply State.countLost_keeps | apply State.setStream_keeps | apply State.wr_keeps
    | apply State.startWrite_keeps | (refine Covers.sub hF ?_; decide)
    | (intro x; refine Keeps.take (s := x) ?_ fun hx => ?_; rotate_left; clear_value x; rotate_left; unfold x; try lift_lets)
    | intro x | refine Keeps.of_eq ?_ ?_ ?_ ?_ ?_ ?_ ?_ ?_ ?_ ?_ ?_ ?_ ?_ ?_ ?_ ?_ ?_

theorem State.checkSeq_keeps {s1 : State} {a1 a2 : Nat} (hF : Covers F [.ic, .surf, .bbn]) (hs1 : Keeps F r s1) :
    Keeps F r (State.checkSeq s1 a1 a2).1 := by
  unfold State.checkSeq
  try lift_lets
  with_reducible repeat' first
    | exact .inr (hF.one (by decide)) | exact .inl rfl | rfl | (refine Keeps.ite ?_ ?_) <;> try lift_lets | assumption
    | apply State.setStream_keeps | apply State.loseFrame_keeps | (split <;> try lift_lets)
    | (refine Covers.sub hF ?_; decide)
    | (intro x; refine Keeps.take (s := x) ?_ fun hx => ?_; rotate_left; clear_value x; rotate_left; unfold x; try lift_lets)
    | intro x | refine Keeps.of_eq ?_ ?_ ?_ ?_ ?_ ?_ ?_ ?_ ?_ ?_ ?_ ?_ ?_ ?_ ?_ ?_ ?_

theorem State.delayMsg_keeps {s1 : State} {a1 a2 : Nat} {a3 : Bool} (hF : Covers F [.ic, .tick, .bbn])
    (hs1 : Keeps F r s1) : Keeps F r (State.delayMsg s1 a1 a2 a3) := by
  unfold State.delayMsg
  try lift_lets
  with_reducible repeat' first
    | (refine Keeps.ite ?_ ?_) <;> try lift_lets | assumption | apply State.wrs_keeps | apply State.loseGptp_keeps
    | (refine Covers.sub hF ?_; decide)
    | (intro x; refine Keeps.take (s := x) ?_ fun hx => ?_; rotate_left; clear_value x; rotate_left; unfold x; try lift_lets)
    | intro x

theorem State.spoilFrame_keeps {s1 : State} {a1 a2 : Nat} (hF : Covers F [.ic, .surf, .bbn]) (hs1 : Keeps F r s1) :
    Keeps F r (State.spoilFrame s1 a1 a2) := by
  unfold State.spoilFrame
  with_reducible repeat' first
    | (refine Keeps.ite ?_ ?_) | assumption | apply State.loseFrame_keeps | (refine Covers.sub hF ?_; decide)

theorem State.putElem_keeps {s1 : State} {a1 : Surface} {a2 a3 a4 a5 : Nat} (hF : Covers F [.stk, .mem])
    (hs1 : Keeps F r s1) : Keeps F r (State.putElem s1 a1 a2 a3 a4 a5) := by
  unfold State.putElem
  with_reducible repeat' first
    | assumption | apply State.store3_keeps | (refine Covers.sub hF ?_; decide)

theorem State.putChroma_keeps {s1 : State} {a1 : Surface} {a2 a3 a4 a5 : Nat} (hF : Covers F [.stk, .mem])
    (hs1 : Keeps F r s1) : Keeps F r (State.putChroma s1 a1 a2 a3 a4 a5) := by
  unfold State.putChroma
  try lift_lets
  with_reducible repeat' first
    | assumption | apply State.store3_keeps | (refine Covers.sub hF ?_; decide)
    | (intro x; refine Keeps.take (s := x) ?_ fun hx => ?_; rotate_left; clear_value x; rotate_left; unfold x; try lift_lets)
    | intro x

theorem State.putPgroup_keeps {s1 : State} {a1 : Surface} {a2 a3 a4 : Nat} {a5 : List Byte} (hF : Covers F [.stk, .mem])
    (hs1 : Keeps F r s1) : Keeps F r (State.putPgroup s1 a1 a2 a3 a4 a5) := by
  unfold State.putPgroup
  try lift_lets
  with_reducible repeat' first
    | exact .inr (hF.one (by decide)) | exact .inl rfl | rfl | (refine Keeps.ite ?_ ?_) <;> try lift_lets | assumption
    | apply State.putElem_keeps | apply State.putChroma_keeps | (refine Keeps.foldl (fun _ _ _ => ?_) ?_) <;> try lift_lets
    | (split <;> try lift_lets) | (refine Covers.sub hF ?_; decide)
    | (intro x; refine Keeps.take (s := x) ?_ fun hx => ?_; rotate_left; clear_value x; rotate_left; unfold x; try lift_lets)
    | intro x | refine Keeps.of_eq ?_ ?_ ?_ ?_ ?_ ?_ ?_ ?_ ?_ ?_ ?_ ?_ ?_ ?_ ?_ ?_ ?_

theorem State.putSrd_keeps {s : State} {f : Surface} {k y n x : Nat} {bs : List Byte} (hF : Covers F [.stk, .mem]) (h : Keeps F r s) :
    Keeps F r (s.putSrd f k y n x bs) := by
  induction n generalizing s x bs with
  | zero => exact h
  | succ n ih => exact ih (State.putPgroup_keeps (hF.sub (by decide)) h)

theorem State.putSrds_keeps {s : State} {c : Nat} {bs : List Byte} {l : List (Nat × Bool × Nat × Nat)} (hF : Covers F [.ic, .surf, .bbn, .stk, .mem]) (h : Keeps F r s) :
    Keeps F r (s.putSrds c bs l) := by
  induction l generalizing s bs with
  | nil => exact h
  | cons a l ih =>
    obtain ⟨_, _, _, _⟩ := a
    unfold State.putSrds
    lift_lets
    intro f k g
    split
    · exact State.loseFrame_keeps (hF.sub (by decide)) h
    · split
      · exact State.loseFrame_keeps (hF.sub (by decide)) h
      · exact ih (State.putSrd_keeps (hF.sub (by decide)) h)

theorem State.lastPacket_keeps {s1 : State} {a1 : Nat} (hF : Covers F [.bbn]) (hs1 : Keeps F r s1) :
    Keeps F r (State.lastPacket s1 a1) := by
  unfold State.lastPacket
  with_reducible repeat' first
    | (refine Keeps.ite ?_ ?_) | assumption | apply State.setStream_keeps | (refine Covers.sub hF ?_; decide)

theorem State.rtpRows_keeps {s1 : State} {a1 a2 a3 a4 : Nat} {a5 : Bool} {a6 : List (Nat × Bool × Nat × Nat)}
    {a7 : List Byte} (hF : Covers F [.ic, .surf, .bbn, .stk, .mem]) (hs1 : Keeps F r s1) :
    Keeps F r (State.rtpRows s1 a1 a2 a3 a4 a5 a6 a7) := by
  unfold State.rtpRows
  try lift_lets
  with_reducible repeat' first
    | (refine Keeps.ite ?_ ?_) <;> try lift_lets | assumption | apply State.checkSeq_keeps | apply State.beginFrame_keeps
    | apply State.setStream_keeps | apply State.putSrds_keeps | apply State.lastPacket_keeps
    | (refine Covers.sub hF ?_; decide)
    | (intro x; refine Keeps.take (s := x) ?_ fun hx => ?_; rotate_left; clear_value x; rotate_left; unfold x; try lift_lets)
    | (intro x; refine Keeps.take (s := x.1) ?_ fun hx => ?_; rotate_left; clear_value x; rotate_left; unfold x; try lift_lets)
    | intro x

theorem State.rtpPacket_keeps {s1 : State} {a1 a2 a3 : Nat} {a4 : List Byte}
    (hF : Covers F [.ic, .surf, .bbn, .stk, .mem]) (hs1 : Keeps F r s1) : Keeps F r (State.rtpPacket s1 a1 a2 a3 a4) := by
  unfold State.rtpPacket
  with_reducible repeat' first
    | exact .inr (hF.one (by decide)) | exact .inl rfl | rfl | assumption | apply State.spoilFrame_keeps
    | apply State.rtpRows_keeps | split | (refine Covers.sub hF ?_; decide)
    | refine Keeps.of_eq ?_ ?_ ?_ ?_ ?_ ?_ ?_ ?_ ?_ ?_ ?_ ?_ ?_ ?_ ?_ ?_ ?_

theorem State.putTiles_keeps {s : State} {c n : Nat} {bs : List Byte} (hF : Covers F [.ic, .surf, .bbn, .stk, .mem]) (h : Keeps F r s) : Keeps F r (s.putTiles c n bs) := by
  induction n generalizing s bs with
  | zero => exact h
  | succ n ih =>
    unfold State.putTiles
    dsimp only
    split
    · exact State.loseFrame_keeps (hF.sub (by decide)) h
    · split
      · exact State.loseFrame_keeps (hF.sub (by decide)) h
      · split
        · exact State.loseFrame_keeps (hF.sub (by decide)) h
        · exact ih (State.store3_keeps (hF.sub (by decide)) (State.store3_keeps (hF.sub (by decide)) h))

theorem State.tilePacket_keeps {s1 : State} {a1 a2 a3 : Nat} {a4 : List Byte}
    (hF : Covers F [.ic, .surf, .bbn, .stk, .mem]) (hs1 : Keeps F r s1) : Keeps F r (State.tilePacket s1 a1 a2 a3 a4) := by
  unfold State.tilePacket
  try lift_lets
  with_reducible repeat' first
    | (refine Keeps.ite ?_ ?_) <;> try lift_lets | assumption | apply State.spoilFrame_keeps | apply State.checkSeq_keeps
    | apply State.beginFrame_keeps | apply State.putTiles_keeps | apply State.lastPacket_keeps
    | (refine Covers.sub hF ?_; decide)
    | (intro x; refine Keeps.take (s := x) ?_ fun hx => ?_; rotate_left; clear_value x; rotate_left; unfold x; try lift_lets)
    | (intro x; refine Keeps.take (s := x.1) ?_ fun hx => ?_; rotate_left; clear_value x; rotate_left; unfold x; try lift_lets)
    | intro x

theorem State.streamPacket_keeps {s1 : State} {a1 : Flow} {a2 : Nat} {a3 : List Byte}
    (hF : Covers F [.ic, .surf, .bbn, .stk, .mem]) (hs1 : Keeps F r s1) : Keeps F r (State.streamPacket s1 a1 a2 a3) := by
  unfold State.streamPacket
  try lift_lets
  with_reducible repeat' first
    | (refine Keeps.ite ?_ ?_) <;> try lift_lets | assumption | apply State.rtpPacket_keeps | apply State.tilePacket_keeps
    | (refine Covers.sub hF ?_; decide)
    | (intro x; refine Keeps.take (s := x) ?_ fun hx => ?_; rotate_left; clear_value x; rotate_left; unfold x; try lift_lets)
    | intro x

theorem State.noteBuffer_keeps {s1 : State} (hs1 : Keeps F r s1) : Keeps F r (State.noteBuffer s1) := by
  unfold State.noteBuffer
  with_reducible repeat' first
    | assumption | apply State.wr_keeps

theorem State.flowFrame_keeps {s1 : State} {a1 : Nat} {a2 : Flow} {a3 : Frame}
    (hF : Covers F [.ic, .surf, .bbn, .stk, .mem]) (hs1 : Keeps F r s1) : Keeps F r (State.flowFrame s1 a1 a2 a3) := by
  unfold State.flowFrame
  try lift_lets
  with_reducible repeat' first
    | exact .inr (hF.one (by decide)) | exact .inl rfl | rfl | (refine Keeps.ite ?_ ?_) <;> try lift_lets | assumption
    | apply State.bump_keeps | apply State.spoilFrame_keeps | apply State.streamPacket_keeps | apply State.noteBuffer_keeps
    | (split <;> try lift_lets) | (refine Covers.sub hF ?_; decide)
    | (intro x; refine Keeps.take (s := x) ?_ fun hx => ?_; rotate_left; clear_value x; rotate_left; unfold x; try lift_lets)
    | intro x | refine Keeps.of_eq ?_ ?_ ?_ ?_ ?_ ?_ ?_ ?_ ?_ ?_ ?_ ?_ ?_ ?_ ?_ ?_ ?_

theorem State.sendPeer_keeps {s1 : State} {a1 a2 a3 : Nat} (hF : Covers F [.bbn]) (hs1 : Keeps F r s1) :
    Keeps F r (State.sendPeer s1 a1 a2 a3) := by
  unfold State.sendPeer
  try lift_lets
  with_reducible repeat' first
    | exact .inr (hF.one (by decide)) | exact .inl rfl | rfl | assumption | (refine Covers.sub hF ?_; decide)
    | (intro x; refine Keeps.take (s := x) ?_ fun hx => ?_; rotate_left; clear_value x; rotate_left; unfold x; try lift_lets)
    | intro x | refine Keeps.of_eq ?_ ?_ ?_ ?_ ?_ ?_ ?_ ?_ ?_ ?_ ?_ ?_ ?_ ?_ ?_ ?_ ?_

theorem State.setFlow_keeps {s1 : State} {a1 : Nat} {a2 : Flow} (hF : Covers F [.bbn]) (hs1 : Keeps F r s1) :
    Keeps F r (State.setFlow s1 a1 a2) := by
  unfold State.setFlow
  try lift_lets
  with_reducible repeat' first
    | exact .inr (hF.one (by decide)) | exact .inl rfl | rfl | assumption | apply State.wr_keeps
    | (refine Covers.sub hF ?_; decide)
    | (intro x; refine Keeps.take (s := x) ?_ fun hx => ?_; rotate_left; clear_value x; rotate_left; unfold x; try lift_lets)
    | intro x | refine Keeps.of_eq ?_ ?_ ?_ ?_ ?_ ?_ ?_ ?_ ?_ ?_ ?_ ?_ ?_ ?_ ?_ ?_ ?_

theorem State.syncMsg_keeps {s1 : State} {a1 : Nat} {a2 : Int} {a3 : Nat} {a4 a5 : Int} (hF : Covers F [.ic, .tick, .bbn])
    (hs1 : Keeps F r s1) : Keeps F r (State.syncMsg s1 a1 a2 a3 a4 a5) := by
  unfold State.syncMsg
  try lift_lets
  with_reducible repeat' first
    | (refine Keeps.ite ?_ ?_) <;> try lift_lets | assumption | apply State.wrs_keeps | apply State.setGptpState_keeps
    | apply State.setGptp_keeps | (refine Covers.sub hF ?_; decide)
    | (intro x; refine Keeps.take (s := x) ?_ fun hx => ?_; rotate_left; clear_value x; rotate_left; unfold x; try lift_lets)
    | intro x

theorem execBbnFrameRx_keeps {a0 : Frame} {s2 : State} (hF : Covers F [.ic, .surf, .bbn, .stk, .mem])
    (hs2 : Keeps F r s2) : KeepsOut F r (execBbnFrameRx a0 s2) := by
  unfold execBbnFrameRx
  try lift_lets
  with_reducible repeat' first
    | exact .inr (hF.one (by decide)) | exact .inl rfl | rfl | (refine KeepsOut.ite ?_ ?_) <;> try lift_lets
    | (refine Keeps.ite ?_ ?_) <;> try lift_lets | assumption | apply State.inService_keeps | apply State.bump_keeps
    | apply State.flowFrame_keeps | refine Keeps.next ?_ | (split <;> try lift_lets) | (refine Covers.sub hF ?_; decide)
    | (refine fun x (hx : Keeps F r x) => ?_; try lift_lets)
    | (intro x; refine Keeps.take (s := x) ?_ fun hx => ?_; rotate_left; clear_value x; rotate_left; unfold x; try lift_lets)
    | intro x | refine Keeps.of_eq ?_ ?_ ?_ ?_ ?_ ?_ ?_ ?_ ?_ ?_ ?_ ?_ ?_ ?_ ?_ ?_ ?_

theorem execBbnLinkChange_keeps {a0 : Nat} {a1 a2 : Bool} {s4 : State} (hF : Covers F [.ic, .tick, .surf, .bbn])
    (hs4 : Keeps F r s4) : KeepsOut F r (execBbnLinkChange a0 a1 a2 s4) := by
  unfold execBbnLinkChange
  with_reducible repeat' first
    | (refine KeepsOut.ite ?_ ?_) | (refine Keeps.ite ?_ ?_) | assumption | apply State.inService_keeps
    | apply State.bbnLock_keeps | refine Keeps.next ?_ | (refine Covers.sub hF ?_; decide)
    | (refine fun x (hx : Keeps F r x) => ?_; try lift_lets)
    | (intro x; refine Keeps.take (s := x) ?_ fun hx => ?_; rotate_left; clear_value x; rotate_left; unfold x; try lift_lets)
    | intro x

theorem execBbnPortConfig_keeps {a0 : Nat} {a1 : Word} {s3 : State} (hF : Covers F [.ic, .tick, .surf, .bbn])
    (hs3 : Keeps F r s3) : KeepsOut F r (execBbnPortConfig a0 a1 s3) := by
  unfold execBbnPortConfig
  try lift_lets
  with_reducible repeat' first
    | (refine KeepsOut.ite ?_ ?_) <;> try lift_lets | (refine Keeps.ite ?_ ?_) <;> try lift_lets | assumption
    | apply State.setup_keeps | apply State.wrs_keeps | apply State.bbnLock_keeps | apply State.setGptpState_keeps
    | apply State.setGptp_keeps | refine Keeps.next ?_ | (refine Covers.sub hF ?_; decide)
    | (refine fun x (hx : Keeps F r x) => ?_; try lift_lets)
    | (intro x; refine Keeps.take (s := x) ?_ fun hx => ?_; rotate_left; clear_value x; rotate_left; unfold x; try lift_lets)
    | intro x

theorem flowWriteBody_keeps {a0 : Nat} {a1 : Desc} {s3 : State} (hF : Covers F [.bbn]) (hs3 : Keeps F r s3) :
    KeepsRes F r (flowWriteBody a0 a1 s3) := by
  unfold flowWriteBody
  try lift_lets
  with_reducible repeat' first
    | exact .inr (hF.one (by decide)) | exact .inl rfl | rfl | assumption | apply State.checked_keeps
    | apply State.setFlow_keeps | exact Keeps.rest | refine Keeps.done ?_ | refine Keeps.wait ?_ | refine Keeps.admitted ?_
    | (split <;> try lift_lets) | (refine Covers.sub hF ?_; decide) | (refine fun x (hx : Keeps F r x) => ?_; try lift_lets)
    | (intro x; refine Keeps.take (s := x) ?_ fun hx => ?_; rotate_left; clear_value x; rotate_left; unfold x; try lift_lets)
    | intro x | refine Keeps.of_eq ?_ ?_ ?_ ?_ ?_ ?_ ?_ ?_ ?_ ?_ ?_ ?_ ?_ ?_ ?_ ?_ ?_

theorem execFlowWrite_keeps {a0 : Nat} {s2 : State} (hF : Covers F [.hif, .ic, .bbn]) (hs2 : Keeps F r s2) :
    KeepsOut F r (execFlowWrite a0 s2) := by
  unfold execFlowWrite
  with_reducible repeat' first
    | assumption | apply State.descriptor_keeps | apply flowWriteBody_keeps | refine Keeps.next ?_
    | (refine Covers.sub hF ?_; decide) | (refine fun x (hx : Keeps F r x) => ?_; try lift_lets)
    | (intro x; refine Keeps.take (s := x) ?_ fun hx => ?_; rotate_left; clear_value x; rotate_left; unfold x; try lift_lets)
    | intro x

theorem execGptpLost_keeps {a0 : Nat} {s2 : State} (hF : Covers F [.ic, .tick, .bbn]) (hs2 : Keeps F r s2) :
    KeepsOut F r (execGptpLost a0 s2) := by
  unfold execGptpLost
  with_reducible repeat' first
    | (refine KeepsOut.ite ?_ ?_) | (refine Keeps.ite ?_ ?_) | assumption | apply State.inService_keeps
    | apply State.loseGptp_keeps | refine Keeps.next ?_ | (refine Covers.sub hF ?_; decide)
    | (refine fun x (hx : Keeps F r x) => ?_; try lift_lets)
    | (intro x; refine Keeps.take (s := x) ?_ fun hx => ?_; rotate_left; clear_value x; rotate_left; unfold x; try lift_lets)
    | intro x

theorem execGptpMessage_keeps {a0 : Nat} {a1 : GptpMsg} {s3 : State} (hF : Covers F [.ic, .tick, .bbn])
    (hs3 : Keeps F r s3) : KeepsOut F r (execGptpMessage a0 a1 s3) := by
  unfold execGptpMessage
  with_reducible repeat' first
    | exact .inr (hF.one (by decide)) | exact .inl rfl | rfl | (refine KeepsOut.ite ?_ ?_) | (refine Keeps.ite ?_ ?_)
    | assumption | apply State.inService_keeps | apply State.announceMsg_keeps | apply State.syncMsg_keeps
    | apply State.delayMsg_keeps | apply State.sendPeer_keeps | refine Keeps.next ?_ | split
    | (refine Covers.sub hF ?_; decide) | (refine fun x (hx : Keeps F r x) => ?_; try lift_lets)
    | (intro x; refine Keeps.take (s := x) ?_ fun hx => ?_; rotate_left; clear_value x; rotate_left; unfold x; try lift_lets)
    | intro x | refine Keeps.of_eq ?_ ?_ ?_ ?_ ?_ ?_ ?_ ?_ ?_ ?_ ?_ ?_ ?_ ?_ ?_ ?_ ?_

theorem execPdelayReq_keeps {a0 : Nat} {s2 : State} (hF : Covers F [.bbn]) (hs2 : Keeps F r s2) :
    KeepsOut F r (execPdelayReq a0 s2) := by
  unfold execPdelayReq
  with_reducible repeat' first
    | (refine KeepsOut.ite ?_ ?_) | (refine Keeps.ite ?_ ?_) | assumption | apply State.inService_keeps
    | apply State.setGptp_keeps | apply State.sendPeer_keeps | refine Keeps.next ?_ | (refine Covers.sub hF ?_; decide)
    | (refine fun x (hx : Keeps F r x) => ?_; try lift_lets)
    | (intro x; refine Keeps.take (s := x) ?_ fun hx => ?_; rotate_left; clear_value x; rotate_left; unfold x; try lift_lets)
    | intro x

theorem execStreamEnable_keeps {a0 : Nat} {a1 : Word} {s3 : State} (hF : Covers F [.ic, .surf, .bbn])
    (hs3 : Keeps F r s3) : KeepsOut F r (execStreamEnable a0 a1 s3) := by
  unfold execStreamEnable
  try lift_lets
  with_reducible repeat' first
    | (refine KeepsOut.ite ?_ ?_) <;> try lift_lets | (refine Keeps.ite ?_ ?_) <;> try lift_lets | assumption
    | apply State.setup_keeps | apply State.wrs_keeps | apply State.setStream_keeps | apply State.loseFrame_keeps
    | refine Keeps.next ?_ | (refine Covers.sub hF ?_; decide) | (refine fun x (hx : Keeps F r x) => ?_; try lift_lets)
    | (intro x; refine Keeps.take (s := x) ?_ fun hx => ?_; rotate_left; clear_value x; rotate_left; unfold x; try lift_lets)
    | intro x

theorem execStreamFrameComplete_keeps {a0 a1 : Nat} {s3 : State} (hF : Covers F [.ic, .surf, .bbn]) (hs3 : Keeps F r s3) :
    KeepsOut F r (execStreamFrameComplete a0 a1 s3) := by
  unfold execStreamFrameComplete
  try lift_lets
  with_reducible repeat' first
    | (refine KeepsOut.ite ?_ ?_) <;> try lift_lets | (refine Keeps.ite ?_ ?_) <;> try lift_lets | assumption
    | apply State.inService_keeps | apply State.setStream_keeps | apply State.endWrite_keeps | apply State.bump_keeps
    | apply State.wrs_keeps | apply State.wr_keeps | apply State.raise_keeps | refine Keeps.next ?_
    | (refine Covers.sub hF ?_; decide) | (refine fun x (hx : Keeps F r x) => ?_; try lift_lets)
    | (intro x; refine Keeps.take (s := x) ?_ fun hx => ?_; rotate_left; clear_value x; rotate_left; unfold x; try lift_lets)
    | intro x

theorem execStreamFrameTimeout_keeps {a0 : Nat} {s2 : State} (hF : Covers F [.ic, .surf, .bbn]) (hs2 : Keeps F r s2) :
    KeepsOut F r (execStreamFrameTimeout a0 s2) := by
  unfold execStreamFrameTimeout
  with_reducible repeat' first
    | (refine KeepsOut.ite ?_ ?_) | (refine Keeps.ite ?_ ?_) | assumption | apply State.inService_keeps
    | apply State.loseFrame_keeps | apply State.reach_keeps | refine Keeps.next ?_ | (refine Covers.sub hF ?_; decide)
    | (refine fun x (hx : Keeps F r x) => ?_; try lift_lets)
    | (intro x; refine Keeps.take (s := x) ?_ fun hx => ?_; rotate_left; clear_value x; rotate_left; unfold x; try lift_lets)
    | intro x

end Sys2Proof.Machine
end

