-- ==== Sys2Proof/Laws/Keeps/LightOps.lean ====
section
/-! SUPPORT. What every command keeps, operation by operation: those of Machine/LightOps.lean. -/

namespace Sys2Proof.Machine

variable {F : List Part} {r : State}

theorem State.dropCal_keeps {s1 : State} {a1 a2 : Nat} {a3 : Bool} (hF : Covers F [.ic, .light]) (hs1 : Keeps F r s1) :
    Keeps F r (State.dropCal s1 a1 a2 a3) := by
  unfold State.dropCal
  try lift_lets
  with_reducible repeat' first
    | exact .inr (hF.one (by decide)) | exact .inl rfl | rfl | (refine Keeps.ite ?_ ?_) <;> try lift_lets | assumption
    | apply State.setLight_keeps | apply State.raise_keeps | apply State.bump_keeps | (split <;> try lift_lets)
    | (refine Covers.sub hF ?_; decide)
    | (intro x; refine Keeps.take (s := x) ?_ fun hx => ?_; rotate_left; clear_value x; rotate_left; unfold x; try lift_lets)
    | intro x | refine Keeps.of_eq ?_ ?_ ?_ ?_ ?_ ?_ ?_ ?_ ?_ ?_ ?_ ?_ ?_ ?_ ?_ ?_ ?_

theorem State.notePending_keeps {s1 : State} {a1 : Nat} (hs1 : Keeps F r s1) : Keeps F r (State.notePending s1 a1) := by
  unfold State.notePending
  try lift_lets
  with_reducible repeat' first
    | exact .inl rfl | rfl | assumption | apply State.wr_keeps | (split <;> try lift_lets)
    | (intro x; refine Keeps.take (s := x) ?_ fun hx => ?_; rotate_left; clear_value x; rotate_left; unfold x; try lift_lets)
    | intro x | refine Keeps.of_eq ?_ ?_ ?_ ?_ ?_ ?_ ?_ ?_ ?_ ?_ ?_ ?_ ?_ ?_ ?_ ?_ ?_

theorem State.stage_keeps {s1 : State} {a1 : Nat} {a2 : Bool} (hF : Covers F [.light]) (hs1 : Keeps F r s1) :
    Keeps F r (State.stage s1 a1 a2) := by
  unfold State.stage
  try lift_lets
  with_reducible repeat' first
    | exact .inr (hF.one (by decide)) | exact .inl rfl | rfl | (refine Keeps.ite ?_ ?_) <;> try lift_lets | assumption
    | apply State.setLight_keeps | apply State.bump_keeps | apply State.notePending_keeps
    | (refine Covers.sub hF ?_; decide)
    | (intro x; refine Keeps.take (s := x) ?_ fun hx => ?_; rotate_left; clear_value x; rotate_left; unfold x; try lift_lets)
    | intro x | refine Keeps.of_eq ?_ ?_ ?_ ?_ ?_ ?_ ?_ ?_ ?_ ?_ ?_ ?_ ?_ ?_ ?_ ?_ ?_

theorem State.stageIfChanged_keeps {s1 : State} {a1 : Nat} (hF : Covers F [.light]) (hs1 : Keeps F r s1) :
    Keeps F r (State.stageIfChanged s1 a1) := by
  unfold State.stageIfChanged
  try lift_lets
  with_reducible repeat' first
    | exact .inr (hF.one (by decide)) | exact .inl rfl | rfl | (refine Keeps.ite ?_ ?_) <;> try lift_lets | assumption
    | apply State.stage_keeps | (split <;> try lift_lets) | (refine Covers.sub hF ?_; decide)
    | (intro x; refine Keeps.take (s := x) ?_ fun hx => ?_; rotate_left; clear_value x; rotate_left; unfold x; try lift_lets)
    | intro x | refine Keeps.of_eq ?_ ?_ ?_ ?_ ?_ ?_ ?_ ?_ ?_ ?_ ?_ ?_ ?_ ?_ ?_ ?_ ?_

theorem State.restage_keeps {s1 : State} {a1 a2 : Nat} (hF : Covers F [.light]) (hs1 : Keeps F r s1) :
    Keeps F r (State.restage s1 a1 a2) := by
  unfold State.restage
  with_reducible repeat' first
    | assumption | apply State.stageIfChanged_keeps | apply State.setLight_keeps | (refine Covers.sub hF ?_; decide)

theorem State.abandonCal_keeps {s1 : State} {a1 a2 : Nat} {a3 : Bool} (hF : Covers F [.ic, .light]) (hs1 : Keeps F r s1) :
    Keeps F r (State.abandonCal s1 a1 a2 a3) := by
  unfold State.abandonCal
  try lift_lets
  with_reducible repeat' first
    | exact .inr (hF.one (by decide)) | exact .inl rfl | rfl | (refine Keeps.ite ?_ ?_) <;> try lift_lets | assumption
    | apply State.dropCal_keeps | apply State.restage_keeps | apply State.setLight_keeps | (split <;> try lift_lets)
    | (refine Covers.sub hF ?_; decide)
    | (intro x; refine Keeps.take (s := x) ?_ fun hx => ?_; rotate_left; clear_value x; rotate_left; unfold x; try lift_lets)
    | intro x | refine Keeps.of_eq ?_ ?_ ?_ ?_ ?_ ?_ ?_ ?_ ?_ ?_ ?_ ?_ ?_ ?_ ?_ ?_ ?_

theorem State.abandonCals_keeps {s1 : State} {a1 : Nat} {a2 : Bool} (hF : Covers F [.ic, .light]) (hs1 : Keeps F r s1) :
    Keeps F r (State.abandonCals s1 a1 a2) := by
  unfold State.abandonCals
  with_reducible repeat' first
    | assumption | apply State.abandonCal_keeps | (refine Keeps.foldl (fun _ _ _ => ?_) ?_)
    | (refine Covers.sub hF ?_; decide)

theorem State.adoptModel_keeps {s1 : State} {a1 : Nat} {a2 : Nat × StrModel} (hF : Covers F [.ic, .light])
    (hs1 : Keeps F r s1) : Keeps F r (State.adoptModel s1 a1 a2) := by
  unfold State.adoptModel
  try lift_lets
  with_reducible repeat' first
    | exact .inr (hF.one (by decide)) | exact .inl rfl | rfl | (refine Keeps.ite ?_ ?_) <;> try lift_lets | assumption
    | apply State.setLight_keeps | apply State.raise_keeps | apply State.wr_keeps | apply State.bump_keeps
    | (split <;> try lift_lets) | (refine Covers.sub hF ?_; decide)
    | (intro x; refine Keeps.take (s := x) ?_ fun hx => ?_; rotate_left; clear_value x; rotate_left; unfold x; try lift_lets)
    | intro x | refine Keeps.of_eq ?_ ?_ ?_ ?_ ?_ ?_ ?_ ?_ ?_ ?_ ?_ ?_ ?_ ?_ ?_ ?_ ?_

theorem State.driverLost_keeps {s1 : State} {a1 : Nat} (hF : Covers F [.ic, .light]) (hs1 : Keeps F r s1) :
    Keeps F r (State.driverLost s1 a1) := by
  unfold State.driverLost
  with_reducible repeat' first
    | (refine Keeps.ite ?_ ?_) | assumption | apply State.abandonCals_keeps | apply State.raise_keeps | apply State.wr_keeps
    | (refine Covers.sub hF ?_; decide)

theorem State.lateBoard_keeps {s1 : State} {a1 : Nat} {a2 : BoardTable} {a3 : Bool} (hF : Covers F [.ic, .light])
    (hs1 : Keeps F r s1) : Keeps F r (State.lateBoard s1 a1 a2 a3) := by
  unfold State.lateBoard
  try lift_lets
  with_reducible repeat' first
    | exact .inr (hF.one (by decide)) | exact .inl rfl | rfl | (refine Keeps.ite ?_ ?_) <;> try lift_lets | assumption
    | apply State.bump_keeps | apply State.notePending_keeps | apply State.driverLost_keeps | apply State.setLight_keeps
    | (split <;> try lift_lets) | (refine Covers.sub hF ?_; decide)
    | (intro x; refine Keeps.take (s := x) ?_ fun hx => ?_; rotate_left; clear_value x; rotate_left; unfold x; try lift_lets)
    | intro x | refine Keeps.of_eq ?_ ?_ ?_ ?_ ?_ ?_ ?_ ?_ ?_ ?_ ?_ ?_ ?_ ?_ ?_ ?_ ?_

theorem State.failedTables_keeps {s1 : State} (hF : Covers F [.ic, .light]) (hs1 : Keeps F r s1) :
    Keeps F r (State.failedTables s1) := by
  unfold State.failedTables
  with_reducible repeat' first
    | exact .inr (hF.one (by decide)) | exact .inl rfl | rfl | (refine Keeps.ite ?_ ?_) | assumption
    | apply State.lateBoard_keeps | (refine Keeps.foldl (fun _ _ _ => ?_) ?_) | split | (refine Covers.sub hF ?_; decide)
    | refine Keeps.of_eq ?_ ?_ ?_ ?_ ?_ ?_ ?_ ?_ ?_ ?_ ?_ ?_ ?_ ?_ ?_ ?_ ?_

theorem State.leaveMask_keeps {s1 : State} {a1 a2 a3 : Nat} (hF : Covers F [.ic, .light]) (hs1 : Keeps F r s1) :
    Keeps F r (State.leaveMask s1 a1 a2 a3) := by
  unfold State.leaveMask
  try lift_lets
  with_reducible repeat' first
    | (refine Keeps.ite ?_ ?_) <;> try lift_lets | assumption | apply State.setLight_keeps | apply State.dropCal_keeps
    | apply State.restage_keeps | apply State.wr_keeps | (refine Covers.sub hF ?_; decide)
    | (intro x; refine Keeps.take (s := x) ?_ fun hx => ?_; rotate_left; clear_value x; rotate_left; unfold x; try lift_lets)
    | intro x

theorem State.showTable_keeps {s1 : State} {a1 : Nat} {a2 : BoardTable} (hs1 : Keeps F r s1) :
    Keeps F r (State.showTable s1 a1 a2) := by
  unfold State.showTable
  try lift_lets
  with_reducible repeat' first
    | (refine Keeps.ite ?_ ?_) <;> try lift_lets | assumption | apply State.wrs_keeps
    | (refine Keeps.foldl (fun _ _ _ => ?_) ?_) <;> try lift_lets
    | (intro x; refine Keeps.take (s := x) ?_ fun hx => ?_; rotate_left; clear_value x; rotate_left; unfold x; try lift_lets)
    | intro x

theorem State.tableInForce_keeps {s1 : State} {a1 : Nat} {a2 : BoardTable} (hF : Covers F [.ic, .light])
    (hs1 : Keeps F r s1) : Keeps F r (State.tableInForce s1 a1 a2) := by
  unfold State.tableInForce
  try lift_lets
  with_reducible repeat' first
    | (refine Keeps.ite ?_ ?_) <;> try lift_lets | assumption | apply State.setLight_keeps | apply State.adoptModel_keeps
    | apply State.showTable_keeps | apply State.wr_keeps | apply State.wrs_keeps | apply State.notePending_keeps
    | apply State.bump_keeps | (refine Keeps.foldl (fun _ _ _ => ?_) ?_) <;> try lift_lets
    | (refine Covers.sub hF ?_; decide)
    | (intro x; refine Keeps.take (s := x) ?_ fun hx => ?_; rotate_left; clear_value x; rotate_left; unfold x; try lift_lets)
    | intro x

theorem State.trySwitch_keeps {s1 : State} (hF : Covers F [.light]) (hs1 : Keeps F r s1) :
    Keeps F r (State.trySwitch s1) := by
  unfold State.trySwitch
  try lift_lets
  with_reducible repeat' first
    | exact .inr (hF.one (by decide)) | exact .inl rfl | rfl | (refine Keeps.ite ?_ ?_) <;> try lift_lets | assumption
    | apply State.setLight_keeps | apply State.wrs_keeps | (refine Keeps.foldl (fun _ _ _ => ?_) ?_) <;> try lift_lets
    | (refine Covers.sub hF ?_; decide)
    | (intro x; refine Keeps.take (s := x) ?_ fun hx => ?_; rotate_left; clear_value x; rotate_left; unfold x; try lift_lets)
    | intro x | refine Keeps.of_eq ?_ ?_ ?_ ?_ ?_ ?_ ?_ ?_ ?_ ?_ ?_ ?_ ?_ ?_ ?_ ?_ ?_

theorem State.switchEdge_keeps {s1 : State} (hF : Covers F [.ic, .light]) (hs1 : Keeps F r s1) :
    Keeps F r (State.switchEdge s1) := by
  unfold State.switchEdge
  try lift_lets
  with_reducible repeat' first
    | exact .inr (hF.one (by decide)) | exact .inl rfl | rfl | (refine Keeps.ite ?_ ?_) <;> try lift_lets | assumption
    | apply State.tableInForce_keeps | apply State.lateBoard_keeps | apply State.trySwitch_keeps
    | (refine Keeps.foldl (fun _ _ _ => ?_) ?_) <;> try lift_lets | (split <;> try lift_lets)
    | (refine Covers.sub hF ?_; decide)
    | (intro x; refine Keeps.take (s := x) ?_ fun hx => ?_; rotate_left; clear_value x; rotate_left; unfold x; try lift_lets)
    | intro x | refine Keeps.of_eq ?_ ?_ ?_ ?_ ?_ ?_ ?_ ?_ ?_ ?_ ?_ ?_ ?_ ?_ ?_ ?_ ?_

end Sys2Proof.Machine
end

