-- ==== Sys2Proof/Laws/Keeps/Light.lean ====
section
/-! SUPPORT. What every command keeps, operation by operation: those of Machine/Light.lean. -/

namespace Sys2Proof.Machine

variable {F : List Part} {r : State}

theorem State.clearFault_keeps {s1 : State} {a1 a2 : Nat} (hF : Covers F [.light]) (hs1 : Keeps F r s1) :
    Keeps F r (State.clearFault s1 a1 a2) := by
  unfold State.clearFault
  try lift_lets
  with_reducible repeat' first
    | (refine Keeps.ite ?_ ?_) <;> try lift_lets | assumption | apply State.setLight_keeps | apply State.wrs_keeps
    | (refine Covers.sub hF ?_; decide)
    | (intro x; refine Keeps.take (s := x) ?_ fun hx => ?_; rotate_left; clear_value x; rotate_left; unfold x; try lift_lets)
    | intro x

theorem State.declareFault_keeps {s1 : State} {a1 a2 : Nat} {a3 : Bool} (hF : Covers F [.ic, .light])
    (hs1 : Keeps F r s1) : Keeps F r (State.declareFault s1 a1 a2 a3) := by
  unfold State.declareFault
  try lift_lets
  with_reducible repeat' first
    | (refine Keeps.ite ?_ ?_) <;> try lift_lets | assumption | apply State.raise_keeps | apply State.restage_keeps
    | apply State.wr_keeps | apply State.setLight_keeps | apply State.dropCal_keeps | apply State.leaveMask_keeps
    | (refine Covers.sub hF ?_; decide)
    | (intro x; refine Keeps.take (s := x) ?_ fun hx => ?_; rotate_left; clear_value x; rotate_left; unfold x; try lift_lets)
    | intro x

theorem State.endRequests_keeps {s1 : State} {a1 a2 : Nat} (hF : Covers F [.light]) (hs1 : Keeps F r s1) :
    Keeps F r (State.endRequests s1 a1 a2) := by
  unfold State.endRequests
  with_reducible repeat' first
    | assumption | apply State.setLight_keeps | (refine Covers.sub hF ?_; decide)

theorem State.showVerified_keeps {s1 : State} {a1 a2 : Nat} (hs1 : Keeps F r s1) :
    Keeps F r (State.showVerified s1 a1 a2) := by
  unfold State.showVerified
  with_reducible repeat' first
    | assumption | apply State.wr_keeps

theorem State.heat_keeps {s1 : State} {a1 a2 a3 : Nat} (hF : Covers F [.ic, .eng, .light]) (hs1 : Keeps F r s1) :
    Keeps F r (State.heat s1 a1 a2 a3) := by
  unfold State.heat
  try lift_lets
  with_reducible repeat' first
    | exact .inr (hF.one (by decide)) | exact .inl rfl | rfl | (refine Keeps.ite ?_ ?_) <;> try lift_lets | assumption
    | apply State.setLight_keeps | apply State.raise_keeps | apply State.setEngine_keeps | apply State.restage_keeps
    | apply State.wr_keeps | apply State.dropCal_keeps | apply State.leaveMask_keeps | apply State.showVerified_keeps
    | apply State.endRequests_keeps | (split <;> try lift_lets) | (refine Covers.sub hF ?_; decide)
    | (intro x; refine Keeps.take (s := x) ?_ fun hx => ?_; rotate_left; clear_value x; rotate_left; unfold x; try lift_lets)
    | intro x | refine Keeps.of_eq ?_ ?_ ?_ ?_ ?_ ?_ ?_ ?_ ?_ ?_ ?_ ?_ ?_ ?_ ?_ ?_ ?_

theorem State.identStrings_keeps {s1 : State} {a1 a2 a3 : Nat} {a4 : Bool} {a5 : Nat} (hF : Covers F [.ic, .light])
    (hs1 : Keeps F r s1) : Keeps F r (State.identStrings s1 a1 a2 a3 a4 a5) := by
  unfold State.identStrings
  try lift_lets
  with_reducible repeat' first
    | (refine Keeps.ite ?_ ?_) <;> try lift_lets | assumption | apply State.setLight_keeps | apply State.abandonCals_keeps
    | apply State.wrs_keeps | apply State.restage_keeps | (refine Keeps.foldl (fun _ _ _ => ?_) ?_) <;> try lift_lets
    | (refine Covers.sub hF ?_; decide)
    | (intro x; refine Keeps.take (s := x) ?_ fun hx => ?_; rotate_left; clear_value x; rotate_left; unfold x; try lift_lets)
    | intro x

theorem State.judge_keeps {s1 : State} {a1 a2 : Nat} {a3 : LightTick} {a4 a5 a6 a7 : Nat}
    (hF : Covers F [.ic, .eng, .light]) (hs1 : Keeps F r s1) : Keeps F r (State.judge s1 a1 a2 a3 a4 a5 a6 a7) := by
  unfold State.judge
  try lift_lets
  with_reducible repeat' first
    | (refine Keeps.ite ?_ ?_) <;> try lift_lets | assumption | apply State.wr_keeps | apply State.bump_keeps
    | apply State.showVerified_keeps | apply State.endRequests_keeps | apply State.declareFault_keeps
    | apply State.wrs_keeps | apply State.setLight_keeps | apply State.setEngine_keeps | (refine Covers.sub hF ?_; decide)
    | (intro x; refine Keeps.take (s := x) ?_ fun hx => ?_; rotate_left; clear_value x; rotate_left; unfold x; try lift_lets)
    | intro x

theorem State.showLight_keeps {s1 : State} {a1 : Nat} (hs1 : Keeps F r s1) : Keeps F r (State.showLight s1 a1) := by
  unfold State.showLight
  try lift_lets
  with_reducible repeat' first
    | assumption | apply State.wrs_keeps | (refine Keeps.foldl (fun _ _ _ => ?_) ?_) <;> try lift_lets
    | (intro x; refine Keeps.take (s := x) ?_ fun hx => ?_; rotate_left; clear_value x; rotate_left; unfold x; try lift_lets)
    | intro x

theorem State.lightStore_keeps {s1 : State} {a1 : Nat} {a2 : Desc} (hF : Covers F [.light]) (hs1 : Keeps F r s1) :
    Keeps F r (State.lightStore s1 a1 a2) := by
  unfold State.lightStore
  try lift_lets
  with_reducible repeat' first
    | exact .inr (hF.one (by decide)) | exact .inl rfl | rfl | (refine Keeps.ite ?_ ?_) <;> try lift_lets | assumption
    | apply State.setLight_keeps | apply State.showLight_keeps | apply State.clearFault_keeps | apply State.restage_keeps
    | (refine Keeps.foldl (fun _ _ _ => ?_) ?_) <;> try lift_lets | (split <;> try lift_lets)
    | (refine Covers.sub hF ?_; decide)
    | (intro x; refine Keeps.take (s := x) ?_ fun hx => ?_; rotate_left; clear_value x; rotate_left; unfold x; try lift_lets)
    | intro x | refine Keeps.of_eq ?_ ?_ ?_ ?_ ?_ ?_ ?_ ?_ ?_ ?_ ?_ ?_ ?_ ?_ ?_ ?_ ?_

theorem State.loopEngine_keeps {s1 : State} {a1 a2 a3 : Nat} (hF : Covers F [.ic, .light]) (hs1 : Keeps F r s1) :
    Keeps F r (State.loopEngine s1 a1 a2 a3) := by
  unfold State.loopEngine
  try lift_lets
  with_reducible repeat' first
    | exact .inr (hF.one (by decide)) | exact .inl rfl | rfl | (refine Keeps.ite ?_ ?_) <;> try lift_lets | assumption
    | apply State.setLight_keeps | apply State.wr_keeps | apply State.raise_keeps | apply State.stageIfChanged_keeps
    | (refine Keeps.foldl (fun _ _ _ => ?_) ?_) <;> try lift_lets | (split <;> try lift_lets)
    | (refine Covers.sub hF ?_; decide)
    | (intro x; refine Keeps.take (s := x) ?_ fun hx => ?_; rotate_left; clear_value x; rotate_left; unfold x; try lift_lets)
    | intro x | refine Keeps.of_eq ?_ ?_ ?_ ?_ ?_ ?_ ?_ ?_ ?_ ?_ ?_ ?_ ?_ ?_ ?_ ?_ ?_

theorem State.stringMsg_keeps {s1 : State} {a1 a2 a3 a4 a5 a6 a7 : Nat} (hF : Covers F [.ic, .eng, .light])
    (hs1 : Keeps F r s1) : Keeps F r (State.stringMsg s1 a1 a2 a3 a4 a5 a6 a7) := by
  unfold State.stringMsg
  try lift_lets
  with_reducible repeat' first
    | exact .inr (hF.one (by decide)) | exact .inl rfl | rfl | (refine Keeps.ite ?_ ?_) <;> try lift_lets | assumption
    | apply State.judge_keeps | apply State.heat_keeps | (split <;> try lift_lets) | (refine Covers.sub hF ?_; decide)
    | (intro x; refine Keeps.take (s := x) ?_ fun hx => ?_; rotate_left; clear_value x; rotate_left; unfold x; try lift_lets)
    | intro x | refine Keeps.of_eq ?_ ?_ ?_ ?_ ?_ ?_ ?_ ?_ ?_ ?_ ?_ ?_ ?_ ?_ ?_ ?_ ?_

theorem State.takeEdge_keeps {s1 : State} {a1 : Nat} (hF : Covers F [.light]) (hs1 : Keeps F r s1) :
    Keeps F r (State.takeEdge s1 a1) := by
  unfold State.takeEdge
  with_reducible repeat' first
    | (refine Keeps.ite ?_ ?_) | assumption | apply State.showLight_keeps | apply State.setLight_keeps
    | (refine Covers.sub hF ?_; decide)

theorem execHeatHoldExpiry_keeps {a0 a1 : Nat} {s3 : State} (hF : Covers F [.light]) (hs3 : Keeps F r s3) :
    KeepsOut F r (execHeatHoldExpiry a0 a1 s3) := by
  unfold execHeatHoldExpiry
  try lift_lets
  with_reducible repeat' first
    | (refine KeepsOut.ite ?_ ?_) <;> try lift_lets | (refine Keeps.ite ?_ ?_) <;> try lift_lets | assumption
    | apply State.inService_keeps | apply State.reach_keeps | apply State.setLight_keeps | apply State.wr_keeps
    | apply State.showVerified_keeps | apply State.restage_keeps | refine Keeps.next ?_ | (refine Covers.sub hF ?_; decide)
    | (refine fun x (hx : Keeps F r x) => ?_; try lift_lets)
    | (intro x; refine Keeps.take (s := x) ?_ fun hx => ?_; rotate_left; clear_value x; rotate_left; unfold x; try lift_lets)
    | intro x

theorem execLoopEdge_keeps {s1 : State} (hF : Covers F [.ic, .light]) (hs1 : Keeps F r s1) :
    KeepsOut F r (execLoopEdge s1) := by
  unfold execLoopEdge
  try lift_lets
  with_reducible repeat' first
    | exact .inr (hF.one (by decide)) | exact .inl rfl | rfl | (refine KeepsOut.ite ?_ ?_) <;> try lift_lets
    | (refine Keeps.ite ?_ ?_) <;> try lift_lets | assumption | apply State.inService_keeps | apply State.showLight_keeps
    | apply State.setLight_keeps | apply State.wrs_keeps | apply State.loopEngine_keeps
    | (refine Keeps.foldl (fun _ _ _ => ?_) ?_) <;> try lift_lets | refine Keeps.next ?_ | (refine Covers.sub hF ?_; decide)
    | (refine fun x (hx : Keeps F r x) => ?_; try lift_lets)
    | (intro x; refine Keeps.take (s := x) ?_ fun hx => ?_; rotate_left; clear_value x; rotate_left; unfold x; try lift_lets)
    | intro x | refine Keeps.of_eq ?_ ?_ ?_ ?_ ?_ ?_ ?_ ?_ ?_ ?_ ?_ ?_ ?_ ?_ ?_ ?_ ?_

theorem lightSetBody_keeps {a0 : Desc} {s2 : State} (hF : Covers F [.light]) (hs2 : Keeps F r s2) :
    KeepsRes F r (lightSetBody a0 s2) := by
  unfold lightSetBody
  try lift_lets
  with_reducible repeat' first
    | (refine KeepsRes.ite ?_ ?_) <;> try lift_lets | (refine Keeps.ite ?_ ?_) <;> try lift_lets | assumption
    | apply State.checked_keeps | apply State.lightStore_keeps | exact Keeps.rest | refine Keeps.done ?_
    | refine Keeps.wait ?_ | refine Keeps.admitted ?_ | (refine Covers.sub hF ?_; decide)
    | (refine fun x (hx : Keeps F r x) => ?_; try lift_lets)
    | (intro x; refine Keeps.take (s := x) ?_ fun hx => ?_; rotate_left; clear_value x; rotate_left; unfold x; try lift_lets)
    | intro x

end Sys2Proof.Machine
end

