-- ==== Sys2Proof/Laws/Keeps/Calib.lean ====
section
/-! SUPPORT. What every command keeps, operation by operation: those of Machine/Calib.lean. -/

namespace Sys2Proof.Machine

variable {F : List Part} {r : State}

theorem State.calTriggers_keeps {s1 : State} {a1 : Nat} (hF : Covers F [.light]) (hs1 : Keeps F r s1) :
    Keeps F r (State.calTriggers s1 a1) := by
  unfold State.calTriggers
  try lift_lets
  with_reducible repeat' first
    | (refine Keeps.ite ?_ ?_) <;> try lift_lets | assumption | apply State.setLight_keeps
    | (refine Keeps.foldl (fun _ _ _ => ?_) ?_) <;> try lift_lets | (refine Covers.sub hF ?_; decide)
    | (intro x; refine Keeps.take (s := x) ?_ fun hx => ?_; rotate_left; clear_value x; rotate_left; unfold x; try lift_lets)
    | intro x

theorem State.startCal_keeps {s1 : State} {a1 a2 : Nat} (hF : Covers F [.light]) (hs1 : Keeps F r s1) :
    Keeps F r (State.startCal s1 a1 a2) := by
  unfold State.startCal
  try lift_lets
  with_reducible repeat' first
    | exact .inr (hF.one (by decide)) | exact .inl rfl | rfl | (refine Keeps.ite ?_ ?_) <;> try lift_lets | assumption
    | apply State.setLight_keeps | apply State.restage_keeps | (split <;> try lift_lets) | (refine Covers.sub hF ?_; decide)
    | (intro x; refine Keeps.take (s := x) ?_ fun hx => ?_; rotate_left; clear_value x; rotate_left; unfold x; try lift_lets)
    | intro x | refine Keeps.of_eq ?_ ?_ ?_ ?_ ?_ ?_ ?_ ?_ ?_ ?_ ?_ ?_ ?_ ?_ ?_ ?_ ?_

theorem State.raiseSamples_keeps {s1 : State} {a1 a2 : Nat} (hF : Covers F [.light]) (hs1 : Keeps F r s1) :
    Keeps F r (State.raiseSamples s1 a1 a2) := by
  unfold State.raiseSamples
  try lift_lets
  with_reducible repeat' first
    | exact .inr (hF.one (by decide)) | exact .inl rfl | rfl | (refine Keeps.ite ?_ ?_) <;> try lift_lets | assumption
    | apply State.setLight_keeps | (split <;> try lift_lets) | (refine Covers.sub hF ?_; decide)
    | (intro x; refine Keeps.take (s := x) ?_ fun hx => ?_; rotate_left; clear_value x; rotate_left; unfold x; try lift_lets)
    | intro x | refine Keeps.of_eq ?_ ?_ ?_ ?_ ?_ ?_ ?_ ?_ ?_ ?_ ?_ ?_ ?_ ?_ ?_ ?_ ?_

theorem State.calEdge_keeps {s1 : State} {a1 : Nat} (hF : Covers F [.light]) (hs1 : Keeps F r s1) :
    Keeps F r (State.calEdge s1 a1) := by
  unfold State.calEdge
  try lift_lets
  with_reducible repeat' first
    | (refine Keeps.ite ?_ ?_) <;> try lift_lets | assumption | apply State.calTriggers_keeps | apply State.startCal_keeps
    | apply State.raiseSamples_keeps | (refine Keeps.foldl (fun _ _ _ => ?_) ?_) <;> try lift_lets
    | (refine Covers.sub hF ?_; decide)
    | (intro x; refine Keeps.take (s := x) ?_ fun hx => ?_; rotate_left; clear_value x; rotate_left; unfold x; try lift_lets)
    | intro x

theorem State.diagRequests_keeps {s1 : State} {a1 : Nat} (hF : Covers F [.light]) (hs1 : Keeps F r s1) :
    Keeps F r (State.diagRequests s1 a1) := by
  unfold State.diagRequests
  try lift_lets
  with_reducible repeat' first
    | (refine Keeps.ite ?_ ?_) <;> try lift_lets | assumption | apply State.setLight_keeps
    | (refine Covers.sub hF ?_; decide)
    | (intro x; refine Keeps.take (s := x) ?_ fun hx => ?_; rotate_left; clear_value x; rotate_left; unfold x; try lift_lets)
    | intro x

theorem State.fitCal_keeps {s1 : State} {a1 : Nat} {a2 : CalRun} (hF : Covers F [.light]) (hs1 : Keeps F r s1) :
    Keeps F r (State.fitCal s1 a1 a2) := by
  unfold State.fitCal
  try lift_lets
  with_reducible repeat' first
    | (refine Keeps.ite ?_ ?_) <;> try lift_lets | assumption | apply State.setLight_keeps | apply State.stage_keeps
    | (refine Covers.sub hF ?_; decide)
    | (intro x; refine Keeps.take (s := x) ?_ fun hx => ?_; rotate_left; clear_value x; rotate_left; unfold x; try lift_lets)
    | intro x

theorem State.grantNotches_keeps {s1 : State} {a1 : Nat} (hF : Covers F [.light]) (hs1 : Keeps F r s1) :
    Keeps F r (State.grantNotches s1 a1).1 := by
  unfold State.grantNotches
  try lift_lets
  with_reducible repeat' first
    | assumption | apply State.setLight_keeps | (refine Covers.sub hF ?_; decide)
    | (intro x; refine Keeps.take (s := x) ?_ fun hx => ?_; rotate_left; clear_value x; rotate_left; unfold x; try lift_lets)
    | intro x

theorem State.loadStore_keeps {s1 : State} (hF : Covers F [.light]) (hs1 : Keeps F r s1) :
    Keeps F r (State.loadStore s1) := by
  unfold State.loadStore
  try lift_lets
  with_reducible repeat' first
    | exact .inr (hF.one (by decide)) | exact .inl rfl | rfl | assumption | apply State.wrs_keeps
    | (split <;> try lift_lets) | (refine Covers.sub hF ?_; decide)
    | (intro x; refine Keeps.take (s := x) ?_ fun hx => ?_; rotate_left; clear_value x; rotate_left; unfold x; try lift_lets)
    | intro x | refine Keeps.of_eq ?_ ?_ ?_ ?_ ?_ ?_ ?_ ?_ ?_ ?_ ?_ ?_ ?_ ?_ ?_ ?_ ?_

theorem State.reraise_keeps {s : State} {e : Nat} (hF : Covers F [.light]) (h : Keeps F r s) : Keeps F r (s.reraise e) := by
  unfold State.reraise
  cases (s.engine e).ticks with
  | nil => exact h
  | cons t l => exact Keeps.ite h (State.setLight_keeps (hF.sub (by decide)) h)

theorem State.takeSample_keeps {s1 : State} {a1 : Nat} {a2 : LightTick} {a3 : NotchRun} {a4 : Nat}
    (hF : Covers F [.light]) (hs1 : Keeps F r s1) : Keeps F r (State.takeSample s1 a1 a2 a3 a4) := by
  unfold State.takeSample
  try lift_lets
  with_reducible repeat' first
    | exact .inr (hF.one (by decide)) | exact .inl rfl | rfl | (refine Keeps.ite ?_ ?_) <;> try lift_lets | assumption
    | apply State.setLight_keeps | apply State.fitCal_keeps | (split <;> try lift_lets) | (refine Covers.sub hF ?_; decide)
    | (intro x; refine Keeps.take (s := x) ?_ fun hx => ?_; rotate_left; clear_value x; rotate_left; unfold x; try lift_lets)
    | intro x | refine Keeps.of_eq ?_ ?_ ?_ ?_ ?_ ?_ ?_ ?_ ?_ ?_ ?_ ?_ ?_ ?_ ?_ ?_ ?_

theorem State.sensorMsg_keeps {s1 : State} {a1 a2 a3 a4 a5 : Nat} (hF : Covers F [.eng, .light]) (hs1 : Keeps F r s1) :
    Keeps F r (State.sensorMsg s1 a1 a2 a3 a4 a5) := by
  unfold State.sensorMsg
  try lift_lets
  with_reducible repeat' first
    | exact .inr (hF.one (by decide)) | exact .inl rfl | rfl | (refine Keeps.ite ?_ ?_) <;> try lift_lets | assumption
    | apply State.setEngine_keeps | apply State.takeSample_keeps | (split <;> try lift_lets)
    | (refine Covers.sub hF ?_; decide)
    | (intro x; refine Keeps.take (s := x) ?_ fun hx => ?_; rotate_left; clear_value x; rotate_left; unfold x; try lift_lets)
    | intro x | refine Keeps.of_eq ?_ ?_ ?_ ?_ ?_ ?_ ?_ ?_ ?_ ?_ ?_ ?_ ?_ ?_ ?_ ?_ ?_

theorem State.takeCalCfg_keeps {s1 : State} (hF : Covers F [.ic, .light]) (hs1 : Keeps F r s1) :
    Keeps F r (State.takeCalCfg s1) := by
  unfold State.takeCalCfg
  try lift_lets
  with_reducible repeat' first
    | exact .inr (hF.one (by decide)) | exact .inl rfl | rfl | (refine Keeps.ite ?_ ?_) <;> try lift_lets | assumption
    | apply State.abandonCals_keeps | (refine Keeps.foldl (fun _ _ _ => ?_) ?_) <;> try lift_lets
    | (refine Covers.sub hF ?_; decide)
    | (intro x; refine Keeps.take (s := x) ?_ fun hx => ?_; rotate_left; clear_value x; rotate_left; unfold x; try lift_lets)
    | intro x | refine Keeps.of_eq ?_ ?_ ?_ ?_ ?_ ?_ ?_ ?_ ?_ ?_ ?_ ?_ ?_ ?_ ?_ ?_ ?_

theorem State.tempMsg_keeps {s1 : State} {a1 a2 a3 a4 a5 : Nat} (hF : Covers F [.light]) (hs1 : Keeps F r s1) :
    Keeps F r (State.tempMsg s1 a1 a2 a3 a4 a5) := by
  unfold State.tempMsg
  try lift_lets
  with_reducible repeat' first
    | exact .inr (hF.one (by decide)) | exact .inl rfl | rfl | (refine Keeps.ite ?_ ?_) <;> try lift_lets | assumption
    | apply State.wrs_keeps | apply State.setLight_keeps | (refine Keeps.foldl (fun _ _ _ => ?_) ?_) <;> try lift_lets
    | (split <;> try lift_lets) | (refine Covers.sub hF ?_; decide)
    | (intro x; refine Keeps.take (s := x) ?_ fun hx => ?_; rotate_left; clear_value x; rotate_left; unfold x; try lift_lets)
    | intro x | refine Keeps.of_eq ?_ ?_ ?_ ?_ ?_ ?_ ?_ ?_ ?_ ?_ ?_ ?_ ?_ ?_ ?_ ?_ ?_

theorem calRequestBody_keeps {a0 : Nat} {a1 : Desc} {s3 : State} (hF : Covers F [.light]) (hs3 : Keeps F r s3) :
    KeepsRes F r (calRequestBody a0 a1 s3) := by
  unfold calRequestBody
  try lift_lets
  with_reducible repeat' first
    | exact .inr (hF.one (by decide)) | exact .inl rfl | rfl | (refine KeepsRes.ite ?_ ?_) <;> try lift_lets
    | (refine Keeps.ite ?_ ?_) <;> try lift_lets | assumption | apply State.checked_keeps | apply State.setLight_keeps
    | (refine Keeps.foldl (fun _ _ _ => ?_) ?_) <;> try lift_lets | exact Keeps.rest | refine Keeps.done ?_
    | refine Keeps.wait ?_ | refine Keeps.admitted ?_ | (split <;> try lift_lets) | (refine Covers.sub hF ?_; decide)
    | (refine fun x (hx : Keeps F r x) => ?_; try lift_lets)
    | (intro x; refine Keeps.take (s := x) ?_ fun hx => ?_; rotate_left; clear_value x; rotate_left; unfold x; try lift_lets)
    | intro x | refine Keeps.of_eq ?_ ?_ ?_ ?_ ?_ ?_ ?_ ?_ ?_ ?_ ?_ ?_ ?_ ?_ ?_ ?_ ?_

theorem calStoreBody_keeps {a0 : Nat} {a1 : Desc} {s3 : State} (hF : Covers F [.light, .pwr]) (hs3 : Keeps F r s3) :
    KeepsRes F r (calStoreBody a0 a1 s3) := by
  unfold calStoreBody
  try lift_lets
  with_reducible repeat' first
    | exact .inr (hF.one (by decide)) | exact .inl rfl | rfl | (refine KeepsRes.ite ?_ ?_) <;> try lift_lets
    | (refine Keeps.ite ?_ ?_) <;> try lift_lets | assumption | apply State.checked_keeps | apply State.wrs_keeps
    | exact Keeps.rest | refine Keeps.done ?_ | refine Keeps.wait ?_ | refine Keeps.admitted ?_
    | (refine Covers.sub hF ?_; decide) | (refine fun x (hx : Keeps F r x) => ?_; try lift_lets)
    | (intro x; refine Keeps.take (s := x) ?_ fun hx => ?_; rotate_left; clear_value x; rotate_left; unfold x; try lift_lets)
    | intro x | refine Keeps.of_eq ?_ ?_ ?_ ?_ ?_ ?_ ?_ ?_ ?_ ?_ ?_ ?_ ?_ ?_ ?_ ?_ ?_

theorem execCalRequest_keeps {a0 : Nat} {s2 : State} (hF : Covers F [.hif, .ic, .light]) (hs2 : Keeps F r s2) :
    KeepsOut F r (execCalRequest a0 s2) := by
  unfold execCalRequest
  with_reducible repeat' first
    | assumption | apply State.descriptor_keeps | apply calRequestBody_keeps | refine Keeps.next ?_
    | (refine Covers.sub hF ?_; decide) | (refine fun x (hx : Keeps F r x) => ?_; try lift_lets)
    | (intro x; refine Keeps.take (s := x) ?_ fun hx => ?_; rotate_left; clear_value x; rotate_left; unfold x; try lift_lets)
    | intro x

theorem execCalStore_keeps {a0 : Nat} {s2 : State} (hF : Covers F [.hif, .ic, .light, .pwr]) (hs2 : Keeps F r s2) :
    KeepsOut F r (execCalStore a0 s2) := by
  unfold execCalStore
  with_reducible repeat' first
    | assumption | apply State.descriptor_keeps | apply calStoreBody_keeps | refine Keeps.next ?_
    | (refine Covers.sub hF ?_; decide) | (refine fun x (hx : Keeps F r x) => ?_; try lift_lets)
    | (intro x; refine Keeps.take (s := x) ?_ fun hx => ?_; rotate_left; clear_value x; rotate_left; unfold x; try lift_lets)
    | intro x

theorem execCalibrationTimeout_keeps {a0 a1 : Nat} {s3 : State} (hF : Covers F [.ic, .light]) (hs3 : Keeps F r s3) :
    KeepsOut F r (execCalibrationTimeout a0 a1 s3) := by
  unfold execCalibrationTimeout
  with_reducible repeat' first
    | exact .inr (hF.one (by decide)) | exact .inl rfl | rfl | (refine KeepsOut.ite ?_ ?_) | (refine Keeps.ite ?_ ?_)
    | assumption | apply State.inService_keeps | apply State.abandonCal_keeps | refine Keeps.next ?_ | split
    | (refine Covers.sub hF ?_; decide) | (refine fun x (hx : Keeps F r x) => ?_; try lift_lets)
    | (intro x; refine Keeps.take (s := x) ?_ fun hx => ?_; rotate_left; clear_value x; rotate_left; unfold x; try lift_lets)
    | intro x | refine Keeps.of_eq ?_ ?_ ?_ ?_ ?_ ?_ ?_ ?_ ?_ ?_ ?_ ?_ ?_ ?_ ?_ ?_ ?_

theorem execLightSet_keeps {a0 : Nat} {s2 : State} (hF : Covers F [.hif, .ic, .light]) (hs2 : Keeps F r s2) :
    KeepsOut F r (execLightSet a0 s2) := by
  unfold execLightSet
  with_reducible repeat' first
    | assumption | apply State.descriptor_keeps | apply lightSetBody_keeps | refine Keeps.next ?_
    | (refine Covers.sub hF ?_; decide) | (refine fun x (hx : Keeps F r x) => ?_; try lift_lets)
    | (intro x; refine Keeps.take (s := x) ?_ fun hx => ?_; rotate_left; clear_value x; rotate_left; unfold x; try lift_lets)
    | intro x

theorem respData_keeps {a0 : Desc} {a1 : List Byte} {s3 : State} (hF : Covers F [.light]) (hs3 : Keeps F r s3) :
    KeepsRes F r (respData a0 a1 s3) := by
  unfold respData
  try lift_lets
  with_reducible repeat' first
    | (refine KeepsRes.ite ?_ ?_) <;> try lift_lets | (refine Keeps.ite ?_ ?_) <;> try lift_lets | assumption
    | apply State.setLight_keeps | apply State.wr_keeps | exact Keeps.rest | refine Keeps.done ?_ | refine Keeps.wait ?_
    | refine Keeps.admitted ?_ | (refine Covers.sub hF ?_; decide)
    | (intro x; refine Keeps.take (s := x) ?_ fun hx => ?_; rotate_left; clear_value x; rotate_left; unfold x; try lift_lets)
    | intro x

end Sys2Proof.Machine
end

