-- ==== Sys2Proof/Laws/Keeps/Coach.lean ====
section
/-! SUPPORT. What every command keeps, operation by operation: those of Machine/Coach.lean. -/

namespace Sys2Proof.Machine

variable {F : List Part} {r : State}

theorem State.stranger_keeps {s1 : State} {a1 : Nat} (hF : Covers F [.ic]) (hs1 : Keeps F r s1) :
    Keeps F r (State.stranger s1 a1) := by
  unfold State.stranger
  try lift_lets
  with_reducible repeat' first
    | exact .inr (hF.one (by decide)) | exact .inl rfl | rfl | assumption | apply State.bump_keeps | apply State.raise_keeps
    | apply State.wrs_keeps | (split <;> try lift_lets) | (refine Covers.sub hF ?_; decide)
    | (intro x; refine Keeps.take (s := x) ?_ fun hx => ?_; rotate_left; clear_value x; rotate_left; unfold x; try lift_lets)
    | intro x | refine Keeps.of_eq ?_ ?_ ?_ ?_ ?_ ?_ ?_ ?_ ?_ ?_ ?_ ?_ ?_ ?_ ?_ ?_ ?_

theorem State.frameRx_keeps {s1 : State} {a1 : Nat} {a2 : Bool} {a3 : State → Nat → Bool} {a4 : Nat → State → State}
    (hF : Covers F [.ic]) (hs1 : Keeps F r s1) (ha4 : ∀ y0 y1, Keeps F r y1 → Keeps F r (a4 y0 y1)) :
    Keeps F r (State.frameRx s1 a1 a2 a3 a4) := by
  unfold State.frameRx
  with_reducible repeat' first
    | exact .inr (hF.one (by decide)) | exact .inl rfl | rfl | (refine Keeps.ite ?_ ?_) | assumption | apply ha4
    | apply State.stranger_keeps | apply State.bump_keeps | split | (refine Covers.sub hF ?_; decide)
    | (refine fun x (hx : Keeps F r x) => ?_; try lift_lets)
    | (intro x; refine Keeps.take (s := x) ?_ fun hx => ?_; rotate_left; clear_value x; rotate_left; unfold x; try lift_lets)
    | intro x | refine Keeps.of_eq ?_ ?_ ?_ ?_ ?_ ?_ ?_ ?_ ?_ ?_ ?_ ?_ ?_ ?_ ?_ ?_ ?_

theorem State.plca_keeps {s1 : State} {a1 : Bool} (hF : Covers F [.ic]) (hs1 : Keeps F r s1) :
    Keeps F r (State.plca s1 a1) := by
  unfold State.plca
  with_reducible repeat' first
    | (refine Keeps.ite ?_ ?_) | assumption | apply State.raise_keeps | apply State.wr_keeps
    | (refine Covers.sub hF ?_; decide)

theorem State.sendFrame_keeps {s1 : State} {a1 a2 : Nat} {a3 : List Byte} (hF : Covers F [.light]) (hs1 : Keeps F r s1) :
    Keeps F r (State.sendFrame s1 a1 a2 a3) := by
  unfold State.sendFrame
  try lift_lets
  with_reducible repeat' first
    | exact .inr (hF.one (by decide)) | exact .inl rfl | rfl | assumption | (refine Covers.sub hF ?_; decide)
    | (intro x; refine Keeps.take (s := x) ?_ fun hx => ?_; rotate_left; clear_value x; rotate_left; unfold x; try lift_lets)
    | intro x | refine Keeps.of_eq ?_ ?_ ?_ ?_ ?_ ?_ ?_ ?_ ?_ ?_ ?_ ?_ ?_ ?_ ?_ ?_ ?_

theorem State.withdraw_keeps {s1 : State} {a1 : Nat} (hF : Covers F [.ic, .light]) (hs1 : Keeps F r s1) :
    Keeps F r (State.withdraw s1 a1) := by
  unfold State.withdraw
  try lift_lets
  with_reducible repeat' first
    | assumption | apply State.setLight_keeps | apply State.trySwitch_keeps | apply State.raise_keeps
    | apply State.bump_keeps | (refine Covers.sub hF ?_; decide)
    | (intro x; refine Keeps.take (s := x) ?_ fun hx => ?_; rotate_left; clear_value x; rotate_left; unfold x; try lift_lets)
    | intro x

theorem execAllowValid_keeps {a0 : Nat} {a1 : Word} {s3 : State} (hF : Covers F [.light]) (hs3 : Keeps F r s3) :
    KeepsOut F r (execAllowValid a0 a1 s3) := by
  unfold execAllowValid
  try lift_lets
  with_reducible repeat' first
    | (refine KeepsOut.ite ?_ ?_) <;> try lift_lets | (refine Keeps.ite ?_ ?_) <;> try lift_lets | assumption
    | apply State.setup_keeps | apply State.wrs_keeps | apply State.trySwitch_keeps | refine Keeps.next ?_
    | (refine Covers.sub hF ?_; decide) | (refine fun x (hx : Keeps F r x) => ?_; try lift_lets)
    | (intro x; refine Keeps.take (s := x) ?_ fun hx => ?_; rotate_left; clear_value x; rotate_left; unfold x; try lift_lets)
    | intro x

theorem execAmbient_keeps {a0 : Nat} {a1 : Bool} {a2 : Nat} {s4 : State} (hF : Covers F [.ic]) (hs4 : Keeps F r s4) :
    KeepsOut F r (execAmbient a0 a1 a2 s4) := by
  unfold execAmbient
  with_reducible repeat' first
    | assumption | apply State.inService_keeps | apply State.frameRx_keeps | apply State.wrs_keeps | refine Keeps.next ?_
    | (refine Covers.sub hF ?_; decide) | (refine fun x (hx : Keeps F r x) => ?_; try lift_lets)
    | (intro x; refine Keeps.take (s := x) ?_ fun hx => ?_; rotate_left; clear_value x; rotate_left; unfold x; try lift_lets)
    | intro x

theorem execCbusEnable_keeps {a0 : Word} {s2 : State} (hF : Covers F [.ic, .light]) (hs2 : Keeps F r s2) :
    KeepsOut F r (execCbusEnable a0 s2) := by
  unfold execCbusEnable
  try lift_lets
  with_reducible repeat' first
    | exact .inr (hF.one (by decide)) | exact .inl rfl | rfl | (refine KeepsOut.ite ?_ ?_) <;> try lift_lets
    | (refine Keeps.ite ?_ ?_) <;> try lift_lets | assumption | apply State.setup_keeps | apply State.wrs_keeps
    | apply State.wr_keeps | apply State.plca_keeps | refine Keeps.next ?_ | (refine Covers.sub hF ?_; decide)
    | (refine fun x (hx : Keeps F r x) => ?_; try lift_lets)
    | (intro x; refine Keeps.take (s := x) ?_ fun hx => ?_; rotate_left; clear_value x; rotate_left; unfold x; try lift_lets)
    | intro x | refine Keeps.of_eq ?_ ?_ ?_ ?_ ?_ ?_ ?_ ?_ ?_ ?_ ?_ ?_ ?_ ?_ ?_ ?_ ?_

theorem execCbusMsg_keeps {a0 : Nat} {a1 : Bool} {a2 : Nat} {s4 : State} (hF : Covers F [.ic]) (hs4 : Keeps F r s4) :
    KeepsOut F r (execCbusMsg a0 a1 a2 s4) := by
  unfold execCbusMsg
  with_reducible repeat' first
    | assumption | apply State.inService_keeps | apply State.frameRx_keeps | apply State.msgDoorbell_keeps
    | refine Keeps.next ?_ | (refine Covers.sub hF ?_; decide) | (refine fun x (hx : Keeps F r x) => ?_; try lift_lets)
    | (intro x; refine Keeps.take (s := x) ?_ fun hx => ?_; rotate_left; clear_value x; rotate_left; unfold x; try lift_lets)
    | intro x

theorem execCbusRxFault_keeps {a0 : Nat} {s2 : State} (hF : Covers F [.ic]) (hs2 : Keeps F r s2) :
    KeepsOut F r (execCbusRxFault a0 s2) := by
  unfold execCbusRxFault
  with_reducible repeat' first
    | exact .inr (hF.one (by decide)) | exact .inl rfl | rfl | (refine KeepsOut.ite ?_ ?_) | (refine Keeps.ite ?_ ?_)
    | assumption | apply State.inService_keeps | apply State.bump_keeps | apply State.raise_keeps | refine Keeps.next ?_
    | split | (refine Covers.sub hF ?_; decide) | (refine fun x (hx : Keeps F r x) => ?_; try lift_lets)
    | (intro x; refine Keeps.take (s := x) ?_ fun hx => ?_; rotate_left; clear_value x; rotate_left; unfold x; try lift_lets)
    | intro x | refine Keeps.of_eq ?_ ?_ ?_ ?_ ?_ ?_ ?_ ?_ ?_ ?_ ?_ ?_ ?_ ?_ ?_ ?_ ?_

theorem execCbusStatus_keeps {a0 : Nat} {a1 : Bool} {a2 a3 a4 : Nat} {s6 : State} (hF : Covers F [.ic, .light])
    (hs6 : Keeps F r s6) : KeepsOut F r (execCbusStatus a0 a1 a2 a3 a4 s6) := by
  unfold execCbusStatus
  try lift_lets
  with_reducible repeat' first
    | exact .inr (hF.one (by decide)) | exact .inl rfl | rfl | (refine KeepsOut.ite ?_ ?_) <;> try lift_lets
    | (refine Keeps.ite ?_ ?_) <;> try lift_lets | assumption | apply State.inService_keeps | apply State.frameRx_keeps
    | apply State.wrs_keeps | apply State.bump_keeps | apply State.stage_keeps | apply State.setLight_keeps
    | apply State.notePending_keeps | refine Keeps.next ?_ | (split <;> try lift_lets) | (refine Covers.sub hF ?_; decide)
    | (refine fun x (hx : Keeps F r x) => ?_; try lift_lets)
    | (intro x; refine Keeps.take (s := x) ?_ fun hx => ?_; rotate_left; clear_value x; rotate_left; unfold x; try lift_lets)
    | intro x | refine Keeps.of_eq ?_ ?_ ?_ ?_ ?_ ?_ ?_ ?_ ?_ ?_ ?_ ?_ ?_ ?_ ?_ ?_ ?_

theorem execCbusTransmit_keeps {s1 : State} (hF : Covers F [.light]) (hs1 : Keeps F r s1) :
    KeepsOut F r (execCbusTransmit s1) := by
  unfold execCbusTransmit
  try lift_lets
  with_reducible repeat' first
    | exact .inr (hF.one (by decide)) | exact .inl rfl | rfl | (refine KeepsOut.ite ?_ ?_) <;> try lift_lets
    | (refine Keeps.ite ?_ ?_) <;> try lift_lets | assumption | apply State.inService_keeps | apply State.sendFrame_keeps
    | apply State.setLight_keeps | refine Keeps.next ?_ | (split <;> try lift_lets) | (refine Covers.sub hF ?_; decide)
    | (refine fun x (hx : Keeps F r x) => ?_; try lift_lets)
    | (intro x; refine Keeps.take (s := x) ?_ fun hx => ?_; rotate_left; clear_value x; rotate_left; unfold x; try lift_lets)
    | intro x | refine Keeps.of_eq ?_ ?_ ?_ ?_ ?_ ?_ ?_ ?_ ?_ ?_ ?_ ?_ ?_ ?_ ?_ ?_ ?_

theorem execLogClear_keeps {s1 : State} (hs1 : Keeps F r s1) : KeepsOut F r (execLogClear s1) := by
  unfold execLogClear
  with_reducible repeat' first
    | assumption | apply State.setup_keeps | apply State.wrs_keeps | (refine Keeps.foldl (fun _ _ _ => ?_) ?_)
    | refine Keeps.next ?_ | (refine fun x (hx : Keeps F r x) => ?_; try lift_lets)
    | (intro x; refine Keeps.take (s := x) ?_ fun hx => ?_; rotate_left; clear_value x; rotate_left; unfold x; try lift_lets)
    | intro x

theorem execPlcaActiveChange_keeps {a0 : Bool} {s2 : State} (hF : Covers F [.ic]) (hs2 : Keeps F r s2) :
    KeepsOut F r (execPlcaActiveChange a0 s2) := by
  unfold execPlcaActiveChange
  with_reducible repeat' first
    | (refine KeepsOut.ite ?_ ?_) | (refine Keeps.ite ?_ ?_) | assumption | apply State.inService_keeps
    | apply State.plca_keeps | refine Keeps.next ?_ | (refine Covers.sub hF ?_; decide)
    | (refine fun x (hx : Keeps F r x) => ?_; try lift_lets)
    | (intro x; refine Keeps.take (s := x) ?_ fun hx => ?_; rotate_left; clear_value x; rotate_left; unfold x; try lift_lets)
    | intro x

theorem execStranger_keeps {a0 : Nat} {s2 : State} (hF : Covers F [.ic]) (hs2 : Keeps F r s2) :
    KeepsOut F r (execStranger a0 s2) := by
  unfold execStranger
  with_reducible repeat' first
    | assumption | apply State.inService_keeps | apply State.frameRx_keeps | refine Keeps.next ?_
    | (refine Covers.sub hF ?_; decide) | (refine fun x (hx : Keeps F r x) => ?_; try lift_lets)
    | (intro x; refine Keeps.take (s := x) ?_ fun hx => ?_; rotate_left; clear_value x; rotate_left; unfold x; try lift_lets)
    | intro x

theorem execSwitchAck_keeps {a0 : Nat} {a1 : Bool} {a2 a3 a4 : Nat} {s6 : State} (hF : Covers F [.ic, .light])
    (hs6 : Keeps F r s6) : KeepsOut F r (execSwitchAck a0 a1 a2 a3 a4 s6) := by
  unfold execSwitchAck
  try lift_lets
  with_reducible repeat' first
    | exact .inr (hF.one (by decide)) | exact .inl rfl | rfl | (refine KeepsOut.ite ?_ ?_) <;> try lift_lets
    | (refine Keeps.ite ?_ ?_) <;> try lift_lets | assumption | apply State.inService_keeps | apply State.frameRx_keeps
    | refine Keeps.next ?_ | (split <;> try lift_lets) | (refine Covers.sub hF ?_; decide)
    | (refine fun x (hx : Keeps F r x) => ?_; try lift_lets)
    | (intro x; refine Keeps.take (s := x) ?_ fun hx => ?_; rotate_left; clear_value x; rotate_left; unfold x; try lift_lets)
    | intro x | refine Keeps.of_eq ?_ ?_ ?_ ?_ ?_ ?_ ?_ ?_ ?_ ?_ ?_ ?_ ?_ ?_ ?_ ?_ ?_

theorem execSwitchRetry_keeps {s1 : State} (hF : Covers F [.light]) (hs1 : Keeps F r s1) :
    KeepsOut F r (execSwitchRetry s1) := by
  unfold execSwitchRetry
  try lift_lets
  with_reducible repeat' first
    | exact .inr (hF.one (by decide)) | exact .inl rfl | rfl | (refine KeepsOut.ite ?_ ?_) <;> try lift_lets
    | (refine Keeps.ite ?_ ?_) <;> try lift_lets | assumption | apply State.inService_keeps | refine Keeps.next ?_
    | (split <;> try lift_lets) | (refine Covers.sub hF ?_; decide) | (refine fun x (hx : Keeps F r x) => ?_; try lift_lets)
    | (intro x; refine Keeps.take (s := x) ?_ fun hx => ?_; rotate_left; clear_value x; rotate_left; unfold x; try lift_lets)
    | intro x | refine Keeps.of_eq ?_ ?_ ?_ ?_ ?_ ?_ ?_ ?_ ?_ ?_ ?_ ?_ ?_ ?_ ?_ ?_ ?_

theorem execTableAck_keeps {a0 : Nat} {a1 : Bool} {a2 a3 a4 : Nat} {s6 : State} (hF : Covers F [.ic, .light])
    (hs6 : Keeps F r s6) : KeepsOut F r (execTableAck a0 a1 a2 a3 a4 s6) := by
  unfold execTableAck
  with_reducible repeat' first
    | exact .inr (hF.one (by decide)) | exact .inl rfl | rfl | (refine KeepsOut.ite ?_ ?_) | (refine Keeps.ite ?_ ?_)
    | assumption | apply State.inService_keeps | apply State.frameRx_keeps | apply State.trySwitch_keeps
    | apply State.setLight_keeps | apply State.withdraw_keeps | refine Keeps.next ?_ | split
    | (refine Covers.sub hF ?_; decide) | (refine fun x (hx : Keeps F r x) => ?_; try lift_lets)
    | (intro x; refine Keeps.take (s := x) ?_ fun hx => ?_; rotate_left; clear_value x; rotate_left; unfold x; try lift_lets)
    | intro x | refine Keeps.of_eq ?_ ?_ ?_ ?_ ?_ ?_ ?_ ?_ ?_ ?_ ?_ ?_ ?_ ?_ ?_ ?_ ?_

theorem execTableRetry_keeps {a0 : Nat} {s2 : State} (hF : Covers F [.ic, .light]) (hs2 : Keeps F r s2) :
    KeepsOut F r (execTableRetry a0 s2) := by
  unfold execTableRetry
  with_reducible repeat' first
    | exact .inr (hF.one (by decide)) | exact .inl rfl | rfl | (refine KeepsOut.ite ?_ ?_) | (refine Keeps.ite ?_ ?_)
    | assumption | apply State.inService_keeps | apply State.setLight_keeps | apply State.withdraw_keeps
    | refine Keeps.next ?_ | split | (refine Covers.sub hF ?_; decide)
    | (refine fun x (hx : Keeps F r x) => ?_; try lift_lets)
    | (intro x; refine Keeps.take (s := x) ?_ fun hx => ?_; rotate_left; clear_value x; rotate_left; unfold x; try lift_lets)
    | intro x | refine Keeps.of_eq ?_ ?_ ?_ ?_ ?_ ?_ ?_ ?_ ?_ ?_ ?_ ?_ ?_ ?_ ?_ ?_ ?_

end Sys2Proof.Machine
end

