-- ==== Sys2Proof/Laws/Keeps/Ledger.lean ====
section
/-! SUPPORT. What every command keeps, operation by operation: those of Machine/Ledger.lean. -/

namespace Sys2Proof.Machine

variable {F : List Part} {r : State}

theorem State.showReject_keeps {s1 : State} {a1 a2 a3 : Nat} (hs1 : Keeps F r s1) :
    Keeps F r (State.showReject s1 a1 a2 a3) := by
  unfold State.showReject
  with_reducible repeat' first
    | assumption | apply State.bump_keeps | apply State.wrs_keeps

end Sys2Proof.Machine
end

