-- ==== Sys2Proof/Laws/Keeps/EngineOps.lean ====
section
/-! SUPPORT. What every command keeps, operation by operation: those of Machine/EngineOps.lean. -/

namespace Sys2Proof.Machine

variable {F : List Part} {r : State}

theorem State.showLit_keeps {s1 : State} {a1 : Nat} (hs1 : Keeps F r s1) : Keeps F r (State.showLit s1 a1) := by
  unfold State.showLit
  with_reducible repeat' first
    | (refine Keeps.ite ?_ ?_) | assumption | apply State.wr_keeps

theorem State.bumpSeq_keeps {s1 : State} {a1 a2 : Nat} (hF : Covers F [.eng]) (hs1 : Keeps F r s1) :
    Keeps F r (State.bumpSeq s1 a1 a2) := by
  unfold State.bumpSeq
  with_reducible repeat' first
    | assumption | apply State.setLink_keeps | (refine Covers.sub hF ?_; decide)

theorem State.queueAbort_keeps {s1 : State} {a1 : Nat} (hF : Covers F [.eng]) (hs1 : Keeps F r s1) :
    Keeps F r (State.queueAbort s1 a1) := by
  unfold State.queueAbort
  try lift_lets
  with_reducible repeat' first
    | assumption | apply State.bumpSeq_keeps | apply State.setLink_keeps | (refine Covers.sub hF ?_; decide)
    | (intro x; refine Keeps.take (s := x) ?_ fun hx => ?_; rotate_left; clear_value x; rotate_left; unfold x; try lift_lets)
    | intro x

theorem State.endOne_keeps {s1 : State} {a1 : Nat} (hF : Covers F [.eng]) (hs1 : Keeps F r s1) :
    Keeps F r (State.endOne s1 a1) := by
  unfold State.endOne
  try lift_lets
  with_reducible repeat' first
    | (refine Keeps.ite ?_ ?_) <;> try lift_lets | assumption | apply State.setRun_keeps | apply State.setEngine_keeps
    | apply State.showLit_keeps | apply State.queueAbort_keeps | (refine Covers.sub hF ?_; decide)
    | (intro x; refine Keeps.take (s := x) ?_ fun hx => ?_; rotate_left; clear_value x; rotate_left; unfold x; try lift_lets)
    | intro x

theorem State.abortOne_keeps {s1 : State} {a1 a2 a3 : Nat} (hF : Covers F [.ic, .eng]) (hs1 : Keeps F r s1) :
    Keeps F r (State.abortOne s1 a1 a2 a3) := by
  unfold State.abortOne
  try lift_lets
  with_reducible repeat' first
    | (refine Keeps.ite ?_ ?_) <;> try lift_lets | assumption | apply State.setRun_keeps | apply State.endOne_keeps
    | apply State.raise_keeps | apply State.bump_keeps | apply State.wrs_keeps | (refine Covers.sub hF ?_; decide)
    | (intro x; refine Keeps.take (s := x) ?_ fun hx => ?_; rotate_left; clear_value x; rotate_left; unfold x; try lift_lets)
    | intro x

theorem State.abortTick_keeps {s1 : State} {a1 a2 a3 : Nat} (hF : Covers F [.ic, .eng]) (hs1 : Keeps F r s1) :
    Keeps F r (State.abortTick s1 a1 a2 a3) := by
  unfold State.abortTick
  with_reducible repeat' first
    | assumption | apply State.abortOne_keeps | (refine Keeps.foldl (fun _ _ _ => ?_) ?_)
    | (refine Covers.sub hF ?_; decide)

theorem State.setCrcs_keeps {s1 : State} {a1 : Nat} {a2 : List CrcEntry → List CrcEntry} (hF : Covers F [.sig])
    (hs1 : Keeps F r s1) : Keeps F r (State.setCrcs s1 a1 a2) := by
  unfold State.setCrcs
  try lift_lets
  with_reducible repeat' first
    | exact .inr (hF.one (by decide)) | exact .inl rfl | rfl | assumption | (refine Covers.sub hF ?_; decide)
    | (intro x; refine Keeps.take (s := x) ?_ fun hx => ?_; rotate_left; clear_value x; rotate_left; unfold x; try lift_lets)
    | intro x | refine Keeps.of_eq ?_ ?_ ?_ ?_ ?_ ?_ ?_ ?_ ?_ ?_ ?_ ?_ ?_ ?_ ?_ ?_ ?_

theorem State.closeCrc_keeps {s1 : State} {a1 : Nat} (hF : Covers F [.sig]) (hs1 : Keeps F r s1) :
    Keeps F r (State.closeCrc s1 a1) := by
  unfold State.closeCrc
  try lift_lets
  with_reducible repeat' first
    | (refine Keeps.ite ?_ ?_) <;> try lift_lets | assumption | apply State.setCrcs_keeps
    | (refine Covers.sub hF ?_; decide)
    | (intro x; refine Keeps.take (s := x) ?_ fun hx => ?_; rotate_left; clear_value x; rotate_left; unfold x; try lift_lets)
    | intro x

theorem State.driveLsafe_keeps {s1 : State} (hF : Covers F [.pwr]) (hs1 : Keeps F r s1) :
    Keeps F r (State.driveLsafe s1) := by
  unfold State.driveLsafe
  try lift_lets
  with_reducible repeat' first
    | exact .inr (hF.one (by decide)) | exact .inl rfl | rfl | assumption | apply State.wr_keeps
    | (refine Covers.sub hF ?_; decide)
    | (intro x; refine Keeps.take (s := x) ?_ fun hx => ?_; rotate_left; clear_value x; rotate_left; unfold x; try lift_lets)
    | intro x | refine Keeps.of_eq ?_ ?_ ?_ ?_ ?_ ?_ ?_ ?_ ?_ ?_ ?_ ?_ ?_ ?_ ?_ ?_ ?_

theorem State.endTick_keeps {s1 : State} {a1 : Nat} (hF : Covers F [.eng]) (hs1 : Keeps F r s1) :
    Keeps F r (State.endTick s1 a1) := by
  unfold State.endTick
  with_reducible repeat' first
    | assumption | apply State.endOne_keeps | (refine Keeps.foldl (fun _ _ _ => ?_) ?_) | (refine Covers.sub hF ?_; decide)

theorem State.leaveRun_keeps {s1 : State} {a1 : Nat} (hF : Covers F [.ic, .eng, .light]) (hs1 : Keeps F r s1) :
    Keeps F r (State.leaveRun s1 a1) := by
  unfold State.leaveRun
  with_reducible repeat' first
    | (refine Keeps.ite ?_ ?_) | assumption | apply State.abandonCals_keeps | apply State.endTick_keeps
    | (refine Covers.sub hF ?_; decide)

theorem State.queueConfig_keeps {s1 : State} {a1 : Nat} (hF : Covers F [.eng]) (hs1 : Keeps F r s1) :
    Keeps F r (State.queueConfig s1 a1) := by
  unfold State.queueConfig
  try lift_lets
  with_reducible repeat' first
    | assumption | apply State.setLink_keeps | (refine Covers.sub hF ?_; decide)
    | (intro x; refine Keeps.take (s := x) ?_ fun hx => ?_; rotate_left; clear_value x; rotate_left; unfold x; try lift_lets)
    | intro x

theorem State.setLinkState_keeps {s1 : State} {a1 a2 : Nat} (hF : Covers F [.ic]) (hs1 : Keeps F r s1) :
    Keeps F r (State.setLinkState s1 a1 a2) := by
  unfold State.setLinkState
  try lift_lets
  with_reducible repeat' first
    | (refine Keeps.ite ?_ ?_) <;> try lift_lets | assumption | apply State.wr_keeps | apply State.raiseLink_keeps
    | (refine Covers.sub hF ?_; decide)
    | (intro x; refine Keeps.take (s := x) ?_ fun hx => ?_; rotate_left; clear_value x; rotate_left; unfold x; try lift_lets)
    | intro x

theorem State.enterConfig_keeps {s1 : State} {a1 : Nat} (hF : Covers F [.ic, .eng, .light]) (hs1 : Keeps F r s1) :
    Keeps F r (State.enterConfig s1 a1) := by
  unfold State.enterConfig
  try lift_lets
  with_reducible repeat' first
    | (refine Keeps.ite ?_ ?_) <;> try lift_lets | assumption | apply State.leaveRun_keeps | apply State.setLink_keeps
    | apply State.queueConfig_keeps | apply State.setLinkState_keeps | (refine Covers.sub hF ?_; decide)
    | (intro x; refine Keeps.take (s := x) ?_ fun hx => ?_; rotate_left; clear_value x; rotate_left; unfold x; try lift_lets)
    | intro x

theorem State.fenceEngine_keeps {s1 : State} {a1 : Nat} (hF : Covers F [.ic, .sig, .eng, .light]) (hs1 : Keeps F r s1) :
    Keeps F r (State.fenceEngine s1 a1) := by
  unfold State.fenceEngine
  try lift_lets
  with_reducible repeat' first
    | exact .inr (hF.one (by decide)) | exact .inl rfl | rfl | assumption | apply State.abandonCals_keeps
    | apply State.endTick_keeps | (refine Covers.sub hF ?_; decide)
    | (intro x; refine Keeps.take (s := x) ?_ fun hx => ?_; rotate_left; clear_value x; rotate_left; unfold x; try lift_lets)
    | intro x | refine Keeps.of_eq ?_ ?_ ?_ ?_ ?_ ?_ ?_ ?_ ?_ ?_ ?_ ?_ ?_ ?_ ?_ ?_ ?_

theorem State.setPermit_keeps {s1 : State} {a1 : Bool} (hF : Covers F [.ic, .pwr]) (hs1 : Keeps F r s1) :
    Keeps F r (State.setPermit s1 a1) := by
  unfold State.setPermit
  try lift_lets
  with_reducible repeat' first
    | (refine Keeps.ite ?_ ?_) <;> try lift_lets | assumption | apply State.driveLsafe_keeps | apply State.wr_keeps
    | apply State.raiseLink_keeps | (refine Keeps.foldl (fun _ _ _ => ?_) ?_) <;> try lift_lets
    | (refine Covers.sub hF ?_; decide)
    | (intro x; refine Keeps.take (s := x) ?_ fun hx => ?_; rotate_left; clear_value x; rotate_left; unfold x; try lift_lets)
    | intro x

theorem State.grantPermit_keeps {s1 : State} (hF : Covers F [.ic, .pwr]) (hs1 : Keeps F r s1) :
    Keeps F r (State.grantPermit s1) := by
  unfold State.grantPermit
  try lift_lets
  with_reducible repeat' first
    | exact .inr (hF.one (by decide)) | exact .inl rfl | rfl | (refine Keeps.ite ?_ ?_) <;> try lift_lets | assumption
    | apply State.setPermit_keeps | (split <;> try lift_lets) | (refine Covers.sub hF ?_; decide)
    | (intro x; refine Keeps.take (s := x) ?_ fun hx => ?_; rotate_left; clear_value x; rotate_left; unfold x; try lift_lets)
    | intro x | refine Keeps.of_eq ?_ ?_ ?_ ?_ ?_ ?_ ?_ ?_ ?_ ?_ ?_ ?_ ?_ ?_ ?_ ?_ ?_

theorem State.holdLink_keeps {s1 : State} {a1 a2 : Nat} (hF : Covers F [.ic, .eng, .light]) (hs1 : Keeps F r s1) :
    Keeps F r (State.holdLink s1 a1 a2) := by
  unfold State.holdLink
  with_reducible repeat' first
    | assumption | apply State.setLinkState_keeps | apply State.wr_keeps | apply State.leaveRun_keeps
    | (refine Covers.sub hF ?_; decide)

theorem State.linkOff_keeps {s1 : State} {a1 : Nat} (hF : Covers F [.ic, .eng, .light]) (hs1 : Keeps F r s1) :
    Keeps F r (State.linkOff s1 a1) := by
  unfold State.linkOff
  try lift_lets
  with_reducible repeat' first
    | (refine Keeps.ite ?_ ?_) <;> try lift_lets | assumption | apply State.setLinkState_keeps | apply State.setLink_keeps
    | apply State.leaveRun_keeps | (refine Covers.sub hF ?_; decide)
    | (intro x; refine Keeps.take (s := x) ?_ fun hx => ?_; rotate_left; clear_value x; rotate_left; unfold x; try lift_lets)
    | intro x

theorem State.queueBlank_keeps {s1 : State} {a1 a2 a3 : Nat} (hF : Covers F [.eng]) (hs1 : Keeps F r s1) :
    Keeps F r (State.queueBlank s1 a1 a2 a3) := by
  unfold State.queueBlank
  try lift_lets
  with_reducible repeat' first
    | assumption | apply State.bumpSeq_keeps | apply State.setLink_keeps | (refine Covers.sub hF ?_; decide)
    | (intro x; refine Keeps.take (s := x) ?_ fun hx => ?_; rotate_left; clear_value x; rotate_left; unfold x; try lift_lets)
    | intro x

theorem State.showAwait_keeps {s1 : State} (hs1 : Keeps F r s1) : Keeps F r (State.showAwait s1) := by
  unfold State.showAwait
  with_reducible repeat' first
    | assumption | apply State.wr_keeps

theorem State.train_keeps {s1 : State} {a1 : Nat} {a2 : Option Nat} (hF : Covers F [.ic, .eng, .light])
    (hs1 : Keeps F r s1) : Keeps F r (State.train s1 a1 a2) := by
  unfold State.train
  try lift_lets
  with_reducible repeat' first
    | exact .inr (hF.one (by decide)) | exact .inl rfl | rfl | (refine Keeps.ite ?_ ?_) <;> try lift_lets | assumption
    | apply State.leaveRun_keeps | apply State.bump_keeps | apply State.wr_keeps | apply State.setLink_keeps
    | apply State.setLinkState_keeps | (split <;> try lift_lets) | (refine Covers.sub hF ?_; decide)
    | (intro x; refine Keeps.take (s := x) ?_ fun hx => ?_; rotate_left; clear_value x; rotate_left; unfold x; try lift_lets)
    | intro x | refine Keeps.of_eq ?_ ?_ ?_ ?_ ?_ ?_ ?_ ?_ ?_ ?_ ?_ ?_ ?_ ?_ ?_ ?_ ?_

theorem State.withdrawPermit_keeps {s1 : State} (hF : Covers F [.ic, .eng, .pwr]) (hs1 : Keeps F r s1) :
    Keeps F r (State.withdrawPermit s1) := by
  unfold State.withdrawPermit
  with_reducible repeat' first
    | (refine Keeps.ite ?_ ?_) | assumption | apply State.endOne_keeps | apply State.setPermit_keeps
    | (refine Keeps.foldl (fun _ _ _ => ?_) ?_) | (refine Covers.sub hF ?_; decide)

end Sys2Proof.Machine
end

