-- ==== Sys2Proof/Laws/Keeps/Escalate.lean ====
section
/-! SUPPORT. What every command keeps, operation by operation: those of Machine/Escalate.lean. -/

namespace Sys2Proof.Machine

variable {F : List Part} {r : State}

theorem State.awaitReturn_keeps {s1 : State} {a1 a2 a3 : Nat} (hF : Covers F [.sig, .obj, .stk]) (hs1 : Keeps F r s1) :
    Keeps F r (State.awaitReturn s1 a1 a2 a3) := by
  unfold State.awaitReturn
  try lift_lets
  with_reducible repeat' first
    | exact .inr (hF.one (by decide)) | exact .inl rfl | rfl | (refine Keeps.ite ?_ ?_) <;> try lift_lets | assumption
    | (refine Covers.sub hF ?_; decide)
    | (intro x; refine Keeps.take (s := x) ?_ fun hx => ?_; rotate_left; clear_value x; rotate_left; unfold x; try lift_lets)
    | intro x | refine Keeps.of_eq ?_ ?_ ?_ ?_ ?_ ?_ ?_ ?_ ?_ ?_ ?_ ?_ ?_ ?_ ?_ ?_ ?_

theorem State.setErr_keeps {s1 : State} {a1 a2 : Nat} {a3 : ErrInst → ErrInst} (hF : Covers F [.sig])
    (hs1 : Keeps F r s1) : Keeps F r (State.setErr s1 a1 a2 a3) := by
  unfold State.setErr
  try lift_lets
  with_reducible repeat' first
    | exact .inr (hF.one (by decide)) | exact .inl rfl | rfl | assumption | (refine Covers.sub hF ?_; decide)
    | (intro x; refine Keeps.take (s := x) ?_ fun hx => ?_; rotate_left; clear_value x; rotate_left; unfold x; try lift_lets)
    | intro x | refine Keeps.of_eq ?_ ?_ ?_ ?_ ?_ ?_ ?_ ?_ ?_ ?_ ?_ ?_ ?_ ?_ ?_ ?_ ?_

theorem State.setEscFenced_keeps {s1 : State} {a1 : List (Nat × Nat)} (hF : Covers F [.sig]) (hs1 : Keeps F r s1) :
    Keeps F r (State.setEscFenced s1 a1) := by
  unfold State.setEscFenced
  try lift_lets
  with_reducible repeat' first
    | exact .inr (hF.one (by decide)) | exact .inl rfl | rfl | assumption | apply State.wr_keeps
    | (refine Covers.sub hF ?_; decide)
    | (intro x; refine Keeps.take (s := x) ?_ fun hx => ?_; rotate_left; clear_value x; rotate_left; unfold x; try lift_lets)
    | intro x | refine Keeps.of_eq ?_ ?_ ?_ ?_ ?_ ?_ ?_ ?_ ?_ ?_ ?_ ?_ ?_ ?_ ?_ ?_ ?_

theorem State.clearLevels_keeps {s1 : State} {a1 a2 : Nat} (hF : Covers F [.hif, .ic, .sig]) (hs1 : Keeps F r s1) :
    Keeps F r (State.clearLevels s1 a1 a2) := by
  unfold State.clearLevels
  try lift_lets
  with_reducible repeat' first
    | assumption | apply State.setErr_keeps | apply State.postEscalation_keeps | apply State.setEscFenced_keeps
    | (refine Keeps.foldl (fun _ _ _ => ?_) ?_) <;> try lift_lets | (refine Covers.sub hF ?_; decide)
    | (intro x; refine Keeps.take (s := x) ?_ fun hx => ?_; rotate_left; clear_value x; rotate_left; unfold x; try lift_lets)
    | intro x

theorem State.endUnfences_keeps {s1 : State} {a1 a2 a3 a4 : Nat} (hF : Covers F [.hif, .ic, .sig]) (hs1 : Keeps F r s1) :
    Keeps F r (State.endUnfences s1 a1 a2 a3 a4) := by
  unfold State.endUnfences
  try lift_lets
  with_reducible repeat' first
    | exact .inr (hF.one (by decide)) | exact .inl rfl | rfl | assumption | apply State.endHeld_keeps
    | (refine Keeps.foldl (fun _ _ _ => ?_) ?_) <;> try lift_lets | (split <;> try lift_lets)
    | (refine Covers.sub hF ?_; decide)
    | (intro x; refine Keeps.take (s := x) ?_ fun hx => ?_; rotate_left; clear_value x; rotate_left; unfold x; try lift_lets)
    | intro x | refine Keeps.of_eq ?_ ?_ ?_ ?_ ?_ ?_ ?_ ?_ ?_ ?_ ?_ ?_ ?_ ?_ ?_ ?_ ?_

theorem State.showResources_keeps {s1 : State} (hs1 : Keeps F r s1) : Keeps F r (State.showResources s1) := by
  unfold State.showResources
  try lift_lets
  with_reducible repeat' first
    | assumption | apply State.wrs_keeps
    | (intro x; refine Keeps.take (s := x) ?_ fun hx => ?_; rotate_left; clear_value x; rotate_left; unfold x; try lift_lets)
    | intro x

theorem State.setBankFenced_keeps {s1 : State} {a1 : Nat} {a2 : Bool} (hF : Covers F [.ic]) (hs1 : Keeps F r s1) :
    Keeps F r (State.setBankFenced s1 a1 a2) := by
  unfold State.setBankFenced
  try lift_lets
  with_reducible repeat' first
    | (refine Keeps.ite ?_ ?_) <;> try lift_lets | assumption | apply State.showResources_keeps | apply State.wr_keeps
    | apply State.raise_keeps | (refine Covers.sub hF ?_; decide)
    | (intro x; refine Keeps.take (s := x) ?_ fun hx => ?_; rotate_left; clear_value x; rotate_left; unfold x; try lift_lets)
    | intro x

theorem State.setScalerFenced_keeps {s1 : State} {a1 : Nat} {a2 : Bool} (hF : Covers F [.obj]) (hs1 : Keeps F r s1) :
    Keeps F r (State.setScalerFenced s1 a1 a2) := by
  unfold State.setScalerFenced
  try lift_lets
  with_reducible repeat' first
    | exact .inr (hF.one (by decide)) | exact .inl rfl | rfl | (refine Keeps.ite ?_ ?_) <;> try lift_lets | assumption
    | apply State.showResources_keeps | apply State.wrs_keeps | (refine Covers.sub hF ?_; decide)
    | (intro x; refine Keeps.take (s := x) ?_ fun hx => ?_; rotate_left; clear_value x; rotate_left; unfold x; try lift_lets)
    | intro x | refine Keeps.of_eq ?_ ?_ ?_ ?_ ?_ ?_ ?_ ?_ ?_ ?_ ?_ ?_ ?_ ?_ ?_ ?_ ?_

theorem State.setPcFenced_keeps {s1 : State} {a1 : Nat} {a2 : Bool} (hF : Covers F [.ic]) (hs1 : Keeps F r s1) :
    Keeps F r (State.setPcFenced s1 a1 a2) := by
  unfold State.setPcFenced
  try lift_lets
  with_reducible repeat' first
    | (refine Keeps.ite ?_ ?_) <;> try lift_lets | assumption | apply State.showResources_keeps | apply State.wrs_keeps
    | apply State.raise_keeps | (refine Covers.sub hF ?_; decide)
    | (intro x; refine Keeps.take (s := x) ?_ fun hx => ?_; rotate_left; clear_value x; rotate_left; unfold x; try lift_lets)
    | intro x

theorem State.fenceRes_keeps {s1 : State} {a1 a2 : Nat} (hF : Covers F [.ic, .sig, .obj, .eng, .light])
    (hs1 : Keeps F r s1) : Keeps F r (State.fenceRes s1 a1 a2) := by
  unfold State.fenceRes
  try lift_lets
  with_reducible repeat' first
    | exact .inr (hF.one (by decide)) | exact .inl rfl | rfl | assumption | apply State.setEscFenced_keeps
    | apply State.setBankFenced_keeps | apply State.setScalerFenced_keeps | apply State.setPcFenced_keeps
    | apply State.fenceEngine_keeps | (split <;> try lift_lets) | (refine Covers.sub hF ?_; decide)
    | (intro x; refine Keeps.take (s := x) ?_ fun hx => ?_; rotate_left; clear_value x; rotate_left; unfold x; try lift_lets)
    | intro x | refine Keeps.of_eq ?_ ?_ ?_ ?_ ?_ ?_ ?_ ?_ ?_ ?_ ?_ ?_ ?_ ?_ ?_ ?_ ?_

theorem State.rise_keeps {s1 : State} {a1 a2 : Nat} (hF : Covers F [.hif, .ic, .sig, .obj, .eng, .light])
    (hs1 : Keeps F r s1) : Keeps F r (State.rise s1 a1 a2) := by
  unfold State.rise
  try lift_lets
  with_reducible repeat' first
    | (refine Keeps.ite ?_ ?_) <;> try lift_lets | assumption | apply State.setErr_keeps | apply State.postEscalation_keeps
    | apply State.fenceRes_keeps | (refine Covers.sub hF ?_; decide)
    | (intro x; refine Keeps.take (s := x) ?_ fun hx => ?_; rotate_left; clear_value x; rotate_left; unfold x; try lift_lets)
    | intro x

theorem State.error_keeps {s1 : State} {a1 a2 : Nat} (hF : Covers F [.hif, .ic, .sig, .obj, .eng, .light])
    (hs1 : Keeps F r s1) : Keeps F r (State.error s1 a1 a2) := by
  unfold State.error
  try lift_lets
  with_reducible repeat' first
    | (refine Keeps.ite ?_ ?_) <;> try lift_lets | assumption | apply State.setErr_keeps | apply State.rise_keeps
    | (refine Covers.sub hF ?_; decide)
    | (intro x; refine Keeps.take (s := x) ?_ fun hx => ?_; rotate_left; clear_value x; rotate_left; unfold x; try lift_lets)
    | intro x

theorem State.returned_keeps {s1 : State} {a1 a2 : Nat} (hF : Covers F [.hif, .ic, .sig]) (hs1 : Keeps F r s1) :
    Keeps F r (State.returned s1 a1 a2) := by
  unfold State.returned
  with_reducible repeat' first
    | assumption | apply State.endUnfences_keeps | apply State.clearLevels_keeps | (refine Covers.sub hF ?_; decide)

theorem State.returnEngines_keeps {s1 : State} (hF : Covers F [.hif, .ic, .sig]) (hs1 : Keeps F r s1) :
    Keeps F r (State.returnEngines s1) := by
  unfold State.returnEngines
  try lift_lets
  with_reducible repeat' first
    | exact .inr (hF.one (by decide)) | exact .inl rfl | rfl | assumption | apply State.returned_keeps
    | (refine Keeps.foldl (fun _ _ _ => ?_) ?_) <;> try lift_lets | (refine Covers.sub hF ?_; decide)
    | (intro x; refine Keeps.take (s := x) ?_ fun hx => ?_; rotate_left; clear_value x; rotate_left; unfold x; try lift_lets)
    | intro x | refine Keeps.of_eq ?_ ?_ ?_ ?_ ?_ ?_ ?_ ?_ ?_ ?_ ?_ ?_ ?_ ?_ ?_ ?_ ?_

theorem State.returnScalers_keeps {s1 : State} (hF : Covers F [.hif, .ic, .sig, .obj]) (hs1 : Keeps F r s1) :
    Keeps F r (State.returnScalers s1) := by
  unfold State.returnScalers
  with_reducible repeat' first
    | assumption | apply State.returned_keeps | apply State.setScalerFenced_keeps
    | (refine Keeps.foldl (fun _ _ _ => ?_) ?_) | (refine Covers.sub hF ?_; decide)

theorem State.windowStart_keeps {s1 : State} {a1 : Nat} (hF : Covers F [.hif, .ic, .sig]) (hs1 : Keeps F r s1) :
    Keeps F r (State.windowStart s1 a1) := by
  unfold State.windowStart
  try lift_lets
  with_reducible repeat' first
    | exact .inr (hF.one (by decide)) | exact .inl rfl | rfl | (refine Keeps.ite ?_ ?_) <;> try lift_lets | assumption
    | apply State.postEscalation_keeps | apply State.setErr_keeps
    | (refine Keeps.foldl (fun _ _ _ => ?_) ?_) <;> try lift_lets | (refine Covers.sub hF ?_; decide)
    | (intro x; refine Keeps.take (s := x) ?_ fun hx => ?_; rotate_left; clear_value x; rotate_left; unfold x; try lift_lets)
    | intro x | refine Keeps.of_eq ?_ ?_ ?_ ?_ ?_ ?_ ?_ ?_ ?_ ?_ ?_ ?_ ?_ ?_ ?_ ?_ ?_

theorem execEscalationWindow_keeps {a0 : Nat} {s2 : State} (hF : Covers F [.hif, .ic, .sig]) (hs2 : Keeps F r s2) :
    KeepsOut F r (execEscalationWindow a0 s2) := by
  unfold execEscalationWindow
  try lift_lets
  with_reducible repeat' first
    | exact .inr (hF.one (by decide)) | exact .inl rfl | rfl | (refine KeepsOut.ite ?_ ?_) <;> try lift_lets
    | (refine Keeps.ite ?_ ?_) <;> try lift_lets | assumption | apply State.inService_keeps | apply State.windowStart_keeps
    | refine Keeps.next ?_ | (refine Covers.sub hF ?_; decide) | (refine fun x (hx : Keeps F r x) => ?_; try lift_lets)
    | (intro x; refine Keeps.take (s := x) ?_ fun hx => ?_; rotate_left; clear_value x; rotate_left; unfold x; try lift_lets)
    | intro x | refine Keeps.of_eq ?_ ?_ ?_ ?_ ?_ ?_ ?_ ?_ ?_ ?_ ?_ ?_ ?_ ?_ ?_ ?_ ?_

theorem unfenceBody_keeps {a0 : Nat} {a1 : Desc} {s3 : State} (hF : Covers F [.hif, .ic, .sig, .obj, .stk])
    (hs3 : Keeps F r s3) : KeepsRes F r (unfenceBody a0 a1 s3) := by
  unfold unfenceBody
  try lift_lets
  with_reducible repeat' first
    | (refine KeepsRes.ite ?_ ?_) <;> try lift_lets | (refine Keeps.ite ?_ ?_) <;> try lift_lets | assumption
    | apply State.checked_keeps | apply State.setErr_keeps | apply State.postEscalation_keeps
    | apply State.awaitReturn_keeps | exact Keeps.rest | refine Keeps.done ?_ | refine Keeps.wait ?_
    | refine Keeps.admitted ?_ | (refine Covers.sub hF ?_; decide) | (refine fun x (hx : Keeps F r x) => ?_; try lift_lets)
    | (intro x; refine Keeps.take (s := x) ?_ fun hx => ?_; rotate_left; clear_value x; rotate_left; unfold x; try lift_lets)
    | intro x

theorem execUnfence_keeps {a0 : Nat} {s2 : State} (hF : Covers F [.hif, .ic, .sig, .obj, .stk]) (hs2 : Keeps F r s2) :
    KeepsOut F r (execUnfence a0 s2) := by
  unfold execUnfence
  with_reducible repeat' first
    | assumption | apply State.descriptor_keeps | apply unfenceBody_keeps | refine Keeps.next ?_
    | (refine Covers.sub hF ?_; decide) | (refine fun x (hx : Keeps F r x) => ?_; try lift_lets)
    | (intro x; refine Keeps.take (s := x) ?_ fun hx => ?_; rotate_left; clear_value x; rotate_left; unfold x; try lift_lets)
    | intro x

end Sys2Proof.Machine
end

