-- ==== Sys2Proof/Laws/Keeps/Objects.lean ====
section
/-! SUPPORT. What every command keeps, operation by operation: those of Machine/Objects.lean. -/

namespace Sys2Proof.Machine

variable {F : List Part} {r : State}

theorem State.applyCtx_keeps {s1 : State} {a1 : Nat} {a2 : Ctx} (hF : Covers F [.obj]) (hs1 : Keeps F r s1) :
    Keeps F r (State.applyCtx s1 a1 a2) := by
  unfold State.applyCtx
  try lift_lets
  with_reducible repeat' first
    | exact .inr (hF.one (by decide)) | exact .inl rfl | rfl | (refine Keeps.ite ?_ ?_) <;> try lift_lets | assumption
    | (refine Covers.sub hF ?_; decide)
    | (intro x; refine Keeps.take (s := x) ?_ fun hx => ?_; rotate_left; clear_value x; rotate_left; unfold x; try lift_lets)
    | intro x | refine Keeps.of_eq ?_ ?_ ?_ ?_ ?_ ?_ ?_ ?_ ?_ ?_ ?_ ?_ ?_ ?_ ?_ ?_ ?_

theorem State.applyBatch_keeps {s1 : State} {a1 : ObjBatch} (hF : Covers F [.obj]) (hs1 : Keeps F r s1) :
    Keeps F r (State.applyBatch s1 a1) := by
  unfold State.applyBatch
  with_reducible repeat' first
    | assumption | apply State.bump_keeps | apply State.applyCtx_keeps | (refine Keeps.foldl (fun _ _ _ => ?_) ?_)
    | (refine Covers.sub hF ?_; decide)

theorem State.refillBank_keeps {s1 : State} {a1 : Nat} (hF : Covers F [.obj]) (hs1 : Keeps F r s1) :
    Keeps F r (State.refillBank s1 a1) := by
  unfold State.refillBank
  try lift_lets
  with_reducible repeat' first
    | exact .inr (hF.one (by decide)) | exact .inl rfl | rfl | (refine Keeps.ite ?_ ?_) <;> try lift_lets | assumption
    | (refine Keeps.foldl (fun _ _ _ => ?_) ?_) <;> try lift_lets | (refine Covers.sub hF ?_; decide)
    | (intro x; refine Keeps.take (s := x) ?_ fun hx => ?_; rotate_left; clear_value x; rotate_left; unfold x; try lift_lets)
    | intro x | refine Keeps.of_eq ?_ ?_ ?_ ?_ ?_ ?_ ?_ ?_ ?_ ?_ ?_ ?_ ?_ ?_ ?_ ?_ ?_

theorem State.showObjects_keeps {s1 : State} (hs1 : Keeps F r s1) : Keeps F r (State.showObjects s1) := by
  unfold State.showObjects
  try lift_lets
  with_reducible repeat' first
    | assumption | apply State.wrs_keeps | (refine Keeps.foldl (fun _ _ _ => ?_) ?_) <;> try lift_lets
    | (intro x; refine Keeps.take (s := x) ?_ fun hx => ?_; rotate_left; clear_value x; rotate_left; unfold x; try lift_lets)
    | intro x

theorem State.restoreBank_keeps {s1 : State} {a1 : Nat} (hF : Covers F [.hif, .ic, .sig, .obj]) (hs1 : Keeps F r s1) :
    Keeps F r (State.restoreBank s1 a1) := by
  unfold State.restoreBank
  with_reducible repeat' first
    | assumption | apply State.returned_keeps | apply State.setBankFenced_keeps | apply State.refillBank_keeps
    | (refine Covers.sub hF ?_; decide)

theorem State.applyWindow_keeps {s1 : State} (hF : Covers F [.hif, .ic, .sig, .obj]) (hs1 : Keeps F r s1) :
    Keeps F r (State.applyWindow s1) := by
  unfold State.applyWindow
  try lift_lets
  with_reducible repeat' first
    | exact .inr (hF.one (by decide)) | exact .inl rfl | rfl | (refine Keeps.ite ?_ ?_) <;> try lift_lets | assumption
    | apply State.refillBank_keeps | apply State.applyBatch_keeps | apply State.showObjects_keeps
    | apply State.restoreBank_keeps | (refine Keeps.foldl (fun _ _ _ => ?_) ?_) <;> try lift_lets
    | (refine Covers.sub hF ?_; decide)
    | (intro x; refine Keeps.take (s := x) ?_ fun hx => ?_; rotate_left; clear_value x; rotate_left; unfold x; try lift_lets)
    | intro x | refine Keeps.of_eq ?_ ?_ ?_ ?_ ?_ ?_ ?_ ?_ ?_ ?_ ?_ ?_ ?_ ?_ ?_ ?_ ?_

theorem State.carry_keeps {s1 : State} {a1 : List Nat} {a2 : Nat} (hF : Covers F [.obj]) (hs1 : Keeps F r s1) :
    Keeps F r (State.carry s1 a1 a2) := by
  unfold State.carry
  try lift_lets
  with_reducible repeat' first
    | exact .inr (hF.one (by decide)) | exact .inl rfl | rfl | (refine Keeps.ite ?_ ?_) <;> try lift_lets | assumption
    | (refine Covers.sub hF ?_; decide)
    | (intro x; refine Keeps.take (s := x) ?_ fun hx => ?_; rotate_left; clear_value x; rotate_left; unfold x; try lift_lets)
    | intro x | refine Keeps.of_eq ?_ ?_ ?_ ?_ ?_ ?_ ?_ ?_ ?_ ?_ ?_ ?_ ?_ ?_ ?_ ?_ ?_

theorem State.takeBatches_keeps {s1 : State} {a1 : Nat} (hF : Covers F [.obj]) (hs1 : Keeps F r s1) :
    Keeps F r (State.takeBatches s1 a1) := by
  unfold State.takeBatches
  try lift_lets
  with_reducible repeat' first
    | exact .inr (hF.one (by decide)) | exact .inl rfl | rfl | (refine Keeps.ite ?_ ?_) <;> try lift_lets | assumption
    | (refine Covers.sub hF ?_; decide)
    | (intro x; refine Keeps.take (s := x) ?_ fun hx => ?_; rotate_left; clear_value x; rotate_left; unfold x; try lift_lets)
    | intro x | refine Keeps.of_eq ?_ ?_ ?_ ?_ ?_ ?_ ?_ ?_ ?_ ?_ ?_ ?_ ?_ ?_ ?_ ?_ ?_

theorem objWriteBody_keeps {a0 : Nat} {a1 : Desc} {s3 : State} (hs3 : Keeps F r s3) :
    KeepsRes F r (objWriteBody a0 a1 s3) := by
  unfold objWriteBody
  try lift_lets
  with_reducible repeat' first
    | (refine KeepsRes.ite ?_ ?_) <;> try lift_lets | (refine Keeps.ite ?_ ?_) <;> try lift_lets | assumption
    | apply State.checked_keeps | exact Keeps.rest | refine Keeps.done ?_ | refine Keeps.wait ?_ | refine Keeps.admitted ?_
    | (refine fun x (hx : Keeps F r x) => ?_; try lift_lets)
    | (intro x; refine Keeps.take (s := x) ?_ fun hx => ?_; rotate_left; clear_value x; rotate_left; unfold x; try lift_lets)
    | intro x

theorem execObjWrite_keeps {a0 : Nat} {s2 : State} (hF : Covers F [.hif, .ic]) (hs2 : Keeps F r s2) :
    KeepsOut F r (execObjWrite a0 s2) := by
  unfold execObjWrite
  with_reducible repeat' first
    | assumption | apply State.descriptor_keeps | apply objWriteBody_keeps | refine Keeps.next ?_
    | (refine Covers.sub hF ?_; decide) | (refine fun x (hx : Keeps F r x) => ?_; try lift_lets)
    | (intro x; refine Keeps.take (s := x) ?_ fun hx => ?_; rotate_left; clear_value x; rotate_left; unfold x; try lift_lets)
    | intro x

theorem objData_keeps {a0 : Nat} {a1 : Desc} {a2 : List Byte} {s4 : State} (hF : Covers F [.obj]) (hs4 : Keeps F r s4) :
    KeepsRes F r (objData a0 a1 a2 s4) := by
  unfold objData
  try lift_lets
  with_reducible repeat' first
    | exact .inr (hF.one (by decide)) | exact .inl rfl | rfl | (refine KeepsRes.ite ?_ ?_) <;> try lift_lets
    | (refine Keeps.ite ?_ ?_) <;> try lift_lets | assumption | apply State.showObjects_keeps | exact Keeps.rest
    | refine Keeps.done ?_ | refine Keeps.wait ?_ | refine Keeps.admitted ?_ | (split <;> try lift_lets)
    | (refine Covers.sub hF ?_; decide)
    | (intro x; refine Keeps.take (s := x) ?_ fun hx => ?_; rotate_left; clear_value x; rotate_left; unfold x; try lift_lets)
    | intro x | refine Keeps.of_eq ?_ ?_ ?_ ?_ ?_ ?_ ?_ ?_ ?_ ?_ ?_ ?_ ?_ ?_ ?_ ?_ ?_

end Sys2Proof.Machine
end

