-- ==== Sys2Proof/Laws/Keeps/Commits.lean ====
section
/-! SUPPORT. What every command keeps, operation by operation: those of Machine/Commits.lean. -/

namespace Sys2Proof.Machine

variable {F : List Part} {r : State}

theorem State.addWaiting_keeps {s1 : State} {a1 : WaitCommit} (hF : Covers F [.comp]) (hs1 : Keeps F r s1) :
    Keeps F r (State.addWaiting s1 a1) := by
  unfold State.addWaiting
  try lift_lets
  with_reducible repeat' first
    | exact .inr (hF.one (by decide)) | exact .inl rfl | rfl | assumption | (refine Covers.sub hF ?_; decide)
    | (intro x; refine Keeps.take (s := x) ?_ fun hx => ?_; rotate_left; clear_value x; rotate_left; unfold x; try lift_lets)
    | intro x | refine Keeps.of_eq ?_ ?_ ?_ ?_ ?_ ?_ ?_ ?_ ?_ ?_ ?_ ?_ ?_ ?_ ?_ ?_ ?_

theorem State.swapWaits_keeps {s1 : State} {a1 a2 : Nat} (hF : Covers F [.hif]) (hs1 : Keeps F r s1) :
    Keeps F r (State.swapWaits s1 a1 a2) := by
  unfold State.swapWaits
  try lift_lets
  with_reducible repeat' first
    | exact .inr (hF.one (by decide)) | exact .inl rfl | rfl | (refine Keeps.ite ?_ ?_) <;> try lift_lets | assumption
    | (refine Covers.sub hF ?_; decide)
    | (intro x; refine Keeps.take (s := x) ?_ fun hx => ?_; rotate_left; clear_value x; rotate_left; unfold x; try lift_lets)
    | intro x | refine Keeps.of_eq ?_ ?_ ?_ ?_ ?_ ?_ ?_ ?_ ?_ ?_ ?_ ?_ ?_ ?_ ?_ ?_ ?_

theorem State.endSuperseded_keeps {s1 : State} {a1 : Option WaitCommit} {a2 : Nat} (hF : Covers F [.hif, .ic])
    (hs1 : Keeps F r s1) : Keeps F r (State.endSuperseded s1 a1 a2) := by
  unfold State.endSuperseded
  with_reducible repeat' first
    | exact .inr (hF.one (by decide)) | exact .inl rfl | rfl | assumption | apply State.outcome_keeps
    | apply State.swapWaits_keeps | split | (refine Covers.sub hF ?_; decide)
    | refine Keeps.of_eq ?_ ?_ ?_ ?_ ?_ ?_ ?_ ?_ ?_ ?_ ?_ ?_ ?_ ?_ ?_ ?_ ?_

theorem State.enqueueCommit_keeps {s1 : State} {a1 : WaitCommit} {a2 : List Nat} (hF : Covers F [.hif, .ic, .comp, .obj])
    (hs1 : Keeps F r s1) : Keeps F r (State.enqueueCommit s1 a1 a2) := by
  unfold State.enqueueCommit
  with_reducible repeat' first
    | assumption | apply State.endSuperseded_keeps | apply State.carry_keeps | apply State.addWaiting_keeps
    | (refine Covers.sub hF ?_; decide)

theorem State.rejectOn_keeps {s1 : State} {a1 a2 a3 : Nat} (hF : Covers F [.ic]) (hs1 : Keeps F r s1) :
    KeepsRes F r (State.rejectOn s1 a1 a2 a3) := by
  unfold State.rejectOn
  with_reducible repeat' first
    | assumption | apply State.raiseWith_keeps | exact Keeps.rest | refine Keeps.done ?_ | refine Keeps.wait ?_
    | refine Keeps.admitted ?_ | (refine Covers.sub hF ?_; decide)

theorem State.ledgerReject_keeps {s1 : State} {a1 a2 : Nat} {a3 : Nat × Nat} (hF : Covers F [.ic]) (hs1 : Keeps F r s1) :
    KeepsRes F r (State.ledgerReject s1 a1 a2 a3) := by
  unfold State.ledgerReject
  with_reducible repeat' first
    | assumption | apply State.rejectOn_keeps | apply State.showReject_keeps | exact Keeps.rest | refine Keeps.done ?_
    | refine Keeps.wait ?_ | refine Keeps.admitted ?_ | (refine Covers.sub hF ?_; decide)

theorem commitBody_keeps {a0 : Nat} {a1 : Desc} {s3 : State} (hF : Covers F [.hif, .ic, .comp, .obj])
    (hs3 : Keeps F r s3) : KeepsRes F r (commitBody a0 a1 s3) := by
  unfold commitBody
  try lift_lets
  with_reducible repeat' first
    | exact .inr (hF.one (by decide)) | exact .inl rfl | rfl | assumption | apply State.checked_keeps
    | apply State.rejectOn_keeps | apply State.ledgerReject_keeps | apply State.enqueueCommit_keeps | exact Keeps.rest
    | refine Keeps.done ?_ | refine Keeps.wait ?_ | refine Keeps.admitted ?_ | (split <;> try lift_lets)
    | (refine Covers.sub hF ?_; decide) | (refine fun x (hx : Keeps F r x) => ?_; try lift_lets)
    | (intro x; refine Keeps.take (s := x) ?_ fun hx => ?_; rotate_left; clear_value x; rotate_left; unfold x; try lift_lets)
    | intro x | refine Keeps.of_eq ?_ ?_ ?_ ?_ ?_ ?_ ?_ ?_ ?_ ?_ ?_ ?_ ?_ ?_ ?_ ?_ ?_

theorem engineCommitBody_keeps {a0 : Nat} {a1 : Desc} {s3 : State} (hF : Covers F [.hif, .ic, .comp, .obj])
    (hs3 : Keeps F r s3) : KeepsRes F r (engineCommitBody a0 a1 s3) := by
  unfold engineCommitBody
  try lift_lets
  with_reducible repeat' first
    | exact .inr (hF.one (by decide)) | exact .inl rfl | rfl | assumption | apply State.checked_keeps
    | apply State.showReject_keeps | apply State.enqueueCommit_keeps | exact Keeps.rest | refine Keeps.done ?_
    | refine Keeps.wait ?_ | refine Keeps.admitted ?_ | (split <;> try lift_lets) | (refine Covers.sub hF ?_; decide)
    | (refine fun x (hx : Keeps F r x) => ?_; try lift_lets)
    | (intro x; refine Keeps.take (s := x) ?_ fun hx => ?_; rotate_left; clear_value x; rotate_left; unfold x; try lift_lets)
    | intro x | refine Keeps.of_eq ?_ ?_ ?_ ?_ ?_ ?_ ?_ ?_ ?_ ?_ ?_ ?_ ?_ ?_ ?_ ?_ ?_

theorem execCommit_keeps {a0 : Nat} {s2 : State} (hF : Covers F [.hif, .ic, .comp, .obj]) (hs2 : Keeps F r s2) :
    KeepsOut F r (execCommit a0 s2) := by
  unfold execCommit
  with_reducible repeat' first
    | assumption | apply State.descriptor_keeps | apply commitBody_keeps | refine Keeps.next ?_
    | (refine Covers.sub hF ?_; decide) | (refine fun x (hx : Keeps F r x) => ?_; try lift_lets)
    | (intro x; refine Keeps.take (s := x) ?_ fun hx => ?_; rotate_left; clear_value x; rotate_left; unfold x; try lift_lets)
    | intro x

theorem execEngineCommit_keeps {a0 : Nat} {s2 : State} (hF : Covers F [.hif, .ic, .comp, .obj]) (hs2 : Keeps F r s2) :
    KeepsOut F r (execEngineCommit a0 s2) := by
  unfold execEngineCommit
  with_reducible repeat' first
    | assumption | apply State.descriptor_keeps | apply engineCommitBody_keeps | refine Keeps.next ?_
    | (refine Covers.sub hF ?_; decide) | (refine fun x (hx : Keeps F r x) => ?_; try lift_lets)
    | (intro x; refine Keeps.take (s := x) ?_ fun hx => ?_; rotate_left; clear_value x; rotate_left; unfold x; try lift_lets)
    | intro x

theorem guardCommitBody_keeps {a0 : Nat} {a1 : Desc} {s3 : State} (hF : Covers F [.hif, .ic, .comp, .obj])
    (hs3 : Keeps F r s3) : KeepsRes F r (guardCommitBody a0 a1 s3) := by
  unfold guardCommitBody
  try lift_lets
  with_reducible repeat' first
    | (refine KeepsRes.ite ?_ ?_) <;> try lift_lets | (refine Keeps.ite ?_ ?_) <;> try lift_lets | assumption
    | apply State.checked_keeps | apply State.rejectOn_keeps | apply State.ledgerReject_keeps
    | apply State.enqueueCommit_keeps | exact Keeps.rest | refine Keeps.done ?_ | refine Keeps.wait ?_
    | refine Keeps.admitted ?_ | (refine Covers.sub hF ?_; decide) | (refine fun x (hx : Keeps F r x) => ?_; try lift_lets)
    | (intro x; refine Keeps.take (s := x) ?_ fun hx => ?_; rotate_left; clear_value x; rotate_left; unfold x; try lift_lets)
    | intro x

theorem execGuardCommit_keeps {a0 : Nat} {s2 : State} (hF : Covers F [.hif, .ic, .comp, .obj]) (hs2 : Keeps F r s2) :
    KeepsOut F r (execGuardCommit a0 s2) := by
  unfold execGuardCommit
  with_reducible repeat' first
    | assumption | apply State.descriptor_keeps | apply guardCommitBody_keeps | refine Keeps.next ?_
    | (refine Covers.sub hF ?_; decide) | (refine fun x (hx : Keeps F r x) => ?_; try lift_lets)
    | (intro x; refine Keeps.take (s := x) ?_ fun hx => ?_; rotate_left; clear_value x; rotate_left; unfold x; try lift_lets)
    | intro x

theorem guardSetBody_keeps {a0 : Nat} {a1 : Desc} {s3 : State} (hF : Covers F [.ic, .comp]) (hs3 : Keeps F r s3) :
    KeepsRes F r (guardSetBody a0 a1 s3) := by
  unfold guardSetBody
  try lift_lets
  with_reducible repeat' first
    | exact .inr (hF.one (by decide)) | exact .inl rfl | rfl | (refine KeepsRes.ite ?_ ?_) <;> try lift_lets
    | (refine Keeps.ite ?_ ?_) <;> try lift_lets | assumption | apply State.checked_keeps | apply State.rejectOn_keeps
    | apply State.ledgerReject_keeps | apply State.wr_keeps | exact Keeps.rest | refine Keeps.done ?_ | refine Keeps.wait ?_
    | refine Keeps.admitted ?_ | (split <;> try lift_lets) | (refine Covers.sub hF ?_; decide)
    | (refine fun x (hx : Keeps F r x) => ?_; try lift_lets)
    | (intro x; refine Keeps.take (s := x) ?_ fun hx => ?_; rotate_left; clear_value x; rotate_left; unfold x; try lift_lets)
    | intro x | refine Keeps.of_eq ?_ ?_ ?_ ?_ ?_ ?_ ?_ ?_ ?_ ?_ ?_ ?_ ?_ ?_ ?_ ?_ ?_

theorem execGuardSet_keeps {a0 : Nat} {s2 : State} (hF : Covers F [.hif, .ic, .comp]) (hs2 : Keeps F r s2) :
    KeepsOut F r (execGuardSet a0 s2) := by
  unfold execGuardSet
  with_reducible repeat' first
    | assumption | apply State.descriptor_keeps | apply guardSetBody_keeps | refine Keeps.next ?_
    | (refine Covers.sub hF ?_; decide) | (refine fun x (hx : Keeps F r x) => ?_; try lift_lets)
    | (intro x; refine Keeps.take (s := x) ?_ fun hx => ?_; rotate_left; clear_value x; rotate_left; unfold x; try lift_lets)
    | intro x

end Sys2Proof.Machine
end

