-- ==== Sys2Proof/Laws/Keeps/Compose.lean ====
section
/-! SUPPORT. What every command keeps, operation by operation: those of Machine/Compose.lean. -/

namespace Sys2Proof.Machine

variable {F : List Part} {r : State}

theorem State.unitDone_keeps {s1 : State} {a1 a2 : Nat} {a3 : List Nat} (hF : Covers F [.comp, .stk])
    (hs1 : Keeps F r s1) : Keeps F r (State.unitDone s1 a1 a2 a3) := by
  unfold State.unitDone
  try lift_lets
  with_reducible repeat' first
    | exact .inr (hF.one (by decide)) | exact .inl rfl | rfl | assumption | (refine Covers.sub hF ?_; decide)
    | (intro x; refine Keeps.take (s := x) ?_ fun hx => ?_; rotate_left; clear_value x; rotate_left; unfold x; try lift_lets)
    | intro x | refine Keeps.of_eq ?_ ?_ ?_ ?_ ?_ ?_ ?_ ?_ ?_ ?_ ?_ ?_ ?_ ?_ ?_ ?_ ?_

theorem State.countHank_keeps {s1 : State} {a1 : List (Surface × Nat)}
    (hF : Covers F [.hif, .ic, .sig, .surf, .obj, .eng, .light]) (hs1 : Keeps F r s1) :
    Keeps F r (State.countHank s1 a1) := by
  unfold State.countHank
  try lift_lets
  with_reducible repeat' first
    | exact .inr (hF.one (by decide)) | exact .inl rfl | rfl | (refine Keeps.ite ?_ ?_) <;> try lift_lets | assumption
    | apply State.error_keeps | (refine Keeps.foldl (fun _ _ _ => ?_) ?_) <;> try lift_lets
    | (refine Covers.sub hF ?_; decide)
    | (intro x; refine Keeps.take (s := x) ?_ fun hx => ?_; rotate_left; clear_value x; rotate_left; unfold x; try lift_lets)
    | intro x | refine Keeps.of_eq ?_ ?_ ?_ ?_ ?_ ?_ ?_ ?_ ?_ ?_ ?_ ?_ ?_ ?_ ?_ ?_ ?_

theorem State.issueUnit_keeps {s1 : State} {a1 : CanvasCfg} {a2 : Nat} {a3 : List Nat} (hF : Covers F [.mem])
    (hs1 : Keeps F r s1) : Keeps F r (State.issueUnit s1 a1 a2 a3) := by
  unfold State.issueUnit
  try lift_lets
  with_reducible repeat' first
    | assumption | apply State.countFenced_keeps | apply State.memSet_keeps
    | (refine Keeps.foldl (fun _ _ _ => ?_) ?_) <;> try lift_lets | (refine Covers.sub hF ?_; decide)
    | (intro x; refine Keeps.take (s := x) ?_ fun hx => ?_; rotate_left; clear_value x; rotate_left; unfold x; try lift_lets)
    | intro x

theorem State.composeUnit_keeps {s1 : State} {a1 a2 : Nat}
    (hF : Covers F [.hif, .ic, .sig, .surf, .comp, .obj, .eng, .light, .stk, .mem]) (hs1 : Keeps F r s1) :
    Keeps F r (State.composeUnit s1 a1 a2) := by
  unfold State.composeUnit
  try lift_lets
  with_reducible repeat' first
    | assumption | apply State.unitDone_keeps | apply State.fencedReads_keeps | apply State.bump_keeps
    | apply State.countHank_keeps | apply State.issueUnit_keeps | (refine Covers.sub hF ?_; decide)
    | (intro x; refine Keeps.take (s := x) ?_ fun hx => ?_; rotate_left; clear_value x; rotate_left; unfold x; try lift_lets)
    | intro x

theorem execComposeUnit_keeps {s1 : State} (hF : Covers F [.hif, .ic, .sig, .surf, .comp, .obj, .eng, .light, .stk, .mem])
    (hs1 : Keeps F r s1) : KeepsOut F r (execComposeUnit s1) := by
  unfold execComposeUnit
  with_reducible repeat' first
    | exact .inr (hF.one (by decide)) | exact .inl rfl | rfl | assumption | apply State.inService_keeps
    | apply State.composeUnit_keeps | refine Keeps.next ?_ | split | (refine Covers.sub hF ?_; decide)
    | (refine fun x (hx : Keeps F r x) => ?_; try lift_lets)
    | (intro x; refine Keeps.take (s := x) ?_ fun hx => ?_; rotate_left; clear_value x; rotate_left; unfold x; try lift_lets)
    | intro x | refine Keeps.of_eq ?_ ?_ ?_ ?_ ?_ ?_ ?_ ?_ ?_ ?_ ?_ ?_ ?_ ?_ ?_ ?_ ?_

end Sys2Proof.Machine
end

