-- ==== Sys2Proof/Laws/Keeps/EngineSet.lean ====
section
/-! SUPPORT. What every command keeps, operation by operation: those of Machine/EngineSet.lean. -/

namespace Sys2Proof.Machine

variable {F : List Part} {r : State}

theorem State.loadTable_keeps {s1 : State} {a1 : Nat} {a2 : TwistTable} (hF : Covers F [.eng]) (hs1 : Keeps F r s1) :
    Keeps F r (State.loadTable s1 a1 a2) := by
  unfold State.loadTable
  try lift_lets
  with_reducible repeat' first
    | exact .inr (hF.one (by decide)) | exact .inl rfl | rfl | assumption | apply State.wrs_keeps
    | (refine Covers.sub hF ?_; decide)
    | (intro x; refine Keeps.take (s := x) ?_ fun hx => ?_; rotate_left; clear_value x; rotate_left; unfold x; try lift_lets)
    | intro x | refine Keeps.of_eq ?_ ?_ ?_ ?_ ?_ ?_ ?_ ?_ ?_ ?_ ?_ ?_ ?_ ?_ ?_ ?_ ?_

theorem State.setShadow_keeps {s1 : State} {a1 : Nat} {a2 : EngBundle → EngBundle} (hF : Covers F [.eng])
    (hs1 : Keeps F r s1) : Keeps F r (State.setShadow s1 a1 a2) := by
  unfold State.setShadow
  with_reducible repeat' first
    | assumption | apply State.setEngine_keeps | (refine Covers.sub hF ?_; decide)

theorem engineSetBody_keeps {a0 : Nat} {a1 : Desc} {s3 : State} (hF : Covers F [.eng]) (hs3 : Keeps F r s3) :
    KeepsRes F r (engineSetBody a0 a1 s3) := by
  unfold engineSetBody
  try lift_lets
  with_reducible repeat' first
    | assumption | apply State.checked_keeps | apply State.setShadow_keeps | exact Keeps.rest | refine Keeps.done ?_
    | refine Keeps.wait ?_ | refine Keeps.admitted ?_ | (refine Covers.sub hF ?_; decide)
    | (refine fun x (hx : Keeps F r x) => ?_; try lift_lets)
    | (intro x; refine Keeps.take (s := x) ?_ fun hx => ?_; rotate_left; clear_value x; rotate_left; unfold x; try lift_lets)
    | intro x

theorem execEngineSet_keeps {a0 : Nat} {s2 : State} (hF : Covers F [.hif, .ic, .eng]) (hs2 : Keeps F r s2) :
    KeepsOut F r (execEngineSet a0 s2) := by
  unfold execEngineSet
  with_reducible repeat' first
    | assumption | apply State.descriptor_keeps | apply engineSetBody_keeps | refine Keeps.next ?_
    | (refine Covers.sub hF ?_; decide) | (refine fun x (hx : Keeps F r x) => ?_; try lift_lets)
    | (intro x; refine Keeps.take (s := x) ?_ fun hx => ?_; rotate_left; clear_value x; rotate_left; unfold x; try lift_lets)
    | intro x

theorem meshLoadBody_keeps {a0 : Nat} {a1 : Desc} {s3 : State} (hF : Covers F [.eng]) (hs3 : Keeps F r s3) :
    KeepsRes F r (meshLoadBody a0 a1 s3) := by
  unfold meshLoadBody
  try lift_lets
  with_reducible repeat' first
    | (refine KeepsRes.ite ?_ ?_) <;> try lift_lets | (refine Keeps.ite ?_ ?_) <;> try lift_lets | assumption
    | apply State.checked_keeps | apply State.setShadow_keeps | exact Keeps.rest | refine Keeps.done ?_
    | refine Keeps.wait ?_ | refine Keeps.admitted ?_ | (refine Covers.sub hF ?_; decide)
    | (refine fun x (hx : Keeps F r x) => ?_; try lift_lets)
    | (intro x; refine Keeps.take (s := x) ?_ fun hx => ?_; rotate_left; clear_value x; rotate_left; unfold x; try lift_lets)
    | intro x

theorem execMeshLoad_keeps {a0 : Nat} {s2 : State} (hF : Covers F [.hif, .ic, .eng]) (hs2 : Keeps F r s2) :
    KeepsOut F r (execMeshLoad a0 s2) := by
  unfold execMeshLoad
  with_reducible repeat' first
    | assumption | apply State.descriptor_keeps | apply meshLoadBody_keeps | refine Keeps.next ?_
    | (refine Covers.sub hF ?_; decide) | (refine fun x (hx : Keeps F r x) => ?_; try lift_lets)
    | (intro x; refine Keeps.take (s := x) ?_ fun hx => ?_; rotate_left; clear_value x; rotate_left; unfold x; try lift_lets)
    | intro x

theorem saddleLoadBody_keeps {a0 : Nat} {a1 : Desc} {s3 : State} (hF : Covers F [.eng]) (hs3 : Keeps F r s3) :
    KeepsRes F r (saddleLoadBody a0 a1 s3) := by
  unfold saddleLoadBody
  try lift_lets
  with_reducible repeat' first
    | (refine KeepsRes.ite ?_ ?_) <;> try lift_lets | (refine Keeps.ite ?_ ?_) <;> try lift_lets | assumption
    | apply State.checked_keeps | apply State.setShadow_keeps | exact Keeps.rest | refine Keeps.done ?_
    | refine Keeps.wait ?_ | refine Keeps.admitted ?_ | (refine Covers.sub hF ?_; decide)
    | (refine fun x (hx : Keeps F r x) => ?_; try lift_lets)
    | (intro x; refine Keeps.take (s := x) ?_ fun hx => ?_; rotate_left; clear_value x; rotate_left; unfold x; try lift_lets)
    | intro x

theorem execSaddleLoad_keeps {a0 : Nat} {s2 : State} (hF : Covers F [.hif, .ic, .eng]) (hs2 : Keeps F r s2) :
    KeepsOut F r (execSaddleLoad a0 s2) := by
  unfold execSaddleLoad
  with_reducible repeat' first
    | assumption | apply State.descriptor_keeps | apply saddleLoadBody_keeps | refine Keeps.next ?_
    | (refine Covers.sub hF ?_; decide) | (refine fun x (hx : Keeps F r x) => ?_; try lift_lets)
    | (intro x; refine Keeps.take (s := x) ?_ fun hx => ?_; rotate_left; clear_value x; rotate_left; unfold x; try lift_lets)
    | intro x

theorem twistLoadBody_keeps {a0 : Nat} {a1 : Desc} {s3 : State} (hs3 : Keeps F r s3) :
    KeepsRes F r (twistLoadBody a0 a1 s3) := by
  unfold twistLoadBody
  try lift_lets
  with_reducible repeat' first
    | (refine KeepsRes.ite ?_ ?_) <;> try lift_lets | (refine Keeps.ite ?_ ?_) <;> try lift_lets | assumption
    | apply State.checked_keeps | exact Keeps.rest | refine Keeps.done ?_ | refine Keeps.wait ?_ | refine Keeps.admitted ?_
    | (refine fun x (hx : Keeps F r x) => ?_; try lift_lets)
    | (intro x; refine Keeps.take (s := x) ?_ fun hx => ?_; rotate_left; clear_value x; rotate_left; unfold x; try lift_lets)
    | intro x

theorem execTwistLoad_keeps {a0 : Nat} {s2 : State} (hF : Covers F [.hif, .ic]) (hs2 : Keeps F r s2) :
    KeepsOut F r (execTwistLoad a0 s2) := by
  unfold execTwistLoad
  with_reducible repeat' first
    | assumption | apply State.descriptor_keeps | apply twistLoadBody_keeps | refine Keeps.next ?_
    | (refine Covers.sub hF ?_; decide) | (refine fun x (hx : Keeps F r x) => ?_; try lift_lets)
    | (intro x; refine Keeps.take (s := x) ?_ fun hx => ?_; rotate_left; clear_value x; rotate_left; unfold x; try lift_lets)
    | intro x

theorem twistSetBody_keeps {a0 : Nat} {a1 : Desc} {s3 : State} (hF : Covers F [.eng]) (hs3 : Keeps F r s3) :
    KeepsRes F r (twistSetBody a0 a1 s3) := by
  unfold twistSetBody
  try lift_lets
  with_reducible repeat' first
    | assumption | apply State.checked_keeps | apply State.setShadow_keeps | exact Keeps.rest | refine Keeps.done ?_
    | refine Keeps.wait ?_ | refine Keeps.admitted ?_ | (refine Covers.sub hF ?_; decide)
    | (refine fun x (hx : Keeps F r x) => ?_; try lift_lets)
    | (intro x; refine Keeps.take (s := x) ?_ fun hx => ?_; rotate_left; clear_value x; rotate_left; unfold x; try lift_lets)
    | intro x

theorem execTwistSet_keeps {a0 : Nat} {s2 : State} (hF : Covers F [.hif, .ic, .eng]) (hs2 : Keeps F r s2) :
    KeepsOut F r (execTwistSet a0 s2) := by
  unfold execTwistSet
  with_reducible repeat' first
    | assumption | apply State.descriptor_keeps | apply twistSetBody_keeps | refine Keeps.next ?_
    | (refine Covers.sub hF ?_; decide) | (refine fun x (hx : Keeps F r x) => ?_; try lift_lets)
    | (intro x; refine Keeps.take (s := x) ?_ fun hx => ?_; rotate_left; clear_value x; rotate_left; unfold x; try lift_lets)
    | intro x

theorem meshData_keeps {d : Desc} {bs : List Byte} {s : State} (hF : Covers F [.eng]) (h : Keeps F r s) : KeepsRes F r (meshData d bs s) := by
  unfold meshData
  generalize meshPoints bs = pts
  dsimp only
  generalize pts.findIdx? pointBad = q
  cases q with
  | none => exact Keeps.done (State.setShadow_keeps (hF.sub (by decide)) h)
  | some k => exact Keeps.done h

theorem saddleData_keeps {a0 : Desc} {a1 : List Byte} {s3 : State} (hF : Covers F [.eng]) (hs3 : Keeps F r s3) :
    KeepsRes F r (saddleData a0 a1 s3) := by
  unfold saddleData
  with_reducible repeat' first
    | assumption | apply State.setShadow_keeps | exact Keeps.rest | refine Keeps.done ?_ | refine Keeps.wait ?_
    | refine Keeps.admitted ?_ | (refine Covers.sub hF ?_; decide)

theorem twistData_keeps {a0 : Desc} {a1 : List Byte} {s3 : State} (hF : Covers F [.eng]) (hs3 : Keeps F r s3) :
    KeepsRes F r (twistData a0 a1 s3) := by
  unfold twistData
  with_reducible repeat' first
    | exact .inr (hF.one (by decide)) | exact .inl rfl | rfl | (refine KeepsRes.ite ?_ ?_) | (refine Keeps.ite ?_ ?_)
    | assumption | apply State.loadTable_keeps | exact Keeps.rest | refine Keeps.done ?_ | refine Keeps.wait ?_
    | refine Keeps.admitted ?_ | split | (refine Covers.sub hF ?_; decide)
    | refine Keeps.of_eq ?_ ?_ ?_ ?_ ?_ ?_ ?_ ?_ ?_ ?_ ?_ ?_ ?_ ?_ ?_ ?_ ?_

end Sys2Proof.Machine
end

