-- ==== Sys2Proof/Laws/Keeps/Skein.lean ====
section
/-! SUPPORT. What every command keeps, operation by operation: those of Machine/Skein.lean. -/

namespace Sys2Proof.Machine

variable {F : List Part} {r : State}

theorem State.acceptIdent_keeps {s1 : State} {a1 a2 : Nat} (hF : Covers F [.ic, .eng, .light]) (hs1 : Keeps F r s1) :
    Keeps F r (State.acceptIdent s1 a1 a2) := by
  unfold State.acceptIdent
  try lift_lets
  with_reducible repeat' first
    | assumption | apply State.setLink_keeps | apply State.wrs_keeps | apply State.identStrings_keeps
    | (refine Covers.sub hF ?_; decide)
    | (intro x; refine Keeps.take (s := x) ?_ fun hx => ?_; rotate_left; clear_value x; rotate_left; unfold x; try lift_lets)
    | intro x

theorem State.countBlank_keeps {s1 : State} {a1 a2 : Nat} (hF : Covers F [.ic]) (hs1 : Keeps F r s1) :
    Keeps F r (State.countBlank s1 a1 a2) := by
  unfold State.countBlank
  with_reducible repeat' first
    | assumption | apply State.raise_keeps | apply State.wr_keeps | apply State.bump_keeps
    | (refine Covers.sub hF ?_; decide)

theorem State.message_keeps {s1 : State} {a1 : Nat} {a2 : State → State} (hF : Covers F [.eng]) (hs1 : Keeps F r s1)
    (ha2 : ∀ y0, Keeps F r y0 → Keeps F r (a2 y0)) : Keeps F r (State.message s1 a1 a2) := by
  unfold State.message
  try lift_lets
  with_reducible repeat' first
    | (refine Keeps.ite ?_ ?_) <;> try lift_lets | assumption | apply ha2 | apply State.inService_keeps
    | apply State.setPort_keeps | apply State.bump_keeps | (refine Covers.sub hF ?_; decide)
    | (refine fun x (hx : Keeps F r x) => ?_; try lift_lets)
    | (intro x; refine Keeps.take (s := x) ?_ fun hx => ?_; rotate_left; clear_value x; rotate_left; unfold x; try lift_lets)
    | intro x

theorem State.event_keeps {s1 : State} {a1 a2 a3 : Nat} {a4 : State → State} (hF : Covers F [.eng]) (hs1 : Keeps F r s1)
    (ha4 : ∀ y0, Keeps F r y0 → Keeps F r (a4 y0)) : Keeps F r (State.event s1 a1 a2 a3 a4) := by
  unfold State.event
  with_reducible repeat' first
    | assumption | apply ha4 | apply State.message_keeps | apply State.wrs_keeps | (refine Covers.sub hF ?_; decide)
    | (refine fun x (hx : Keeps F r x) => ?_; try lift_lets)
    | (intro x; refine Keeps.take (s := x) ?_ fun hx => ?_; rotate_left; clear_value x; rotate_left; unfold x; try lift_lets)
    | intro x

theorem State.exhaust_keeps {s1 : State} {a1 : Nat} {a2 : Option Nat}
    (hF : Covers F [.hif, .ic, .sig, .obj, .eng, .light]) (hs1 : Keeps F r s1) : Keeps F r (State.exhaust s1 a1 a2) := by
  unfold State.exhaust
  try lift_lets
  with_reducible repeat' first
    | (refine Keeps.ite ?_ ?_) <;> try lift_lets | assumption | apply State.raise_keeps | apply State.bump_keeps
    | apply State.endTick_keeps | apply State.error_keeps | (refine Covers.sub hF ?_; decide)
    | (intro x; refine Keeps.take (s := x) ?_ fun hx => ?_; rotate_left; clear_value x; rotate_left; unfold x; try lift_lets)
    | intro x

theorem State.loseData_keeps {s1 : State} {a1 : Nat} {a2 : Ply} (hF : Covers F [.eng]) (hs1 : Keeps F r s1) :
    Keeps F r (State.loseData s1 a1 a2) := by
  unfold State.loseData
  with_reducible repeat' first
    | exact .inr (hF.one (by decide)) | exact .inl rfl | rfl | assumption | apply State.setRun_keeps | split
    | (refine Covers.sub hF ?_; decide) | refine Keeps.of_eq ?_ ?_ ?_ ?_ ?_ ?_ ?_ ?_ ?_ ?_ ?_ ?_ ?_ ?_ ?_ ?_ ?_

theorem State.replay_keeps {s1 : State} {a1 : Nat} {a2 : Stored} (hF : Covers F [.eng]) (hs1 : Keeps F r s1) :
    Keeps F r (State.replay s1 a1 a2) := by
  unfold State.replay
  try lift_lets
  with_reducible repeat' first
    | exact .inr (hF.one (by decide)) | exact .inl rfl | rfl | (refine Keeps.ite ?_ ?_) <;> try lift_lets | assumption
    | apply State.bump_keeps | apply State.setLink_keeps | apply State.setRun_keeps | (split <;> try lift_lets)
    | (refine Covers.sub hF ?_; decide)
    | (intro x; refine Keeps.take (s := x) ?_ fun hx => ?_; rotate_left; clear_value x; rotate_left; unfold x; try lift_lets)
    | intro x | refine Keeps.of_eq ?_ ?_ ?_ ?_ ?_ ?_ ?_ ?_ ?_ ?_ ?_ ?_ ?_ ?_ ?_ ?_ ?_

theorem State.nak_keeps {s1 : State} {a1 a2 : Nat} (hF : Covers F [.hif, .ic, .sig, .obj, .eng, .light])
    (hs1 : Keeps F r s1) : Keeps F r (State.nak s1 a1 a2) := by
  unfold State.nak
  try lift_lets
  with_reducible repeat' first
    | exact .inr (hF.one (by decide)) | exact .inl rfl | rfl | (refine Keeps.ite ?_ ?_) <;> try lift_lets | assumption
    | apply State.bump_keeps | apply State.exhaust_keeps | apply State.loseData_keeps | apply State.replay_keeps
    | apply State.error_keeps | (split <;> try lift_lets) | (refine Covers.sub hF ?_; decide)
    | (intro x; refine Keeps.take (s := x) ?_ fun hx => ?_; rotate_left; clear_value x; rotate_left; unfold x; try lift_lets)
    | intro x | refine Keeps.of_eq ?_ ?_ ?_ ?_ ?_ ?_ ?_ ?_ ?_ ?_ ?_ ?_ ?_ ?_ ?_ ?_ ?_

theorem State.parkLast_keeps {s1 : State} {a1 a2 : Nat} (hF : Covers F [.sig, .eng]) (hs1 : Keeps F r s1) :
    Keeps F r (State.parkLast s1 a1 a2) := by
  unfold State.parkLast
  try lift_lets
  with_reducible repeat' first
    | (refine Keeps.ite ?_ ?_) <;> try lift_lets | assumption | apply State.setEngine_keeps | apply State.setCrcs_keeps
    | (refine Keeps.foldl (fun _ _ _ => ?_) ?_) <;> try lift_lets | (refine Covers.sub hF ?_; decide)
    | (intro x; refine Keeps.take (s := x) ?_ fun hx => ?_; rotate_left; clear_value x; rotate_left; unfold x; try lift_lets)
    | intro x

theorem State.putPly_keeps {s1 : State} {a1 a2 a3 a4 a5 : Nat} {a6 : Bool} (hF : Covers F [.eng]) (hs1 : Keeps F r s1) :
    Keeps F r (State.putPly s1 a1 a2 a3 a4 a5 a6) := by
  unfold State.putPly
  try lift_lets
  with_reducible repeat' first
    | exact .inr (hF.one (by decide)) | exact .inl rfl | rfl | assumption | (refine Covers.sub hF ?_; decide)
    | (intro x; refine Keeps.take (s := x) ?_ fun hx => ?_; rotate_left; clear_value x; rotate_left; unfold x; try lift_lets)
    | intro x | refine Keeps.of_eq ?_ ?_ ?_ ?_ ?_ ?_ ?_ ?_ ?_ ?_ ?_ ?_ ?_ ?_ ?_ ?_ ?_

theorem State.storePly_keeps {s1 : State} {a1 : Nat} {a2 : Ply} (hF : Covers F [.eng]) (hs1 : Keeps F r s1) :
    Keeps F r (State.storePly s1 a1 a2) := by
  unfold State.storePly
  try lift_lets
  with_reducible repeat' first
    | assumption | apply State.setLink_keeps | (refine Covers.sub hF ?_; decide)
    | (intro x; refine Keeps.take (s := x) ?_ fun hx => ?_; rotate_left; clear_value x; rotate_left; unfold x; try lift_lets)
    | intro x

theorem State.sendAbort_keeps {s1 : State} {a1 a2 a3 : Nat} {a4 : Ply} {a5 : List Ply} (hF : Covers F [.eng])
    (hs1 : Keeps F r s1) : Keeps F r (State.sendAbort s1 a1 a2 a3 a4 a5) := by
  unfold State.sendAbort
  try lift_lets
  with_reducible repeat' first
    | (refine Keeps.ite ?_ ?_) <;> try lift_lets | assumption | apply State.setLink_keeps | apply State.putPly_keeps
    | apply State.storePly_keeps | (refine Covers.sub hF ?_; decide)
    | (intro x; refine Keeps.take (s := x) ?_ fun hx => ?_; rotate_left; clear_value x; rotate_left; unfold x; try lift_lets)
    | intro x

theorem State.sendData_keeps {s1 : State} {a1 a2 a3 a4 : Nat} (hF : Covers F [.eng]) (hs1 : Keeps F r s1) :
    Keeps F r (State.sendData s1 a1 a2 a3 a4) := by
  unfold State.sendData
  try lift_lets
  with_reducible repeat' first
    | exact .inr (hF.one (by decide)) | exact .inl rfl | rfl | (refine Keeps.ite ?_ ?_) <;> try lift_lets | assumption
    | apply State.bumpSeq_keeps | apply State.setRun_keeps | apply State.putPly_keeps | apply State.storePly_keeps
    | (split <;> try lift_lets) | (refine Covers.sub hF ?_; decide)
    | (intro x; refine Keeps.take (s := x) ?_ fun hx => ?_; rotate_left; clear_value x; rotate_left; unfold x; try lift_lets)
    | intro x | refine Keeps.of_eq ?_ ?_ ?_ ?_ ?_ ?_ ?_ ?_ ?_ ?_ ?_ ?_ ?_ ?_ ?_ ?_ ?_

theorem State.sendDataReplay_keeps {s1 : State} {a1 a2 a3 : Nat} {a4 : Ply} (hF : Covers F [.eng]) (hs1 : Keeps F r s1) :
    Keeps F r (State.sendDataReplay s1 a1 a2 a3 a4) := by
  unfold State.sendDataReplay
  try lift_lets
  with_reducible repeat' first
    | exact .inr (hF.one (by decide)) | exact .inl rfl | rfl | assumption | apply State.setRun_keeps
    | apply State.putPly_keeps | (split <;> try lift_lets) | (refine Covers.sub hF ?_; decide)
    | (intro x; refine Keeps.take (s := x) ?_ fun hx => ?_; rotate_left; clear_value x; rotate_left; unfold x; try lift_lets)
    | intro x | refine Keeps.of_eq ?_ ?_ ?_ ?_ ?_ ?_ ?_ ?_ ?_ ?_ ?_ ?_ ?_ ?_ ?_ ?_ ?_

theorem State.sendEvent_keeps {s1 : State} {a1 a2 a3 : Nat} (hF : Covers F [.eng]) (hs1 : Keeps F r s1) :
    Keeps F r (State.sendEvent s1 a1 a2 a3) := by
  unfold State.sendEvent
  try lift_lets
  with_reducible repeat' first
    | exact .inr (hF.one (by decide)) | exact .inl rfl | rfl | (refine Keeps.ite ?_ ?_) <;> try lift_lets | assumption
    | apply State.setRun_keeps | apply State.putPly_keeps | apply State.storePly_keeps | apply State.bumpSeq_keeps
    | (split <;> try lift_lets) | (refine Covers.sub hF ?_; decide)
    | (intro x; refine Keeps.take (s := x) ?_ fun hx => ?_; rotate_left; clear_value x; rotate_left; unfold x; try lift_lets)
    | intro x | refine Keeps.of_eq ?_ ?_ ?_ ?_ ?_ ?_ ?_ ?_ ?_ ?_ ?_ ?_ ?_ ?_ ?_ ?_ ?_

theorem State.sendNextEvent_keeps {s1 : State} {a1 a2 a3 : Nat} {a4 : Ply} {a5 : List Ply} (hF : Covers F [.eng])
    (hs1 : Keeps F r s1) : Keeps F r (State.sendNextEvent s1 a1 a2 a3 a4 a5) := by
  unfold State.sendNextEvent
  try lift_lets
  with_reducible repeat' first
    | assumption | apply State.putPly_keeps | apply State.storePly_keeps | apply State.bumpSeq_keeps
    | apply State.setLink_keeps | (refine Covers.sub hF ?_; decide)
    | (intro x; refine Keeps.take (s := x) ?_ fun hx => ?_; rotate_left; clear_value x; rotate_left; unfold x; try lift_lets)
    | intro x

theorem State.transmitData_keeps {s1 : State} {a1 a2 a3 : Nat} (hF : Covers F [.eng]) (hs1 : Keeps F r s1) :
    Keeps F r (State.transmitData s1 a1 a2 a3) := by
  unfold State.transmitData
  with_reducible repeat' first
    | exact .inr (hF.one (by decide)) | exact .inl rfl | rfl | (refine Keeps.ite ?_ ?_) | assumption
    | apply State.sendDataReplay_keeps | apply State.setLink_keeps | apply State.sendData_keeps | split
    | (refine Covers.sub hF ?_; decide) | refine Keeps.of_eq ?_ ?_ ?_ ?_ ?_ ?_ ?_ ?_ ?_ ?_ ?_ ?_ ?_ ?_ ?_ ?_ ?_

theorem State.transmitEvents_keeps {s1 : State} {a1 a2 a3 : Nat} {a4 : Bool} (hF : Covers F [.eng]) (hs1 : Keeps F r s1) :
    Keeps F r (State.transmitEvents s1 a1 a2 a3 a4) := by
  unfold State.transmitEvents
  with_reducible repeat' first
    | exact .inr (hF.one (by decide)) | exact .inl rfl | rfl | (refine Keeps.ite ?_ ?_) | assumption
    | apply State.sendNextEvent_keeps | apply State.sendEvent_keeps | apply State.transmitData_keeps | split
    | (refine Covers.sub hF ?_; decide) | refine Keeps.of_eq ?_ ?_ ?_ ?_ ?_ ?_ ?_ ?_ ?_ ?_ ?_ ?_ ?_ ?_ ?_ ?_ ?_

theorem State.transmitDue_keeps {s1 : State} {a1 a2 a3 : Nat} {a4 : Bool} (hF : Covers F [.eng]) (hs1 : Keeps F r s1) :
    Keeps F r (State.transmitDue s1 a1 a2 a3 a4) := by
  unfold State.transmitDue
  try lift_lets
  with_reducible repeat' first
    | (refine Keeps.ite ?_ ?_) <;> try lift_lets | assumption | apply State.putPly_keeps | apply State.setLink_keeps
    | apply State.transmitEvents_keeps | (refine Covers.sub hF ?_; decide)
    | (intro x; refine Keeps.take (s := x) ?_ fun hx => ?_; rotate_left; clear_value x; rotate_left; unfold x; try lift_lets)
    | intro x

theorem State.transmit_keeps {s1 : State} {a1 a2 a3 : Nat} (hF : Covers F [.eng]) (hs1 : Keeps F r s1) :
    Keeps F r (State.transmit s1 a1 a2 a3) := by
  unfold State.transmit
  try lift_lets
  with_reducible repeat' first
    | exact .inr (hF.one (by decide)) | exact .inl rfl | rfl | (refine Keeps.ite ?_ ?_) <;> try lift_lets | assumption
    | apply State.sendAbort_keeps | apply State.putPly_keeps | apply State.storePly_keeps | apply State.setLink_keeps
    | apply State.transmitDue_keeps | (split <;> try lift_lets) | (refine Covers.sub hF ?_; decide)
    | (intro x; refine Keeps.take (s := x) ?_ fun hx => ?_; rotate_left; clear_value x; rotate_left; unfold x; try lift_lets)
    | intro x | refine Keeps.of_eq ?_ ?_ ?_ ?_ ?_ ?_ ?_ ?_ ?_ ?_ ?_ ?_ ?_ ?_ ?_ ?_ ?_

theorem execAccept_keeps {a0 : Nat} {s2 : State} (hF : Covers F [.ic, .eng, .light]) (hs2 : Keeps F r s2) :
    KeepsOut F r (execAccept a0 s2) := by
  unfold execAccept
  with_reducible repeat' first
    | exact .inr (hF.one (by decide)) | exact .inl rfl | rfl | (refine KeepsOut.ite ?_ ?_) | (refine Keeps.ite ?_ ?_)
    | assumption | apply State.setup_keeps | apply State.enterConfig_keeps | apply State.acceptIdent_keeps
    | refine Keeps.next ?_ | split | (refine Covers.sub hF ?_; decide)
    | (refine fun x (hx : Keeps F r x) => ?_; try lift_lets)
    | (intro x; refine Keeps.take (s := x) ?_ fun hx => ?_; rotate_left; clear_value x; rotate_left; unfold x; try lift_lets)
    | intro x | refine Keeps.of_eq ?_ ?_ ?_ ?_ ?_ ?_ ?_ ?_ ?_ ?_ ?_ ?_ ?_ ?_ ?_ ?_ ?_

theorem execAck_keeps {a0 a1 : Nat} {s3 : State} (hF : Covers F [.eng]) (hs3 : Keeps F r s3) :
    KeepsOut F r (execAck a0 a1 s3) := by
  unfold execAck
  try lift_lets
  with_reducible repeat' first
    | assumption | apply State.message_keeps | apply State.setLink_keeps | refine Keeps.next ?_
    | (refine Covers.sub hF ?_; decide) | (refine fun x (hx : Keeps F r x) => ?_; try lift_lets)
    | (intro x; refine Keeps.take (s := x) ?_ fun hx => ?_; rotate_left; clear_value x; rotate_left; unfold x; try lift_lets)
    | intro x

theorem execBadRecord_keeps {a0 a1 a2 : Nat} {s4 : State} (hF : Covers F [.eng]) (hs4 : Keeps F r s4) :
    KeepsOut F r (execBadRecord a0 a1 a2 s4) := by
  unfold execBadRecord
  with_reducible repeat' first
    | (refine KeepsOut.ite ?_ ?_) | (refine Keeps.ite ?_ ?_) | assumption | apply State.event_keeps | apply State.bump_keeps
    | refine Keeps.next ?_ | (refine Covers.sub hF ?_; decide) | (refine fun x (hx : Keeps F r x) => ?_; try lift_lets)
    | (intro x; refine Keeps.take (s := x) ?_ fun hx => ?_; rotate_left; clear_value x; rotate_left; unfold x; try lift_lets)
    | intro x

theorem execBandParked_keeps {a0 a1 a2 : Nat} {s4 : State} (hF : Covers F [.ic, .sig, .eng]) (hs4 : Keeps F r s4) :
    KeepsOut F r (execBandParked a0 a1 a2 s4) := by
  unfold execBandParked
  try lift_lets
  with_reducible repeat' first
    | (refine KeepsOut.ite ?_ ?_) <;> try lift_lets | (refine Keeps.ite ?_ ?_) <;> try lift_lets | assumption
    | apply State.event_keeps | apply State.bump_keeps | apply State.countBlank_keeps | apply State.setRun_keeps
    | apply State.parkLast_keeps | refine Keeps.next ?_ | (refine Covers.sub hF ?_; decide)
    | (refine fun x (hx : Keeps F r x) => ?_; try lift_lets)
    | (intro x; refine Keeps.take (s := x) ?_ fun hx => ?_; rotate_left; clear_value x; rotate_left; unfold x; try lift_lets)
    | intro x

theorem execConfigOk_keeps {a0 a1 : Nat} {s3 : State} (hF : Covers F [.ic, .eng]) (hs3 : Keeps F r s3) :
    KeepsOut F r (execConfigOk a0 a1 s3) := by
  unfold execConfigOk
  with_reducible repeat' first
    | (refine KeepsOut.ite ?_ ?_) | (refine Keeps.ite ?_ ?_) | assumption | apply State.event_keeps
    | apply State.setLinkState_keeps | apply State.setLink_keeps | refine Keeps.next ?_ | (refine Covers.sub hF ?_; decide)
    | (refine fun x (hx : Keeps F r x) => ?_; try lift_lets)
    | (intro x; refine Keeps.take (s := x) ?_ fun hx => ?_; rotate_left; clear_value x; rotate_left; unfold x; try lift_lets)
    | intro x

theorem execConfigReject_keeps {a0 a1 a2 : Nat} {s4 : State} (hF : Covers F [.ic, .eng, .light]) (hs4 : Keeps F r s4) :
    KeepsOut F r (execConfigReject a0 a1 a2 s4) := by
  unfold execConfigReject
  with_reducible repeat' first
    | (refine KeepsOut.ite ?_ ?_) | (refine Keeps.ite ?_ ?_) | assumption | apply State.event_keeps
    | apply State.holdLink_keeps | refine Keeps.next ?_ | (refine Covers.sub hF ?_; decide)
    | (refine fun x (hx : Keeps F r x) => ?_; try lift_lets)
    | (intro x; refine Keeps.take (s := x) ?_ fun hx => ?_; rotate_left; clear_value x; rotate_left; unfold x; try lift_lets)
    | intro x

theorem execCrcEcho_keeps {a0 a1 a2 : Nat} {s4 : State} (hF : Covers F [.hif, .ic, .sig, .obj, .eng, .light])
    (hs4 : Keeps F r s4) : KeepsOut F r (execCrcEcho a0 a1 a2 s4) := by
  unfold execCrcEcho
  try lift_lets
  with_reducible repeat' first
    | exact .inr (hF.one (by decide)) | exact .inl rfl | rfl | (refine KeepsOut.ite ?_ ?_) <;> try lift_lets
    | (refine Keeps.ite ?_ ?_) <;> try lift_lets | assumption | apply State.message_keeps | apply State.bump_keeps
    | apply State.setCrcs_keeps | apply State.error_keeps | apply State.raise_keeps | apply State.postPlaneCrc_keeps
    | refine Keeps.next ?_ | (split <;> try lift_lets) | (refine Covers.sub hF ?_; decide)
    | (refine fun x (hx : Keeps F r x) => ?_; try lift_lets)
    | (intro x; refine Keeps.take (s := x) ?_ fun hx => ?_; rotate_left; clear_value x; rotate_left; unfold x; try lift_lets)
    | intro x | refine Keeps.of_eq ?_ ?_ ?_ ?_ ?_ ?_ ?_ ?_ ?_ ?_ ?_ ?_ ?_ ?_ ?_ ?_ ?_

theorem execCrcEchoMissing_keeps {a0 : Nat} {s2 : State} (hF : Covers F [.hif, .ic, .sig, .obj, .eng, .light])
    (hs2 : Keeps F r s2) : KeepsOut F r (execCrcEchoMissing a0 s2) := by
  unfold execCrcEchoMissing
  try lift_lets
  with_reducible repeat' first
    | exact .inr (hF.one (by decide)) | exact .inl rfl | rfl | (refine KeepsOut.ite ?_ ?_) <;> try lift_lets
    | (refine Keeps.ite ?_ ?_) <;> try lift_lets | assumption | apply State.inService_keeps | apply State.setCrcs_keeps
    | apply State.error_keeps | apply State.postPlaneCrc_keeps | apply State.bump_keeps | refine Keeps.next ?_
    | (split <;> try lift_lets) | (refine Covers.sub hF ?_; decide) | (refine fun x (hx : Keeps F r x) => ?_; try lift_lets)
    | (intro x; refine Keeps.take (s := x) ?_ fun hx => ?_; rotate_left; clear_value x; rotate_left; unfold x; try lift_lets)
    | intro x | refine Keeps.of_eq ?_ ?_ ?_ ?_ ?_ ?_ ?_ ?_ ?_ ?_ ?_ ?_ ?_ ?_ ?_ ?_ ?_

theorem execDarkTimer_keeps {a0 a1 : Nat} {s3 : State} (hF : Covers F [.ic, .eng, .light]) (hs3 : Keeps F r s3) :
    KeepsOut F r (execDarkTimer a0 a1 s3) := by
  unfold execDarkTimer
  with_reducible repeat' first
    | (refine KeepsOut.ite ?_ ?_) | (refine Keeps.ite ?_ ?_) | assumption | apply State.event_keeps
    | apply State.train_keeps | refine Keeps.next ?_ | (refine Covers.sub hF ?_; decide)
    | (refine fun x (hx : Keeps F r x) => ?_; try lift_lets)
    | (intro x; refine Keeps.take (s := x) ?_ fun hx => ?_; rotate_left; clear_value x; rotate_left; unfold x; try lift_lets)
    | intro x

theorem execEngineMsg_keeps {a0 a1 : Nat} {s3 : State} (hF : Covers F [.ic, .eng]) (hs3 : Keeps F r s3) :
    KeepsOut F r (execEngineMsg a0 a1 s3) := by
  unfold execEngineMsg
  with_reducible repeat' first
    | (refine KeepsOut.ite ?_ ?_) | (refine Keeps.ite ?_ ?_) | assumption | apply State.event_keeps
    | apply State.msgDoorbell_keeps | apply State.bump_keeps | refine Keeps.next ?_ | (refine Covers.sub hF ?_; decide)
    | (refine fun x (hx : Keeps F r x) => ?_; try lift_lets)
    | (intro x; refine Keeps.take (s := x) ?_ fun hx => ?_; rotate_left; clear_value x; rotate_left; unfold x; try lift_lets)
    | intro x

theorem execHello_keeps {a0 a1 : Nat} {s3 : State} (hF : Covers F [.eng]) (hs3 : Keeps F r s3) :
    KeepsOut F r (execHello a0 a1 s3) := by
  unfold execHello
  try lift_lets
  with_reducible repeat' first
    | (refine KeepsOut.ite ?_ ?_) <;> try lift_lets | (refine Keeps.ite ?_ ?_) <;> try lift_lets | assumption
    | apply State.inService_keeps | apply State.setLink_keeps | refine Keeps.next ?_ | (refine Covers.sub hF ?_; decide)
    | (refine fun x (hx : Keeps F r x) => ?_; try lift_lets)
    | (intro x; refine Keeps.take (s := x) ?_ fun hx => ?_; rotate_left; clear_value x; rotate_left; unfold x; try lift_lets)
    | intro x

theorem execIdent_keeps {a0 a1 : Nat} {s3 : State} (hF : Covers F [.ic, .eng, .light]) (hs3 : Keeps F r s3) :
    KeepsOut F r (execIdent a0 a1 s3) := by
  unfold execIdent
  try lift_lets
  with_reducible repeat' first
    | exact .inr (hF.one (by decide)) | exact .inl rfl | rfl | (refine KeepsOut.ite ?_ ?_) <;> try lift_lets
    | (refine Keeps.ite ?_ ?_) <;> try lift_lets | assumption | apply State.message_keeps | apply State.holdLink_keeps
    | apply State.setLink_keeps | apply State.setLinkState_keeps | apply State.acceptIdent_keeps | refine Keeps.next ?_
    | (split <;> try lift_lets) | (refine Covers.sub hF ?_; decide) | (refine fun x (hx : Keeps F r x) => ?_; try lift_lets)
    | (intro x; refine Keeps.take (s := x) ?_ fun hx => ?_; rotate_left; clear_value x; rotate_left; unfold x; try lift_lets)
    | intro x | refine Keeps.of_eq ?_ ?_ ?_ ?_ ?_ ?_ ?_ ?_ ?_ ?_ ?_ ?_ ?_ ?_ ?_ ?_ ?_

theorem execKeepalive_keeps {a0 a1 : Nat} {s3 : State} (hF : Covers F [.eng]) (hs3 : Keeps F r s3) :
    KeepsOut F r (execKeepalive a0 a1 s3) := by
  unfold execKeepalive
  try lift_lets
  with_reducible repeat' first
    | (refine KeepsOut.ite ?_ ?_) <;> try lift_lets | (refine Keeps.ite ?_ ?_) <;> try lift_lets | assumption
    | apply State.inService_keeps | apply State.setLink_keeps | refine Keeps.next ?_ | (refine Covers.sub hF ?_; decide)
    | (refine fun x (hx : Keeps F r x) => ?_; try lift_lets)
    | (intro x; refine Keeps.take (s := x) ?_ fun hx => ?_; rotate_left; clear_value x; rotate_left; unfold x; try lift_lets)
    | intro x

theorem execLate_keeps {a0 a1 : Nat} {s3 : State} (hF : Covers F [.eng]) (hs3 : Keeps F r s3) :
    KeepsOut F r (execLate a0 a1 s3) := by
  unfold execLate
  with_reducible repeat' first
    | assumption | apply State.event_keeps | apply State.bump_keeps | refine Keeps.next ?_
    | (refine Covers.sub hF ?_; decide) | (refine fun x (hx : Keeps F r x) => ?_; try lift_lets)
    | (intro x; refine Keeps.take (s := x) ?_ fun hx => ?_; rotate_left; clear_value x; rotate_left; unfold x; try lift_lets)
    | intro x

theorem execLsafeClose_keeps {s1 : State} (hF : Covers F [.eng, .pwr]) (hs1 : Keeps F r s1) :
    KeepsOut F r (execLsafeClose s1) := by
  unfold execLsafeClose
  try lift_lets
  with_reducible repeat' first
    | exact .inr (hF.one (by decide)) | exact .inl rfl | rfl | (refine KeepsOut.ite ?_ ?_) <;> try lift_lets
    | (refine Keeps.ite ?_ ?_) <;> try lift_lets | assumption | apply State.wr_keeps | refine Keeps.next ?_
    | (refine Covers.sub hF ?_; decide)
    | (intro x; refine Keeps.take (s := x) ?_ fun hx => ?_; rotate_left; clear_value x; rotate_left; unfold x; try lift_lets)
    | intro x | refine Keeps.of_eq ?_ ?_ ?_ ?_ ?_ ?_ ?_ ?_ ?_ ?_ ?_ ?_ ?_ ?_ ?_ ?_ ?_

theorem execLsafeOpen_keeps {s1 : State} (hF : Covers F [.ic, .eng, .pwr]) (hs1 : Keeps F r s1) :
    KeepsOut F r (execLsafeOpen s1) := by
  unfold execLsafeOpen
  try lift_lets
  with_reducible repeat' first
    | exact .inr (hF.one (by decide)) | exact .inl rfl | rfl | (refine KeepsOut.ite ?_ ?_) <;> try lift_lets
    | (refine Keeps.ite ?_ ?_) <;> try lift_lets | assumption | apply State.wr_keeps | apply State.bump_keeps
    | apply State.withdrawPermit_keeps | apply State.showAwait_keeps | refine Keeps.next ?_
    | (refine Covers.sub hF ?_; decide)
    | (intro x; refine Keeps.take (s := x) ?_ fun hx => ?_; rotate_left; clear_value x; rotate_left; unfold x; try lift_lets)
    | intro x | refine Keeps.of_eq ?_ ?_ ?_ ?_ ?_ ?_ ?_ ?_ ?_ ?_ ?_ ?_ ?_ ?_ ?_ ?_ ?_

theorem execLsafeRelease_keeps {s1 : State} (hF : Covers F [.eng]) (hs1 : Keeps F r s1) :
    KeepsOut F r (execLsafeRelease s1) := by
  unfold execLsafeRelease
  try lift_lets
  with_reducible repeat' first
    | exact .inr (hF.one (by decide)) | exact .inl rfl | rfl | (refine KeepsOut.ite ?_ ?_) <;> try lift_lets
    | (refine Keeps.ite ?_ ?_) <;> try lift_lets | assumption | apply State.setup_keeps | apply State.showAwait_keeps
    | refine Keeps.next ?_ | (refine Covers.sub hF ?_; decide) | (refine fun x (hx : Keeps F r x) => ?_; try lift_lets)
    | (intro x; refine Keeps.take (s := x) ?_ fun hx => ?_; rotate_left; clear_value x; rotate_left; unfold x; try lift_lets)
    | intro x | refine Keeps.of_eq ?_ ?_ ?_ ?_ ?_ ?_ ?_ ?_ ?_ ?_ ?_ ?_ ?_ ?_ ?_ ?_ ?_

theorem execNak_keeps {a0 a1 : Nat} {s3 : State} (hF : Covers F [.hif, .ic, .sig, .obj, .eng, .light])
    (hs3 : Keeps F r s3) : KeepsOut F r (execNak a0 a1 s3) := by
  unfold execNak
  with_reducible repeat' first
    | assumption | apply State.message_keeps | apply State.nak_keeps | apply State.bump_keeps | refine Keeps.next ?_
    | (refine Covers.sub hF ?_; decide) | (refine fun x (hx : Keeps F r x) => ?_; try lift_lets)
    | (intro x; refine Keeps.take (s := x) ?_ fun hx => ?_; rotate_left; clear_value x; rotate_left; unfold x; try lift_lets)
    | intro x

theorem execPlyTransmit_keeps {a0 a1 : Nat} {s3 : State} (hF : Covers F [.eng]) (hs3 : Keeps F r s3) :
    KeepsOut F r (execPlyTransmit a0 a1 s3) := by
  unfold execPlyTransmit
  try lift_lets
  with_reducible repeat' first
    | (refine KeepsOut.ite ?_ ?_) <;> try lift_lets | (refine Keeps.ite ?_ ?_) <;> try lift_lets | assumption
    | apply State.inService_keeps | apply State.transmit_keeps | refine Keeps.next ?_ | (refine Covers.sub hF ?_; decide)
    | (refine fun x (hx : Keeps F r x) => ?_; try lift_lets)
    | (intro x; refine Keeps.take (s := x) ?_ fun hx => ?_; rotate_left; clear_value x; rotate_left; unfold x; try lift_lets)
    | intro x

theorem execRetrain_keeps {a0 : Nat} {s2 : State} (hF : Covers F [.ic, .eng, .light]) (hs2 : Keeps F r s2) :
    KeepsOut F r (execRetrain a0 s2) := by
  unfold execRetrain
  with_reducible repeat' first
    | (refine KeepsOut.ite ?_ ?_) | (refine Keeps.ite ?_ ?_) | assumption | apply State.setup_keeps
    | apply State.train_keeps | refine Keeps.next ?_ | (refine Covers.sub hF ?_; decide)
    | (refine fun x (hx : Keeps F r x) => ?_; try lift_lets)
    | (intro x; refine Keeps.take (s := x) ?_ fun hx => ?_; rotate_left; clear_value x; rotate_left; unfold x; try lift_lets)
    | intro x

theorem execReturnStrandLock_keeps {a0 : Nat} {a1 : Bool} {s3 : State} (hs3 : Keeps F r s3) :
    KeepsOut F r (execReturnStrandLock a0 a1 s3) := by
  unfold execReturnStrandLock
  with_reducible repeat' first
    | (refine KeepsOut.ite ?_ ?_) | (refine Keeps.ite ?_ ?_) | assumption | apply State.inService_keeps
    | apply State.wr_keeps | refine Keeps.next ?_ | (refine fun x (hx : Keeps F r x) => ?_; try lift_lets)
    | (intro x; refine Keeps.take (s := x) ?_ fun hx => ?_; rotate_left; clear_value x; rotate_left; unfold x; try lift_lets)
    | intro x

theorem execReturnStrandLost_keeps {a0 : Nat} {s2 : State} (hF : Covers F [.ic, .eng, .light]) (hs2 : Keeps F r s2) :
    KeepsOut F r (execReturnStrandLost a0 s2) := by
  unfold execReturnStrandLost
  try lift_lets
  with_reducible repeat' first
    | (refine KeepsOut.ite ?_ ?_) <;> try lift_lets | (refine Keeps.ite ?_ ?_) <;> try lift_lets | assumption
    | apply State.inService_keeps | apply State.setPort_keeps | apply State.bump_keeps | apply State.raise_keeps
    | apply State.train_keeps | (refine Keeps.foldl (fun _ _ _ => ?_) ?_) <;> try lift_lets | refine Keeps.next ?_
    | (refine Covers.sub hF ?_; decide) | (refine fun x (hx : Keeps F r x) => ?_; try lift_lets)
    | (intro x; refine Keeps.take (s := x) ?_ fun hx => ?_; rotate_left; clear_value x; rotate_left; unfold x; try lift_lets)
    | intro x

theorem execRsBadMessage_keeps {a0 a1 : Nat} {s3 : State} (hs3 : Keeps F r s3) :
    KeepsOut F r (execRsBadMessage a0 a1 s3) := by
  unfold execRsBadMessage
  with_reducible repeat' first
    | exact .inl rfl | rfl | (refine KeepsOut.ite ?_ ?_) | (refine Keeps.ite ?_ ?_) | assumption
    | apply State.inService_keeps | apply State.bump_keeps | refine Keeps.next ?_ | split
    | (refine fun x (hx : Keeps F r x) => ?_; try lift_lets)
    | (intro x; refine Keeps.take (s := x) ?_ fun hx => ?_; rotate_left; clear_value x; rotate_left; unfold x; try lift_lets)
    | intro x | refine Keeps.of_eq ?_ ?_ ?_ ?_ ?_ ?_ ?_ ?_ ?_ ?_ ?_ ?_ ?_ ?_ ?_ ?_ ?_

theorem execRsStatus_keeps {a0 a1 a2 a3 : Nat} {s5 : State} (hF : Covers F [.ic, .eng, .light]) (hs5 : Keeps F r s5) :
    KeepsOut F r (execRsStatus a0 a1 a2 a3 s5) := by
  unfold execRsStatus
  try lift_lets
  with_reducible repeat' first
    | (refine KeepsOut.ite ?_ ?_) <;> try lift_lets | (refine Keeps.ite ?_ ?_) <;> try lift_lets | assumption
    | apply State.message_keeps | apply State.wrs_keeps | apply State.setLink_keeps | apply State.setEngine_keeps
    | apply State.setLinkState_keeps | apply State.train_keeps | refine Keeps.next ?_ | (refine Covers.sub hF ?_; decide)
    | (refine fun x (hx : Keeps F r x) => ?_; try lift_lets)
    | (intro x; refine Keeps.take (s := x) ?_ fun hx => ?_; rotate_left; clear_value x; rotate_left; unfold x; try lift_lets)
    | intro x

theorem execSensor_keeps {a0 a1 a2 a3 a4 : Nat} {s6 : State} (hF : Covers F [.eng, .light]) (hs6 : Keeps F r s6) :
    KeepsOut F r (execSensor a0 a1 a2 a3 a4 s6) := by
  unfold execSensor
  with_reducible repeat' first
    | assumption | apply State.message_keeps | apply State.sensorMsg_keeps | refine Keeps.next ?_
    | (refine Covers.sub hF ?_; decide) | (refine fun x (hx : Keeps F r x) => ?_; try lift_lets)
    | (intro x; refine Keeps.take (s := x) ?_ fun hx => ?_; rotate_left; clear_value x; rotate_left; unfold x; try lift_lets)
    | intro x

theorem execSkeinNoAnswer_keeps {a0 : Nat} {s2 : State} (hF : Covers F [.ic, .eng, .light]) (hs2 : Keeps F r s2) :
    KeepsOut F r (execSkeinNoAnswer a0 s2) := by
  unfold execSkeinNoAnswer
  try lift_lets
  with_reducible repeat' first
    | (refine KeepsOut.ite ?_ ?_) <;> try lift_lets | (refine Keeps.ite ?_ ?_) <;> try lift_lets | assumption
    | apply State.inService_keeps | apply State.train_keeps | refine Keeps.next ?_ | (refine Covers.sub hF ?_; decide)
    | (refine fun x (hx : Keeps F r x) => ?_; try lift_lets)
    | (intro x; refine Keeps.take (s := x) ?_ fun hx => ?_; rotate_left; clear_value x; rotate_left; unfold x; try lift_lets)
    | intro x

theorem execSknPortEnable_keeps {a0 : Nat} {a1 : Word} {s3 : State} (hF : Covers F [.ic, .eng, .light])
    (hs3 : Keeps F r s3) : KeepsOut F r (execSknPortEnable a0 a1 s3) := by
  unfold execSknPortEnable
  try lift_lets
  with_reducible repeat' first
    | (refine KeepsOut.ite ?_ ?_) <;> try lift_lets | (refine Keeps.ite ?_ ?_) <;> try lift_lets | assumption
    | apply State.setup_keeps | apply State.wrs_keeps | apply State.train_keeps | apply State.linkOff_keeps
    | (refine Keeps.foldl (fun _ _ _ => ?_) ?_) <;> try lift_lets | refine Keeps.next ?_ | (refine Covers.sub hF ?_; decide)
    | (refine fun x (hx : Keeps F r x) => ?_; try lift_lets)
    | (intro x; refine Keeps.take (s := x) ?_ fun hx => ?_; rotate_left; clear_value x; rotate_left; unfold x; try lift_lets)
    | intro x

theorem execString_keeps {a0 a1 a2 a3 a4 a5 a6 : Nat} {s8 : State} (hF : Covers F [.ic, .eng, .light])
    (hs8 : Keeps F r s8) : KeepsOut F r (execString a0 a1 a2 a3 a4 a5 a6 s8) := by
  unfold execString
  with_reducible repeat' first
    | assumption | apply State.message_keeps | apply State.stringMsg_keeps | refine Keeps.next ?_
    | (refine Covers.sub hF ?_; decide) | (refine fun x (hx : Keeps F r x) => ?_; try lift_lets)
    | (intro x; refine Keeps.take (s := x) ?_ fun hx => ?_; rotate_left; clear_value x; rotate_left; unfold x; try lift_lets)
    | intro x

theorem execTemp_keeps {a0 a1 a2 a3 a4 : Nat} {s6 : State} (hF : Covers F [.eng, .light]) (hs6 : Keeps F r s6) :
    KeepsOut F r (execTemp a0 a1 a2 a3 a4 s6) := by
  unfold execTemp
  with_reducible repeat' first
    | assumption | apply State.message_keeps | apply State.tempMsg_keeps | refine Keeps.next ?_
    | (refine Covers.sub hF ?_; decide) | (refine fun x (hx : Keeps F r x) => ?_; try lift_lets)
    | (intro x; refine Keeps.take (s := x) ?_ fun hx => ?_; rotate_left; clear_value x; rotate_left; unfold x; try lift_lets)
    | intro x

end Sys2Proof.Machine
end

