-- ==== Sys2Proof/Laws/Keeps/Flyer.lean ====
section
/-! SUPPORT. What every command keeps, operation by operation: those of Machine/Flyer.lean. -/

namespace Sys2Proof.Machine

variable {F : List Part} {r : State}

theorem State.beginRun_keeps {s1 : State} {a1 : Nat} {a2 : Option TwistTable} {a3 : List NotchRun} (hF : Covers F [.eng])
    (hs1 : Keeps F r s1) : Keeps F r (State.beginRun s1 a1 a2 a3) := by
  unfold State.beginRun
  try lift_lets
  with_reducible repeat' first
    | exact .inr (hF.one (by decide)) | exact .inl rfl | rfl | assumption | apply State.showLit_keeps
    | apply State.setEngine_keeps | (split <;> try lift_lets) | (refine Covers.sub hF ?_; decide)
    | (intro x; refine Keeps.take (s := x) ?_ fun hx => ?_; rotate_left; clear_value x; rotate_left; unfold x; try lift_lets)
    | intro x | refine Keeps.of_eq ?_ ?_ ?_ ?_ ?_ ?_ ?_ ?_ ?_ ?_ ?_ ?_ ?_ ?_ ?_ ?_ ?_

theorem State.blankOne_keeps {s1 : State} {a1 a2 a3 : Nat} (hF : Covers F [.ic, .eng]) (hs1 : Keeps F r s1) :
    Keeps F r (State.blankOne s1 a1 a2 a3) := by
  unfold State.blankOne
  try lift_lets
  with_reducible repeat' first
    | exact .inr (hF.one (by decide)) | exact .inl rfl | rfl | (refine Keeps.ite ?_ ?_) <;> try lift_lets | assumption
    | apply State.setRun_keeps | apply State.setLink_keeps | apply State.countBlank_keeps | apply State.queueBlank_keeps
    | (refine Covers.sub hF ?_; decide)
    | (intro x; refine Keeps.take (s := x) ?_ fun hx => ?_; rotate_left; clear_value x; rotate_left; unfold x; try lift_lets)
    | intro x | refine Keeps.of_eq ?_ ?_ ?_ ?_ ?_ ?_ ?_ ?_ ?_ ?_ ?_ ?_ ?_ ?_ ?_ ?_ ?_

theorem State.decide__keeps {s1 : State} {a1 a2 : Nat} (hF : Covers F [.ic, .eng]) (hs1 : Keeps F r s1) :
    Keeps F r (State.decide_ s1 a1 a2) := by
  unfold State.decide_
  with_reducible repeat' first
    | exact .inr (hF.one (by decide)) | exact .inl rfl | rfl | (refine Keeps.ite ?_ ?_) | assumption
    | apply State.blankOne_keeps | (refine Keeps.foldl (fun _ _ _ => ?_) ?_) | split | (refine Covers.sub hF ?_; decide)
    | refine Keeps.of_eq ?_ ?_ ?_ ?_ ?_ ?_ ?_ ?_ ?_ ?_ ?_ ?_ ?_ ?_ ?_ ?_ ?_

theorem State.notePeak_keeps {s1 : State} {a1 : Nat} (hs1 : Keeps F r s1) : Keeps F r (State.notePeak s1 a1) := by
  unfold State.notePeak
  with_reducible repeat' first
    | assumption | apply State.wr_keeps

theorem State.egress_keeps {s1 : State} {a1 a2 : Nat} {a3 : List Byte} {a4 : Nat} (hF : Covers F [.eng])
    (hs1 : Keeps F r s1) : Keeps F r (State.egress s1 a1 a2 a3 a4) := by
  unfold State.egress
  try lift_lets
  with_reducible repeat' first
    | (refine Keeps.ite ?_ ?_) <;> try lift_lets | assumption | apply State.notePeak_keeps | apply State.setRun_keeps
    | (refine Covers.sub hF ?_; decide)
    | (intro x; refine Keeps.take (s := x) ?_ fun hx => ?_; rotate_left; clear_value x; rotate_left; unfold x; try lift_lets)
    | intro x

theorem State.fetchBlock_keeps {s1 : State} {a1 a2 : Nat} {a3 : LoadRun} {a4 a5 : Nat} (hF : Covers F [.eng])
    (hs1 : Keeps F r s1) : Keeps F r (State.fetchBlock s1 a1 a2 a3 a4 a5) := by
  unfold State.fetchBlock
  try lift_lets
  with_reducible repeat' first
    | (refine Keeps.ite ?_ ?_) <;> try lift_lets | assumption | apply State.egress_keeps | apply State.countFenced_keeps
    | (refine Keeps.foldl (fun _ _ _ => ?_) ?_) <;> try lift_lets | (refine Covers.sub hF ?_; decide)
    | (intro x; refine Keeps.take (s := x) ?_ fun hx => ?_; rotate_left; clear_value x; rotate_left; unfold x; try lift_lets)
    | intro x

theorem State.showFly_keeps {s1 : State} {a1 : Nat} (hs1 : Keeps F r s1) : Keeps F r (State.showFly s1 a1) := by
  unfold State.showFly
  try lift_lets
  with_reducible repeat' first
    | exact .inl rfl | rfl | (refine Keeps.ite ?_ ?_) <;> try lift_lets | assumption | apply State.wrs_keeps
    | (refine Keeps.foldl (fun _ _ _ => ?_) ?_) <;> try lift_lets | (split <;> try lift_lets)
    | (intro x; refine Keeps.take (s := x) ?_ fun hx => ?_; rotate_left; clear_value x; rotate_left; unfold x; try lift_lets)
    | intro x | refine Keeps.of_eq ?_ ?_ ?_ ?_ ?_ ?_ ?_ ?_ ?_ ?_ ?_ ?_ ?_ ?_ ?_ ?_ ?_

theorem State.showTick_keeps {s1 : State} {a1 a2 : Nat} {a3 : Option Nat} {a4 : Bool} {a5 : Option (Nat × TwistTable)}
    (hs1 : Keeps F r s1) : Keeps F r (State.showTick s1 a1 a2 a3 a4 a5) := by
  unfold State.showTick
  try lift_lets
  with_reducible repeat' first
    | exact .inl rfl | rfl | (refine Keeps.ite ?_ ?_) <;> try lift_lets | assumption | apply State.wrs_keeps
    | (split <;> try lift_lets)
    | (intro x; refine Keeps.take (s := x) ?_ fun hx => ?_; rotate_left; clear_value x; rotate_left; unfold x; try lift_lets)
    | intro x | refine Keeps.of_eq ?_ ?_ ?_ ?_ ?_ ?_ ?_ ?_ ?_ ?_ ?_ ?_ ?_ ?_ ?_ ?_ ?_

theorem State.startSlot_keeps {s1 : State} {a1 a2 : Nat} {a3 : TwistSlot} (hF : Covers F [.ic, .eng])
    (hs1 : Keeps F r s1) : Keeps F r (State.startSlot s1 a1 a2 a3) := by
  unfold State.startSlot
  try lift_lets
  with_reducible repeat' first
    | (refine Keeps.ite ?_ ?_) <;> try lift_lets | assumption | apply State.decide__keeps | apply State.setRun_keeps
    | (refine Keeps.foldl (fun _ _ _ => ?_) ?_) <;> try lift_lets | (refine Covers.sub hF ?_; decide)
    | (intro x; refine Keeps.take (s := x) ?_ fun hx => ?_; rotate_left; clear_value x; rotate_left; unfold x; try lift_lets)
    | intro x

theorem execBandBlank_keeps {a0 a1 : Nat} {s3 : State} (hF : Covers F [.ic, .eng]) (hs3 : Keeps F r s3) :
    KeepsOut F r (execBandBlank a0 a1 s3) := by
  unfold execBandBlank
  try lift_lets
  with_reducible repeat' first
    | exact .inr (hF.one (by decide)) | exact .inl rfl | rfl | (refine KeepsOut.ite ?_ ?_) <;> try lift_lets
    | (refine Keeps.ite ?_ ?_) <;> try lift_lets | assumption | apply State.inService_keeps | apply State.decide__keeps
    | apply State.reach_keeps | refine Keeps.next ?_ | (split <;> try lift_lets) | (refine Covers.sub hF ?_; decide)
    | (refine fun x (hx : Keeps F r x) => ?_; try lift_lets)
    | (intro x; refine Keeps.take (s := x) ?_ fun hx => ?_; rotate_left; clear_value x; rotate_left; unfold x; try lift_lets)
    | intro x | refine Keeps.of_eq ?_ ?_ ?_ ?_ ?_ ?_ ?_ ?_ ?_ ?_ ?_ ?_ ?_ ?_ ?_ ?_ ?_

theorem execEgressFetch_keeps {a0 a1 : Nat} {s3 : State} (hF : Covers F [.eng]) (hs3 : Keeps F r s3) :
    KeepsOut F r (execEgressFetch a0 a1 s3) := by
  unfold execEgressFetch
  try lift_lets
  with_reducible repeat' first
    | exact .inr (hF.one (by decide)) | exact .inl rfl | rfl | (refine KeepsOut.ite ?_ ?_) <;> try lift_lets
    | (refine Keeps.ite ?_ ?_) <;> try lift_lets | assumption | apply State.inService_keeps | apply State.fetchBlock_keeps
    | refine Keeps.next ?_ | (split <;> try lift_lets) | (refine Covers.sub hF ?_; decide)
    | (refine fun x (hx : Keeps F r x) => ?_; try lift_lets)
    | (intro x; refine Keeps.take (s := x) ?_ fun hx => ?_; rotate_left; clear_value x; rotate_left; unfold x; try lift_lets)
    | intro x | refine Keeps.of_eq ?_ ?_ ?_ ?_ ?_ ?_ ?_ ?_ ?_ ?_ ?_ ?_ ?_ ?_ ?_ ?_ ?_

theorem execLoadStart_keeps {a0 : Nat} {s2 : State} (hF : Covers F [.ic, .eng]) (hs2 : Keeps F r s2) :
    KeepsOut F r (execLoadStart a0 s2) := by
  unfold execLoadStart
  try lift_lets
  with_reducible repeat' first
    | exact .inr (hF.one (by decide)) | exact .inl rfl | rfl | (refine KeepsOut.ite ?_ ?_) <;> try lift_lets
    | (refine Keeps.ite ?_ ?_) <;> try lift_lets | assumption | apply State.inService_keeps | apply State.reach_keeps
    | apply State.setRun_keeps | apply State.abortTick_keeps | refine Keeps.next ?_ | (split <;> try lift_lets)
    | (refine Covers.sub hF ?_; decide) | (refine fun x (hx : Keeps F r x) => ?_; try lift_lets)
    | (intro x; refine Keeps.take (s := x) ?_ fun hx => ?_; rotate_left; clear_value x; rotate_left; unfold x; try lift_lets)
    | intro x | refine Keeps.of_eq ?_ ?_ ?_ ?_ ?_ ?_ ?_ ?_ ?_ ?_ ?_ ?_ ?_ ?_ ?_ ?_ ?_

theorem execNotch_keeps {a0 : Nat} {s2 : State} (hF : Covers F [.eng]) (hs2 : Keeps F r s2) :
    KeepsOut F r (execNotch a0 s2) := by
  unfold execNotch
  try lift_lets
  with_reducible repeat' first
    | exact .inr (hF.one (by decide)) | exact .inl rfl | rfl | (refine KeepsOut.ite ?_ ?_) <;> try lift_lets
    | (refine Keeps.ite ?_ ?_) <;> try lift_lets | assumption | apply State.inService_keeps | apply State.reach_keeps
    | apply State.setRun_keeps | apply State.setEngine_keeps | apply State.bump_keeps | refine Keeps.next ?_
    | (split <;> try lift_lets) | (refine Covers.sub hF ?_; decide) | (refine fun x (hx : Keeps F r x) => ?_; try lift_lets)
    | (intro x; refine Keeps.take (s := x) ?_ fun hx => ?_; rotate_left; clear_value x; rotate_left; unfold x; try lift_lets)
    | intro x | refine Keeps.of_eq ?_ ?_ ?_ ?_ ?_ ?_ ?_ ?_ ?_ ?_ ?_ ?_ ?_ ?_ ?_ ?_ ?_

theorem execSlotStart_keeps {a0 : Nat} {s2 : State} (hF : Covers F [.ic, .eng]) (hs2 : Keeps F r s2) :
    KeepsOut F r (execSlotStart a0 s2) := by
  unfold execSlotStart
  try lift_lets
  with_reducible repeat' first
    | exact .inr (hF.one (by decide)) | exact .inl rfl | rfl | (refine KeepsOut.ite ?_ ?_) <;> try lift_lets
    | (refine Keeps.ite ?_ ?_) <;> try lift_lets | assumption | apply State.inService_keeps | apply State.startSlot_keeps
    | apply State.reach_keeps | refine Keeps.next ?_ | (split <;> try lift_lets) | (refine Covers.sub hF ?_; decide)
    | (refine fun x (hx : Keeps F r x) => ?_; try lift_lets)
    | (intro x; refine Keeps.take (s := x) ?_ fun hx => ?_; rotate_left; clear_value x; rotate_left; unfold x; try lift_lets)
    | intro x | refine Keeps.of_eq ?_ ?_ ?_ ?_ ?_ ?_ ?_ ?_ ?_ ?_ ?_ ?_ ?_ ?_ ?_ ?_ ?_

theorem execTableEnd_keeps {a0 : Nat} {s2 : State} (hF : Covers F [.eng]) (hs2 : Keeps F r s2) :
    KeepsOut F r (execTableEnd a0 s2) := by
  unfold execTableEnd
  try lift_lets
  with_reducible repeat' first
    | exact .inr (hF.one (by decide)) | exact .inl rfl | rfl | (refine KeepsOut.ite ?_ ?_) <;> try lift_lets
    | (refine Keeps.ite ?_ ?_) <;> try lift_lets | assumption | apply State.inService_keeps | apply State.reach_keeps
    | apply State.setRun_keeps | (refine Keeps.foldl (fun _ _ _ => ?_) ?_) <;> try lift_lets | refine Keeps.next ?_
    | (split <;> try lift_lets) | (refine Covers.sub hF ?_; decide) | (refine fun x (hx : Keeps F r x) => ?_; try lift_lets)
    | (intro x; refine Keeps.take (s := x) ?_ fun hx => ?_; rotate_left; clear_value x; rotate_left; unfold x; try lift_lets)
    | intro x | refine Keeps.of_eq ?_ ?_ ?_ ?_ ?_ ?_ ?_ ?_ ?_ ?_ ?_ ?_ ?_ ?_ ?_ ?_ ?_

theorem execTickGapEnd_keeps {s1 : State} (hF : Covers F [.ic, .eng]) (hs1 : Keeps F r s1) :
    KeepsOut F r (execTickGapEnd s1) := by
  unfold execTickGapEnd
  try lift_lets
  with_reducible repeat' first
    | exact .inr (hF.one (by decide)) | exact .inl rfl | rfl | (refine KeepsOut.ite ?_ ?_) <;> try lift_lets
    | (refine Keeps.ite ?_ ?_) <;> try lift_lets | assumption | apply State.inService_keeps | apply State.reach_keeps
    | apply State.setRun_keeps | apply State.startSlot_keeps | (refine Keeps.foldl (fun _ _ _ => ?_) ?_) <;> try lift_lets
    | refine Keeps.next ?_ | (split <;> try lift_lets) | (refine Covers.sub hF ?_; decide)
    | (refine fun x (hx : Keeps F r x) => ?_; try lift_lets)
    | (intro x; refine Keeps.take (s := x) ?_ fun hx => ?_; rotate_left; clear_value x; rotate_left; unfold x; try lift_lets)
    | intro x | refine Keeps.of_eq ?_ ?_ ?_ ?_ ?_ ?_ ?_ ?_ ?_ ?_ ?_ ?_ ?_ ?_ ?_ ?_ ?_

theorem execUnderrun_keeps {a0 : Nat} {s2 : State} (hF : Covers F [.ic, .eng]) (hs2 : Keeps F r s2) :
    KeepsOut F r (execUnderrun a0 s2) := by
  unfold execUnderrun
  with_reducible repeat' first
    | exact .inr (hF.one (by decide)) | exact .inl rfl | rfl | (refine KeepsOut.ite ?_ ?_) | (refine Keeps.ite ?_ ?_)
    | assumption | apply State.inService_keeps | apply State.abortTick_keeps | refine Keeps.next ?_ | split
    | (refine Covers.sub hF ?_; decide) | (refine fun x (hx : Keeps F r x) => ?_; try lift_lets)
    | (intro x; refine Keeps.take (s := x) ?_ fun hx => ?_; rotate_left; clear_value x; rotate_left; unfold x; try lift_lets)
    | intro x | refine Keeps.of_eq ?_ ?_ ?_ ?_ ?_ ?_ ?_ ?_ ?_ ?_ ?_ ?_ ?_ ?_ ?_ ?_ ?_

end Sys2Proof.Machine
end

