-- ==== Sys2Proof/Laws/Keeps/Layers.lean ====
section
/-! SUPPORT. What every command keeps, operation by operation: those of Machine/Layers.lean. -/

namespace Sys2Proof.Machine

variable {F : List Part} {r : State}

theorem State.setSclShadow_keeps {s1 : State} {a1 : Nat} {a2 : ScalerShadow → ScalerShadow} (hF : Covers F [.obj])
    (hs1 : Keeps F r s1) : Keeps F r (State.setSclShadow s1 a1 a2) := by
  unfold State.setSclShadow
  try lift_lets
  with_reducible repeat' first
    | exact .inr (hF.one (by decide)) | exact .inl rfl | rfl | assumption | (refine Covers.sub hF ?_; decide)
    | (intro x; refine Keeps.take (s := x) ?_ fun hx => ?_; rotate_left; clear_value x; rotate_left; unfold x; try lift_lets)
    | intro x | refine Keeps.of_eq ?_ ?_ ?_ ?_ ?_ ?_ ?_ ?_ ?_ ?_ ?_ ?_ ?_ ?_ ?_ ?_ ?_

theorem canvasSetBody_keeps {a0 : Nat} {a1 : Desc} {s3 : State} (hF : Covers F [.comp]) (hs3 : Keeps F r s3) :
    KeepsRes F r (canvasSetBody a0 a1 s3) := by
  unfold canvasSetBody
  try lift_lets
  with_reducible repeat' first
    | exact .inr (hF.one (by decide)) | exact .inl rfl | rfl | assumption | apply State.checked_keeps | exact Keeps.rest
    | refine Keeps.done ?_ | refine Keeps.wait ?_ | refine Keeps.admitted ?_ | (refine Covers.sub hF ?_; decide)
    | (refine fun x (hx : Keeps F r x) => ?_; try lift_lets)
    | (intro x; refine Keeps.take (s := x) ?_ fun hx => ?_; rotate_left; clear_value x; rotate_left; unfold x; try lift_lets)
    | intro x | refine Keeps.of_eq ?_ ?_ ?_ ?_ ?_ ?_ ?_ ?_ ?_ ?_ ?_ ?_ ?_ ?_ ?_ ?_ ?_

theorem coefData_keeps {a0 : Desc} {a1 : List Byte} {s3 : State} (hF : Covers F [.obj]) (hs3 : Keeps F r s3) :
    KeepsRes F r (coefData a0 a1 s3) := by
  unfold coefData
  try lift_lets
  with_reducible repeat' first
    | exact .inr (hF.one (by decide)) | exact .inl rfl | rfl | (refine KeepsRes.ite ?_ ?_) <;> try lift_lets
    | (refine Keeps.ite ?_ ?_) <;> try lift_lets | assumption | apply State.setSclShadow_keeps | exact Keeps.rest
    | refine Keeps.done ?_ | refine Keeps.wait ?_ | refine Keeps.admitted ?_ | (split <;> try lift_lets)
    | (refine Covers.sub hF ?_; decide)
    | (intro x; refine Keeps.take (s := x) ?_ fun hx => ?_; rotate_left; clear_value x; rotate_left; unfold x; try lift_lets)
    | intro x | refine Keeps.of_eq ?_ ?_ ?_ ?_ ?_ ?_ ?_ ?_ ?_ ?_ ?_ ?_ ?_ ?_ ?_ ?_ ?_

theorem coefLoadBody_keeps {a0 : Nat} {a1 : Desc} {s3 : State} (hs3 : Keeps F r s3) :
    KeepsRes F r (coefLoadBody a0 a1 s3) := by
  unfold coefLoadBody
  try lift_lets
  with_reducible repeat' first
    | assumption | apply State.checked_keeps | exact Keeps.rest | refine Keeps.done ?_ | refine Keeps.wait ?_
    | refine Keeps.admitted ?_ | (refine fun x (hx : Keeps F r x) => ?_; try lift_lets)
    | (intro x; refine Keeps.take (s := x) ?_ fun hx => ?_; rotate_left; clear_value x; rotate_left; unfold x; try lift_lets)
    | intro x

theorem execCanvasSet_keeps {a0 : Nat} {s2 : State} (hF : Covers F [.hif, .ic, .comp]) (hs2 : Keeps F r s2) :
    KeepsOut F r (execCanvasSet a0 s2) := by
  unfold execCanvasSet
  with_reducible repeat' first
    | assumption | apply State.descriptor_keeps | apply canvasSetBody_keeps | refine Keeps.next ?_
    | (refine Covers.sub hF ?_; decide) | (refine fun x (hx : Keeps F r x) => ?_; try lift_lets)
    | (intro x; refine Keeps.take (s := x) ?_ fun hx => ?_; rotate_left; clear_value x; rotate_left; unfold x; try lift_lets)
    | intro x

theorem execCoefLoad_keeps {a0 : Nat} {s2 : State} (hF : Covers F [.hif, .ic]) (hs2 : Keeps F r s2) :
    KeepsOut F r (execCoefLoad a0 s2) := by
  unfold execCoefLoad
  with_reducible repeat' first
    | assumption | apply State.descriptor_keeps | apply coefLoadBody_keeps | refine Keeps.next ?_
    | (refine Covers.sub hF ?_; decide) | (refine fun x (hx : Keeps F r x) => ?_; try lift_lets)
    | (intro x; refine Keeps.take (s := x) ?_ fun hx => ?_; rotate_left; clear_value x; rotate_left; unfold x; try lift_lets)
    | intro x

theorem layerSetBody_keeps {a0 : Nat} {a1 : Desc} {s3 : State} (hF : Covers F [.comp]) (hs3 : Keeps F r s3) :
    KeepsRes F r (layerSetBody a0 a1 s3) := by
  unfold layerSetBody
  try lift_lets
  with_reducible repeat' first
    | exact .inr (hF.one (by decide)) | exact .inl rfl | rfl | assumption | apply State.checked_keeps | exact Keeps.rest
    | refine Keeps.done ?_ | refine Keeps.wait ?_ | refine Keeps.admitted ?_ | (refine Covers.sub hF ?_; decide)
    | (refine fun x (hx : Keeps F r x) => ?_; try lift_lets)
    | (intro x; refine Keeps.take (s := x) ?_ fun hx => ?_; rotate_left; clear_value x; rotate_left; unfold x; try lift_lets)
    | intro x | refine Keeps.of_eq ?_ ?_ ?_ ?_ ?_ ?_ ?_ ?_ ?_ ?_ ?_ ?_ ?_ ?_ ?_ ?_ ?_

theorem execLayerSet_keeps {a0 : Nat} {s2 : State} (hF : Covers F [.hif, .ic, .comp]) (hs2 : Keeps F r s2) :
    KeepsOut F r (execLayerSet a0 s2) := by
  unfold execLayerSet
  with_reducible repeat' first
    | assumption | apply State.descriptor_keeps | apply layerSetBody_keeps | refine Keeps.next ?_
    | (refine Covers.sub hF ?_; decide) | (refine fun x (hx : Keeps F r x) => ?_; try lift_lets)
    | (intro x; refine Keeps.take (s := x) ?_ fun hx => ?_; rotate_left; clear_value x; rotate_left; unfold x; try lift_lets)
    | intro x

theorem scalerBindBody_keeps {a0 : Nat} {a1 : Desc} {s3 : State} (hF : Covers F [.obj]) (hs3 : Keeps F r s3) :
    KeepsRes F r (scalerBindBody a0 a1 s3) := by
  unfold scalerBindBody
  try lift_lets
  with_reducible repeat' first
    | assumption | apply State.checked_keeps | apply State.setSclShadow_keeps | exact Keeps.rest | refine Keeps.done ?_
    | refine Keeps.wait ?_ | refine Keeps.admitted ?_ | (refine Covers.sub hF ?_; decide)
    | (refine fun x (hx : Keeps F r x) => ?_; try lift_lets)
    | (intro x; refine Keeps.take (s := x) ?_ fun hx => ?_; rotate_left; clear_value x; rotate_left; unfold x; try lift_lets)
    | intro x

theorem execScalerBind_keeps {a0 : Nat} {s2 : State} (hF : Covers F [.hif, .ic, .obj]) (hs2 : Keeps F r s2) :
    KeepsOut F r (execScalerBind a0 s2) := by
  unfold execScalerBind
  with_reducible repeat' first
    | assumption | apply State.descriptor_keeps | apply scalerBindBody_keeps | refine Keeps.next ?_
    | (refine Covers.sub hF ?_; decide) | (refine fun x (hx : Keeps F r x) => ?_; try lift_lets)
    | (intro x; refine Keeps.take (s := x) ?_ fun hx => ?_; rotate_left; clear_value x; rotate_left; unfold x; try lift_lets)
    | intro x

end Sys2Proof.Machine
end

