-- ==== Sys2Proof/Laws/Keeps/HostData.lean ====
section
/-! SUPPORT. What every command keeps, operation by operation: those of Machine/HostData.lean. -/

namespace Sys2Proof.Machine

variable {F : List Part} {r : State}

theorem State.dataFailed_keeps {s1 : State} {a1 : Nat} (hF : Covers F [.hif, .ic, .surf]) (hs1 : Keeps F r s1) :
    Keeps F r (State.dataFailed s1 a1) := by
  unfold State.dataFailed
  try lift_lets
  with_reducible repeat' first
    | exact .inr (hF.one (by decide)) | exact .inl rfl | rfl | assumption | apply State.bump_keeps
    | apply State.endHeld_keeps | apply State.endCopy_keeps | (split <;> try lift_lets) | (refine Covers.sub hF ?_; decide)
    | (intro x; refine Keeps.take (s := x) ?_ fun hx => ?_; rotate_left; clear_value x; rotate_left; unfold x; try lift_lets)
    | intro x | refine Keeps.of_eq ?_ ?_ ?_ ?_ ?_ ?_ ?_ ?_ ?_ ?_ ?_ ?_ ?_ ?_ ?_ ?_ ?_

theorem State.fetchFailed_keeps {s1 : State} {a1 : Nat} (hF : Covers F [.hif, .ic]) (hs1 : Keeps F r s1) :
    Keeps F r (State.fetchFailed s1 a1) := by
  unfold State.fetchFailed
  try lift_lets
  with_reducible repeat' first
    | (refine Keeps.ite ?_ ?_) <;> try lift_lets | assumption | apply State.bump_keeps | apply State.setEvr_keeps
    | apply State.setReel_keeps | apply State.notice_keeps | apply State.wr_keeps | (refine Covers.sub hF ?_; decide)
    | (intro x; refine Keeps.take (s := x) ?_ fun hx => ?_; rotate_left; clear_value x; rotate_left; unfold x; try lift_lets)
    | intro x

theorem hostDataBody_keeps {a : Nat} {d : Desc} {bs : List Byte} {s : State} (hF : Covers F [.surf, .obj, .eng, .light]) (h : Keeps F r s) :
    KeepsRes F r (hostDataBody a d bs s) :=
  KeepsRes.ite (paletteData_keeps (hF.sub (by decide)) h) (KeepsRes.ite (coefData_keeps (hF.sub (by decide)) h) (KeepsRes.ite (objData_keeps (hF.sub (by decide)) h)
    (KeepsRes.ite (meshData_keeps (hF.sub (by decide)) h) (KeepsRes.ite (saddleData_keeps (hF.sub (by decide)) h) (KeepsRes.ite (twistData_keeps (hF.sub (by decide)) h) (respData_keeps (hF.sub (by decide)) h))))))

theorem execHostDataReadEnd_keeps {a0 : Nat} {a1 : List Byte} {s3 : State}
    (hF : Covers F [.hif, .ic, .surf, .obj, .eng, .light]) (hs3 : Keeps F r s3) :
    KeepsOut F r (execHostDataReadEnd a0 a1 s3) := by
  unfold execHostDataReadEnd
  with_reducible repeat' first
    | exact .inr (hF.one (by decide)) | exact .inl rfl | rfl | (refine KeepsOut.ite ?_ ?_) | (refine Keeps.ite ?_ ?_)
    | assumption | apply State.inService_keeps | apply State.apply_keeps | apply hostDataBody_keeps | refine Keeps.next ?_
    | split | (refine Covers.sub hF ?_; decide) | (refine fun x (hx : Keeps F r x) => ?_; try lift_lets)
    | (intro x; refine Keeps.take (s := x) ?_ fun hx => ?_; rotate_left; clear_value x; rotate_left; unfold x; try lift_lets)
    | intro x | refine Keeps.of_eq ?_ ?_ ?_ ?_ ?_ ?_ ?_ ?_ ?_ ?_ ?_ ?_ ?_ ?_ ?_ ?_ ?_

theorem execHostReadError_keeps {a0 a1 : Nat} {s3 : State} (hF : Covers F [.hif, .ic, .surf]) (hs3 : Keeps F r s3) :
    KeepsOut F r (execHostReadError a0 a1 s3) := by
  unfold execHostReadError
  with_reducible repeat' first
    | exact .inr (hF.one (by decide)) | exact .inl rfl | rfl | (refine KeepsOut.ite ?_ ?_) | (refine Keeps.ite ?_ ?_)
    | assumption | apply State.inService_keeps | apply State.fetchFailed_keeps | apply State.dataFailed_keeps
    | apply State.bump_keeps | refine Keeps.next ?_ | split | (refine Covers.sub hF ?_; decide)
    | (refine fun x (hx : Keeps F r x) => ?_; try lift_lets)
    | (intro x; refine Keeps.take (s := x) ?_ fun hx => ?_; rotate_left; clear_value x; rotate_left; unfold x; try lift_lets)
    | intro x | refine Keeps.of_eq ?_ ?_ ?_ ?_ ?_ ?_ ?_ ?_ ?_ ?_ ?_ ?_ ?_ ?_ ?_ ?_ ?_

end Sys2Proof.Machine
end

