-- ==== Sys2Proof/Laws/Keeps/Reels.lean ====
section
/-! SUPPORT. What every command keeps, operation by operation: those of Machine/Reels.lean. -/

namespace Sys2Proof.Machine

variable {F : List Part} {r : State}

theorem State.clearHif_keeps {s : State} (h : Keeps F r s) : Keeps F r s.clearHif :=
  h.setRegs fun x => Tbl.wf_filter x

theorem State.countStalls_keeps {s1 : State} (hF : Covers F [.hif]) (hs1 : Keeps F r s1) :
    Keeps F r (State.countStalls s1) := by
  unfold State.countStalls
  try lift_lets
  with_reducible repeat' first
    | (refine Keeps.ite ?_ ?_) <;> try lift_lets | assumption | apply State.setReel_keeps | apply State.bump_keeps
    | (refine Keeps.foldl (fun _ _ _ => ?_) ?_) <;> try lift_lets | (refine Covers.sub hF ?_; decide)
    | (intro x; refine Keeps.take (s := x) ?_ fun hx => ?_; rotate_left; clear_value x; rotate_left; unfold x; try lift_lets)
    | intro x

theorem State.disableReel_keeps {s1 : State} {a1 : Nat} (hF : Covers F [.hif, .ic]) (hs1 : Keeps F r s1) :
    Keeps F r (State.disableReel s1 a1) := by
  unfold State.disableReel
  try lift_lets
  with_reducible repeat' first
    | exact .inr (hF.one (by decide)) | exact .inl rfl | rfl | (refine Keeps.ite ?_ ?_) <;> try lift_lets | assumption
    | apply State.setEvr_keeps | apply State.setReel_keeps | apply State.wrs_keeps | apply State.finish_keeps
    | apply State.wr_keeps | (split <;> try lift_lets) | (refine Covers.sub hF ?_; decide)
    | (intro x; refine Keeps.take (s := x) ?_ fun hx => ?_; rotate_left; clear_value x; rotate_left; unfold x; try lift_lets)
    | intro x | refine Keeps.of_eq ?_ ?_ ?_ ?_ ?_ ?_ ?_ ?_ ?_ ?_ ?_ ?_ ?_ ?_ ?_ ?_ ?_

theorem State.dropCopies_keeps {s1 : State} (hF : Covers F [.surf]) (hs1 : Keeps F r s1) :
    Keeps F r (State.dropCopies s1) := by
  unfold State.dropCopies
  try lift_lets
  with_reducible repeat' first
    | exact .inr (hF.one (by decide)) | exact .inl rfl | rfl | (refine Keeps.ite ?_ ?_) <;> try lift_lets | assumption
    | apply State.setSurface_keeps | (refine Keeps.foldl (fun _ _ _ => ?_) ?_) <;> try lift_lets | (split <;> try lift_lets)
    | (refine Covers.sub hF ?_; decide)
    | (intro x; refine Keeps.take (s := x) ?_ fun hx => ?_; rotate_left; clear_value x; rotate_left; unfold x; try lift_lets)
    | intro x | refine Keeps.of_eq ?_ ?_ ?_ ?_ ?_ ?_ ?_ ?_ ?_ ?_ ?_ ?_ ?_ ?_ ?_ ?_ ?_

theorem State.enableReel_keeps {s1 : State} {a1 a2 : Nat} (hF : Covers F [.hif]) (hs1 : Keeps F r s1) :
    Keeps F r (State.enableReel s1 a1 a2) := by
  unfold State.enableReel
  try lift_lets
  with_reducible repeat' first
    | (refine Keeps.ite ?_ ?_) <;> try lift_lets | assumption | apply State.setReel_keeps | apply State.wrs_keeps
    | (refine Covers.sub hF ?_; decide)
    | (intro x; refine Keeps.take (s := x) ?_ fun hx => ?_; rotate_left; clear_value x; rotate_left; unfold x; try lift_lets)
    | intro x

theorem State.grantFetch_keeps {s1 : State} {a1 : Nat} (hF : Covers F [.hif]) (hs1 : Keeps F r s1) :
    Keeps F r (State.grantFetch s1 a1) := by
  unfold State.grantFetch
  try lift_lets
  with_reducible repeat' first
    | (refine Keeps.ite ?_ ?_) <;> try lift_lets | assumption | apply State.setEvr_keeps | apply State.setReel_keeps
    | (refine Covers.sub hF ?_; decide)
    | (intro x; refine Keeps.take (s := x) ?_ fun hx => ?_; rotate_left; clear_value x; rotate_left; unfold x; try lift_lets)
    | intro x

theorem State.hostReset_keeps {s1 : State} {a1 a2 : Bool} (hF : Covers F [.hif, .sig, .surf, .comp, .pwr])
    (hs1 : Keeps F r s1) : Keeps F r (State.hostReset s1 a1 a2) := by
  unfold State.hostReset
  try lift_lets
  with_reducible repeat' first
    | exact .inr (hF.one (by decide)) | exact .inl rfl | rfl | (refine Keeps.ite ?_ ?_) <;> try lift_lets | assumption
    | apply State.clearHif_keeps | apply State.dropCopies_keeps | apply State.wrs_keeps | apply State.bump_keeps
    | (split <;> try lift_lets) | (refine Covers.sub hF ?_; decide)
    | (intro x; refine Keeps.take (s := x) ?_ fun hx => ?_; rotate_left; clear_value x; rotate_left; unfold x; try lift_lets)
    | intro x | refine Keeps.of_eq ?_ ?_ ?_ ?_ ?_ ?_ ?_ ?_ ?_ ?_ ?_ ?_ ?_ ?_ ?_ ?_ ?_

theorem State.writeFence_keeps {s1 : State} {a1 : Origin} {a2 a3 : Nat} (hF : Covers F [.hif, .ic]) (hs1 : Keeps F r s1) :
    Keeps F r (State.writeFence s1 a1 a2 a3) := by
  unfold State.writeFence
  with_reducible repeat' first
    | assumption | apply State.outcome_keeps | apply State.hostWrite_keeps | (refine Covers.sub hF ?_; decide)

theorem fenceBody_keeps {a0 : Nat} {a1 : Desc} {s3 : State} (hF : Covers F [.hif, .ic]) (hs3 : Keeps F r s3) :
    KeepsRes F r (fenceBody a0 a1 s3) := by
  unfold fenceBody
  try lift_lets
  with_reducible repeat' first
    | exact .inr (hF.one (by decide)) | exact .inl rfl | rfl | (refine KeepsRes.ite ?_ ?_) <;> try lift_lets
    | (refine Keeps.ite ?_ ?_) <;> try lift_lets | assumption | apply State.checked_keeps | apply State.writeFence_keeps
    | exact Keeps.rest | refine Keeps.done ?_ | refine Keeps.wait ?_ | refine Keeps.admitted ?_
    | (refine Covers.sub hF ?_; decide) | (refine fun x (hx : Keeps F r x) => ?_; try lift_lets)
    | (intro x; refine Keeps.take (s := x) ?_ fun hx => ?_; rotate_left; clear_value x; rotate_left; unfold x; try lift_lets)
    | intro x | refine Keeps.of_eq ?_ ?_ ?_ ?_ ?_ ?_ ?_ ?_ ?_ ?_ ?_ ?_ ?_ ?_ ?_ ?_ ?_

theorem State.retryFence_keeps {s1 : State} {a1 : Nat} (hF : Covers F [.hif, .ic]) (hs1 : Keeps F r s1) :
    Keeps F r (State.retryFence s1 a1) := by
  unfold State.retryFence
  with_reducible repeat' first
    | exact .inr (hF.one (by decide)) | exact .inl rfl | rfl | assumption | apply State.runFront_keeps
    | apply State.setReel_keeps | apply fenceBody_keeps | split | (refine Covers.sub hF ?_; decide)
    | (refine fun x (hx : Keeps F r x) => ?_; try lift_lets)
    | (intro x; refine Keeps.take (s := x) ?_ fun hx => ?_; rotate_left; clear_value x; rotate_left; unfold x; try lift_lets)
    | intro x | refine Keeps.of_eq ?_ ?_ ?_ ?_ ?_ ?_ ?_ ?_ ?_ ?_ ?_ ?_ ?_ ?_ ?_ ?_ ?_

theorem State.storeCrCfg_keeps {s1 : State} {a1 a2 : Nat} (hs1 : Keeps F r s1) : Keeps F r (State.storeCrCfg s1 a1 a2) := by
  unfold State.storeCrCfg
  with_reducible repeat' first
    | assumption | apply State.wrs_keeps

theorem State.trySummary_keeps {s1 : State} {a1 : Nat} (hF : Covers F [.hif, .ic]) (hs1 : Keeps F r s1) :
    Keeps F r (State.trySummary s1 a1) := by
  unfold State.trySummary
  with_reducible repeat' first
    | (refine Keeps.ite ?_ ?_) | assumption | apply State.writeSummary_keeps | (refine Covers.sub hF ?_; decide)

theorem State.wakeReels_keeps {s1 : State} {a1 : Bool} (hF : Covers F [.hif, .ic]) (hs1 : Keeps F r s1) :
    Keeps F r (State.wakeReels s1 a1) := by
  unfold State.wakeReels
  with_reducible repeat' first
    | exact .inr (hF.one (by decide)) | exact .inl rfl | rfl | (refine Keeps.ite ?_ ?_) | assumption
    | apply State.endHeld_keeps | (refine Keeps.foldl (fun _ _ _ => ?_) ?_) | split | (refine Covers.sub hF ?_; decide)
    | refine Keeps.of_eq ?_ ?_ ?_ ?_ ?_ ?_ ?_ ?_ ?_ ?_ ?_ ?_ ?_ ?_ ?_ ?_ ?_

theorem State.writeBack_keeps {s1 : State} {a1 : Nat} (hF : Covers F [.hif]) (hs1 : Keeps F r s1) :
    Keeps F r (State.writeBack s1 a1) := by
  unfold State.writeBack
  with_reducible repeat' first
    | (refine Keeps.ite ?_ ?_) | assumption | apply State.setReel_keeps | apply State.hostWrite_keeps
    | (refine Covers.sub hF ?_; decide)

theorem State.writeFences_keeps {s1 : State} (hF : Covers F [.hif, .ic]) (hs1 : Keeps F r s1) :
    Keeps F r (State.writeFences s1) := by
  unfold State.writeFences
  try lift_lets
  with_reducible repeat' first
    | exact .inr (hF.one (by decide)) | exact .inl rfl | rfl | (refine Keeps.ite ?_ ?_) <;> try lift_lets | assumption
    | apply State.writeFence_keeps | apply State.retryFence_keeps
    | (refine Keeps.foldl (fun _ _ _ => ?_) ?_) <;> try lift_lets | (refine Covers.sub hF ?_; decide)
    | (intro x; refine Keeps.take (s := x) ?_ fun hx => ?_; rotate_left; clear_value x; rotate_left; unfold x; try lift_lets)
    | intro x | refine Keeps.of_eq ?_ ?_ ?_ ?_ ?_ ?_ ?_ ?_ ?_ ?_ ?_ ?_ ?_ ?_ ?_ ?_ ?_

theorem execAlarmQueueWrite_keeps {a0 : Nat} {s2 : State} (hF : Covers F [.hif, .ic]) (hs2 : Keeps F r s2) :
    KeepsOut F r (execAlarmQueueWrite a0 s2) := by
  unfold execAlarmQueueWrite
  with_reducible repeat' first
    | exact .inr (hF.one (by decide)) | exact .inl rfl | rfl | (refine KeepsOut.ite ?_ ?_) | (refine Keeps.ite ?_ ?_)
    | assumption | apply State.inService_keeps | apply State.trySummary_keeps | apply State.setEvr_keeps
    | apply State.putRecord_keeps | refine Keeps.next ?_ | split | (refine Covers.sub hF ?_; decide)
    | (refine fun x (hx : Keeps F r x) => ?_; try lift_lets)
    | (intro x; refine Keeps.take (s := x) ?_ fun hx => ?_; rotate_left; clear_value x; rotate_left; unfold x; try lift_lets)
    | intro x | refine Keeps.of_eq ?_ ?_ ?_ ?_ ?_ ?_ ?_ ?_ ?_ ?_ ?_ ?_ ?_ ?_ ?_ ?_ ?_

theorem execCrDisable_keeps {a0 : Nat} {a1 : Word} {s3 : State} (hF : Covers F [.hif, .ic]) (hs3 : Keeps F r s3) :
    KeepsOut F r (execCrDisable a0 a1 s3) := by
  unfold execCrDisable
  try lift_lets
  with_reducible repeat' first
    | (refine KeepsOut.ite ?_ ?_) <;> try lift_lets | (refine Keeps.ite ?_ ?_) <;> try lift_lets | assumption
    | apply State.setup_keeps | apply State.storeCrCfg_keeps | apply State.disableReel_keeps | refine Keeps.next ?_
    | (refine Covers.sub hF ?_; decide) | (refine fun x (hx : Keeps F r x) => ?_; try lift_lets)
    | (intro x; refine Keeps.take (s := x) ?_ fun hx => ?_; rotate_left; clear_value x; rotate_left; unfold x; try lift_lets)
    | intro x

theorem execCrEnable_keeps {a0 : Nat} {a1 : Word} {s3 : State} (hF : Covers F [.hif]) (hs3 : Keeps F r s3) :
    KeepsOut F r (execCrEnable a0 a1 s3) := by
  unfold execCrEnable
  try lift_lets
  with_reducible repeat' first
    | (refine KeepsOut.ite ?_ ?_) <;> try lift_lets | (refine Keeps.ite ?_ ?_) <;> try lift_lets | assumption
    | apply State.setup_keeps | apply State.storeCrCfg_keeps | apply State.wr_keeps | apply State.enableReel_keeps
    | refine Keeps.next ?_ | (refine Covers.sub hF ?_; decide) | (refine fun x (hx : Keeps F r x) => ?_; try lift_lets)
    | (intro x; refine Keeps.take (s := x) ?_ fun hx => ?_; rotate_left; clear_value x; rotate_left; unfold x; try lift_lets)
    | intro x

theorem execCrRestart_keeps {a0 : Nat} {s2 : State} (hF : Covers F [.hif, .ic]) (hs2 : Keeps F r s2) :
    KeepsOut F r (execCrRestart a0 s2) := by
  unfold execCrRestart
  with_reducible repeat' first
    | (refine KeepsOut.ite ?_ ?_) | (refine Keeps.ite ?_ ?_) | assumption | apply State.setup_keeps
    | apply State.settle_keeps | apply State.wr_keeps | refine Keeps.next ?_ | (refine Covers.sub hF ?_; decide)
    | (refine fun x (hx : Keeps F r x) => ?_; try lift_lets)
    | (intro x; refine Keeps.take (s := x) ?_ fun hx => ?_; rotate_left; clear_value x; rotate_left; unfold x; try lift_lets)
    | intro x

theorem execD0Return_keeps {s1 : State} (hF : Covers F [.hif, .ic]) (hs1 : Keeps F r s1) :
    KeepsOut F r (execD0Return s1) := by
  unfold execD0Return
  try lift_lets
  with_reducible repeat' first
    | exact .inr (hF.one (by decide)) | exact .inl rfl | rfl | (refine KeepsOut.ite ?_ ?_) <;> try lift_lets
    | (refine Keeps.ite ?_ ?_) <;> try lift_lets | assumption | apply State.inService_keeps | apply State.writeBack_keeps
    | apply State.flushPba_keeps | apply State.trySummary_keeps | apply State.drainAlarms_keeps
    | (refine Keeps.foldl (fun _ _ _ => ?_) ?_) <;> try lift_lets | refine Keeps.next ?_ | (refine Covers.sub hF ?_; decide)
    | (refine fun x (hx : Keeps F r x) => ?_; try lift_lets)
    | (intro x; refine Keeps.take (s := x) ?_ fun hx => ?_; rotate_left; clear_value x; rotate_left; unfold x; try lift_lets)
    | intro x | refine Keeps.of_eq ?_ ?_ ?_ ?_ ?_ ?_ ?_ ?_ ?_ ?_ ?_ ?_ ?_ ?_ ?_ ?_ ?_

theorem execD3hotEntry_keeps {s1 : State} (hF : Covers F [.hif]) (hs1 : Keeps F r s1) :
    KeepsOut F r (execD3hotEntry s1) := by
  unfold execD3hotEntry
  try lift_lets
  with_reducible repeat' first
    | exact .inr (hF.one (by decide)) | exact .inl rfl | rfl | assumption | apply State.inService_keeps
    | refine Keeps.next ?_ | (refine Covers.sub hF ?_; decide) | (refine fun x (hx : Keeps F r x) => ?_; try lift_lets)
    | (intro x; refine Keeps.take (s := x) ?_ fun hx => ?_; rotate_left; clear_value x; rotate_left; unfold x; try lift_lets)
    | intro x | refine Keeps.of_eq ?_ ?_ ?_ ?_ ?_ ?_ ?_ ?_ ?_ ?_ ?_ ?_ ?_ ?_ ?_ ?_ ?_

theorem execDescriptorArrival_keeps {a0 : Nat} {a1 : List Desc} {s3 : State} (hF : Covers F [.hif, .ic])
    (hs3 : Keeps F r s3) : KeepsOut F r (execDescriptorArrival a0 a1 s3) := by
  unfold execDescriptorArrival
  with_reducible repeat' first
    | (refine KeepsOut.ite ?_ ?_) | (refine Keeps.ite ?_ ?_) | assumption | apply State.inService_keeps
    | apply State.settle_keeps | apply State.setReel_keeps | refine Keeps.next ?_ | (refine Covers.sub hF ?_; decide)
    | (refine fun x (hx : Keeps F r x) => ?_; try lift_lets)
    | (intro x; refine Keeps.take (s := x) ?_ fun hx => ?_; rotate_left; clear_value x; rotate_left; unfold x; try lift_lets)
    | intro x

theorem execDescriptorFetch_keeps {s1 : State} (hF : Covers F [.hif]) (hs1 : Keeps F r s1) :
    KeepsOut F r (execDescriptorFetch s1) := by
  unfold execDescriptorFetch
  try lift_lets
  with_reducible repeat' first
    | exact .inr (hF.one (by decide)) | exact .inl rfl | rfl | (refine KeepsOut.ite ?_ ?_) <;> try lift_lets
    | (refine Keeps.ite ?_ ?_) <;> try lift_lets | assumption | apply State.inService_keeps | apply State.countStalls_keeps
    | apply State.grantFetch_keeps | apply State.setReel_keeps | (refine Keeps.foldl (fun _ _ _ => ?_) ?_) <;> try lift_lets
    | refine Keeps.next ?_ | (split <;> try lift_lets) | (refine Covers.sub hF ?_; decide)
    | (refine fun x (hx : Keeps F r x) => ?_; try lift_lets)
    | (intro x; refine Keeps.take (s := x) ?_ fun hx => ?_; rotate_left; clear_value x; rotate_left; unfold x; try lift_lets)
    | intro x | refine Keeps.of_eq ?_ ?_ ?_ ?_ ?_ ?_ ?_ ?_ ?_ ?_ ?_ ?_ ?_ ?_ ?_ ?_ ?_

theorem execDoorbell_keeps {a0 a1 : Nat} {a2 : Bool} {a3 : Word} {s5 : State} (hF : Covers F [.hif, .ic])
    (hs5 : Keeps F r s5) : KeepsOut F r (execDoorbell a0 a1 a2 a3 s5) := by
  unfold execDoorbell
  with_reducible repeat' first
    | (refine KeepsOut.ite ?_ ?_) | (refine Keeps.ite ?_ ?_) | assumption | apply State.inService_keeps
    | apply State.bump_keeps | apply State.setReel_keeps | apply State.wr_keeps | apply State.notice_keeps
    | refine Keeps.next ?_ | (refine Covers.sub hF ?_; decide) | (refine fun x (hx : Keeps F r x) => ?_; try lift_lets)
    | (intro x; refine Keeps.take (s := x) ?_ fun hx => ?_; rotate_left; clear_value x; rotate_left; unfold x; try lift_lets)
    | intro x

theorem execEvrEnable_keeps {a0 : Nat} {a1 : Word} {s3 : State} (hF : Covers F [.hif]) (hs3 : Keeps F r s3) :
    KeepsOut F r (execEvrEnable a0 a1 s3) := by
  unfold execEvrEnable
  try lift_lets
  with_reducible repeat' first
    | (refine KeepsOut.ite ?_ ?_) <;> try lift_lets | (refine Keeps.ite ?_ ?_) <;> try lift_lets | assumption
    | apply State.setup_keeps | apply State.wrs_keeps | apply State.setEvr_keeps | apply State.wr_keeps
    | refine Keeps.next ?_ | (refine Covers.sub hF ?_; decide) | (refine fun x (hx : Keeps F r x) => ?_; try lift_lets)
    | (intro x; refine Keeps.take (s := x) ?_ fun hx => ?_; rotate_left; clear_value x; rotate_left; unfold x; try lift_lets)
    | intro x

theorem execEvrHeadRead_keeps {a0 : Nat} {a1 : Word} {s3 : State} (hF : Covers F [.hif, .ic]) (hs3 : Keeps F r s3) :
    KeepsOut F r (execEvrHeadRead a0 a1 s3) := by
  unfold execEvrHeadRead
  try lift_lets
  with_reducible repeat' first
    | exact .inr (hF.one (by decide)) | exact .inl rfl | rfl | (refine KeepsOut.ite ?_ ?_) <;> try lift_lets
    | (refine Keeps.ite ?_ ?_) <;> try lift_lets | assumption | apply State.inService_keeps | apply State.setEvr_keeps
    | apply State.trySummary_keeps | apply State.wrs_keeps | apply State.notice_keeps | apply State.wr_keeps
    | refine Keeps.next ?_ | (split <;> try lift_lets) | (refine Covers.sub hF ?_; decide)
    | (refine fun x (hx : Keeps F r x) => ?_; try lift_lets)
    | (intro x; refine Keeps.take (s := x) ?_ fun hx => ?_; rotate_left; clear_value x; rotate_left; unfold x; try lift_lets)
    | intro x | refine Keeps.of_eq ?_ ?_ ?_ ?_ ?_ ?_ ?_ ?_ ?_ ?_ ?_ ?_ ?_ ?_ ?_ ?_ ?_

theorem execFence_keeps {a0 : Nat} {s2 : State} (hF : Covers F [.hif, .ic]) (hs2 : Keeps F r s2) :
    KeepsOut F r (execFence a0 s2) := by
  unfold execFence
  with_reducible repeat' first
    | assumption | apply State.descriptor_keeps | apply fenceBody_keeps | refine Keeps.next ?_
    | (refine Covers.sub hF ?_; decide) | (refine fun x (hx : Keeps F r x) => ?_; try lift_lets)
    | (intro x; refine Keeps.take (s := x) ?_ fun hx => ?_; rotate_left; clear_value x; rotate_left; unfold x; try lift_lets)
    | intro x

theorem execHeadWriteBack_keeps {a0 : Nat} {s2 : State} (hF : Covers F [.hif]) (hs2 : Keeps F r s2) :
    KeepsOut F r (execHeadWriteBack a0 s2) := by
  unfold execHeadWriteBack
  try lift_lets
  with_reducible repeat' first
    | exact .inr (hF.one (by decide)) | exact .inl rfl | rfl | (refine KeepsOut.ite ?_ ?_) <;> try lift_lets
    | (refine Keeps.ite ?_ ?_) <;> try lift_lets | assumption | apply State.inService_keeps | apply State.writeBack_keeps
    | refine Keeps.next ?_ | (split <;> try lift_lets) | (refine Covers.sub hF ?_; decide)
    | (refine fun x (hx : Keeps F r x) => ?_; try lift_lets)
    | (intro x; refine Keeps.take (s := x) ?_ fun hx => ?_; rotate_left; clear_value x; rotate_left; unfold x; try lift_lets)
    | intro x | refine Keeps.of_eq ?_ ?_ ?_ ?_ ?_ ?_ ?_ ?_ ?_ ?_ ?_ ?_ ?_ ?_ ?_ ?_ ?_

theorem execHostInterfaceReset_keeps {a0 a1 : Bool} {s3 : State} (hF : Covers F [.hif, .sig, .surf, .comp, .pwr])
    (hs3 : Keeps F r s3) : KeepsOut F r (execHostInterfaceReset a0 a1 s3) := by
  unfold execHostInterfaceReset
  with_reducible repeat' first
    | assumption | apply State.inService_keeps | apply State.hostReset_keeps | refine Keeps.next ?_
    | (refine Covers.sub hF ?_; decide) | (refine fun x (hx : Keeps F r x) => ?_; try lift_lets)
    | (intro x; refine Keeps.take (s := x) ?_ fun hx => ?_; rotate_left; clear_value x; rotate_left; unfold x; try lift_lets)
    | intro x

theorem nopBody_keeps {a0 : Nat} {a1 : Desc} {s3 : State} (hs3 : Keeps F r s3) : KeepsRes F r (nopBody a0 a1 s3) := by
  unfold nopBody
  with_reducible repeat' first
    | assumption | apply State.checked_keeps | exact Keeps.rest | refine Keeps.done ?_ | refine Keeps.wait ?_
    | refine Keeps.admitted ?_ | (refine fun x (hx : Keeps F r x) => ?_; try lift_lets)
    | (intro x; refine Keeps.take (s := x) ?_ fun hx => ?_; rotate_left; clear_value x; rotate_left; unfold x; try lift_lets)
    | intro x

theorem execNop_keeps {a0 : Nat} {s2 : State} (hF : Covers F [.hif, .ic]) (hs2 : Keeps F r s2) :
    KeepsOut F r (execNop a0 s2) := by
  unfold execNop
  with_reducible repeat' first
    | assumption | apply State.descriptor_keeps | apply nopBody_keeps | refine Keeps.next ?_
    | (refine Covers.sub hF ?_; decide) | (refine fun x (hx : Keeps F r x) => ?_; try lift_lets)
    | (intro x; refine Keeps.take (s := x) ?_ fun hx => ?_; rotate_left; clear_value x; rotate_left; unfold x; try lift_lets)
    | intro x

theorem execPcieLinkUp_keeps {a0 a1 : Nat} {s3 : State} (hF : Covers F [.hif]) (hs3 : Keeps F r s3) :
    KeepsOut F r (execPcieLinkUp a0 a1 s3) := by
  unfold execPcieLinkUp
  with_reducible repeat' first
    | (refine KeepsOut.ite ?_ ?_) | (refine Keeps.ite ?_ ?_) | assumption | apply State.flushPba_keeps
    | apply State.wrs_keeps | refine Keeps.next ?_ | (refine Covers.sub hF ?_; decide)

theorem waitTickBody_keeps {a0 : Nat} {a1 : Desc} {s3 : State} (hs3 : Keeps F r s3) :
    KeepsRes F r (waitTickBody a0 a1 s3) := by
  unfold waitTickBody
  try lift_lets
  with_reducible repeat' first
    | (refine KeepsRes.ite ?_ ?_) <;> try lift_lets | (refine Keeps.ite ?_ ?_) <;> try lift_lets | assumption
    | apply State.checked_keeps | exact Keeps.rest | refine Keeps.done ?_ | refine Keeps.wait ?_ | refine Keeps.admitted ?_
    | (refine fun x (hx : Keeps F r x) => ?_; try lift_lets)
    | (intro x; refine Keeps.take (s := x) ?_ fun hx => ?_; rotate_left; clear_value x; rotate_left; unfold x; try lift_lets)
    | intro x

theorem execWaitTick_keeps {a : Nat} {s : State} (hF : Covers F [.hif, .ic]) (h : Keeps F r s) : KeepsOut F r (execWaitTick a s) := by
  refine Keeps.next (State.descriptor_keeps (hF.sub (by decide)) h fun b d t ht => ?_)
  have hx := waitTickBody_keeps (a0 := b) (a1 := d) ht
  revert hx
  generalize waitTickBody b d t = x
  intro hx
  cases x with
  | done t c d => exact hx
  | wait t q => exact Keeps.wait (State.wr_keeps hx.holds)
  | admitted t => exact hx
  | rest => exact Keeps.rest

end Sys2Proof.Machine
end

