-- ==== Sys2Proof/Laws/Keeps/Warp.lean ====
section
/-! SUPPORT. What every command keeps, operation by operation: those of Machine/Warp.lean. -/

namespace Sys2Proof.Machine

variable {F : List Part} {r : State}

theorem State.closeFrame_keeps {s1 : State} {a1 : Nat} (hF : Covers F [.ic, .eng]) (hs1 : Keeps F r s1) :
    Keeps F r (State.closeFrame s1 a1) := by
  unfold State.closeFrame
  try lift_lets
  with_reducible repeat' first
    | exact .inr (hF.one (by decide)) | exact .inl rfl | rfl | (refine Keeps.ite ?_ ?_) <;> try lift_lets | assumption
    | apply State.setEngine_keeps | apply State.bump_keeps | apply State.raise_keeps | (split <;> try lift_lets)
    | (refine Covers.sub hF ?_; decide)
    | (intro x; refine Keeps.take (s := x) ?_ fun hx => ?_; rotate_left; clear_value x; rotate_left; unfold x; try lift_lets)
    | intro x | refine Keeps.of_eq ?_ ?_ ?_ ?_ ?_ ?_ ?_ ?_ ?_ ?_ ?_ ?_ ?_ ?_ ?_ ?_ ?_

theorem State.frameComplete_keeps {s1 : State} {a1 : Nat} (hF : Covers F [.eng, .mem]) (hs1 : Keeps F r s1) :
    Keeps F r (State.frameComplete s1 a1) := by
  unfold State.frameComplete
  try lift_lets
  with_reducible repeat' first
    | assumption | apply State.setEngine_keeps | apply State.bump_keeps | apply State.store_keeps
    | (refine Covers.sub hF ?_; decide)
    | (intro x; refine Keeps.take (s := x) ?_ fun hx => ?_; rotate_left; clear_value x; rotate_left; unfold x; try lift_lets)
    | intro x

theorem State.openFrame_keeps {s1 : State} {a1 : Nat} {a2 : Bool} (hF : Covers F [.eng]) (hs1 : Keeps F r s1) :
    Keeps F r (State.openFrame s1 a1 a2) := by
  unfold State.openFrame
  try lift_lets
  with_reducible repeat' first
    | exact .inr (hF.one (by decide)) | exact .inl rfl | rfl | (refine Keeps.ite ?_ ?_) <;> try lift_lets | assumption
    | apply State.setEngine_keeps | apply State.wr_keeps | (split <;> try lift_lets) | (refine Covers.sub hF ?_; decide)
    | (intro x; refine Keeps.take (s := x) ?_ fun hx => ?_; rotate_left; clear_value x; rotate_left; unfold x; try lift_lets)
    | intro x | refine Keeps.of_eq ?_ ?_ ?_ ?_ ?_ ?_ ?_ ?_ ?_ ?_ ?_ ?_ ?_ ?_ ?_ ?_ ?_

theorem State.settleMatrix_keeps {s1 : State} {a1 : Nat} (hF : Covers F [.eng]) (hs1 : Keeps F r s1) :
    Keeps F r (State.settleMatrix s1 a1) := by
  unfold State.settleMatrix
  try lift_lets
  with_reducible repeat' first
    | exact .inr (hF.one (by decide)) | exact .inl rfl | rfl | (refine Keeps.ite ?_ ?_) <;> try lift_lets | assumption
    | apply State.setEngine_keeps | apply State.wr_keeps | (split <;> try lift_lets) | (refine Covers.sub hF ?_; decide)
    | (intro x; refine Keeps.take (s := x) ?_ fun hx => ?_; rotate_left; clear_value x; rotate_left; unfold x; try lift_lets)
    | intro x | refine Keeps.of_eq ?_ ?_ ?_ ?_ ?_ ?_ ?_ ?_ ?_ ?_ ?_ ?_ ?_ ?_ ?_ ?_ ?_

theorem State.showBundle_keeps {s1 : State} {a1 : Nat} {a2 : EngBundle} (hs1 : Keeps F r s1) :
    Keeps F r (State.showBundle s1 a1 a2) := by
  unfold State.showBundle
  try lift_lets
  with_reducible repeat' first
    | exact .inl rfl | rfl | (refine Keeps.ite ?_ ?_) <;> try lift_lets | assumption | apply State.wrs_keeps
    | apply State.wr_keeps | (refine Keeps.foldl (fun _ _ _ => ?_) ?_) <;> try lift_lets | (split <;> try lift_lets)
    | (intro x; refine Keeps.take (s := x) ?_ fun hx => ?_; rotate_left; clear_value x; rotate_left; unfold x; try lift_lets)
    | intro x | refine Keeps.of_eq ?_ ?_ ?_ ?_ ?_ ?_ ?_ ?_ ?_ ?_ ?_ ?_ ?_ ?_ ?_ ?_ ?_

theorem State.takeClass_keeps {s1 : State} {a1 a2 : Nat} {a3 a4 : Bool} (hF : Covers F [.ic]) (hs1 : Keeps F r s1) :
    Keeps F r (State.takeClass s1 a1 a2 a3 a4) := by
  unfold State.takeClass
  try lift_lets
  with_reducible repeat' first
    | exact .inr (hF.one (by decide)) | exact .inl rfl | rfl | (refine Keeps.ite ?_ ?_) <;> try lift_lets | assumption
    | apply State.wrs_keeps | apply State.raise_keeps | (refine Keeps.foldl (fun _ _ _ => ?_) ?_) <;> try lift_lets
    | (split <;> try lift_lets) | (refine Covers.sub hF ?_; decide)
    | (intro x; refine Keeps.take (s := x) ?_ fun hx => ?_; rotate_left; clear_value x; rotate_left; unfold x; try lift_lets)
    | intro x | refine Keeps.of_eq ?_ ?_ ?_ ?_ ?_ ?_ ?_ ?_ ?_ ?_ ?_ ?_ ?_ ?_ ?_ ?_ ?_

theorem State.workRow_keeps {s1 : State} {a1 a2 : Nat} (hF : Covers F [.eng, .mem]) (hs1 : Keeps F r s1) :
    Keeps F r (State.workRow s1 a1 a2) := by
  unfold State.workRow
  try lift_lets
  with_reducible repeat' first
    | exact .inr (hF.one (by decide)) | exact .inl rfl | rfl | assumption | apply State.store_keeps
    | apply State.setEngine_keeps | (refine Keeps.foldl (fun _ _ _ => ?_) ?_) <;> try lift_lets | (split <;> try lift_lets)
    | (refine Covers.sub hF ?_; decide)
    | (intro x; refine Keeps.take (s := x) ?_ fun hx => ?_; rotate_left; clear_value x; rotate_left; unfold x; try lift_lets)
    | intro x | refine Keeps.of_eq ?_ ?_ ?_ ?_ ?_ ?_ ?_ ?_ ?_ ?_ ?_ ?_ ?_ ?_ ?_ ?_ ?_

theorem execBandComplete_keeps {a0 a1 a2 : Nat} {s4 : State} (hF : Covers F [.eng, .mem]) (hs4 : Keeps F r s4) :
    KeepsOut F r (execBandComplete a0 a1 a2 s4) := by
  unfold execBandComplete
  try lift_lets
  with_reducible repeat' first
    | exact .inr (hF.one (by decide)) | exact .inl rfl | rfl | (refine KeepsOut.ite ?_ ?_) <;> try lift_lets
    | (refine Keeps.ite ?_ ?_) <;> try lift_lets | assumption | apply State.inService_keeps | apply State.bump_keeps
    | apply State.setEngine_keeps | apply State.frameComplete_keeps | refine Keeps.next ?_ | (split <;> try lift_lets)
    | (refine Covers.sub hF ?_; decide) | (refine fun x (hx : Keeps F r x) => ?_; try lift_lets)
    | (intro x; refine Keeps.take (s := x) ?_ fun hx => ?_; rotate_left; clear_value x; rotate_left; unfold x; try lift_lets)
    | intro x | refine Keeps.of_eq ?_ ?_ ?_ ?_ ?_ ?_ ?_ ?_ ?_ ?_ ?_ ?_ ?_ ?_ ?_ ?_ ?_

theorem execWarpRow_keeps {a0 a1 : Nat} {s3 : State} (hF : Covers F [.eng, .stk, .mem]) (hs3 : Keeps F r s3) :
    KeepsOut F r (execWarpRow a0 a1 s3) := by
  unfold execWarpRow
  try lift_lets
  with_reducible repeat' first
    | exact .inr (hF.one (by decide)) | exact .inl rfl | rfl | (refine KeepsOut.ite ?_ ?_) <;> try lift_lets
    | (refine Keeps.ite ?_ ?_) <;> try lift_lets | assumption | apply State.inService_keeps | apply State.fencedReads_keeps
    | apply State.bump_keeps | apply State.workRow_keeps | refine Keeps.next ?_ | (split <;> try lift_lets)
    | (refine Covers.sub hF ?_; decide) | (refine fun x (hx : Keeps F r x) => ?_; try lift_lets)
    | (intro x; refine Keeps.take (s := x) ?_ fun hx => ?_; rotate_left; clear_value x; rotate_left; unfold x; try lift_lets)
    | intro x | refine Keeps.of_eq ?_ ?_ ?_ ?_ ?_ ?_ ?_ ?_ ?_ ?_ ?_ ?_ ?_ ?_ ?_ ?_ ?_

end Sys2Proof.Machine
end

