-- ==== Sys2Proof/Laws/Keeps/Latch.lean ====
section
/-! SUPPORT. What every command keeps, operation by operation: those of Machine/Latch.lean. -/

namespace Sys2Proof.Machine

variable {F : List Part} {r : State}

theorem State.ackFallback_keeps {s1 : State} {a1 : Nat} (hF : Covers F [.hif, .ic, .comp]) (hs1 : Keeps F r s1) :
    Keeps F r (State.ackFallback s1 a1) := by
  unfold State.ackFallback
  try lift_lets
  with_reducible repeat' first
    | exact .inr (hF.one (by decide)) | exact .inl rfl | rfl | (refine Keeps.ite ?_ ?_) <;> try lift_lets | assumption
    | apply State.wrs_keeps | apply State.postSignature_keeps | (refine Keeps.foldl (fun _ _ _ => ?_) ?_) <;> try lift_lets
    | (refine Covers.sub hF ?_; decide)
    | (intro x; refine Keeps.take (s := x) ?_ fun hx => ?_; rotate_left; clear_value x; rotate_left; unfold x; try lift_lets)
    | intro x | refine Keeps.of_eq ?_ ?_ ?_ ?_ ?_ ?_ ?_ ?_ ?_ ?_ ?_ ?_ ?_ ?_ ?_ ?_ ?_

theorem State.deferCanvas_keeps {s1 : State} {a1 : WaitCommit} {a2 : Nat} (hF : Covers F [.hif, .ic, .comp])
    (hs1 : Keeps F r s1) : Keeps F r (State.deferCanvas s1 a1 a2) := by
  unfold State.deferCanvas
  try lift_lets
  with_reducible repeat' first
    | exact .inr (hF.one (by decide)) | exact .inl rfl | rfl | (refine Keeps.ite ?_ ?_) <;> try lift_lets | assumption
    | apply State.raise_keeps | apply State.bump_keeps | apply State.deferredRecord_keeps
    | (refine Covers.sub hF ?_; decide)
    | (intro x; refine Keeps.take (s := x) ?_ fun hx => ?_; rotate_left; clear_value x; rotate_left; unfold x; try lift_lets)
    | intro x | refine Keeps.of_eq ?_ ?_ ?_ ?_ ?_ ?_ ?_ ?_ ?_ ?_ ?_ ?_ ?_ ?_ ?_ ?_ ?_

theorem State.fencesTaken_keeps {s1 : State} {a1 : WaitCommit} (hF : Covers F [.hif]) (hs1 : Keeps F r s1) :
    Keeps F r (State.fencesTaken s1 a1) := by
  unfold State.fencesTaken
  try lift_lets
  with_reducible repeat' first
    | exact .inr (hF.one (by decide)) | exact .inl rfl | rfl | (refine Keeps.ite ?_ ?_) <;> try lift_lets | assumption
    | apply State.setReel_keeps | (refine Keeps.foldl (fun _ _ _ => ?_) ?_) <;> try lift_lets
    | (refine Covers.sub hF ?_; decide)
    | (intro x; refine Keeps.take (s := x) ?_ fun hx => ?_; rotate_left; clear_value x; rotate_left; unfold x; try lift_lets)
    | intro x | refine Keeps.of_eq ?_ ?_ ?_ ?_ ?_ ?_ ?_ ?_ ?_ ?_ ?_ ?_ ?_ ?_ ?_ ?_ ?_

theorem State.unwait_keeps {s1 : State} {a1 : Nat} (hF : Covers F [.comp]) (hs1 : Keeps F r s1) :
    Keeps F r (State.unwait s1 a1) := by
  unfold State.unwait
  try lift_lets
  with_reducible repeat' first
    | exact .inr (hF.one (by decide)) | exact .inl rfl | rfl | assumption | (refine Covers.sub hF ?_; decide)
    | (intro x; refine Keeps.take (s := x) ?_ fun hx => ?_; rotate_left; clear_value x; rotate_left; unfold x; try lift_lets)
    | intro x | refine Keeps.of_eq ?_ ?_ ?_ ?_ ?_ ?_ ?_ ?_ ?_ ?_ ?_ ?_ ?_ ?_ ?_ ?_ ?_

theorem State.takeCanvas_keeps {s1 : State} {a1 : WaitCommit} {a2 : Nat} {a3 : CanvasCfg} {a4 : List (Nat × Layer)}
    {a5 : List (Nat × ScalerShadow)} {a6 : List Nat} (hF : Covers F [.hif, .ic, .comp, .obj]) (hs1 : Keeps F r s1) :
    Keeps F r (State.takeCanvas s1 a1 a2 a3 a4 a5 a6) := by
  unfold State.takeCanvas
  try lift_lets
  with_reducible repeat' first
    | exact .inr (hF.one (by decide)) | exact .inl rfl | rfl | (refine Keeps.ite ?_ ?_) <;> try lift_lets | assumption
    | apply State.raise_keeps | apply State.bump_keeps | apply State.takeBatches_keeps | apply State.outcome_keeps
    | apply State.fencesTaken_keeps | apply State.unwait_keeps | (refine Keeps.foldl (fun _ _ _ => ?_) ?_) <;> try lift_lets
    | (refine Covers.sub hF ?_; decide)
    | (intro x; refine Keeps.take (s := x) ?_ fun hx => ?_; rotate_left; clear_value x; rotate_left; unfold x; try lift_lets)
    | intro x | refine Keeps.of_eq ?_ ?_ ?_ ?_ ?_ ?_ ?_ ?_ ?_ ?_ ?_ ?_ ?_ ?_ ?_ ?_ ?_

theorem State.takeGuarded_keeps {s1 : State} {a1 : WaitCommit} {a2 : Nat} {a3 : Overlay} {a4 : Bool}
    (hF : Covers F [.hif, .ic, .comp, .obj]) (hs1 : Keeps F r s1) : Keeps F r (State.takeGuarded s1 a1 a2 a3 a4) := by
  unfold State.takeGuarded
  try lift_lets
  with_reducible repeat' first
    | exact .inr (hF.one (by decide)) | exact .inl rfl | rfl | (refine Keeps.ite ?_ ?_) <;> try lift_lets | assumption
    | apply State.raise_keeps | apply State.bump_keeps | apply State.takeBatches_keeps | apply State.ackFallback_keeps
    | apply State.outcome_keeps | apply State.fencesTaken_keeps | apply State.unwait_keeps
    | (refine Covers.sub hF ?_; decide)
    | (intro x; refine Keeps.take (s := x) ?_ fun hx => ?_; rotate_left; clear_value x; rotate_left; unfold x; try lift_lets)
    | intro x | refine Keeps.of_eq ?_ ?_ ?_ ?_ ?_ ?_ ?_ ?_ ?_ ?_ ?_ ?_ ?_ ?_ ?_ ?_ ?_

theorem State.takeMode_keeps {s1 : State} {a1 : Nat} (hF : Covers F [.ic, .eng, .light]) (hs1 : Keeps F r s1) :
    Keeps F r (State.takeMode s1 a1) := by
  unfold State.takeMode
  try lift_lets
  with_reducible repeat' first
    | (refine Keeps.ite ?_ ?_) <;> try lift_lets | assumption | apply State.setEngine_keeps | apply State.enterConfig_keeps
    | (refine Covers.sub hF ?_; decide)
    | (intro x; refine Keeps.take (s := x) ?_ fun hx => ?_; rotate_left; clear_value x; rotate_left; unfold x; try lift_lets)
    | intro x

theorem State.takeEngine_keeps {s1 : State} {a1 : WaitCommit} {a2 : Nat} {a3 : EngBundle}
    (hF : Covers F [.hif, .ic, .comp, .eng, .light]) (hs1 : Keeps F r s1) : Keeps F r (State.takeEngine s1 a1 a2 a3) := by
  unfold State.takeEngine
  try lift_lets
  with_reducible repeat' first
    | (refine Keeps.ite ?_ ?_) <;> try lift_lets | assumption | apply State.countFenced_keeps | apply State.setEngine_keeps
    | apply State.takeMode_keeps | apply State.outcome_keeps | apply State.fencesTaken_keeps | apply State.unwait_keeps
    | apply State.showBundle_keeps | (refine Covers.sub hF ?_; decide)
    | (intro x; refine Keeps.take (s := x) ?_ fun hx => ?_; rotate_left; clear_value x; rotate_left; unfold x; try lift_lets)
    | intro x

theorem State.examine_keeps {s : State} {w : WaitCommit} (hF : Covers F [.hif, .ic, .comp, .obj, .eng, .light]) (h : Keeps F r s) : Keeps F r (s.examine w) := by
  unfold State.examine
  split
  · exact Keeps.ite (State.takeCanvas_keeps (hF.sub (by decide)) h) (State.deferCanvas_keeps (hF.sub (by decide)) h)
  · exact State.takeGuarded_keeps (hF.sub (by decide)) h
  · exact State.takeEngine_keeps (hF.sub (by decide)) h

theorem State.holdOdd_keeps {s1 : State} {a1 : WaitCommit} (hF : Covers F [.eng]) (hs1 : Keeps F r s1) :
    Keeps F r (State.holdOdd s1 a1) := by
  unfold State.holdOdd
  try lift_lets
  with_reducible repeat' first
    | exact .inr (hF.one (by decide)) | exact .inl rfl | rfl | (refine Keeps.ite ?_ ?_) <;> try lift_lets | assumption
    | apply State.setEngine_keeps | (split <;> try lift_lets) | (refine Covers.sub hF ?_; decide)
    | (intro x; refine Keeps.take (s := x) ?_ fun hx => ?_; rotate_left; clear_value x; rotate_left; unfold x; try lift_lets)
    | intro x | refine Keeps.of_eq ?_ ?_ ?_ ?_ ?_ ?_ ?_ ?_ ?_ ?_ ?_ ?_ ?_ ?_ ?_ ?_ ?_

theorem State.latchShadows_keeps {s1 : State} (hF : Covers F [.sig, .tick, .comp, .thm]) (hs1 : Keeps F r s1) :
    Keeps F r (State.latchShadows s1) := by
  unfold State.latchShadows
  try lift_lets
  with_reducible repeat' first
    | exact .inr (hF.one (by decide)) | exact .inl rfl | rfl | (refine Keeps.ite ?_ ?_) <;> try lift_lets | assumption
    | apply State.wr_keeps | (refine Covers.sub hF ?_; decide)
    | (intro x; refine Keeps.take (s := x) ?_ fun hx => ?_; rotate_left; clear_value x; rotate_left; unfold x; try lift_lets)
    | intro x | refine Keeps.of_eq ?_ ?_ ?_ ?_ ?_ ?_ ?_ ?_ ?_ ?_ ?_ ?_ ?_ ?_ ?_ ?_ ?_

theorem State.takeCommits_keeps {s1 : State} (hF : Covers F [.hif, .ic, .comp, .obj, .eng, .light]) (hs1 : Keeps F r s1) :
    Keeps F r (State.takeCommits s1) := by
  unfold State.takeCommits
  try lift_lets
  with_reducible repeat' first
    | assumption | apply State.holdOdd_keeps | apply State.examine_keeps
    | (refine Keeps.foldl (fun _ _ _ => ?_) ?_) <;> try lift_lets | (refine Covers.sub hF ?_; decide)
    | (intro x; refine Keeps.take (s := x) ?_ fun hx => ?_; rotate_left; clear_value x; rotate_left; unfold x; try lift_lets)
    | intro x

theorem State.showShed_keeps {s1 : State} {a1 : CostCfg} {a2 : Shed} (hF : Covers F [.comp]) (hs1 : Keeps F r s1) :
    Keeps F r (State.showShed s1 a1 a2) := by
  unfold State.showShed
  try lift_lets
  with_reducible repeat' first
    | exact .inr (hF.one (by decide)) | exact .inl rfl | rfl | (refine Keeps.ite ?_ ?_) <;> try lift_lets | assumption
    | apply State.wrs_keeps | (refine Keeps.foldl (fun _ _ _ => ?_) ?_) <;> try lift_lets
    | (refine Covers.sub hF ?_; decide)
    | (intro x; refine Keeps.take (s := x) ?_ fun hx => ?_; rotate_left; clear_value x; rotate_left; unfold x; try lift_lets)
    | intro x | refine Keeps.of_eq ?_ ?_ ?_ ?_ ?_ ?_ ?_ ?_ ?_ ?_ ?_ ?_ ?_ ?_ ?_ ?_ ?_

theorem State.reevaluate_keeps {s1 : State} {a1 : CostCfg} (hF : Covers F [.ic, .comp]) (hs1 : Keeps F r s1) :
    Keeps F r (State.reevaluate s1 a1) := by
  unfold State.reevaluate
  try lift_lets
  with_reducible repeat' first
    | exact .inr (hF.one (by decide)) | exact .inl rfl | rfl | (refine Keeps.ite ?_ ?_) <;> try lift_lets | assumption
    | apply State.showShed_keeps | apply State.raise_keeps | (refine Keeps.foldl (fun _ _ _ => ?_) ?_) <;> try lift_lets
    | (split <;> try lift_lets) | (refine Covers.sub hF ?_; decide)
    | (intro x; refine Keeps.take (s := x) ?_ fun hx => ?_; rotate_left; clear_value x; rotate_left; unfold x; try lift_lets)
    | intro x | refine Keeps.of_eq ?_ ?_ ?_ ?_ ?_ ?_ ?_ ?_ ?_ ?_ ?_ ?_ ?_ ?_ ?_ ?_ ?_

theorem State.showScaler_keeps {s1 : State} {a1 : Nat} {a2 : Option (ScaleJob × Nat × Nat)} (hs1 : Keeps F r s1) :
    Keeps F r (State.showScaler s1 a1 a2) := by
  unfold State.showScaler
  with_reducible repeat' first
    | exact .inl rfl | rfl | (refine Keeps.ite ?_ ?_) | assumption | apply State.wrs_keeps | split
    | refine Keeps.of_eq ?_ ?_ ?_ ?_ ?_ ?_ ?_ ?_ ?_ ?_ ?_ ?_ ?_ ?_ ?_ ?_ ?_

theorem State.serveScalers_keeps {s1 : State} {a1 : CostCfg} (hF : Covers F [.ic, .comp]) (hs1 : Keeps F r s1) :
    Keeps F r (State.serveScalers s1 a1) := by
  unfold State.serveScalers
  try lift_lets
  with_reducible repeat' first
    | exact .inr (hF.one (by decide)) | exact .inl rfl | rfl | (refine Keeps.ite ?_ ?_) <;> try lift_lets | assumption
    | apply State.raise_keeps | apply State.bump_keeps | apply State.showScaler_keeps | apply State.wr_keeps
    | apply State.wrs_keeps | (refine Keeps.foldl (fun _ _ _ => ?_) ?_) <;> try lift_lets | (split <;> try lift_lets)
    | (refine Covers.sub hF ?_; decide)
    | (intro x; refine Keeps.take (s := x) ?_ fun hx => ?_; rotate_left; clear_value x; rotate_left; unfold x; try lift_lets)
    | intro x | refine Keeps.of_eq ?_ ?_ ?_ ?_ ?_ ?_ ?_ ?_ ?_ ?_ ?_ ?_ ?_ ?_ ?_ ?_ ?_

theorem State.latchEngines_keeps {s1 : State} (hF : Covers F [.ic, .eng]) (hs1 : Keeps F r s1) :
    Keeps F r (State.latchEngines s1) := by
  unfold State.latchEngines
  try lift_lets
  with_reducible repeat' first
    | exact .inr (hF.one (by decide)) | exact .inl rfl | rfl | (refine Keeps.ite ?_ ?_) <;> try lift_lets | assumption
    | apply State.raise_keeps | apply State.showBundle_keeps | (refine Keeps.foldl (fun _ _ _ => ?_) ?_) <;> try lift_lets
    | (refine Covers.sub hF ?_; decide)
    | (intro x; refine Keeps.take (s := x) ?_ fun hx => ?_; rotate_left; clear_value x; rotate_left; unfold x; try lift_lets)
    | intro x | refine Keeps.of_eq ?_ ?_ ?_ ?_ ?_ ?_ ?_ ?_ ?_ ?_ ?_ ?_ ?_ ?_ ?_ ?_ ?_

theorem State.showLayer_keeps {s1 : State} {a1 : Nat} (hs1 : Keeps F r s1) : Keeps F r (State.showLayer s1 a1) := by
  unfold State.showLayer
  try lift_lets
  with_reducible repeat' first
    | assumption | apply State.wrs_keeps
    | (intro x; refine Keeps.take (s := x) ?_ fun hx => ?_; rotate_left; clear_value x; rotate_left; unfold x; try lift_lets)
    | intro x

theorem State.showCanvases_keeps {s1 : State} {a1 : List Nat} (hs1 : Keeps F r s1) :
    Keeps F r (State.showCanvases s1 a1) := by
  unfold State.showCanvases
  try lift_lets
  with_reducible repeat' first
    | exact .inl rfl | rfl | (refine Keeps.ite ?_ ?_) <;> try lift_lets | assumption | apply State.wrs_keeps
    | apply State.showLayer_keeps | (refine Keeps.foldl (fun _ _ _ => ?_) ?_) <;> try lift_lets | (split <;> try lift_lets)
    | (intro x; refine Keeps.take (s := x) ?_ fun hx => ?_; rotate_left; clear_value x; rotate_left; unfold x; try lift_lets)
    | intro x | refine Keeps.of_eq ?_ ?_ ?_ ?_ ?_ ?_ ?_ ?_ ?_ ?_ ?_ ?_ ?_ ?_ ?_ ?_ ?_

theorem State.showUse_keeps {s1 : State} {a1 : CostCfg} {a2 : CostArgs} {a3 : Shed} {a4 : Nat} (hs1 : Keeps F r s1) :
    Keeps F r (State.showUse s1 a1 a2 a3 a4) := by
  unfold State.showUse
  try lift_lets
  with_reducible repeat' first
    | (refine Keeps.ite ?_ ?_) <;> try lift_lets | assumption | apply State.wrs_keeps
    | (refine Keeps.foldl (fun _ _ _ => ?_) ?_) <;> try lift_lets
    | (intro x; refine Keeps.take (s := x) ?_ fun hx => ?_; rotate_left; clear_value x; rotate_left; unfold x; try lift_lets)
    | intro x

theorem State.latch_keeps {s1 : State} (hF : Covers F [.hif, .ic, .sig, .tick, .comp, .obj, .eng, .light, .thm])
    (hs1 : Keeps F r s1) : Keeps F r (State.latch s1) := by
  unfold State.latch
  try lift_lets
  with_reducible repeat' first
    | exact .inr (hF.one (by decide)) | exact .inl rfl | rfl | assumption | apply State.latchShadows_keeps
    | apply State.takeCommits_keeps | apply State.returnScalers_keeps | apply State.reevaluate_keeps
    | apply State.serveScalers_keeps | apply State.latchEngines_keeps | apply State.showCanvases_keeps
    | apply State.showUse_keeps | apply State.wakeReels_keeps | (refine Covers.sub hF ?_; decide)
    | (intro x; refine Keeps.take (s := x) ?_ fun hx => ?_; rotate_left; clear_value x; rotate_left; unfold x; try lift_lets)
    | intro x | refine Keeps.of_eq ?_ ?_ ?_ ?_ ?_ ?_ ?_ ?_ ?_ ?_ ?_ ?_ ?_ ?_ ?_ ?_ ?_

theorem execLatchPoint_keeps {s1 : State} (hF : Covers F [.hif, .ic, .sig, .tick, .comp, .obj, .eng, .light, .thm])
    (hs1 : Keeps F r s1) : KeepsOut F r (execLatchPoint s1) := by
  unfold execLatchPoint
  try lift_lets
  with_reducible repeat' first
    | (refine KeepsOut.ite ?_ ?_) <;> try lift_lets | (refine Keeps.ite ?_ ?_) <;> try lift_lets | assumption
    | apply State.inService_keeps | apply State.settlePin_keeps | apply State.latch_keeps | apply State.reach_keeps
    | refine Keeps.next ?_ | (refine Covers.sub hF ?_; decide) | (refine fun x (hx : Keeps F r x) => ?_; try lift_lets)
    | (intro x; refine Keeps.take (s := x) ?_ fun hx => ?_; rotate_left; clear_value x; rotate_left; unfold x; try lift_lets)
    | intro x

theorem execObjApplyWindow_keeps {s1 : State} (hF : Covers F [.hif, .ic, .sig, .obj]) (hs1 : Keeps F r s1) :
    KeepsOut F r (execObjApplyWindow s1) := by
  unfold execObjApplyWindow
  with_reducible repeat' first
    | (refine KeepsOut.ite ?_ ?_) | (refine Keeps.ite ?_ ?_) | assumption | apply State.inService_keeps
    | apply State.applyWindow_keeps | refine Keeps.next ?_ | (refine Covers.sub hF ?_; decide)
    | (refine fun x (hx : Keeps F r x) => ?_; try lift_lets)
    | (intro x; refine Keeps.take (s := x) ?_ fun hx => ?_; rotate_left; clear_value x; rotate_left; unfold x; try lift_lets)
    | intro x

end Sys2Proof.Machine
end

