-- ==== Sys2Proof/Laws/Keeps/StackOps.lean ====
section
/-! SUPPORT. What every command keeps, operation by operation: those of Machine/StackOps.lean. -/

namespace Sys2Proof.Machine

variable {F : List Part} {r : State}

theorem State.loseBlock_keeps {s1 : State} {a1 : Nat} (hF : Covers F [.eng]) (hs1 : Keeps F r s1) :
    Keeps F r (State.loseBlock s1 a1) := by
  unfold State.loseBlock
  try lift_lets
  with_reducible repeat' first
    | exact .inr (hF.one (by decide)) | exact .inl rfl | rfl | (refine Keeps.ite ?_ ?_) <;> try lift_lets | assumption
    | apply State.setRun_keeps | (refine Keeps.foldl (fun _ _ _ => ?_) ?_) <;> try lift_lets | (split <;> try lift_lets)
    | (refine Covers.sub hF ?_; decide)
    | (intro x; refine Keeps.take (s := x) ?_ fun hx => ?_; rotate_left; clear_value x; rotate_left; unfold x; try lift_lets)
    | intro x | refine Keeps.of_eq ?_ ?_ ?_ ?_ ?_ ?_ ?_ ?_ ?_ ?_ ?_ ?_ ?_ ?_ ?_ ?_ ?_

theorem State.loseBurst_keeps {s1 : State} {a1 a2 : Nat} (hF : Covers F [.stk]) (hs1 : Keeps F r s1) :
    Keeps F r (State.loseBurst s1 a1 a2) := by
  unfold State.loseBurst
  try lift_lets
  with_reducible repeat' first
    | exact .inr (hF.one (by decide)) | exact .inl rfl | rfl | assumption | (refine Covers.sub hF ?_; decide)
    | (intro x; refine Keeps.take (s := x) ?_ fun hx => ?_; rotate_left; clear_value x; rotate_left; unfold x; try lift_lets)
    | intro x | refine Keeps.of_eq ?_ ?_ ?_ ?_ ?_ ?_ ?_ ?_ ?_ ?_ ?_ ?_ ?_ ?_ ?_ ?_ ?_

theorem State.stopCopy_keeps {s1 : State} {a1 a2 : Nat} (hF : Covers F [.hif, .ic, .surf]) (hs1 : Keeps F r s1) :
    Keeps F r (State.stopCopy s1 a1 a2) := by
  unfold State.stopCopy
  try lift_lets
  with_reducible repeat' first
    | exact .inr (hF.one (by decide)) | exact .inl rfl | rfl | (refine Keeps.ite ?_ ?_) <;> try lift_lets | assumption
    | apply State.startWrite_keeps | apply State.endCopy_keeps | (split <;> try lift_lets)
    | (refine Covers.sub hF ?_; decide)
    | (intro x; refine Keeps.take (s := x) ?_ fun hx => ?_; rotate_left; clear_value x; rotate_left; unfold x; try lift_lets)
    | intro x | refine Keeps.of_eq ?_ ?_ ?_ ?_ ?_ ?_ ?_ ?_ ?_ ?_ ?_ ?_ ?_ ?_ ?_ ?_ ?_

theorem State.stopReadBack_keeps {s1 : State} {a1 a2 : Nat} (hF : Covers F [.hif, .ic]) (hs1 : Keeps F r s1) :
    Keeps F r (State.stopReadBack s1 a1 a2) := by
  unfold State.stopReadBack
  try lift_lets
  with_reducible repeat' first
    | exact .inr (hF.one (by decide)) | exact .inl rfl | rfl | (refine Keeps.ite ?_ ?_) <;> try lift_lets | assumption
    | apply State.hostWrite_keeps | apply State.endHeld_keeps | (split <;> try lift_lets)
    | (refine Covers.sub hF ?_; decide)
    | (intro x; refine Keeps.take (s := x) ?_ fun hx => ?_; rotate_left; clear_value x; rotate_left; unfold x; try lift_lets)
    | intro x | refine Keeps.of_eq ?_ ?_ ?_ ?_ ?_ ?_ ?_ ?_ ?_ ?_ ?_ ?_ ?_ ?_ ?_ ?_ ?_

theorem State.exhausted_keeps {s1 : State} {a1 : StackVictim} {a2 : Nat}
    (hF : Covers F [.hif, .ic, .surf, .eng, .bbn, .stk]) (hs1 : Keeps F r s1) : Keeps F r (State.exhausted s1 a1 a2) := by
  unfold State.exhausted
  with_reducible repeat' first
    | exact .inr (hF.one (by decide)) | exact .inl rfl | rfl | (refine Keeps.ite ?_ ?_) | assumption
    | apply State.loseBlock_keeps | apply State.loseBurst_keeps | apply State.setEngine_keeps | apply State.stopCopy_keeps
    | apply State.loseFrame_keeps | apply State.stopReadBack_keeps | split | (refine Covers.sub hF ?_; decide)
    | refine Keeps.of_eq ?_ ?_ ?_ ?_ ?_ ?_ ?_ ?_ ?_ ?_ ?_ ?_ ?_ ?_ ?_ ?_ ?_

theorem State.setBoundary_keeps {s1 : State} {a1 a2 : Nat} (hF : Covers F [.stk]) (hs1 : Keeps F r s1) :
    Keeps F r (State.setBoundary s1 a1 a2) := by
  unfold State.setBoundary
  try lift_lets
  with_reducible repeat' first
    | exact .inr (hF.one (by decide)) | exact .inl rfl | rfl | assumption | (refine Covers.sub hF ?_; decide)
    | (intro x; refine Keeps.take (s := x) ?_ fun hx => ?_; rotate_left; clear_value x; rotate_left; unfold x; try lift_lets)
    | intro x | refine Keeps.of_eq ?_ ?_ ?_ ?_ ?_ ?_ ?_ ?_ ?_ ?_ ?_ ?_ ?_ ?_ ?_ ?_ ?_

theorem State.setDebt_keeps {s1 : State} {a1 : Nat} {a2 : Int} (hF : Covers F [.stk]) (hs1 : Keeps F r s1) :
    Keeps F r (State.setDebt s1 a1 a2) := by
  unfold State.setDebt
  try lift_lets
  with_reducible repeat' first
    | exact .inr (hF.one (by decide)) | exact .inl rfl | rfl | assumption | (refine Covers.sub hF ?_; decide)
    | (intro x; refine Keeps.take (s := x) ?_ fun hx => ?_; rotate_left; clear_value x; rotate_left; unfold x; try lift_lets)
    | intro x | refine Keeps.of_eq ?_ ?_ ?_ ?_ ?_ ?_ ?_ ?_ ?_ ?_ ?_ ?_ ?_ ?_ ?_ ?_ ?_

theorem State.goHot_keeps {s1 : State} {a1 : Bool} {a2 : Nat} (hF : Covers F [.ic, .stk]) (hs1 : Keeps F r s1) :
    Keeps F r (State.goHot s1 a1 a2) := by
  unfold State.goHot
  try lift_lets
  with_reducible repeat' first
    | (refine Keeps.ite ?_ ?_) <;> try lift_lets | assumption | apply State.raise_keeps | apply State.bump_keeps
    | apply State.setBoundary_keeps | apply State.setDebt_keeps | (refine Covers.sub hF ?_; decide)
    | (intro x; refine Keeps.take (s := x) ?_ fun hx => ?_; rotate_left; clear_value x; rotate_left; unfold x; try lift_lets)
    | intro x

theorem State.logRow_keeps {s1 : State} {a1 a2 a3 a4 : Nat} (hF : Covers F [.ic]) (hs1 : Keeps F r s1) :
    Keeps F r (State.logRow s1 a1 a2 a3 a4) := by
  unfold State.logRow
  try lift_lets
  with_reducible repeat' first
    | exact .inr (hF.one (by decide)) | exact .inl rfl | rfl | assumption | apply State.bump_keeps | apply State.raise_keeps
    | apply State.wrs_keeps | (split <;> try lift_lets) | (refine Covers.sub hF ?_; decide)
    | (intro x; refine Keeps.take (s := x) ?_ fun hx => ?_; rotate_left; clear_value x; rotate_left; unfold x; try lift_lets)
    | intro x | refine Keeps.of_eq ?_ ?_ ?_ ?_ ?_ ?_ ?_ ?_ ?_ ?_ ?_ ?_ ?_ ?_ ?_ ?_ ?_

theorem State.mapApply_keeps {s1 : State} (hF : Covers F [.ic, .stk]) (hs1 : Keeps F r s1) :
    Keeps F r (State.mapApply s1) := by
  unfold State.mapApply
  try lift_lets
  with_reducible repeat' first
    | exact .inr (hF.one (by decide)) | exact .inl rfl | rfl | (refine Keeps.ite ?_ ?_) <;> try lift_lets | assumption
    | apply State.raise_keeps | apply State.wr_keeps | apply State.wrs_keeps | (refine Covers.sub hF ?_; decide)
    | (intro x; refine Keeps.take (s := x) ?_ fun hx => ?_; rotate_left; clear_value x; rotate_left; unfold x; try lift_lets)
    | intro x | refine Keeps.of_eq ?_ ?_ ?_ ?_ ?_ ?_ ?_ ?_ ?_ ?_ ?_ ?_ ?_ ?_ ?_ ?_ ?_

theorem State.parityFail_keeps {s1 : State} {a1 : StackVictim} {a2 a3 : Nat}
    (hF : Covers F [.hif, .ic, .sig, .surf, .obj, .eng, .light, .bbn, .stk]) (hs1 : Keeps F r s1) :
    Keeps F r (State.parityFail s1 a1 a2 a3) := by
  unfold State.parityFail
  try lift_lets
  with_reducible repeat' first
    | (refine Keeps.ite ?_ ?_) <;> try lift_lets | assumption | apply State.error_keeps | apply State.bump_keeps
    | apply State.logRow_keeps | apply State.exhausted_keeps | apply State.raise_keeps | (refine Covers.sub hF ?_; decide)
    | (intro x; refine Keeps.take (s := x) ?_ fun hx => ?_; rotate_left; clear_value x; rotate_left; unfold x; try lift_lets)
    | intro x

theorem State.refreshBoundary_keeps {s1 : State} {a1 a2 : Nat} {a3 : Bool} (hF : Covers F [.stk]) (hs1 : Keeps F r s1) :
    Keeps F r (State.refreshBoundary s1 a1 a2 a3) := by
  unfold State.refreshBoundary
  try lift_lets
  with_reducible repeat' first
    | exact .inr (hF.one (by decide)) | exact .inl rfl | rfl | (refine Keeps.ite ?_ ?_) <;> try lift_lets | assumption
    | apply State.wr_keeps | apply State.bump_keeps | apply State.setDebt_keeps | apply State.setBoundary_keeps
    | apply State.reach_keeps | (split <;> try lift_lets) | (refine Covers.sub hF ?_; decide)
    | (intro x; refine Keeps.take (s := x) ?_ fun hx => ?_; rotate_left; clear_value x; rotate_left; unfold x; try lift_lets)
    | intro x | refine Keeps.of_eq ?_ ?_ ?_ ?_ ?_ ?_ ?_ ?_ ?_ ?_ ?_ ?_ ?_ ?_ ?_ ?_ ?_

theorem State.setHot_keeps {s1 : State} {a1 : Bool} (hF : Covers F [.ic, .stk]) (hs1 : Keeps F r s1) :
    Keeps F r (State.setHot s1 a1) := by
  unfold State.setHot
  try lift_lets
  with_reducible repeat' first
    | exact .inr (hF.one (by decide)) | exact .inl rfl | rfl | (refine Keeps.ite ?_ ?_) <;> try lift_lets | assumption
    | apply State.raise_keeps | apply State.wr_keeps | apply State.goHot_keeps | apply State.setBoundary_keeps
    | (refine Keeps.foldl (fun _ _ _ => ?_) ?_) <;> try lift_lets | (refine Covers.sub hF ?_; decide)
    | (intro x; refine Keeps.take (s := x) ?_ fun hx => ?_; rotate_left; clear_value x; rotate_left; unfold x; try lift_lets)
    | intro x | refine Keeps.of_eq ?_ ?_ ?_ ?_ ?_ ?_ ?_ ?_ ?_ ?_ ?_ ?_ ?_ ?_ ?_ ?_ ?_

theorem State.trainLane_keeps {s1 : State} {a1 : Nat} {a2 : LaneSweep} (hs1 : Keeps F r s1) :
    Keeps F r (State.trainLane s1 a1 a2) := by
  unfold State.trainLane
  with_reducible repeat' first
    | assumption | apply State.wrs_keeps

theorem State.trainPc_keeps {s1 : State} {a1 : Nat} {a2 : List LaneSweep} (hs1 : Keeps F r s1) :
    Keeps F r (State.trainPc s1 a1 a2) := by
  unfold State.trainPc
  with_reducible repeat' first
    | assumption | apply State.trainLane_keeps | (refine Keeps.foldl (fun _ _ _ => ?_) ?_)

theorem execAgedTierJoin_keeps {a0 a1 a2 a3 : Nat} {a4 : Bool} {s6 : State} (hF : Covers F [.stk]) (hs6 : Keeps F r s6) :
    KeepsOut F r (execAgedTierJoin a0 a1 a2 a3 a4 s6) := by
  unfold execAgedTierJoin
  try lift_lets
  with_reducible repeat' first
    | exact .inr (hF.one (by decide)) | exact .inl rfl | rfl | (refine KeepsOut.ite ?_ ?_) <;> try lift_lets
    | (refine Keeps.ite ?_ ?_) <;> try lift_lets | assumption | apply State.inService_keeps | refine Keeps.next ?_
    | (refine Covers.sub hF ?_; decide) | (refine fun x (hx : Keeps F r x) => ?_; try lift_lets)
    | (intro x; refine Keeps.take (s := x) ?_ fun hx => ?_; rotate_left; clear_value x; rotate_left; unfold x; try lift_lets)
    | intro x | refine Keeps.of_eq ?_ ?_ ?_ ?_ ?_ ?_ ?_ ?_ ?_ ?_ ?_ ?_ ?_ ?_ ?_ ?_ ?_

theorem execC3Window_keeps {a0 a1 : Nat} {s3 : State} (hF : Covers F [.stk]) (hs3 : Keeps F r s3) :
    KeepsOut F r (execC3Window a0 a1 s3) := by
  unfold execC3Window
  try lift_lets
  with_reducible repeat' first
    | exact .inr (hF.one (by decide)) | exact .inl rfl | rfl | (refine KeepsOut.ite ?_ ?_) <;> try lift_lets
    | (refine Keeps.ite ?_ ?_) <;> try lift_lets | assumption | apply State.inService_keeps | refine Keeps.next ?_
    | (refine Covers.sub hF ?_; decide) | (refine fun x (hx : Keeps F r x) => ?_; try lift_lets)
    | (intro x; refine Keeps.take (s := x) ?_ fun hx => ?_; rotate_left; clear_value x; rotate_left; unfold x; try lift_lets)
    | intro x | refine Keeps.of_eq ?_ ?_ ?_ ?_ ?_ ?_ ?_ ?_ ?_ ?_ ?_ ?_ ?_ ?_ ?_ ?_ ?_

theorem execLaneTrack_keeps {a0 : Nat} {a1 : Bool} {s3 : State} (hF : Covers F [.ic]) (hs3 : Keeps F r s3) :
    KeepsOut F r (execLaneTrack a0 a1 s3) := by
  unfold execLaneTrack
  try lift_lets
  with_reducible repeat' first
    | (refine KeepsOut.ite ?_ ?_) <;> try lift_lets | (refine Keeps.ite ?_ ?_) <;> try lift_lets | assumption
    | apply State.inService_keeps | apply State.raise_keeps | apply State.wr_keeps | apply State.wrs_keeps
    | refine Keeps.next ?_ | (refine Covers.sub hF ?_; decide) | (refine fun x (hx : Keeps F r x) => ?_; try lift_lets)
    | (intro x; refine Keeps.take (s := x) ?_ fun hx => ?_; rotate_left; clear_value x; rotate_left; unfold x; try lift_lets)
    | intro x

theorem execMapApply_keeps {s1 : State} (hF : Covers F [.ic, .stk]) (hs1 : Keeps F r s1) :
    KeepsOut F r (execMapApply s1) := by
  unfold execMapApply
  with_reducible repeat' first
    | assumption | apply State.setup_keeps | apply State.mapApply_keeps | refine Keeps.next ?_
    | (refine Covers.sub hF ?_; decide) | (refine fun x (hx : Keeps F r x) => ?_; try lift_lets)
    | (intro x; refine Keeps.take (s := x) ?_ fun hx => ?_; rotate_left; clear_value x; rotate_left; unfold x; try lift_lets)
    | intro x

theorem execPcRetrainEnd_keeps {a0 : Nat} {a1 : List LaneSweep} {s3 : State} (hF : Covers F [.hif, .ic, .sig, .stk])
    (hs3 : Keeps F r s3) : KeepsOut F r (execPcRetrainEnd a0 a1 s3) := by
  unfold execPcRetrainEnd
  try lift_lets
  with_reducible repeat' first
    | exact .inr (hF.one (by decide)) | exact .inl rfl | rfl | (refine KeepsOut.ite ?_ ?_) <;> try lift_lets
    | (refine Keeps.ite ?_ ?_) <;> try lift_lets | assumption | apply State.inService_keeps | apply State.trainPc_keeps
    | apply State.returned_keeps | apply State.setPcFenced_keeps | apply State.endUnfences_keeps | refine Keeps.next ?_
    | (refine Covers.sub hF ?_; decide) | (refine fun x (hx : Keeps F r x) => ?_; try lift_lets)
    | (intro x; refine Keeps.take (s := x) ?_ fun hx => ?_; rotate_left; clear_value x; rotate_left; unfold x; try lift_lets)
    | intro x | refine Keeps.of_eq ?_ ?_ ?_ ?_ ?_ ?_ ?_ ?_ ?_ ?_ ?_ ?_ ?_ ?_ ?_ ?_ ?_

theorem execRefreshBoundary_keeps {a0 a1 : Nat} {a2 : Bool} {s4 : State} (hF : Covers F [.stk]) (hs4 : Keeps F r s4) :
    KeepsOut F r (execRefreshBoundary a0 a1 a2 s4) := by
  unfold execRefreshBoundary
  with_reducible repeat' first
    | (refine KeepsOut.ite ?_ ?_) | (refine Keeps.ite ?_ ?_) | assumption | apply State.inService_keeps
    | apply State.refreshBoundary_keeps | refine Keeps.next ?_ | (refine Covers.sub hF ?_; decide)
    | (refine fun x (hx : Keeps F r x) => ?_; try lift_lets)
    | (intro x; refine Keeps.take (s := x) ?_ fun hx => ?_; rotate_left; clear_value x; rotate_left; unfold x; try lift_lets)
    | intro x

theorem execStackParityFail_keeps {a0 : StackVictim} {a1 a2 : Nat} {s4 : State}
    (hF : Covers F [.hif, .ic, .sig, .surf, .obj, .eng, .light, .bbn, .stk]) (hs4 : Keeps F r s4) :
    KeepsOut F r (execStackParityFail a0 a1 a2 s4) := by
  unfold execStackParityFail
  with_reducible repeat' first
    | (refine KeepsOut.ite ?_ ?_) | (refine Keeps.ite ?_ ?_) | assumption | apply State.inService_keeps
    | apply State.parityFail_keeps | refine Keeps.next ?_ | (refine Covers.sub hF ?_; decide)
    | (refine fun x (hx : Keeps F r x) => ?_; try lift_lets)
    | (intro x; refine Keeps.take (s := x) ?_ fun hx => ?_; rotate_left; clear_value x; rotate_left; unfold x; try lift_lets)
    | intro x

theorem execStackTempRead_keeps {a0 : Bool} {a1 : Int} {s3 : State} (hF : Covers F [.ic, .stk]) (hs3 : Keeps F r s3) :
    KeepsOut F r (execStackTempRead a0 a1 s3) := by
  unfold execStackTempRead
  try lift_lets
  with_reducible repeat' first
    | (refine KeepsOut.ite ?_ ?_) <;> try lift_lets | (refine Keeps.ite ?_ ?_) <;> try lift_lets | assumption
    | apply State.inService_keeps | apply State.wrs_keeps | apply State.setHot_keeps | apply State.raise_keeps
    | apply State.bump_keeps | refine Keeps.next ?_ | (refine Covers.sub hF ?_; decide)
    | (refine fun x (hx : Keeps F r x) => ?_; try lift_lets)
    | (intro x; refine Keeps.take (s := x) ?_ fun hx => ?_; rotate_left; clear_value x; rotate_left; unfold x; try lift_lets)
    | intro x

end Sys2Proof.Machine
end

