-- ==== Sys2Proof/Laws/Keeps/SelfTest.lean ====
section
/-! SUPPORT. What every command keeps, operation by operation: those of Machine/SelfTest.lean. -/

namespace Sys2Proof.Machine

variable {F : List Part} {r : State}

theorem State.afterRun_keeps {s1 : State} {a1 a2 : Nat} {a3 : GroupRun} (hF : Covers F [.obj, .eng])
    (hs1 : Keeps F r s1) : Keeps F r (State.afterRun s1 a1 a2 a3) := by
  unfold State.afterRun
  try lift_lets
  with_reducible repeat' first
    | exact .inr (hF.one (by decide)) | exact .inl rfl | rfl | (refine Keeps.ite ?_ ?_) <;> try lift_lets | assumption
    | apply State.setPort_keeps | apply State.trainPc_keeps | (refine Covers.sub hF ?_; decide)
    | (intro x; refine Keeps.take (s := x) ?_ fun hx => ?_; rotate_left; clear_value x; rotate_left; unfold x; try lift_lets)
    | intro x | refine Keeps.of_eq ?_ ?_ ?_ ?_ ?_ ?_ ?_ ?_ ?_ ?_ ?_ ?_ ?_ ?_ ?_ ?_ ?_

theorem State.testUnit_keeps {s1 : State} {a1 a2 : Nat} (hF : Covers F [.ic, .obj, .eng, .light]) (hs1 : Keeps F r s1) :
    Keeps F r (State.testUnit s1 a1 a2) := by
  unfold State.testUnit
  try lift_lets
  with_reducible repeat' first
    | (refine Keeps.ite ?_ ?_) <;> try lift_lets | assumption | apply State.setScalerFenced_keeps
    | apply State.setBankFenced_keeps | apply State.abandonCals_keeps | apply State.endTick_keeps
    | apply State.linkOff_keeps | apply State.showResources_keeps | apply State.setPort_keeps
    | apply State.setPcFenced_keeps | (refine Keeps.foldl (fun _ _ _ => ?_) ?_) <;> try lift_lets
    | (refine Covers.sub hF ?_; decide)
    | (intro x; refine Keeps.take (s := x) ?_ fun hx => ?_; rotate_left; clear_value x; rotate_left; unfold x; try lift_lets)
    | intro x

theorem State.beginGroup_keeps {s1 : State} {a1 : Nat} (hF : Covers F [.ic, .obj, .eng, .light]) (hs1 : Keeps F r s1) :
    Keeps F r (State.beginGroup s1 a1) := by
  unfold State.beginGroup
  with_reducible repeat' first
    | assumption | apply State.testUnit_keeps | (refine Keeps.foldl (fun _ _ _ => ?_) ?_)
    | (refine Covers.sub hF ?_; decide)

theorem State.beginLong_keeps {s1 : State} {a1 : LongOp} {a2 a3 : Nat} {a4 : Option Nat} (hF : Covers F [.pwr])
    (hs1 : Keeps F r s1) : Keeps F r (State.beginLong s1 a1 a2 a3 a4) := by
  unfold State.beginLong
  try lift_lets
  with_reducible repeat' first
    | exact .inr (hF.one (by decide)) | exact .inl rfl | rfl | (refine Keeps.ite ?_ ?_) <;> try lift_lets | assumption
    | apply State.wrs_keeps | (refine Covers.sub hF ?_; decide)
    | (intro x; refine Keeps.take (s := x) ?_ fun hx => ?_; rotate_left; clear_value x; rotate_left; unfold x; try lift_lets)
    | intro x | refine Keeps.of_eq ?_ ?_ ?_ ?_ ?_ ?_ ?_ ?_ ?_ ?_ ?_ ?_ ?_ ?_ ?_ ?_ ?_

theorem State.clearLong_keeps {s1 : State} (hF : Covers F [.pwr]) (hs1 : Keeps F r s1) :
    Keeps F r (State.clearLong s1) := by
  unfold State.clearLong
  try lift_lets
  with_reducible repeat' first
    | exact .inr (hF.one (by decide)) | exact .inl rfl | rfl | assumption | apply State.wrs_keeps
    | (refine Covers.sub hF ?_; decide)
    | (intro x; refine Keeps.take (s := x) ?_ fun hx => ?_; rotate_left; clear_value x; rotate_left; unfold x; try lift_lets)
    | intro x | refine Keeps.of_eq ?_ ?_ ?_ ?_ ?_ ?_ ?_ ?_ ?_ ?_ ?_ ?_ ?_ ?_ ?_ ?_ ?_

theorem State.comeBack_keeps {s1 : State} {a1 a2 : Nat} (hF : Covers F [.hif, .ic, .sig]) (hs1 : Keeps F r s1) :
    Keeps F r (State.comeBack s1 a1 a2) := by
  unfold State.comeBack
  try lift_lets
  with_reducible repeat' first
    | (refine Keeps.ite ?_ ?_) <;> try lift_lets | assumption | apply State.clearLevels_keeps
    | apply State.endUnfences_keeps | (refine Covers.sub hF ?_; decide)
    | (intro x; refine Keeps.take (s := x) ?_ fun hx => ?_; rotate_left; clear_value x; rotate_left; unfold x; try lift_lets)
    | intro x

theorem State.completeStore_keeps {s1 : State} {a1 a2 : Nat} (hF : Covers F [.hif, .ic]) (hs1 : Keeps F r s1) :
    Keeps F r (State.completeStore s1 a1 a2) := by
  unfold State.completeStore
  with_reducible repeat' first
    | exact .inr (hF.one (by decide)) | exact .inl rfl | rfl | assumption | apply State.endHeld_keeps | split
    | (refine Covers.sub hF ?_; decide) | refine Keeps.of_eq ?_ ?_ ?_ ?_ ?_ ?_ ?_ ?_ ?_ ?_ ?_ ?_ ?_ ?_ ?_ ?_ ?_

theorem State.drawChallenge_keeps {s1 : State} (hs1 : Keeps F r s1) : Keeps F r (State.drawChallenge s1) := by
  unfold State.drawChallenge
  with_reducible repeat' first
    | exact .inl rfl | rfl | assumption | apply State.wr_keeps
    | refine Keeps.of_eq ?_ ?_ ?_ ?_ ?_ ?_ ?_ ?_ ?_ ?_ ?_ ?_ ?_ ?_ ?_ ?_ ?_

theorem State.endLong_keeps {s1 : State} {a1 : Nat} (hF : Covers F [.pwr]) (hs1 : Keeps F r s1) :
    Keeps F r (State.endLong s1 a1) := by
  unfold State.endLong
  with_reducible repeat' first
    | assumption | apply State.wr_keeps | apply State.clearLong_keeps | (refine Covers.sub hF ?_; decide)

theorem State.showRun_keeps {s1 : State} {a1 : Nat} {a2 : GroupRun} {a3 : Bool} (hs1 : Keeps F r s1) :
    Keeps F r (State.showRun s1 a1 a2 a3) := by
  unfold State.showRun
  try lift_lets
  with_reducible repeat' first
    | (refine Keeps.ite ?_ ?_) <;> try lift_lets | assumption | apply State.wrs_keeps | apply State.bump_keeps
    | apply State.wr_keeps | (refine Keeps.foldl (fun _ _ _ => ?_) ?_) <;> try lift_lets
    | (intro x; refine Keeps.take (s := x) ?_ fun hx => ?_; rotate_left; clear_value x; rotate_left; unfold x; try lift_lets)
    | intro x

theorem State.unitFails_keeps {s1 : State} {a1 a2 : Nat} (hF : Covers F [.pwr]) (hs1 : Keeps F r s1) :
    Keeps F r (State.unitFails s1 a1 a2) := by
  unfold State.unitFails
  try lift_lets
  with_reducible repeat' first
    | exact .inr (hF.one (by decide)) | exact .inl rfl | rfl | (refine Keeps.ite ?_ ?_) <;> try lift_lets | assumption
    | apply State.wr_keeps | (refine Covers.sub hF ?_; decide)
    | (intro x; refine Keeps.take (s := x) ?_ fun hx => ?_; rotate_left; clear_value x; rotate_left; unfold x; try lift_lets)
    | intro x | refine Keeps.of_eq ?_ ?_ ?_ ?_ ?_ ?_ ?_ ?_ ?_ ?_ ?_ ?_ ?_ ?_ ?_ ?_ ?_

theorem State.zeroPc_keeps {s : State} {pc : Nat} (hF : Covers F [.stk, .mem]) (h : Keeps F r s) : Keeps F r (s.zeroPc pc) := by
  unfold State.zeroPc
  have k := h.setMem (x := s.stk.mem.filter fun c => pcOfLoc c.1 != pc) (hF _ (by decide)) fun x => Tbl.wf_filter x
  exact Keeps.of_eq (s := { s with stk := { s.stk with mem := s.stk.mem.filter fun c => pcOfLoc c.1 != pc } }) k rfl rfl
    (.inl rfl) (.inl rfl) (.inl rfl) (.inl rfl) (.inl rfl) (.inl rfl) (.inl rfl) (.inl rfl) (.inl rfl) (.inl rfl)
    (.inr (hF _ (by decide))) (.inl rfl) (.inl rfl) (.inl rfl)

theorem State.unitPasses_keeps {s1 : State} {a1 a2 : Nat}
    (hF : Covers F [.hif, .ic, .sig, .obj, .eng, .light, .stk, .mem]) (hs1 : Keeps F r s1) :
    Keeps F r (State.unitPasses s1 a1 a2) := by
  unfold State.unitPasses
  try lift_lets
  with_reducible repeat' first
    | exact .inr (hF.one (by decide)) | exact .inl rfl | rfl | (refine Keeps.ite ?_ ?_) <;> try lift_lets | assumption
    | apply State.comeBack_keeps | apply State.setScalerFenced_keeps | apply State.setBankFenced_keeps
    | apply State.wr_keeps | apply State.train_keeps | apply State.setPcFenced_keeps | apply State.zeroPc_keeps
    | (refine Keeps.foldl (fun _ _ _ => ?_) ?_) <;> try lift_lets | (refine Covers.sub hF ?_; decide)
    | (intro x; refine Keeps.take (s := x) ?_ fun hx => ?_; rotate_left; clear_value x; rotate_left; unfold x; try lift_lets)
    | intro x | refine Keeps.of_eq ?_ ?_ ?_ ?_ ?_ ?_ ?_ ?_ ?_ ?_ ?_ ?_ ?_ ?_ ?_ ?_ ?_

theorem State.endGroup_keeps {s1 : State} {a1 : Nat} {a2 : GroupRun}
    (hF : Covers F [.hif, .ic, .sig, .obj, .eng, .light, .stk, .pwr, .mem]) (hs1 : Keeps F r s1) :
    Keeps F r (State.endGroup s1 a1 a2) := by
  unfold State.endGroup
  try lift_lets
  with_reducible repeat' first
    | exact .inr (hF.one (by decide)) | exact .inl rfl | rfl | (refine Keeps.ite ?_ ?_) <;> try lift_lets | assumption
    | apply State.showRun_keeps | apply State.afterRun_keeps | apply State.unitFails_keeps | apply State.unitPasses_keeps
    | apply State.showObjects_keeps | apply State.showResources_keeps | apply State.raise_keeps
    | (refine Keeps.foldl (fun _ _ _ => ?_) ?_) <;> try lift_lets | (refine Covers.sub hF ?_; decide)
    | (intro x; refine Keeps.take (s := x) ?_ fun hx => ?_; rotate_left; clear_value x; rotate_left; unfold x; try lift_lets)
    | intro x | refine Keeps.of_eq ?_ ?_ ?_ ?_ ?_ ?_ ?_ ?_ ?_ ?_ ?_ ?_ ?_ ?_ ?_ ?_ ?_

theorem State.endBist_keeps {s1 : State} {a1 : List Nat} {a2 : GroupRun}
    (hF : Covers F [.hif, .ic, .sig, .obj, .eng, .light, .stk, .pwr, .mem]) (hs1 : Keeps F r s1) :
    Keeps F r (State.endBist s1 a1 a2) := by
  unfold State.endBist
  try lift_lets
  with_reducible repeat' first
    | exact .inr (hF.one (by decide)) | exact .inl rfl | rfl | assumption | apply State.endLong_keeps
    | apply State.endGroup_keeps | apply State.beginGroup_keeps | (split <;> try lift_lets)
    | (refine Covers.sub hF ?_; decide)
    | (intro x; refine Keeps.take (s := x) ?_ fun hx => ?_; rotate_left; clear_value x; rotate_left; unfold x; try lift_lets)
    | intro x | refine Keeps.of_eq ?_ ?_ ?_ ?_ ?_ ?_ ?_ ?_ ?_ ?_ ?_ ?_ ?_ ?_ ?_ ?_ ?_

theorem State.showRepairs_keeps {s1 : State} (hs1 : Keeps F r s1) : Keeps F r (State.showRepairs s1) := by
  unfold State.showRepairs
  try lift_lets
  with_reducible repeat' first
    | (refine Keeps.ite ?_ ?_) <;> try lift_lets | assumption | apply State.wrs_keeps
    | (refine Keeps.foldl (fun _ _ _ => ?_) ?_) <;> try lift_lets
    | (intro x; refine Keeps.take (s := x) ?_ fun hx => ?_; rotate_left; clear_value x; rotate_left; unfold x; try lift_lets)
    | intro x

theorem State.endRepair_keeps {s1 : State} {a1 : Nat} {a2 : Bool} (hF : Covers F [.ic, .pwr, .fuses])
    (hs1 : Keeps F r s1) : Keeps F r (State.endRepair s1 a1 a2) := by
  unfold State.endRepair
  try lift_lets
  with_reducible repeat' first
    | exact .inr (hF.one (by decide)) | exact .inl rfl | rfl | (refine Keeps.ite ?_ ?_) <;> try lift_lets | assumption
    | apply State.endLong_keeps | apply State.raise_keeps | apply State.showRepairs_keeps | (split <;> try lift_lets)
    | (refine Covers.sub hF ?_; decide)
    | (intro x; refine Keeps.take (s := x) ?_ fun hx => ?_; rotate_left; clear_value x; rotate_left; unfold x; try lift_lets)
    | intro x | refine Keeps.of_eq ?_ ?_ ?_ ?_ ?_ ?_ ?_ ?_ ?_ ?_ ?_ ?_ ?_ ?_ ?_ ?_ ?_

theorem flashPut_wf {f : Tbl Byte} {a : Nat} {bs : List Byte} (h : Tbl.wf erased f = true) :
    Tbl.wf erased (flashPut f a bs) = true := by
  induction bs generalizing f a with
  | nil => exact h
  | cons b bs ih => exact ih (Tbl.wf_put h)

theorem flashWrite_wf {f : Tbl Byte} {a k n : Nat} {bs : List Byte} (h : Tbl.wf erased f = true) :
    Tbl.wf erased (flashWrite f a k bs n) = true := flashPut_wf (Tbl.wf_filter h)

theorem State.programFlash_keeps {s : State} {a k n : Nat} {bs : List Byte} (hF : Covers F [.flash]) (h : Keeps F r s) :
    Keeps F r (s.programFlash a k bs n) :=
  h.setFlash (hF _ (by decide)) fun x => flashWrite_wf x

theorem State.slotStands_keeps {s1 : State} {a1 a2 : Nat} (hF : Covers F [.light]) (hs1 : Keeps F r s1) :
    Keeps F r (State.slotStands s1 a1 a2) := by
  unfold State.slotStands
  try lift_lets
  with_reducible repeat' first
    | exact .inr (hF.one (by decide)) | exact .inl rfl | rfl | assumption | apply State.wrs_keeps
    | (refine Covers.sub hF ?_; decide)
    | (intro x; refine Keeps.take (s := x) ?_ fun hx => ?_; rotate_left; clear_value x; rotate_left; unfold x; try lift_lets)
    | intro x | refine Keeps.of_eq ?_ ?_ ?_ ?_ ?_ ?_ ?_ ?_ ?_ ?_ ?_ ?_ ?_ ?_ ?_ ?_ ?_

theorem State.writeOver_keeps {s1 : State} (hF : Covers F [.light]) (hs1 : Keeps F r s1) :
    Keeps F r (State.writeOver s1) := by
  unfold State.writeOver
  try lift_lets
  with_reducible repeat' first
    | exact .inr (hF.one (by decide)) | exact .inl rfl | rfl | assumption | (refine Covers.sub hF ?_; decide)
    | (intro x; refine Keeps.take (s := x) ?_ fun hx => ?_; rotate_left; clear_value x; rotate_left; unfold x; try lift_lets)
    | intro x | refine Keeps.of_eq ?_ ?_ ?_ ?_ ?_ ?_ ?_ ?_ ?_ ?_ ?_ ?_ ?_ ?_ ?_ ?_ ?_

theorem State.storeRecord_keeps {s1 : State} {a1 a2 : Bool} {a3 : Nat} {a4 : Bool} (hF : Covers F [.pwr, .flash])
    (hs1 : Keeps F r s1) : Keeps F r (State.storeRecord s1 a1 a2 a3 a4) := by
  unfold State.storeRecord
  try lift_lets
  with_reducible repeat' first
    | exact .inr (hF.one (by decide)) | exact .inl rfl | rfl | (refine Keeps.ite ?_ ?_) <;> try lift_lets | assumption
    | apply State.wr_keeps | apply State.programFlash_keeps | apply State.wrs_keeps
    | (refine Keeps.foldl (fun _ _ _ => ?_) ?_) <;> try lift_lets | (refine Covers.sub hF ?_; decide)
    | (intro x; refine Keeps.take (s := x) ?_ fun hx => ?_; rotate_left; clear_value x; rotate_left; unfold x; try lift_lets)
    | intro x | refine Keeps.of_eq ?_ ?_ ?_ ?_ ?_ ?_ ?_ ?_ ?_ ?_ ?_ ?_ ?_ ?_ ?_ ?_ ?_

theorem State.endStore_keeps {s1 : State} {a1 : Nat} {a2 : Bool} {a3 : Nat} {a4 : Bool} {a5 : Nat} {a6 : Bool}
    (hF : Covers F [.hif, .ic, .light, .pwr, .flash]) (hs1 : Keeps F r s1) :
    Keeps F r (State.endStore s1 a1 a2 a3 a4 a5 a6) := by
  unfold State.endStore
  try lift_lets
  with_reducible repeat' first
    | exact .inr (hF.one (by decide)) | exact .inl rfl | rfl | (refine Keeps.ite ?_ ?_) <;> try lift_lets | assumption
    | apply State.clearLong_keeps | apply State.programFlash_keeps | apply State.slotStands_keeps | apply State.raise_keeps
    | apply State.wr_keeps | apply State.writeOver_keeps | apply State.completeStore_keeps | apply State.storeRecord_keeps
    | (split <;> try lift_lets) | (refine Covers.sub hF ?_; decide)
    | (intro x; refine Keeps.take (s := x) ?_ fun hx => ?_; rotate_left; clear_value x; rotate_left; unfold x; try lift_lets)
    | intro x | refine Keeps.of_eq ?_ ?_ ?_ ?_ ?_ ?_ ?_ ?_ ?_ ?_ ?_ ?_ ?_ ?_ ?_ ?_ ?_

theorem State.endTransition_keeps {s1 : State} {a1 a2 : Nat} {a3 : Bool} (hF : Covers F [.ic, .pwr, .fuses])
    (hs1 : Keeps F r s1) : Keeps F r (State.endTransition s1 a1 a2 a3) := by
  unfold State.endTransition
  try lift_lets
  with_reducible repeat' first
    | exact .inr (hF.one (by decide)) | exact .inl rfl | rfl | (refine Keeps.ite ?_ ?_) <;> try lift_lets | assumption
    | apply State.endLong_keeps | apply State.drawChallenge_keeps | apply State.raise_keeps | apply State.wr_keeps
    | (split <;> try lift_lets) | (refine Covers.sub hF ?_; decide)
    | (intro x; refine Keeps.take (s := x) ?_ fun hx => ?_; rotate_left; clear_value x; rotate_left; unfold x; try lift_lets)
    | intro x | refine Keeps.of_eq ?_ ?_ ?_ ?_ ?_ ?_ ?_ ?_ ?_ ?_ ?_ ?_ ?_ ?_ ?_ ?_ ?_

theorem State.lcWrite_keeps {s1 : State} {a1 : Nat} {a2 : Bool} (hF : Covers F [.pwr]) (hs1 : Keeps F r s1) :
    Keeps F r (State.lcWrite s1 a1 a2) := by
  unfold State.lcWrite
  try lift_lets
  with_reducible repeat' first
    | (refine Keeps.ite ?_ ?_) <;> try lift_lets | assumption | apply State.beginLong_keeps
    | (refine Covers.sub hF ?_; decide)
    | (intro x; refine Keeps.take (s := x) ?_ fun hx => ?_; rotate_left; clear_value x; rotate_left; unfold x; try lift_lets)
    | intro x

theorem State.longEnd_keeps {s1 : State} {a1 : LongEnd}
    (hF : Covers F [.hif, .ic, .sig, .obj, .eng, .light, .stk, .pwr, .mem, .flash, .fuses]) (hs1 : Keeps F r s1) :
    Keeps F r (State.longEnd s1 a1) := by
  unfold State.longEnd
  with_reducible repeat' first
    | exact .inr (hF.one (by decide)) | exact .inl rfl | rfl | assumption | apply State.endTransition_keeps
    | apply State.endRepair_keeps | apply State.endStore_keeps | apply State.endBist_keeps | split
    | (refine Covers.sub hF ?_; decide) | refine Keeps.of_eq ?_ ?_ ?_ ?_ ?_ ?_ ?_ ?_ ?_ ?_ ?_ ?_ ?_ ?_ ?_ ?_ ?_

theorem State.stopBist_keeps {s1 : State} (hF : Covers F [.hif, .ic, .sig, .obj, .eng, .light, .stk, .pwr, .mem])
    (hs1 : Keeps F r s1) : Keeps F r (State.stopBist s1) := by
  unfold State.stopBist
  with_reducible repeat' first
    | exact .inr (hF.one (by decide)) | exact .inl rfl | rfl | assumption | apply State.endLong_keeps
    | apply State.endGroup_keeps | split | (refine Covers.sub hF ?_; decide)
    | refine Keeps.of_eq ?_ ?_ ?_ ?_ ?_ ?_ ?_ ?_ ?_ ?_ ?_ ?_ ?_ ?_ ?_ ?_ ?_

theorem execBistStart_keeps {a0 : Nat} {s2 : State} (hF : Covers F [.ic, .obj, .eng, .light, .pwr]) (hs2 : Keeps F r s2) :
    KeepsOut F r (execBistStart a0 s2) := by
  unfold execBistStart
  try lift_lets
  with_reducible repeat' first
    | (refine KeepsOut.ite ?_ ?_) <;> try lift_lets | (refine Keeps.ite ?_ ?_) <;> try lift_lets | assumption
    | apply State.setup_keeps | apply State.wr_keeps | apply State.wrs_keeps | apply State.beginGroup_keeps
    | apply State.beginLong_keeps | refine Keeps.next ?_ | (refine Covers.sub hF ?_; decide)
    | (refine fun x (hx : Keeps F r x) => ?_; try lift_lets)
    | (intro x; refine Keeps.take (s := x) ?_ fun hx => ?_; rotate_left; clear_value x; rotate_left; unfold x; try lift_lets)
    | intro x

theorem execLongOperationEnd_keeps {a0 : LongEnd} {s2 : State}
    (hF : Covers F [.hif, .ic, .sig, .obj, .eng, .light, .stk, .pwr, .mem, .flash, .fuses]) (hs2 : Keeps F r s2) :
    KeepsOut F r (execLongOperationEnd a0 s2) := by
  unfold execLongOperationEnd
  with_reducible repeat' first
    | assumption | apply State.inService_keeps | apply State.longEnd_keeps | refine Keeps.next ?_
    | (refine Covers.sub hF ?_; decide) | (refine fun x (hx : Keeps F r x) => ?_; try lift_lets)
    | (intro x; refine Keeps.take (s := x) ?_ fun hx => ?_; rotate_left; clear_value x; rotate_left; unfold x; try lift_lets)
    | intro x

theorem execProgramRepair_keeps {s1 : State} (hF : Covers F [.pwr]) (hs1 : Keeps F r s1) :
    KeepsOut F r (execProgramRepair s1) := by
  unfold execProgramRepair
  try lift_lets
  with_reducible repeat' first
    | (refine KeepsOut.ite ?_ ?_) <;> try lift_lets | (refine Keeps.ite ?_ ?_) <;> try lift_lets | assumption
    | apply State.setup_keeps | apply State.beginLong_keeps | refine Keeps.next ?_ | (refine Covers.sub hF ?_; decide)
    | (refine fun x (hx : Keeps F r x) => ?_; try lift_lets)
    | (intro x; refine Keeps.take (s := x) ?_ fun hx => ?_; rotate_left; clear_value x; rotate_left; unfold x; try lift_lets)
    | intro x

theorem execToField_keeps {a0 : Nat} {s2 : State} (hF : Covers F [.pwr]) (hs2 : Keeps F r s2) :
    KeepsOut F r (execToField a0 s2) := by
  unfold execToField
  with_reducible repeat' first
    | (refine KeepsOut.ite ?_ ?_) | (refine Keeps.ite ?_ ?_) | assumption | apply State.setup_keeps
    | apply State.lcWrite_keeps | refine Keeps.next ?_ | (refine Covers.sub hF ?_; decide)
    | (refine fun x (hx : Keeps F r x) => ?_; try lift_lets)
    | (intro x; refine Keeps.take (s := x) ?_ fun hx => ?_; rotate_left; clear_value x; rotate_left; unfold x; try lift_lets)
    | intro x

theorem execToReturn_keeps {a0 : Nat} {a1 : Bool} {s3 : State} (hF : Covers F [.pwr]) (hs3 : Keeps F r s3) :
    KeepsOut F r (execToReturn a0 a1 s3) := by
  unfold execToReturn
  with_reducible repeat' first
    | (refine KeepsOut.ite ?_ ?_) | (refine Keeps.ite ?_ ?_) | assumption | apply State.setup_keeps
    | apply State.lcWrite_keeps | refine Keeps.next ?_ | (refine Covers.sub hF ?_; decide)
    | (refine fun x (hx : Keeps F r x) => ?_; try lift_lets)
    | (intro x; refine Keeps.take (s := x) ?_ fun hx => ?_; rotate_left; clear_value x; rotate_left; unfold x; try lift_lets)
    | intro x

theorem execToTest_keeps {a0 : Nat} {s2 : State} (hF : Covers F [.pwr]) (hs2 : Keeps F r s2) :
    KeepsOut F r (execToTest a0 s2) := by
  unfold execToTest
  with_reducible repeat' first
    | (refine KeepsOut.ite ?_ ?_) | (refine Keeps.ite ?_ ?_) | assumption | apply State.setup_keeps
    | apply State.lcWrite_keeps | refine Keeps.next ?_ | (refine Covers.sub hF ?_; decide)
    | (refine fun x (hx : Keeps F r x) => ?_; try lift_lets)
    | (intro x; refine Keeps.take (s := x) ?_ fun hx => ?_; rotate_left; clear_value x; rotate_left; unfold x; try lift_lets)
    | intro x

end Sys2Proof.Machine
end

