-- ==== Sys2Proof/Laws/Keeps/PowerUp.lean ====
section
/-! SUPPORT. What every command keeps, operation by operation: those of Machine/PowerUp.lean. -/

namespace Sys2Proof.Machine

variable {F : List Part} {r : State}

theorem State.loseLock_keeps {s1 : State} {a1 : Nat} (hF : Covers F [.ic, .eng, .light]) (hs1 : Keeps F r s1) :
    Keeps F r (State.loseLock s1 a1) := by
  unfold State.loseLock
  try lift_lets
  with_reducible repeat' first
    | assumption | apply State.setLinkState_keeps | apply State.setLink_keeps | apply State.leaveRun_keeps
    | (refine Covers.sub hF ?_; decide)
    | (intro x; refine Keeps.take (s := x) ?_ fun hx => ?_; rotate_left; clear_value x; rotate_left; unfold x; try lift_lets)
    | intro x

theorem State.clockLoss_keeps {s1 : State} {a1 : Clock}
    (hF : Covers F [.hif, .ic, .sig, .tick, .surf, .comp, .eng, .light, .bbn, .pwr]) (hs1 : Keeps F r s1) :
    Keeps F r (State.clockLoss s1 a1) := by
  unfold State.clockLoss
  try lift_lets
  with_reducible repeat' first
    | exact .inr (hF.one (by decide)) | exact .inl rfl | rfl | (refine Keeps.ite ?_ ?_) <;> try lift_lets | assumption
    | apply State.linkOff_keeps | apply State.inService_keeps | apply State.loseLock_keeps | apply State.bbnLock_keeps
    | apply State.hostReset_keeps | (refine Keeps.foldl (fun _ _ _ => ?_) ?_) <;> try lift_lets | (split <;> try lift_lets)
    | (refine Covers.sub hF ?_; decide) | (refine fun x (hx : Keeps F r x) => ?_; try lift_lets)
    | (intro x; refine Keeps.take (s := x) ?_ fun hx => ?_; rotate_left; clear_value x; rotate_left; unfold x; try lift_lets)
    | intro x | refine Keeps.of_eq ?_ ?_ ?_ ?_ ?_ ?_ ?_ ?_ ?_ ?_ ?_ ?_ ?_ ?_ ?_ ?_ ?_

theorem State.clockReturn_keeps {s1 : State} {a1 : Clock} (hF : Covers F [.ic, .eng, .light, .pwr]) (hs1 : Keeps F r s1) :
    Keeps F r (State.clockReturn s1 a1) := by
  unfold State.clockReturn
  try lift_lets
  with_reducible repeat' first
    | exact .inr (hF.one (by decide)) | exact .inl rfl | rfl | (refine Keeps.ite ?_ ?_) <;> try lift_lets | assumption
    | apply State.inService_keeps | apply State.train_keeps | (refine Keeps.foldl (fun _ _ _ => ?_) ?_) <;> try lift_lets
    | (split <;> try lift_lets) | (refine Covers.sub hF ?_; decide) | (refine fun x (hx : Keeps F r x) => ?_; try lift_lets)
    | (intro x; refine Keeps.take (s := x) ?_ fun hx => ?_; rotate_left; clear_value x; rotate_left; unfold x; try lift_lets)
    | intro x | refine Keeps.of_eq ?_ ?_ ?_ ?_ ?_ ?_ ?_ ?_ ?_ ?_ ?_ ?_ ?_ ?_ ?_ ?_ ?_

theorem State.fenceUnit_keeps {s1 : State} {a1 a2 : Nat} (hF : Covers F [.ic, .obj, .pwr]) (hs1 : Keeps F r s1) :
    Keeps F r (State.fenceUnit s1 a1 a2) := by
  unfold State.fenceUnit
  with_reducible repeat' first
    | (refine Keeps.ite ?_ ?_) | assumption | apply State.wr_keeps | apply State.setScalerFenced_keeps
    | apply State.unitFails_keeps | apply State.setBankFenced_keeps | apply State.setPcFenced_keeps
    | (refine Covers.sub hF ?_; decide)

theorem State.loadFuses_keeps {s1 : State} {a1 : FuseRead} (hF : Covers F [.pwr, .fuses]) (hs1 : Keeps F r s1) :
    Keeps F r (State.loadFuses s1 a1) := by
  unfold State.loadFuses
  try lift_lets
  with_reducible repeat' first
    | exact .inr (hF.one (by decide)) | exact .inl rfl | rfl | (refine Keeps.ite ?_ ?_) <;> try lift_lets | assumption
    | apply State.showRepairs_keeps | apply State.wrs_keeps | (refine Covers.sub hF ?_; decide)
    | (intro x; refine Keeps.take (s := x) ?_ fun hx => ?_; rotate_left; clear_value x; rotate_left; unfold x; try lift_lets)
    | intro x | refine Keeps.of_eq ?_ ?_ ?_ ?_ ?_ ?_ ?_ ?_ ?_ ?_ ?_ ?_ ?_ ?_ ?_ ?_ ?_

theorem State.logUnrepaired_keeps {s1 : State} {a1 : Nat × Nat × Nat} (hF : Covers F [.ic]) (hs1 : Keeps F r s1) :
    Keeps F r (State.logUnrepaired s1 a1) := by
  unfold State.logUnrepaired
  with_reducible repeat' first
    | exact .inr (hF.one (by decide)) | exact .inl rfl | rfl | assumption | apply State.logRow_keeps
    | (refine Covers.sub hF ?_; decide) | refine Keeps.of_eq ?_ ?_ ?_ ?_ ?_ ?_ ?_ ?_ ?_ ?_ ?_ ?_ ?_ ?_ ?_ ?_ ?_

/-! PORST_L takes device time back to 0 and every register to its reset value; the queue and the boot flash stand. -/

theorem State.held0_pending {s : State} : s.held0.pending = s.pending := rfl
theorem State.held0_now {s : State} : s.held0.now = 0 := rfl
theorem State.held0_regs {s : State} : s.held0.regs = [] := rfl
theorem State.held0_mem {s : State} : s.held0.stk.mem = [] := rfl
theorem State.held0_flash {s : State} : s.held0.light.cal.flash = s.light.cal.flash := rfl

theorem State.porstRise_keeps {s : State} {g : Nat} (hF : Covers F [.eng, .pwr]) : Keeps F s.held0 (s.porstRise g) := by
  unfold State.porstRise
  exact State.drawChallenge_keeps (State.wrs_keeps (Keeps.of_eq (Keeps.refl _) rfl rfl (.inl rfl) (.inl rfl) (.inl rfl)
    (.inl rfl) (.inl rfl) (.inl rfl) (.inl rfl) (.inr (hF _ (by decide))) (.inl rfl) (.inl rfl) (.inl rfl) (.inl rfl)
    (.inr (hF _ (by decide))) (.inl rfl)))

theorem State.pwrFall_keeps {s1 : State} (hF : Covers F [.hif, .ic, .sig, .obj, .eng, .light, .stk, .pwr, .mem])
    (hs1 : Keeps F r s1) : Keeps F r (State.pwrFall s1) := by
  unfold State.pwrFall
  try lift_lets
  with_reducible repeat' first
    | exact .inr (hF.one (by decide)) | exact .inl rfl | rfl | (refine Keeps.ite ?_ ?_) <;> try lift_lets | assumption
    | apply State.inService_keeps | apply State.stopBist_keeps | apply State.raise_keeps | apply State.wr_keeps
    | apply State.withdrawPermit_keeps | (refine Covers.sub hF ?_; decide)
    | (refine fun x (hx : Keeps F r x) => ?_; try lift_lets)
    | (intro x; refine Keeps.take (s := x) ?_ fun hx => ?_; rotate_left; clear_value x; rotate_left; unfold x; try lift_lets)
    | intro x | refine Keeps.of_eq ?_ ?_ ?_ ?_ ?_ ?_ ?_ ?_ ?_ ?_ ?_ ?_ ?_ ?_ ?_ ?_ ?_

theorem State.pwrRise_keeps {s1 : State} (hF : Covers F [.ic, .pwr]) (hs1 : Keeps F r s1) :
    Keeps F r (State.pwrRise s1) := by
  unfold State.pwrRise
  try lift_lets
  with_reducible repeat' first
    | exact .inr (hF.one (by decide)) | exact .inl rfl | rfl | (refine Keeps.ite ?_ ?_) <;> try lift_lets | assumption
    | apply State.raise_keeps | apply State.wr_keeps | (refine Covers.sub hF ?_; decide)
    | (intro x; refine Keeps.take (s := x) ?_ fun hx => ?_; rotate_left; clear_value x; rotate_left; unfold x; try lift_lets)
    | intro x | refine Keeps.of_eq ?_ ?_ ?_ ?_ ?_ ?_ ?_ ?_ ?_ ?_ ?_ ?_ ?_ ?_ ?_ ?_ ?_

theorem State.reachReady_keeps {s1 : State} (hF : Covers F [.ic, .obj, .pwr]) (hs1 : Keeps F r s1) :
    Keeps F r (State.reachReady s1) := by
  unfold State.reachReady
  try lift_lets
  with_reducible repeat' first
    | exact .inr (hF.one (by decide)) | exact .inl rfl | rfl | (refine Keeps.ite ?_ ?_) <;> try lift_lets | assumption
    | apply State.fenceUnit_keeps | apply State.setPcFenced_keeps | apply State.logUnrepaired_keeps | apply State.wrs_keeps
    | apply State.showResources_keeps | apply State.raise_keeps
    | (refine Keeps.foldl (fun _ _ _ => ?_) ?_) <;> try lift_lets | (refine Covers.sub hF ?_; decide)
    | (intro x; refine Keeps.take (s := x) ?_ fun hx => ?_; rotate_left; clear_value x; rotate_left; unfold x; try lift_lets)
    | intro x | refine Keeps.of_eq ?_ ?_ ?_ ?_ ?_ ?_ ?_ ?_ ?_ ?_ ?_ ?_ ?_ ?_ ?_ ?_ ?_

theorem State.readFlash_keeps {s1 : State} (hF : Covers F [.light, .pwr]) (hs1 : Keeps F r s1) :
    Keeps F r (State.readFlash s1) := by
  unfold State.readFlash
  try lift_lets
  with_reducible repeat' first
    | exact .inr (hF.one (by decide)) | exact .inl rfl | rfl | (refine Keeps.ite ?_ ?_) <;> try lift_lets | assumption
    | apply State.wrs_keeps | apply State.loadStore_keeps | (split <;> try lift_lets) | (refine Covers.sub hF ?_; decide)
    | (intro x; refine Keeps.take (s := x) ?_ fun hx => ?_; rotate_left; clear_value x; rotate_left; unfold x; try lift_lets)
    | intro x | refine Keeps.of_eq ?_ ?_ ?_ ?_ ?_ ?_ ?_ ?_ ?_ ?_ ?_ ?_ ?_ ?_ ?_ ?_ ?_

theorem State.repairRows_keeps {s1 : State} (hF : Covers F [.pwr]) (hs1 : Keeps F r s1) :
    Keeps F r (State.repairRows s1) := by
  unfold State.repairRows
  try lift_lets
  with_reducible repeat' first
    | exact .inr (hF.one (by decide)) | exact .inl rfl | rfl | assumption | apply State.wrs_keeps
    | (refine Covers.sub hF ?_; decide)
    | (intro x; refine Keeps.take (s := x) ?_ fun hx => ?_; rotate_left; clear_value x; rotate_left; unfold x; try lift_lets)
    | intro x | refine Keeps.of_eq ?_ ?_ ?_ ?_ ?_ ?_ ?_ ?_ ?_ ?_ ?_ ?_ ?_ ?_ ?_ ?_ ?_

theorem State.setStep_keeps {s1 : State} {a1 : Nat} (hF : Covers F [.pwr]) (hs1 : Keeps F r s1) :
    Keeps F r (State.setStep s1 a1) := by
  unfold State.setStep
  try lift_lets
  with_reducible repeat' first
    | exact .inr (hF.one (by decide)) | exact .inl rfl | rfl | assumption | (refine Covers.sub hF ?_; decide)
    | (intro x; refine Keeps.take (s := x) ?_ fun hx => ?_; rotate_left; clear_value x; rotate_left; unfold x; try lift_lets)
    | intro x | refine Keeps.of_eq ?_ ?_ ?_ ?_ ?_ ?_ ?_ ?_ ?_ ?_ ?_ ?_ ?_ ?_ ?_ ?_ ?_

theorem State.startGroup_keeps {s1 : State} {a1 : Nat} {a2 : GroupRun} (hF : Covers F [.pwr]) (hs1 : Keeps F r s1) :
    Keeps F r (State.startGroup s1 a1 a2) := by
  unfold State.startGroup
  try lift_lets
  with_reducible repeat' first
    | exact .inr (hF.one (by decide)) | exact .inl rfl | rfl | (refine Keeps.ite ?_ ?_) <;> try lift_lets | assumption
    | apply State.showRun_keeps | (refine Covers.sub hF ?_; decide)
    | (intro x; refine Keeps.take (s := x) ?_ fun hx => ?_; rotate_left; clear_value x; rotate_left; unfold x; try lift_lets)
    | intro x | refine Keeps.of_eq ?_ ?_ ?_ ?_ ?_ ?_ ?_ ?_ ?_ ?_ ?_ ?_ ?_ ?_ ?_ ?_ ?_

theorem State.zeroAll_keeps {s : State} (hF : Covers F [.mem]) (h : Keeps F r s) : Keeps F r s.zeroAll :=
  h.setMem (hF _ (by decide)) fun _ => Tbl.wf_nil

theorem State.trainAll_keeps {s : State} {ws : List LaneSweep} (hF : Covers F [.pwr, .mem]) (h : Keeps F r s) : Keeps F r (s.trainAll ws) := by
  unfold State.trainAll
  have k : Keeps F r ((List.range 32).foldl (fun s pc => s.trainPc pc ((ws.drop (4 * pc)).take 4)) s) :=
    Keeps.foldl (fun _ _ hx => State.trainPc_keeps hx) h
  revert k
  dsimp only
  generalize (List.range 32).foldl (fun s pc => s.trainPc pc ((ws.drop (4 * pc)).take 4)) s = x
  intro k
  generalize (List.range 32).filter (fun pc => !x.pcTrained pc) = bad
  exact State.wr_keeps (Keeps.of_eq (State.zeroAll_keeps (hF.sub (by decide)) k) rfl rfl (.inl rfl) (.inl rfl) (.inl rfl) (.inl rfl) (.inl rfl)
    (.inl rfl) (.inl rfl) (.inl rfl) (.inl rfl) (.inl rfl) (.inl rfl) (.inl rfl) (.inr (hF _ (by decide))) (.inl rfl))

theorem State.stepEnd_keeps {s1 : State} {a1 : StepEnd} (hF : Covers F [.ic, .obj, .light, .pwr, .mem, .fuses])
    (hs1 : Keeps F r s1) : Keeps F r (State.stepEnd s1 a1) := by
  unfold State.stepEnd
  try lift_lets
  with_reducible repeat' first
    | exact .inr (hF.one (by decide)) | exact .inl rfl | rfl | (refine Keeps.ite ?_ ?_) <;> try lift_lets | assumption
    | apply State.setStep_keeps | apply State.loadFuses_keeps | apply State.startGroup_keeps | apply State.readFlash_keeps
    | apply State.repairRows_keeps | apply State.reachReady_keeps | apply State.trainAll_keeps | (split <;> try lift_lets)
    | (refine Covers.sub hF ?_; decide)
    | (intro x; refine Keeps.take (s := x) ?_ fun hx => ?_; rotate_left; clear_value x; rotate_left; unfold x; try lift_lets)
    | intro x | refine Keeps.of_eq ?_ ?_ ?_ ?_ ?_ ?_ ?_ ?_ ?_ ?_ ?_ ?_ ?_ ?_ ?_ ?_ ?_

theorem execClockLoss_keeps {a0 : Clock} {s2 : State}
    (hF : Covers F [.hif, .ic, .sig, .tick, .surf, .comp, .eng, .light, .bbn, .pwr]) (hs2 : Keeps F r s2) :
    KeepsOut F r (execClockLoss a0 s2) := by
  unfold execClockLoss
  with_reducible repeat' first
    | exact .inr (hF.one (by decide)) | exact .inl rfl | rfl | (refine KeepsOut.ite ?_ ?_) | (refine Keeps.ite ?_ ?_)
    | assumption | apply State.clockLoss_keeps | refine Keeps.next ?_ | split | (refine Covers.sub hF ?_; decide)
    | refine Keeps.of_eq ?_ ?_ ?_ ?_ ?_ ?_ ?_ ?_ ?_ ?_ ?_ ?_ ?_ ?_ ?_ ?_ ?_

theorem execClockReturn_keeps {a0 : Clock} {s2 : State} (hF : Covers F [.ic, .eng, .light, .pwr]) (hs2 : Keeps F r s2) :
    KeepsOut F r (execClockReturn a0 s2) := by
  unfold execClockReturn
  with_reducible repeat' first
    | exact .inr (hF.one (by decide)) | exact .inl rfl | rfl | (refine KeepsOut.ite ?_ ?_) | (refine Keeps.ite ?_ ?_)
    | assumption | apply State.clockReturn_keeps | refine Keeps.next ?_ | split | (refine Covers.sub hF ?_; decide)
    | refine Keeps.of_eq ?_ ?_ ?_ ?_ ?_ ?_ ?_ ?_ ?_ ?_ ?_ ?_ ?_ ?_ ?_ ?_ ?_

theorem execPwrOkFall_keeps {s1 : State} (hF : Covers F [.hif, .ic, .sig, .obj, .eng, .light, .stk, .pwr, .mem])
    (hs1 : Keeps F r s1) : KeepsOut F r (execPwrOkFall s1) := by
  unfold execPwrOkFall
  with_reducible repeat' first
    | (refine KeepsOut.ite ?_ ?_) | (refine Keeps.ite ?_ ?_) | assumption | apply State.pwrFall_keeps | refine Keeps.next ?_
    | (refine Covers.sub hF ?_; decide)

theorem execPwrOkRise_keeps {s1 : State} (hF : Covers F [.ic, .pwr]) (hs1 : Keeps F r s1) :
    KeepsOut F r (execPwrOkRise s1) := by
  unfold execPwrOkRise
  with_reducible repeat' first
    | (refine KeepsOut.ite ?_ ?_) | (refine Keeps.ite ?_ ?_) | assumption | apply State.pwrRise_keeps | refine Keeps.next ?_
    | (refine Covers.sub hF ?_; decide)

theorem execStartUpStepEnd_keeps {a0 : StepEnd} {s2 : State} (hF : Covers F [.ic, .obj, .light, .pwr, .mem, .fuses])
    (hs2 : Keeps F r s2) : KeepsOut F r (execStartUpStepEnd a0 s2) := by
  unfold execStartUpStepEnd
  with_reducible repeat' first
    | (refine KeepsOut.ite ?_ ?_) | (refine Keeps.ite ?_ ?_) | assumption | apply State.stepEnd_keeps | refine Keeps.next ?_
    | (refine Covers.sub hF ?_; decide)

end Sys2Proof.Machine
end

