-- ==== Sys2Proof/Laws/Keeps/ReadBack.lean ====
section
/-! SUPPORT. What every command keeps, operation by operation: those of Machine/ReadBack.lean. -/

namespace Sys2Proof.Machine

variable {F : List Part} {r : State}

theorem State.readBackCount_keeps {s1 : State} {a1 : Desc} {a2 a3 : Nat} (hF : Covers F [.stk]) (hs1 : Keeps F r s1) :
    Keeps F r (State.readBackCount s1 a1 a2 a3) := by
  unfold State.readBackCount
  with_reducible repeat' first
    | exact .inr (hF.one (by decide)) | exact .inl rfl | rfl | assumption | apply State.countC3_keeps
    | apply State.countFenced_keeps | split | (refine Covers.sub hF ?_; decide)
    | refine Keeps.of_eq ?_ ?_ ?_ ?_ ?_ ?_ ?_ ?_ ?_ ?_ ?_ ?_ ?_ ?_ ?_ ?_ ?_

theorem State.readBackEdge_keeps {s1 : State} (hF : Covers F [.hif, .ic]) (hs1 : Keeps F r s1) :
    Keeps F r (State.readBackEdge s1) := by
  unfold State.readBackEdge
  with_reducible repeat' first
    | exact .inr (hF.one (by decide)) | exact .inl rfl | rfl | (refine Keeps.ite ?_ ?_) | assumption
    | apply State.endHeld_keeps | apply State.setReel_keeps | (refine Keeps.foldl (fun _ _ _ => ?_) ?_) | split
    | (refine Covers.sub hF ?_; decide) | refine Keeps.of_eq ?_ ?_ ?_ ?_ ?_ ?_ ?_ ?_ ?_ ?_ ?_ ?_ ?_ ?_ ?_ ?_ ?_

theorem State.readBackPiece_keeps {s1 : State} {a1 : Nat} {a2 : Desc} {a3 : Nat} {a4 : List Byte} {a5 : Nat}
    (hF : Covers F [.hif, .ic, .stk]) (hs1 : Keeps F r s1) : Keeps F r (State.readBackPiece s1 a1 a2 a3 a4 a5) := by
  unfold State.readBackPiece
  try lift_lets
  with_reducible repeat' first
    | (refine Keeps.ite ?_ ?_) <;> try lift_lets | assumption | apply State.readBackCount_keeps
    | apply State.hostWrite_keeps | apply State.endHeld_keeps | apply State.setReel_keeps
    | (refine Covers.sub hF ?_; decide)
    | (intro x; refine Keeps.take (s := x) ?_ fun hx => ?_; rotate_left; clear_value x; rotate_left; unfold x; try lift_lets)
    | intro x

theorem State.readBackMore_keeps {s1 : State} {a1 : Nat} {a2 : Desc} {a3 : Nat} {a4 : List Byte} {a5 : Nat}
    (hF : Covers F [.hif, .ic, .stk]) (hs1 : Keeps F r s1) : Keeps F r (State.readBackMore s1 a1 a2 a3 a4 a5) := by
  unfold State.readBackMore
  with_reducible repeat' first
    | (refine Keeps.ite ?_ ?_) | assumption | apply State.readBackPiece_keeps | (refine Covers.sub hF ?_; decide)

theorem readBackBody_keeps {a0 : Nat} {a1 : Desc} {s3 : State} (hs3 : Keeps F r s3) :
    KeepsRes F r (readBackBody a0 a1 s3) := by
  unfold readBackBody
  with_reducible repeat' first
    | (refine KeepsRes.ite ?_ ?_) | (refine Keeps.ite ?_ ?_) | assumption | apply State.checked_keeps | exact Keeps.rest
    | refine Keeps.done ?_ | refine Keeps.wait ?_ | refine Keeps.admitted ?_
    | (refine fun x (hx : Keeps F r x) => ?_; try lift_lets)
    | (intro x; refine Keeps.take (s := x) ?_ fun hx => ?_; rotate_left; clear_value x; rotate_left; unfold x; try lift_lets)
    | intro x

theorem execReadBack_keeps {a0 : Nat} {s2 : State} (hF : Covers F [.hif, .ic]) (hs2 : Keeps F r s2) :
    KeepsOut F r (execReadBack a0 s2) := by
  unfold execReadBack
  with_reducible repeat' first
    | assumption | apply State.descriptor_keeps | apply readBackBody_keeps | refine Keeps.next ?_
    | (refine Covers.sub hF ?_; decide) | (refine fun x (hx : Keeps F r x) => ?_; try lift_lets)
    | (intro x; refine Keeps.take (s := x) ?_ fun hx => ?_; rotate_left; clear_value x; rotate_left; unfold x; try lift_lets)
    | intro x

theorem execReadBackEnd_keeps {a0 a1 : Nat} {s3 : State} (hF : Covers F [.hif, .ic, .stk]) (hs3 : Keeps F r s3) :
    KeepsOut F r (execReadBackEnd a0 a1 s3) := by
  unfold execReadBackEnd
  with_reducible repeat' first
    | exact .inr (hF.one (by decide)) | exact .inl rfl | rfl | assumption | apply State.inService_keeps
    | apply State.readBackMore_keeps | refine Keeps.next ?_ | split | (refine Covers.sub hF ?_; decide)
    | (refine fun x (hx : Keeps F r x) => ?_; try lift_lets)
    | (intro x; refine Keeps.take (s := x) ?_ fun hx => ?_; rotate_left; clear_value x; rotate_left; unfold x; try lift_lets)
    | intro x | refine Keeps.of_eq ?_ ?_ ?_ ?_ ?_ ?_ ?_ ?_ ?_ ?_ ?_ ?_ ?_ ?_ ?_ ?_ ?_

end Sys2Proof.Machine
end

