-- ==== Sys2Proof/Laws/Keeps/SetupPort.lean ====
section
/-! SUPPORT. What every command keeps, operation by operation: those of Machine/SetupPort.lean. -/

namespace Sys2Proof.Machine

variable {F : List Part} {r : State}

theorem State.afterWrite_keeps {s1 : State} {a1 : Nat} (hF : Covers F [.tick, .light, .pwr]) (hs1 : Keeps F r s1) :
    Keeps F r (State.afterWrite s1 a1) := by
  unfold State.afterWrite
  try lift_lets
  with_reducible repeat' first
    | exact .inr (hF.one (by decide)) | exact .inl rfl | rfl | (refine Keeps.ite ?_ ?_) <;> try lift_lets | assumption
    | apply State.settlePins_keeps | apply State.showAwait_keeps | apply State.driveLsafe_keeps | apply State.wr_keeps
    | apply State.trySwitch_keeps | apply State.wrs_keeps | (refine Covers.sub hF ?_; decide)
    | (intro x; refine Keeps.take (s := x) ?_ fun hx => ?_; rotate_left; clear_value x; rotate_left; unfold x; try lift_lets)
    | intro x | refine Keeps.of_eq ?_ ?_ ?_ ?_ ?_ ?_ ?_ ?_ ?_ ?_ ?_ ?_ ?_ ?_ ?_ ?_ ?_

theorem State.dropHeld_keeps {s1 : State} {a1 : Nat} (hF : Covers F [.hif]) (hs1 : Keeps F r s1) :
    Keeps F r (State.dropHeld s1 a1) := by
  unfold State.dropHeld
  try lift_lets
  with_reducible repeat' first
    | exact .inr (hF.one (by decide)) | exact .inl rfl | rfl | assumption | (refine Covers.sub hF ?_; decide)
    | (intro x; refine Keeps.take (s := x) ?_ fun hx => ?_; rotate_left; clear_value x; rotate_left; unfold x; try lift_lets)
    | intro x | refine Keeps.of_eq ?_ ?_ ?_ ?_ ?_ ?_ ?_ ?_ ?_ ?_ ?_ ?_ ?_ ?_ ?_ ?_ ?_

theorem State.freezeClock_keeps {s1 : State} {a1 : Nat} (hF : Covers F [.light]) (hs1 : Keeps F r s1) :
    Keeps F r (State.freezeClock s1 a1) := by
  unfold State.freezeClock
  try lift_lets
  with_reducible repeat' first
    | exact .inr (hF.one (by decide)) | exact .inl rfl | rfl | (refine Keeps.ite ?_ ?_) <;> try lift_lets | assumption
    | apply State.wr_keeps | (refine Covers.sub hF ?_; decide)
    | (intro x; refine Keeps.take (s := x) ?_ fun hx => ?_; rotate_left; clear_value x; rotate_left; unfold x; try lift_lets)
    | intro x | refine Keeps.of_eq ?_ ?_ ?_ ?_ ?_ ?_ ?_ ?_ ?_ ?_ ?_ ?_ ?_ ?_ ?_ ?_ ?_

theorem State.msixWrite_keeps {s1 : State} {a1 : Nat} {a2 : Word} (hF : Covers F [.hif]) (hs1 : Keeps F r s1) :
    Keeps F r (State.msixWrite s1 a1 a2) := by
  unfold State.msixWrite
  try lift_lets
  with_reducible repeat' first
    | exact .inr (hF.one (by decide)) | exact .inl rfl | rfl | (refine Keeps.ite ?_ ?_) <;> try lift_lets | assumption
    | apply State.flushPba_keeps | (refine Covers.sub hF ?_; decide)
    | (intro x; refine Keeps.take (s := x) ?_ fun hx => ?_; rotate_left; clear_value x; rotate_left; unfold x; try lift_lets)
    | intro x | refine Keeps.of_eq ?_ ?_ ?_ ?_ ?_ ?_ ?_ ?_ ?_ ?_ ?_ ?_ ?_ ?_ ?_ ?_ ?_

theorem State.storeWord_keeps {s1 : State} {a1 : RegRow} {a2 a3 : Nat} {a4 : Word} (hs1 : Keeps F r s1) :
    Keeps F r (State.storeWord s1 a1 a2 a3 a4) := by
  unfold State.storeWord
  try lift_lets
  with_reducible repeat' first
    | assumption | apply State.setWord_keeps
    | (intro x; refine Keeps.take (s := x) ?_ fun hx => ?_; rotate_left; clear_value x; rotate_left; unfold x; try lift_lets)
    | intro x

theorem State.write64_keeps {s1 : State} {a1 : RegRow} {a2 a3 : Nat} (hF : Covers F [.hif, .tick, .light, .pwr])
    (hs1 : Keeps F r s1) : Keeps F r (State.write64 s1 a1 a2 a3) := by
  unfold State.write64
  try lift_lets
  with_reducible repeat' first
    | assumption | apply State.dropHeld_keeps | apply State.freezeClock_keeps | apply State.afterWrite_keeps
    | apply State.storeWord_keeps | (refine Covers.sub hF ?_; decide)
    | (intro x; refine Keeps.take (s := x) ?_ fun hx => ?_; rotate_left; clear_value x; rotate_left; unfold x; try lift_lets)
    | intro x

theorem State.useHeld_keeps {s1 : State} {a1 : RegRow} {a2 : Nat} (hF : Covers F [.hif]) (hs1 : Keeps F r s1) :
    Keeps F r (State.useHeld s1 a1 a2) := by
  unfold State.useHeld
  with_reducible repeat' first
    | exact .inr (hF.one (by decide)) | exact .inl rfl | rfl | assumption | apply State.storeWord_keeps
    | apply State.dropHeld_keeps | split | (refine Covers.sub hF ?_; decide)
    | refine Keeps.of_eq ?_ ?_ ?_ ?_ ?_ ?_ ?_ ?_ ?_ ?_ ?_ ?_ ?_ ?_ ?_ ?_ ?_

theorem State.write32_keeps {s1 : State} {a1 : Nat} {a2 : Word} (hF : Covers F [.hif, .tick, .light, .pwr])
    (hs1 : Keeps F r s1) : Keeps F r (State.write32 s1 a1 a2) := by
  unfold State.write32
  try lift_lets
  with_reducible repeat' first
    | exact .inr (hF.one (by decide)) | exact .inl rfl | rfl | (refine Keeps.ite ?_ ?_) <;> try lift_lets | assumption
    | apply State.msixWrite_keeps | apply State.bump_keeps | apply State.dropHeld_keeps | apply State.afterWrite_keeps
    | apply State.storeWord_keeps | apply State.useHeld_keeps | apply State.freezeClock_keeps | (split <;> try lift_lets)
    | (refine Covers.sub hF ?_; decide)
    | (intro x; refine Keeps.take (s := x) ?_ fun hx => ?_; rotate_left; clear_value x; rotate_left; unfold x; try lift_lets)
    | intro x | refine Keeps.of_eq ?_ ?_ ?_ ?_ ?_ ?_ ?_ ?_ ?_ ?_ ?_ ?_ ?_ ?_ ?_ ?_ ?_

theorem State.writePart_keeps {s1 : State} {a1 a2 a3 : Nat} (hF : Covers F [.hif, .tick, .light, .pwr])
    (hs1 : Keeps F r s1) : Keeps F r (State.writePart s1 a1 a2 a3) := by
  unfold State.writePart
  with_reducible repeat' first
    | exact .inr (hF.one (by decide)) | exact .inl rfl | rfl | (refine Keeps.ite ?_ ?_) | assumption
    | apply State.write64_keeps | apply State.write32_keeps | apply State.bump_keeps | split
    | (refine Covers.sub hF ?_; decide) | refine Keeps.of_eq ?_ ?_ ?_ ?_ ?_ ?_ ?_ ?_ ?_ ?_ ?_ ?_ ?_ ?_ ?_ ?_ ?_

theorem State.portPart_keeps {s1 : State} {a1 a2 a3 : Nat} (hF : Covers F [.hif, .tick, .light, .pwr])
    (hs1 : Keeps F r s1) : Keeps F r (State.portPart s1 a1 a2 a3) := by
  unfold State.portPart
  with_reducible repeat' first
    | (refine Keeps.ite ?_ ?_) | assumption | apply State.inService_keeps | apply State.writePart_keeps
    | apply State.setup_keeps | (refine Covers.sub hF ?_; decide) | (refine fun x (hx : Keeps F r x) => ?_; try lift_lets)
    | (intro x; refine Keeps.take (s := x) ?_ fun hx => ?_; rotate_left; clear_value x; rotate_left; unfold x; try lift_lets)
    | intro x

theorem execSetupWrite_keeps {a0 a1 a2 : Nat} {s4 : State} (hF : Covers F [.hif, .tick, .light, .pwr])
    (hs4 : Keeps F r s4) : KeepsOut F r (execSetupWrite a0 a1 a2 s4) := by
  unfold execSetupWrite
  with_reducible repeat' first
    | (refine KeepsOut.ite ?_ ?_) | (refine Keeps.ite ?_ ?_) | assumption | apply State.portPart_keeps
    | (refine Keeps.foldl (fun _ _ _ => ?_) ?_) | refine Keeps.next ?_ | (refine Covers.sub hF ?_; decide)

end Sys2Proof.Machine
end

