-- ==== Sys2Proof/Laws/Keeps/Signatures.lean ====
section
/-! SUPPORT. What every command keeps, operation by operation: those of Machine/Signatures.lean. -/

namespace Sys2Proof.Machine

variable {F : List Part} {r : State}

theorem State.countMismatch_keeps {s1 : State} {a1 : Nat} (hF : Covers F [.sig]) (hs1 : Keeps F r s1) :
    Keeps F r (State.countMismatch s1 a1) := by
  unfold State.countMismatch
  try lift_lets
  with_reducible repeat' first
    | exact .inr (hF.one (by decide)) | exact .inl rfl | rfl | (refine Keeps.ite ?_ ?_) <;> try lift_lets | assumption
    | apply State.bump_keeps | (refine Covers.sub hF ?_; decide)
    | (intro x; refine Keeps.take (s := x) ?_ fun hx => ?_; rotate_left; clear_value x; rotate_left; unfold x; try lift_lets)
    | intro x | refine Keeps.of_eq ?_ ?_ ?_ ?_ ?_ ?_ ?_ ?_ ?_ ?_ ?_ ?_ ?_ ?_ ?_ ?_ ?_

theorem State.raiseMismatch_keeps {s1 : State} {a1 : Nat} (hF : Covers F [.ic, .sig]) (hs1 : Keeps F r s1) :
    Keeps F r (State.raiseMismatch s1 a1) := by
  unfold State.raiseMismatch
  try lift_lets
  with_reducible repeat' first
    | exact .inr (hF.one (by decide)) | exact .inl rfl | rfl | (refine Keeps.ite ?_ ?_) <;> try lift_lets | assumption
    | apply State.raise_keeps | (refine Covers.sub hF ?_; decide)
    | (intro x; refine Keeps.take (s := x) ?_ fun hx => ?_; rotate_left; clear_value x; rotate_left; unfold x; try lift_lets)
    | intro x | refine Keeps.of_eq ?_ ?_ ?_ ?_ ?_ ?_ ?_ ?_ ?_ ?_ ?_ ?_ ?_ ?_ ?_ ?_ ?_

theorem State.declareFailed_keeps {s1 : State} {a1 a2 a3 : Nat} {a4 : Bool} (hF : Covers F [.hif, .ic, .sig, .comp])
    (hs1 : Keeps F r s1) : Keeps F r (State.declareFailed s1 a1 a2 a3 a4) := by
  unfold State.declareFailed
  try lift_lets
  with_reducible repeat' first
    | exact .inr (hF.one (by decide)) | exact .inl rfl | rfl | (refine Keeps.ite ?_ ?_) <;> try lift_lets | assumption
    | apply State.bump_keeps | apply State.wr_keeps | apply State.raiseMismatch_keeps | apply State.postSignature_keeps
    | (refine Covers.sub hF ?_; decide)
    | (intro x; refine Keeps.take (s := x) ?_ fun hx => ?_; rotate_left; clear_value x; rotate_left; unfold x; try lift_lets)
    | intro x | refine Keeps.of_eq ?_ ?_ ?_ ?_ ?_ ?_ ?_ ?_ ?_ ?_ ?_ ?_ ?_ ?_ ?_ ?_ ?_

theorem State.compareRegion_keeps {s1 : State} {a1 a2 : Nat} {a3 : Region} {a4 : Nat}
    (hF : Covers F [.hif, .ic, .sig, .comp]) (hs1 : Keeps F r s1) : Keeps F r (State.compareRegion s1 a1 a2 a3 a4) := by
  unfold State.compareRegion
  try lift_lets
  with_reducible repeat' first
    | (refine Keeps.ite ?_ ?_) <;> try lift_lets | assumption | apply State.countMismatch_keeps | apply State.wrs_keeps
    | apply State.raiseMismatch_keeps | apply State.postSignature_keeps | apply State.declareFailed_keeps
    | (refine Covers.sub hF ?_; decide)
    | (intro x; refine Keeps.take (s := x) ?_ fun hx => ?_; rotate_left; clear_value x; rotate_left; unfold x; try lift_lets)
    | intro x

theorem State.mapBundles_keeps {s1 : State} {a1 : Nat} {a2 : EngBundle → EngBundle} (hF : Covers F [.eng])
    (hs1 : Keeps F r s1) : Keeps F r (State.mapBundles s1 a1 a2) := by
  unfold State.mapBundles
  with_reducible repeat' first
    | assumption | apply State.setEngine_keeps | (refine Covers.sub hF ?_; decide)

theorem State.regionsInForce_keeps {s1 : State} (hF : Covers F [.sig]) (hs1 : Keeps F r s1) :
    Keeps F r (State.regionsInForce s1) := by
  unfold State.regionsInForce
  try lift_lets
  with_reducible repeat' first
    | exact .inr (hF.one (by decide)) | exact .inl rfl | rfl | assumption | apply State.wrs_keeps
    | (refine Keeps.foldl (fun _ _ _ => ?_) ?_) <;> try lift_lets | (refine Covers.sub hF ?_; decide)
    | (intro x; refine Keeps.take (s := x) ?_ fun hx => ?_; rotate_left; clear_value x; rotate_left; unfold x; try lift_lets)
    | intro x | refine Keeps.of_eq ?_ ?_ ?_ ?_ ?_ ?_ ?_ ?_ ?_ ?_ ?_ ?_ ?_ ?_ ?_ ?_ ?_

theorem State.watchRegion_keeps {s1 : State} {a1 a2 : Nat} {a3 : Region} {a4 : Nat} (hF : Covers F [.hif, .ic, .sig])
    (hs1 : Keeps F r s1) : Keeps F r (State.watchRegion s1 a1 a2 a3 a4) := by
  unfold State.watchRegion
  try lift_lets
  with_reducible repeat' first
    | exact .inr (hF.one (by decide)) | exact .inl rfl | rfl | (refine Keeps.ite ?_ ?_) <;> try lift_lets | assumption
    | apply State.wr_keeps | apply State.bump_keeps | apply State.wrs_keeps | apply State.raise_keeps
    | apply State.postSignature_keeps | (refine Covers.sub hF ?_; decide)
    | (intro x; refine Keeps.take (s := x) ?_ fun hx => ?_; rotate_left; clear_value x; rotate_left; unfold x; try lift_lets)
    | intro x | refine Keeps.of_eq ?_ ?_ ?_ ?_ ?_ ?_ ?_ ?_ ?_ ?_ ?_ ?_ ?_ ?_ ?_ ?_ ?_

theorem State.zeroDie_keeps {s1 : State} {a1 : DieWord} (hF : Covers F [.surf, .comp, .obj, .eng, .bbn])
    (hs1 : Keeps F r s1) : Keeps F r (State.zeroDie s1 a1) := by
  unfold State.zeroDie
  try lift_lets
  with_reducible repeat' first
    | exact .inr (hF.one (by decide)) | exact .inl rfl | rfl | (refine Keeps.ite ?_ ?_) <;> try lift_lets | assumption
    | apply State.mapBundles_keeps | (split <;> try lift_lets) | (refine Covers.sub hF ?_; decide)
    | (intro x; refine Keeps.take (s := x) ?_ fun hx => ?_; rotate_left; clear_value x; rotate_left; unfold x; try lift_lets)
    | intro x | refine Keeps.of_eq ?_ ?_ ?_ ?_ ?_ ?_ ?_ ?_ ?_ ?_ ?_ ?_ ?_ ?_ ?_ ?_ ?_

theorem execDieParityFail_keeps {a0 : DieWord} {a1 : Bool} {s3 : State}
    (hF : Covers F [.hif, .ic, .sig, .surf, .comp, .obj, .eng, .light, .bbn]) (hs3 : Keeps F r s3) :
    KeepsOut F r (execDieParityFail a0 a1 s3) := by
  unfold execDieParityFail
  try lift_lets
  with_reducible repeat' first
    | (refine KeepsOut.ite ?_ ?_) <;> try lift_lets | (refine Keeps.ite ?_ ?_) <;> try lift_lets | assumption
    | apply State.inService_keeps | apply State.error_keeps | apply State.bump_keeps | apply State.zeroDie_keeps
    | refine Keeps.next ?_ | (refine Covers.sub hF ?_; decide) | (refine fun x (hx : Keeps F r x) => ?_; try lift_lets)
    | (intro x; refine Keeps.take (s := x) ?_ fun hx => ?_; rotate_left; clear_value x; rotate_left; unfold x; try lift_lets)
    | intro x

theorem regionSetBody_keeps {a0 : Nat} {a1 : Desc} {s3 : State} (hF : Covers F [.sig]) (hs3 : Keeps F r s3) :
    KeepsRes F r (regionSetBody a0 a1 s3) := by
  unfold regionSetBody
  try lift_lets
  with_reducible repeat' first
    | exact .inr (hF.one (by decide)) | exact .inl rfl | rfl | (refine KeepsRes.ite ?_ ?_) <;> try lift_lets
    | (refine Keeps.ite ?_ ?_) <;> try lift_lets | assumption | apply State.checked_keeps | exact Keeps.rest
    | refine Keeps.done ?_ | refine Keeps.wait ?_ | refine Keeps.admitted ?_ | (refine Covers.sub hF ?_; decide)
    | (refine fun x (hx : Keeps F r x) => ?_; try lift_lets)
    | (intro x; refine Keeps.take (s := x) ?_ fun hx => ?_; rotate_left; clear_value x; rotate_left; unfold x; try lift_lets)
    | intro x | refine Keeps.of_eq ?_ ?_ ?_ ?_ ?_ ?_ ?_ ?_ ?_ ?_ ?_ ?_ ?_ ?_ ?_ ?_ ?_

theorem execRegionSet_keeps {a0 : Nat} {s2 : State} (hF : Covers F [.hif, .ic, .sig]) (hs2 : Keeps F r s2) :
    KeepsOut F r (execRegionSet a0 s2) := by
  unfold execRegionSet
  with_reducible repeat' first
    | assumption | apply State.descriptor_keeps | apply regionSetBody_keeps | refine Keeps.next ?_
    | (refine Covers.sub hF ?_; decide) | (refine fun x (hx : Keeps F r x) => ?_; try lift_lets)
    | (intro x; refine Keeps.take (s := x) ?_ fun hx => ?_; rotate_left; clear_value x; rotate_left; unfold x; try lift_lets)
    | intro x

theorem execRegionSignature_keeps {a0 a1 : Nat} {s3 : State} (hF : Covers F [.hif, .ic, .sig, .comp])
    (hs3 : Keeps F r s3) : KeepsOut F r (execRegionSignature a0 a1 s3) := by
  unfold execRegionSignature
  try lift_lets
  with_reducible repeat' first
    | exact .inr (hF.one (by decide)) | exact .inl rfl | rfl | (refine KeepsOut.ite ?_ ?_) <;> try lift_lets
    | (refine Keeps.ite ?_ ?_) <;> try lift_lets | assumption | apply State.inService_keeps | apply State.watchRegion_keeps
    | apply State.compareRegion_keeps | apply State.wr_keeps | refine Keeps.next ?_ | (refine Covers.sub hF ?_; decide)
    | (refine fun x (hx : Keeps F r x) => ?_; try lift_lets)
    | (intro x; refine Keeps.take (s := x) ?_ fun hx => ?_; rotate_left; clear_value x; rotate_left; unfold x; try lift_lets)
    | intro x | refine Keeps.of_eq ?_ ?_ ?_ ?_ ?_ ?_ ?_ ?_ ?_ ?_ ?_ ?_ ?_ ?_ ?_ ?_ ?_

end Sys2Proof.Machine
end

