-- ==== Sys2Proof/Laws/Keeps/Step.lean ====
section
/-! SUPPORT. What every command keeps, operation by operation: those of Machine/Step.lean. -/

namespace Sys2Proof.Machine

variable {F : List Part} {r : State}

theorem State.idle_keeps {s : State} (h : Keeps F r s) : Keeps F r s.idle := by
  unfold State.idle
  split
  · exact h.setNow (Nat.le_add_right _ _)
  · exact h

end Sys2Proof.Machine
end

