-- ==== Sys2Proof/Laws/Keeps/Thermal.lean ====
section
/-! SUPPORT. What every command keeps, operation by operation: those of Machine/Thermal.lean. -/

namespace Sys2Proof.Machine

variable {F : List Part} {r : State}

theorem State.sixteenth_keeps {s : State} {a : Int} {d : Nat} (h : Keeps F r s) : Keeps F r (s.sixteenth a d).1 := by
  unfold State.sixteenth
  lift_lets
  intro q
  split
  · exact h
  · exact Keeps.of_eq h rfl rfl (.inl rfl) (.inl rfl) (.inl rfl) (.inl rfl) (.inl rfl) (.inl rfl) (.inl rfl) (.inl rfl)
      (.inl rfl) (.inl rfl) (.inl rfl) (.inl rfl) (.inl rfl) (.inl rfl)

theorem State.showTemp_keeps {s1 : State} {a1 : Fld} {a2 : Int} {a3 : Nat} (hs1 : Keeps F r s1) :
    Keeps F r (State.showTemp s1 a1 a2 a3) := by
  unfold State.showTemp
  with_reducible repeat' first
    | exact .inl rfl | rfl | assumption | apply State.sixteenth_keeps | apply State.wr_keeps | split
    | refine Keeps.of_eq ?_ ?_ ?_ ?_ ?_ ?_ ?_ ?_ ?_ ?_ ?_ ?_ ?_ ?_ ?_ ?_ ?_

theorem State.showWindow_keeps {s1 : State} (hF : Covers F [.pwr]) (hs1 : Keeps F r s1) :
    Keeps F r (State.showWindow s1) := by
  unfold State.showWindow
  try lift_lets
  with_reducible repeat' first
    | exact .inr (hF.one (by decide)) | exact .inl rfl | rfl | (refine Keeps.ite ?_ ?_) <;> try lift_lets | assumption
    | apply State.wrs_keeps | (split <;> try lift_lets) | (refine Covers.sub hF ?_; decide)
    | (intro x; refine Keeps.take (s := x) ?_ fun hx => ?_; rotate_left; clear_value x; rotate_left; unfold x; try lift_lets)
    | intro x | refine Keeps.of_eq ?_ ?_ ?_ ?_ ?_ ?_ ?_ ?_ ?_ ?_ ?_ ?_ ?_ ?_ ?_ ?_ ?_

theorem State.caseRead_keeps {s1 : State} {a1 : Bool} {a2 : Int} (hF : Covers F [.ic, .thm, .pwr]) (hs1 : Keeps F r s1) :
    Keeps F r (State.caseRead s1 a1 a2) := by
  unfold State.caseRead
  try lift_lets
  with_reducible repeat' first
    | exact .inr (hF.one (by decide)) | exact .inl rfl | rfl | (refine Keeps.ite ?_ ?_) <;> try lift_lets | assumption
    | apply State.showTemp_keeps | apply State.bump_keeps | apply State.showWindow_keeps | apply State.raise_keeps
    | (refine Covers.sub hF ?_; decide)
    | (intro x; refine Keeps.take (s := x) ?_ fun hx => ?_; rotate_left; clear_value x; rotate_left; unfold x; try lift_lets)
    | intro x | refine Keeps.of_eq ?_ ?_ ?_ ?_ ?_ ?_ ?_ ?_ ?_ ?_ ?_ ?_ ?_ ?_ ?_ ?_ ?_

theorem State.showCeil_keeps {s1 : State} {a1 : Nat} (hs1 : Keeps F r s1) : Keeps F r (State.showCeil s1 a1) := by
  unfold State.showCeil
  with_reducible repeat' first
    | assumption | apply State.wrs_keeps

theorem State.ceilingDecision_keeps {s1 : State} (hF : Covers F [.ic, .thm]) (hs1 : Keeps F r s1) :
    Keeps F r (State.ceilingDecision s1) := by
  unfold State.ceilingDecision
  try lift_lets
  with_reducible repeat' first
    | exact .inr (hF.one (by decide)) | exact .inl rfl | rfl | (refine Keeps.ite ?_ ?_) <;> try lift_lets | assumption
    | apply State.raise_keeps | apply State.bump_keeps | apply State.showCeil_keeps | (refine Covers.sub hF ?_; decide)
    | (intro x; refine Keeps.take (s := x) ?_ fun hx => ?_; rotate_left; clear_value x; rotate_left; unfold x; try lift_lets)
    | intro x | refine Keeps.of_eq ?_ ?_ ?_ ?_ ?_ ?_ ?_ ?_ ?_ ?_ ?_ ?_ ?_ ?_ ?_ ?_ ?_

theorem State.ceilingWrite_keeps {s1 : State} {a1 : Nat} (hF : Covers F [.ic]) (hs1 : Keeps F r s1) :
    Keeps F r (State.ceilingWrite s1 a1) := by
  unfold State.ceilingWrite
  try lift_lets
  with_reducible repeat' first
    | (refine Keeps.ite ?_ ?_) <;> try lift_lets | assumption | apply State.wrs_keeps | apply State.raise_keeps
    | apply State.bump_keeps | apply State.showCeil_keeps | (refine Covers.sub hF ?_; decide)
    | (intro x; refine Keeps.take (s := x) ?_ fun hx => ?_; rotate_left; clear_value x; rotate_left; unfold x; try lift_lets)
    | intro x

theorem State.railRead_keeps {s1 : State} {a1 : Nat} {a2 : RailMs} (hF : Covers F [.ic, .thm]) (hs1 : Keeps F r s1) :
    Keeps F r (State.railRead s1 a1 a2) := by
  unfold State.railRead
  try lift_lets
  with_reducible repeat' first
    | exact .inr (hF.one (by decide)) | exact .inl rfl | rfl | (refine Keeps.ite ?_ ?_) <;> try lift_lets | assumption
    | apply State.wrs_keeps | apply State.wr_keeps | apply State.raise_keeps | (split <;> try lift_lets)
    | (refine Covers.sub hF ?_; decide)
    | (intro x; refine Keeps.take (s := x) ?_ fun hx => ?_; rotate_left; clear_value x; rotate_left; unfold x; try lift_lets)
    | intro x | refine Keeps.of_eq ?_ ?_ ?_ ?_ ?_ ?_ ?_ ?_ ?_ ?_ ?_ ?_ ?_ ?_ ?_ ?_ ?_

theorem State.showTemps_keeps {s1 : State} (hs1 : Keeps F r s1) : Keeps F r (State.showTemps s1) := by
  unfold State.showTemps
  try lift_lets
  with_reducible repeat' first
    | (refine Keeps.ite ?_ ?_) <;> try lift_lets | assumption | apply State.showTemp_keeps | apply State.wr_keeps
    | (refine Keeps.foldl (fun _ _ _ => ?_) ?_) <;> try lift_lets
    | (intro x; refine Keeps.take (s := x) ?_ fun hx => ?_; rotate_left; clear_value x; rotate_left; unfold x; try lift_lets)
    | intro x

theorem State.thermalUpdate_keeps {s1 : State} {a1 : List RailMs} (hF : Covers F [.ic, .thm, .pwr]) (hs1 : Keeps F r s1) :
    Keeps F r (State.thermalUpdate s1 a1) := by
  unfold State.thermalUpdate
  try lift_lets
  with_reducible repeat' first
    | exact .inr (hF.one (by decide)) | exact .inl rfl | rfl | (refine Keeps.ite ?_ ?_) <;> try lift_lets | assumption
    | apply State.railRead_keeps | apply State.wr_keeps | apply State.raise_keeps | apply State.showWindow_keeps
    | apply State.showTemps_keeps | (refine Keeps.foldl (fun _ _ _ => ?_) ?_) <;> try lift_lets
    | (refine Covers.sub hF ?_; decide)
    | (intro x; refine Keeps.take (s := x) ?_ fun hx => ?_; rotate_left; clear_value x; rotate_left; unfold x; try lift_lets)
    | intro x | refine Keeps.of_eq ?_ ?_ ?_ ?_ ?_ ?_ ?_ ?_ ?_ ?_ ?_ ?_ ?_ ?_ ?_ ?_ ?_

theorem execCaseSensorRead_keeps {a0 : Bool} {a1 : Int} {s3 : State} (hF : Covers F [.ic, .thm, .pwr])
    (hs3 : Keeps F r s3) : KeepsOut F r (execCaseSensorRead a0 a1 s3) := by
  unfold execCaseSensorRead
  with_reducible repeat' first
    | (refine KeepsOut.ite ?_ ?_) | (refine Keeps.ite ?_ ?_) | assumption | apply State.caseRead_keeps
    | refine Keeps.next ?_ | (refine Covers.sub hF ?_; decide)

theorem execCeilingDecision_keeps {s1 : State} (hF : Covers F [.ic, .thm]) (hs1 : Keeps F r s1) :
    KeepsOut F r (execCeilingDecision s1) := by
  unfold execCeilingDecision
  with_reducible repeat' first
    | assumption | apply State.inService_keeps | apply State.ceilingDecision_keeps | refine Keeps.next ?_
    | (refine Covers.sub hF ?_; decide) | (refine fun x (hx : Keeps F r x) => ?_; try lift_lets)
    | (intro x; refine Keeps.take (s := x) ?_ fun hx => ?_; rotate_left; clear_value x; rotate_left; unfold x; try lift_lets)
    | intro x

theorem execCeilingWrite_keeps {a0 : Word} {s2 : State} (hF : Covers F [.ic]) (hs2 : Keeps F r s2) :
    KeepsOut F r (execCeilingWrite a0 s2) := by
  unfold execCeilingWrite
  with_reducible repeat' first
    | assumption | apply State.setup_keeps | apply State.ceilingWrite_keeps | refine Keeps.next ?_
    | (refine Covers.sub hF ?_; decide) | (refine fun x (hx : Keeps F r x) => ?_; try lift_lets)
    | (intro x; refine Keeps.take (s := x) ?_ fun hx => ?_; rotate_left; clear_value x; rotate_left; unfold x; try lift_lets)
    | intro x

theorem execThermalModelUpdate_keeps {a0 : List RailMs} {s2 : State} (hF : Covers F [.ic, .thm, .pwr])
    (hs2 : Keeps F r s2) : KeepsOut F r (execThermalModelUpdate a0 s2) := by
  unfold execThermalModelUpdate
  with_reducible repeat' first
    | (refine KeepsOut.ite ?_ ?_) | (refine Keeps.ite ?_ ?_) | assumption | apply State.thermalUpdate_keeps
    | refine Keeps.next ?_ | (refine Covers.sub hF ?_; decide)

end Sys2Proof.Machine
end

