-- ==== Sys2Proof/Laws/Keeps/TickCtl.lean ====
section
/-! SUPPORT. What every command keeps, operation by operation: those of Machine/TickCtl.lean. -/

namespace Sys2Proof.Machine

variable {F : List Part} {r : State}

theorem State.acceptEdge_keeps {s1 : State} {a1 a2 : Nat} (hF : Covers F [.ic, .tick]) (hs1 : Keeps F r s1) :
    Keeps F r (State.acceptEdge s1 a1 a2) := by
  unfold State.acceptEdge
  try lift_lets
  with_reducible repeat' first
    | exact .inr (hF.one (by decide)) | exact .inl rfl | rfl | (refine Keeps.ite ?_ ?_) <;> try lift_lets | assumption
    | apply State.tryPair_keeps | apply State.setLock_keeps | (refine Covers.sub hF ?_; decide)
    | (intro x; refine Keeps.take (s := x) ?_ fun hx => ?_; rotate_left; clear_value x; rotate_left; unfold x; try lift_lets)
    | intro x | refine Keeps.of_eq ?_ ?_ ?_ ?_ ?_ ?_ ?_ ?_ ?_ ?_ ?_ ?_ ?_ ?_ ?_ ?_ ?_

theorem State.replanAll_keeps {s1 : State} (hF : Covers F [.comp, .eng]) (hs1 : Keeps F r s1) :
    Keeps F r (State.replanAll s1) := by
  unfold State.replanAll
  try lift_lets
  with_reducible repeat' first
    | exact .inr (hF.one (by decide)) | exact .inl rfl | rfl | assumption | apply State.setEngine_keeps
    | (refine Keeps.foldl (fun _ _ _ => ?_) ?_) <;> try lift_lets | (split <;> try lift_lets)
    | (refine Covers.sub hF ?_; decide)
    | (intro x; refine Keeps.take (s := x) ?_ fun hx => ?_; rotate_left; clear_value x; rotate_left; unfold x; try lift_lets)
    | intro x | refine Keeps.of_eq ?_ ?_ ?_ ?_ ?_ ?_ ?_ ?_ ?_ ?_ ?_ ?_ ?_ ?_ ?_ ?_ ?_

theorem State.takeValues_keeps {s1 : State} {a1 : ApplyVals} (hF : Covers F [.ic, .tick, .comp, .eng])
    (hs1 : Keeps F r s1) : Keeps F r (State.takeValues s1 a1) := by
  unfold State.takeValues
  try lift_lets
  with_reducible repeat' first
    | exact .inr (hF.one (by decide)) | exact .inl rfl | rfl | assumption | apply State.wrs_keeps | apply State.wr_keeps
    | apply State.raise_keeps | apply State.replanAll_keeps | (refine Keeps.foldl (fun _ _ _ => ?_) ?_) <;> try lift_lets
    | (refine Covers.sub hF ?_; decide)
    | (intro x; refine Keeps.take (s := x) ?_ fun hx => ?_; rotate_left; clear_value x; rotate_left; unfold x; try lift_lets)
    | intro x | refine Keeps.of_eq ?_ ?_ ?_ ?_ ?_ ?_ ?_ ?_ ?_ ?_ ?_ ?_ ?_ ?_ ?_ ?_ ?_

theorem State.noEdges_keeps {s1 : State} (hF : Covers F [.tick]) (hs1 : Keeps F r s1) : Keeps F r (State.noEdges s1) := by
  unfold State.noEdges
  try lift_lets
  with_reducible repeat' first
    | exact .inr (hF.one (by decide)) | exact .inl rfl | rfl | assumption | (refine Covers.sub hF ?_; decide)
    | (intro x; refine Keeps.take (s := x) ?_ fun hx => ?_; rotate_left; clear_value x; rotate_left; unfold x; try lift_lets)
    | intro x | refine Keeps.of_eq ?_ ?_ ?_ ?_ ?_ ?_ ?_ ?_ ?_ ?_ ?_ ?_ ?_ ?_ ?_ ?_ ?_

theorem State.gptpLock_keeps {s1 : State} (hF : Covers F [.ic, .tick]) (hs1 : Keeps F r s1) :
    Keeps F r (State.gptpLock s1) := by
  unfold State.gptpLock
  with_reducible repeat' first
    | (refine Keeps.ite ?_ ?_) | assumption | apply State.setLock_keeps | (refine Covers.sub hF ?_; decide)

theorem State.applyEdge_keeps {s1 : State} {a1 : ApplyVals} (hF : Covers F [.ic, .tick, .comp, .eng])
    (hs1 : Keeps F r s1) : Keeps F r (State.applyEdge s1 a1).1 := by
  unfold State.applyEdge
  try lift_lets
  with_reducible repeat' first
    | exact .inr (hF.one (by decide)) | exact .inl rfl | rfl | (refine Keeps.ite ?_ ?_) <;> try lift_lets | assumption
    | apply State.takeValues_keeps | apply State.setLock_keeps | apply State.noEdges_keeps | apply State.gptpLock_keeps
    | (split <;> try lift_lets) | (refine Covers.sub hF ?_; decide)
    | (intro x; refine Keeps.take (s := x) ?_ fun hx => ?_; rotate_left; clear_value x; rotate_left; unfold x; try lift_lets)
    | intro x | refine Keeps.of_eq ?_ ?_ ?_ ?_ ?_ ?_ ?_ ?_ ?_ ?_ ?_ ?_ ?_ ?_ ?_ ?_ ?_

theorem State.pinEdge_keeps {s1 : State} {a1 : Nat} (hF : Covers F [.ic, .tick]) (hs1 : Keeps F r s1) :
    Keeps F r (State.pinEdge s1 a1) := by
  unfold State.pinEdge
  try lift_lets
  with_reducible repeat' first
    | exact .inr (hF.one (by decide)) | exact .inl rfl | rfl | (refine Keeps.ite ?_ ?_) <;> try lift_lets | assumption
    | apply State.settlePin_keeps | apply State.acceptEdge_keeps | apply State.bump_keeps | (split <;> try lift_lets)
    | (refine Covers.sub hF ?_; decide)
    | (intro x; refine Keeps.take (s := x) ?_ fun hx => ?_; rotate_left; clear_value x; rotate_left; unfold x; try lift_lets)
    | intro x | refine Keeps.of_eq ?_ ?_ ?_ ?_ ?_ ?_ ?_ ?_ ?_ ?_ ?_ ?_ ?_ ?_ ?_ ?_ ?_

theorem State.refuseApply_keeps {s1 : State} {a1 : Nat} (hF : Covers F [.ic]) (hs1 : Keeps F r s1) :
    Keeps F r (State.refuseApply s1 a1) := by
  unfold State.refuseApply
  with_reducible repeat' first
    | assumption | apply State.raise_keeps | apply State.wr_keeps | (refine Covers.sub hF ?_; decide)

theorem State.takeApplied_keeps {s1 : State} (hF : Covers F [.ic, .tick, .comp, .eng]) (hs1 : Keeps F r s1) :
    Keeps F r (State.takeApplied s1) := by
  unfold State.takeApplied
  with_reducible repeat' first
    | exact .inr (hF.one (by decide)) | exact .inl rfl | rfl | assumption | apply State.takeValues_keeps | split
    | (refine Covers.sub hF ?_; decide) | refine Keeps.of_eq ?_ ?_ ?_ ?_ ?_ ?_ ?_ ?_ ?_ ?_ ?_ ?_ ?_ ?_ ?_ ?_ ?_

theorem State.startTick_keeps {s1 : State} (hF : Covers F [.ic, .tick, .comp, .eng]) (hs1 : Keeps F r s1) :
    Keeps F r (State.startTick s1) := by
  unfold State.startTick
  try lift_lets
  with_reducible repeat' first
    | exact .inr (hF.one (by decide)) | exact .inl rfl | rfl | (refine Keeps.ite ?_ ?_) <;> try lift_lets | assumption
    | apply State.takeApplied_keeps | apply State.wr_keeps | apply State.replanAll_keeps | apply State.noEdges_keeps
    | apply State.setLock_keeps | apply State.gptpLock_keeps | (refine Covers.sub hF ?_; decide)
    | (intro x; refine Keeps.take (s := x) ?_ fun hx => ?_; rotate_left; clear_value x; rotate_left; unfold x; try lift_lets)
    | intro x | refine Keeps.of_eq ?_ ?_ ?_ ?_ ?_ ?_ ?_ ?_ ?_ ?_ ?_ ?_ ?_ ?_ ?_ ?_ ?_

theorem State.stopTick_keeps {s1 : State} (hF : Covers F [.tick, .eng]) (hs1 : Keeps F r s1) :
    Keeps F r (State.stopTick s1) := by
  unfold State.stopTick
  try lift_lets
  with_reducible repeat' first
    | exact .inr (hF.one (by decide)) | exact .inl rfl | rfl | assumption | apply State.endOne_keeps
    | apply State.setEngine_keeps | apply State.wrs_keeps | (refine Keeps.foldl (fun _ _ _ => ?_) ?_) <;> try lift_lets
    | (refine Covers.sub hF ?_; decide)
    | (intro x; refine Keeps.take (s := x) ?_ fun hx => ?_; rotate_left; clear_value x; rotate_left; unfold x; try lift_lets)
    | intro x | refine Keeps.of_eq ?_ ?_ ?_ ?_ ?_ ?_ ?_ ?_ ?_ ?_ ?_ ?_ ?_ ?_ ?_ ?_ ?_

theorem State.tryApply_keeps {s1 : State} (hF : Covers F [.ic, .tick]) (hs1 : Keeps F r s1) :
    Keeps F r (State.tryApply s1) := by
  unfold State.tryApply
  try lift_lets
  with_reducible repeat' first
    | exact .inr (hF.one (by decide)) | exact .inl rfl | rfl | (refine Keeps.ite ?_ ?_) <;> try lift_lets | assumption
    | apply State.refuseApply_keeps | apply State.showReject_keeps | apply State.wr_keeps | (split <;> try lift_lets)
    | (refine Covers.sub hF ?_; decide)
    | (intro x; refine Keeps.take (s := x) ?_ fun hx => ?_; rotate_left; clear_value x; rotate_left; unfold x; try lift_lets)
    | intro x | refine Keeps.of_eq ?_ ?_ ?_ ?_ ?_ ?_ ?_ ?_ ?_ ?_ ?_ ?_ ?_ ?_ ?_ ?_ ?_

theorem State.tickCtrl_keeps {s1 : State} {a1 : Nat} (hF : Covers F [.ic, .tick, .comp, .eng]) (hs1 : Keeps F r s1) :
    Keeps F r (State.tickCtrl s1 a1) := by
  unfold State.tickCtrl
  try lift_lets
  with_reducible repeat' first
    | (refine Keeps.ite ?_ ?_) <;> try lift_lets | assumption | apply State.wrs_keeps | apply State.stopTick_keeps
    | apply State.tryApply_keeps | apply State.startTick_keeps | (refine Covers.sub hF ?_; decide)
    | (intro x; refine Keeps.take (s := x) ?_ fun hx => ?_; rotate_left; clear_value x; rotate_left; unfold x; try lift_lets)
    | intro x

theorem State.tickOut_keeps {s1 : State} (hF : Covers F [.tick]) (hs1 : Keeps F r s1) : Keeps F r (State.tickOut s1) := by
  unfold State.tickOut
  try lift_lets
  with_reducible repeat' first
    | exact .inr (hF.one (by decide)) | exact .inl rfl | rfl | (refine Keeps.ite ?_ ?_) <;> try lift_lets | assumption
    | (refine Covers.sub hF ?_; decide)
    | (intro x; refine Keeps.take (s := x) ?_ fun hx => ?_; rotate_left; clear_value x; rotate_left; unfold x; try lift_lets)
    | intro x | refine Keeps.of_eq ?_ ?_ ?_ ?_ ?_ ?_ ?_ ?_ ?_ ?_ ?_ ?_ ?_ ?_ ?_ ?_ ?_

theorem execTickApply_keeps {a0 : Word} {s2 : State} (hF : Covers F [.ic, .tick, .comp, .eng]) (hs2 : Keeps F r s2) :
    KeepsOut F r (execTickApply a0 s2) := by
  unfold execTickApply
  with_reducible repeat' first
    | (refine KeepsOut.ite ?_ ?_) | (refine Keeps.ite ?_ ?_) | assumption | apply State.setup_keeps
    | apply State.tickCtrl_keeps | refine Keeps.next ?_ | (refine Covers.sub hF ?_; decide)
    | (refine fun x (hx : Keeps F r x) => ?_; try lift_lets)
    | (intro x; refine Keeps.take (s := x) ?_ fun hx => ?_; rotate_left; clear_value x; rotate_left; unfold x; try lift_lets)
    | intro x

theorem execTickDisable_keeps {a0 : Word} {s2 : State} (hF : Covers F [.ic, .tick, .comp, .eng]) (hs2 : Keeps F r s2) :
    KeepsOut F r (execTickDisable a0 s2) := by
  unfold execTickDisable
  with_reducible repeat' first
    | (refine KeepsOut.ite ?_ ?_) | (refine Keeps.ite ?_ ?_) | assumption | apply State.setup_keeps
    | apply State.tickCtrl_keeps | refine Keeps.next ?_ | (refine Covers.sub hF ?_; decide)
    | (refine fun x (hx : Keeps F r x) => ?_; try lift_lets)
    | (intro x; refine Keeps.take (s := x) ?_ fun hx => ?_; rotate_left; clear_value x; rotate_left; unfold x; try lift_lets)
    | intro x

theorem execTickEnable_keeps {a0 : Word} {s2 : State} (hF : Covers F [.ic, .tick, .comp, .eng]) (hs2 : Keeps F r s2) :
    KeepsOut F r (execTickEnable a0 s2) := by
  unfold execTickEnable
  with_reducible repeat' first
    | (refine KeepsOut.ite ?_ ?_) | (refine Keeps.ite ?_ ?_) | assumption | apply State.setup_keeps
    | apply State.tickCtrl_keeps | refine Keeps.next ?_ | (refine Covers.sub hF ?_; decide)
    | (refine fun x (hx : Keeps F r x) => ?_; try lift_lets)
    | (intro x; refine Keeps.take (s := x) ?_ fun hx => ?_; rotate_left; clear_value x; rotate_left; unfold x; try lift_lets)
    | intro x

theorem execTickInEdge_keeps {a0 : Nat} {s2 : State} (hF : Covers F [.ic, .tick]) (hs2 : Keeps F r s2) :
    KeepsOut F r (execTickInEdge a0 s2) := by
  unfold execTickInEdge
  try lift_lets
  with_reducible repeat' first
    | (refine KeepsOut.ite ?_ ?_) <;> try lift_lets | (refine Keeps.ite ?_ ?_) <;> try lift_lets | assumption
    | apply State.inService_keeps | apply State.reach_keeps | apply State.pinEdge_keeps | refine Keeps.next ?_
    | (refine Covers.sub hF ?_; decide) | (refine fun x (hx : Keeps F r x) => ?_; try lift_lets)
    | (intro x; refine Keeps.take (s := x) ?_ fun hx => ?_; rotate_left; clear_value x; rotate_left; unfold x; try lift_lets)
    | intro x

theorem execTickOutPulseEnd_keeps {s1 : State} (hF : Covers F [.tick]) (hs1 : Keeps F r s1) :
    KeepsOut F r (execTickOutPulseEnd s1) := by
  unfold execTickOutPulseEnd
  try lift_lets
  with_reducible repeat' first
    | exact .inr (hF.one (by decide)) | exact .inl rfl | rfl | (refine KeepsOut.ite ?_ ?_) <;> try lift_lets
    | (refine Keeps.ite ?_ ?_) <;> try lift_lets | assumption | apply State.inService_keeps | apply State.reach_keeps
    | refine Keeps.next ?_ | (refine Covers.sub hF ?_; decide) | (refine fun x (hx : Keeps F r x) => ?_; try lift_lets)
    | (intro x; refine Keeps.take (s := x) ?_ fun hx => ?_; rotate_left; clear_value x; rotate_left; unfold x; try lift_lets)
    | intro x | refine Keeps.of_eq ?_ ?_ ?_ ?_ ?_ ?_ ?_ ?_ ?_ ?_ ?_ ?_ ?_ ?_ ?_ ?_ ?_

end Sys2Proof.Machine
end

