-- ==== Sys2Proof/Laws/Keeps/TickEdge.lean ====
section
/-! SUPPORT. What every command keeps, operation by operation: those of Machine/TickEdge.lean. -/

namespace Sys2Proof.Machine

variable {F : List Part} {r : State}

theorem State.ageStrings_keeps {s1 : State} {a1 : Nat} (hs1 : Keeps F r s1) : Keeps F r (State.ageStrings s1 a1) := by
  unfold State.ageStrings
  try lift_lets
  with_reducible repeat' first
    | (refine Keeps.ite ?_ ?_) <;> try lift_lets | assumption | apply State.showVerified_keeps | apply State.wr_keeps
    | (refine Keeps.foldl (fun _ _ _ => ?_) ?_) <;> try lift_lets
    | (intro x; refine Keeps.take (s := x) ?_ fun hx => ?_; rotate_left; clear_value x; rotate_left; unfold x; try lift_lets)
    | intro x

theorem State.beginTick_keeps {s1 : State} {a1 : Nat} {a2 : Bool} (hF : Covers F [.eng, .light]) (hs1 : Keeps F r s1) :
    Keeps F r (State.beginTick s1 a1 a2) := by
  unfold State.beginTick
  try lift_lets
  with_reducible repeat' first
    | exact .inr (hF.one (by decide)) | exact .inl rfl | rfl | (refine Keeps.ite ?_ ?_) <;> try lift_lets | assumption
    | apply State.showTick_keeps | apply State.showFly_keeps | apply State.diagRequests_keeps | apply State.calEdge_keeps
    | apply State.takeEdge_keeps | apply State.grantNotches_keeps | apply State.beginRun_keeps | (split <;> try lift_lets)
    | (refine Covers.sub hF ?_; decide)
    | (intro x; refine Keeps.take (s := x) ?_ fun hx => ?_; rotate_left; clear_value x; rotate_left; unfold x; try lift_lets)
    | (intro x; refine Keeps.take (s := x.1) ?_ fun hx => ?_; rotate_left; clear_value x; rotate_left; unfold x; try lift_lets)
    | intro x | refine Keeps.of_eq ?_ ?_ ?_ ?_ ?_ ?_ ?_ ?_ ?_ ?_ ?_ ?_ ?_ ?_ ?_ ?_ ?_

theorem State.cloneClass_keeps {s1 : State} {a1 a2 : Nat} (hF : Covers F [.ic]) (hs1 : Keeps F r s1) :
    Keeps F r (State.cloneClass s1 a1 a2) := by
  unfold State.cloneClass
  try lift_lets
  with_reducible repeat' first
    | (refine Keeps.ite ?_ ?_) <;> try lift_lets | assumption | apply State.wrs_keeps | apply State.raise_keeps
    | (refine Covers.sub hF ?_; decide)
    | (intro x; refine Keeps.take (s := x) ?_ fun hx => ?_; rotate_left; clear_value x; rotate_left; unfold x; try lift_lets)
    | intro x

theorem State.cloneDark_keeps {s1 : State} {a1 : Nat} {a2 : WarpCfg} {a3 : List Nat} (hF : Covers F [.ic])
    (hs1 : Keeps F r s1) : Keeps F r (State.cloneDark s1 a1 a2 a3) := by
  unfold State.cloneDark
  try lift_lets
  with_reducible repeat' first
    | (refine Keeps.ite ?_ ?_) <;> try lift_lets | assumption | apply State.wr_keeps | apply State.raise_keeps
    | (refine Covers.sub hF ?_; decide)
    | (intro x; refine Keeps.take (s := x) ?_ fun hx => ?_; rotate_left; clear_value x; rotate_left; unfold x; try lift_lets)
    | intro x

theorem State.countEdge_keeps {s1 : State} (hF : Covers F [.ic, .tick, .comp, .eng]) (hs1 : Keeps F r s1) :
    Keeps F r (State.countEdge s1).1 := by
  unfold State.countEdge
  try lift_lets
  with_reducible repeat' first
    | exact .inr (hF.one (by decide)) | exact .inl rfl | rfl | (refine Keeps.ite ?_ ?_) <;> try lift_lets | assumption
    | apply State.wrs_keeps | apply State.applyEdge_keeps | (split <;> try lift_lets) | (refine Covers.sub hF ?_; decide)
    | (intro x; refine Keeps.take (s := x) ?_ fun hx => ?_; rotate_left; clear_value x; rotate_left; unfold x; try lift_lets)
    | (intro x; refine Keeps.take (s := x.1) ?_ fun hx => ?_; rotate_left; clear_value x; rotate_left; unfold x; try lift_lets)
    | intro x | refine Keeps.of_eq ?_ ?_ ?_ ?_ ?_ ?_ ?_ ?_ ?_ ?_ ?_ ?_ ?_ ?_ ?_ ?_ ?_

theorem State.countGuardDark_keeps {s1 : State} (hF : Covers F [.ic]) (hs1 : Keeps F r s1) :
    Keeps F r (State.countGuardDark s1) := by
  unfold State.countGuardDark
  try lift_lets
  with_reducible repeat' first
    | (refine Keeps.ite ?_ ?_) <;> try lift_lets | assumption | apply State.raise_keeps | apply State.bump_keeps
    | (refine Covers.sub hF ?_; decide)
    | (intro x; refine Keeps.take (s := x) ?_ fun hx => ?_; rotate_left; clear_value x; rotate_left; unfold x; try lift_lets)
    | intro x

theorem State.decideLength_keeps {s1 : State} {a1 : Bool} (hF : Covers F [.ic, .tick]) (hs1 : Keeps F r s1) :
    Keeps F r (State.decideLength s1 a1) := by
  unfold State.decideLength
  try lift_lets
  with_reducible repeat' first
    | exact .inr (hF.one (by decide)) | exact .inl rfl | rfl | (refine Keeps.ite ?_ ?_) <;> try lift_lets | assumption
    | apply State.flywheel_keeps | apply State.tryPair_keeps | apply State.measure_keeps | apply State.wr_keeps
    | apply State.showIndex_keeps | (split <;> try lift_lets) | (refine Covers.sub hF ?_; decide)
    | (intro x; refine Keeps.take (s := x) ?_ fun hx => ?_; rotate_left; clear_value x; rotate_left; unfold x; try lift_lets)
    | intro x | refine Keeps.of_eq ?_ ?_ ?_ ?_ ?_ ?_ ?_ ?_ ?_ ?_ ?_ ?_ ?_ ?_ ?_ ?_ ?_

theorem State.portMode_keeps {s1 : State} {a1 : Nat} (hF : Covers F [.ic, .eng, .light]) (hs1 : Keeps F r s1) :
    Keeps F r (State.portMode s1 a1) := by
  unfold State.portMode
  try lift_lets
  with_reducible repeat' first
    | (refine Keeps.ite ?_ ?_) <;> try lift_lets | assumption | apply State.linkOff_keeps | apply State.wrs_keeps
    | apply State.train_keeps | (refine Keeps.foldl (fun _ _ _ => ?_) ?_) <;> try lift_lets
    | (refine Covers.sub hF ?_; decide)
    | (intro x; refine Keeps.take (s := x) ?_ fun hx => ?_; rotate_left; clear_value x; rotate_left; unfold x; try lift_lets)
    | intro x

theorem State.linkEdge_keeps {s1 : State} {a1 : Nat} (hF : Covers F [.ic, .eng, .light]) (hs1 : Keeps F r s1) :
    Keeps F r (State.linkEdge s1 a1) := by
  unfold State.linkEdge
  try lift_lets
  with_reducible repeat' first
    | (refine Keeps.ite ?_ ?_) <;> try lift_lets | assumption | apply State.setLinkState_keeps | apply State.leaveRun_keeps
    | apply State.enterConfig_keeps | apply State.queueConfig_keeps | apply State.setLink_keeps
    | (refine Covers.sub hF ?_; decide)
    | (intro x; refine Keeps.take (s := x) ?_ fun hx => ?_; rotate_left; clear_value x; rotate_left; unfold x; try lift_lets)
    | intro x

theorem State.openComposition_keeps {s1 : State} (hF : Covers F [.ic, .sig, .surf, .comp]) (hs1 : Keeps F r s1) :
    Keeps F r (State.openComposition s1) := by
  unfold State.openComposition
  try lift_lets
  with_reducible repeat' first
    | exact .inr (hF.one (by decide)) | exact .inl rfl | rfl | assumption | apply State.bump_keeps
    | apply State.regionsInForce_keeps | apply State.countGuardDark_keeps | apply State.wr_keeps
    | (refine Keeps.foldl (fun _ _ _ => ?_) ?_) <;> try lift_lets | (refine Covers.sub hF ?_; decide)
    | (intro x; refine Keeps.take (s := x) ?_ fun hx => ?_; rotate_left; clear_value x; rotate_left; unfold x; try lift_lets)
    | intro x | refine Keeps.of_eq ?_ ?_ ?_ ?_ ?_ ?_ ?_ ?_ ?_ ?_ ?_ ?_ ?_ ?_ ?_ ?_ ?_

theorem State.zeroClass_keeps {s1 : State} {a1 : Nat} (hF : Covers F [.ic]) (hs1 : Keeps F r s1) :
    Keeps F r (State.zeroClass s1 a1) := by
  unfold State.zeroClass
  with_reducible repeat' first
    | (refine Keeps.ite ?_ ?_) | assumption | apply State.raise_keeps | apply State.wr_keeps
    | (refine Covers.sub hF ?_; decide)

theorem State.edgeEngines_keeps {s1 : State} {a1 : Bool}
    (hF : Covers F [.hif, .ic, .sig, .surf, .comp, .eng, .light, .pwr]) (hs1 : Keeps F r s1) :
    Keeps F r (State.edgeEngines s1 a1) := by
  unfold State.edgeEngines
  try lift_lets
  with_reducible repeat' first
    | (refine Keeps.ite ?_ ?_) <;> try lift_lets | assumption | apply State.returnEngines_keeps
    | apply State.setEngine_keeps | apply State.portMode_keeps | apply State.linkEdge_keeps
    | apply State.openComposition_keeps | apply State.grantPermit_keeps | apply State.openFrame_keeps
    | apply State.takeClass_keeps | apply State.zeroClass_keeps | apply State.cloneClass_keeps | apply State.cloneDark_keeps
    | apply State.beginTick_keeps | apply State.raise_keeps | (refine Keeps.foldl (fun _ _ _ => ?_) ?_) <;> try lift_lets
    | (refine Covers.sub hF ?_; decide)
    | (intro x; refine Keeps.take (s := x) ?_ fun hx => ?_; rotate_left; clear_value x; rotate_left; unfold x; try lift_lets)
    | intro x

theorem State.endEngineTick_keeps {s1 : State} {a1 : Nat} (hF : Covers F [.sig, .light]) (hs1 : Keeps F r s1) :
    Keeps F r (State.endEngineTick s1 a1) := by
  unfold State.endEngineTick
  try lift_lets
  with_reducible repeat' first
    | exact .inr (hF.one (by decide)) | exact .inl rfl | rfl | assumption | apply State.setLight_keeps
    | apply State.closeCrc_keeps | apply State.reraise_keeps | apply State.ageStrings_keeps | (split <;> try lift_lets)
    | (refine Covers.sub hF ?_; decide)
    | (intro x; refine Keeps.take (s := x) ?_ fun hx => ?_; rotate_left; clear_value x; rotate_left; unfold x; try lift_lets)
    | intro x | refine Keeps.of_eq ?_ ?_ ?_ ?_ ?_ ?_ ?_ ?_ ?_ ?_ ?_ ?_ ?_ ?_ ?_ ?_ ?_

theorem State.evrEdge_keeps {s1 : State} (hF : Covers F [.hif, .ic]) (hs1 : Keeps F r s1) :
    Keeps F r (State.evrEdge s1) := by
  unfold State.evrEdge
  try lift_lets
  with_reducible repeat' first
    | assumption | apply State.setEvr_keeps | apply State.flushFollowUps_keeps | apply State.trySummary_keeps
    | (refine Keeps.foldl (fun _ _ _ => ?_) ?_) <;> try lift_lets | (refine Covers.sub hF ?_; decide)
    | (intro x; refine Keeps.take (s := x) ?_ fun hx => ?_; rotate_left; clear_value x; rotate_left; unfold x; try lift_lets)
    | intro x

theorem State.windowsDue_keeps {s1 : State} (hF : Covers F [.sig]) (hs1 : Keeps F r s1) :
    Keeps F r (State.windowsDue s1) := by
  unfold State.windowsDue
  try lift_lets
  with_reducible repeat' first
    | exact .inr (hF.one (by decide)) | exact .inl rfl | rfl | assumption | (refine Covers.sub hF ?_; decide)
    | (intro x; refine Keeps.take (s := x) ?_ fun hx => ?_; rotate_left; clear_value x; rotate_left; unfold x; try lift_lets)
    | intro x | refine Keeps.of_eq ?_ ?_ ?_ ?_ ?_ ?_ ?_ ?_ ?_ ?_ ?_ ?_ ?_ ?_ ?_ ?_ ?_

theorem State.tickEdge_keeps {s1 : State}
    (hF : Covers F [.hif, .ic, .sig, .tick, .surf, .comp, .obj, .eng, .light, .stk, .pwr]) (hs1 : Keeps F r s1) :
    Keeps F r (State.tickEdge s1) := by
  unfold State.tickEdge
  try lift_lets
  with_reducible repeat' first
    | exact .inr (hF.one (by decide)) | exact .inl rfl | rfl | assumption | apply State.reach_keeps
    | apply State.endEngineTick_keeps | apply State.settleMatrix_keeps | apply State.closeFrame_keeps
    | apply State.applyWindow_keeps | apply State.countEdge_keeps | apply State.decideLength_keeps
    | apply State.failedTables_keeps | apply State.switchEdge_keeps | apply State.takeCalCfg_keeps
    | apply State.edgeEngines_keeps | apply State.tickOut_keeps | apply State.readBackEdge_keeps
    | apply State.wakeReels_keeps | apply State.writeFences_keeps | apply State.evrEdge_keeps | apply State.windowsDue_keeps
    | (refine Keeps.foldl (fun _ _ _ => ?_) ?_) <;> try lift_lets | (split <;> try lift_lets)
    | (refine Covers.sub hF ?_; decide)
    | (intro x; refine Keeps.take (s := x) ?_ fun hx => ?_; rotate_left; clear_value x; rotate_left; unfold x; try lift_lets)
    | (intro x; refine Keeps.take (s := x.1) ?_ fun hx => ?_; rotate_left; clear_value x; rotate_left; unfold x; try lift_lets)
    | intro x | refine Keeps.of_eq ?_ ?_ ?_ ?_ ?_ ?_ ?_ ?_ ?_ ?_ ?_ ?_ ?_ ?_ ?_ ?_ ?_

theorem execTickEdge_keeps {s1 : State}
    (hF : Covers F [.hif, .ic, .sig, .tick, .surf, .comp, .obj, .eng, .light, .stk, .pwr]) (hs1 : Keeps F r s1) :
    KeepsOut F r (execTickEdge s1) := by
  unfold execTickEdge
  with_reducible repeat' first
    | (refine KeepsOut.ite ?_ ?_) | (refine Keeps.ite ?_ ?_) | assumption | apply State.inService_keeps
    | apply State.tickEdge_keeps | refine Keeps.next ?_ | (refine Covers.sub hF ?_; decide)
    | (refine fun x (hx : Keeps F r x) => ?_; try lift_lets)
    | (intro x; refine Keeps.take (s := x) ?_ fun hx => ?_; rotate_left; clear_value x; rotate_left; unfold x; try lift_lets)
    | intro x

end Sys2Proof.Machine
end

