-- ==== Sys2Proof/Laws/Keeps/Exec.lean ====
section
/-! SUPPORT. What every command keeps, as one lemma over all of them, but for the two of PORST_L. -/

namespace Sys2Proof.Machine

/-- Every command but those of PORST_L keeps what `Keeps` says, with its own footprint. -/
theorem exec_keeps {c : Instr} {s : State} (h1 : c ≠ .porstLFall) (h2 : ∀ g, c ≠ .porstLRise g) :
    KeepsOut (footprint c) s (exec c s) := by
  cases c with
  | nop _ => exact execNop_keeps (fun _ h => h) (Keeps.refl _)
  | fence _ => exact execFence_keeps (fun _ h => h) (Keeps.refl _)
  | waitTick _ => exact execWaitTick_keeps (fun _ h => h) (Keeps.refl _)
  | readBack _ => exact execReadBack_keeps (fun _ h => h) (Keeps.refl _)
  | readBackEnd _ _ => exact execReadBackEnd_keeps (fun _ h => h) (Keeps.refl _)
  | unfence _ => exact execUnfence_keeps (fun _ h => h) (Keeps.refl _)
  | surfaceDefine _ => exact execSurfaceDefine_keeps (fun _ h => h) (Keeps.refl _)
  | surfaceCopy _ => exact execSurfaceCopy_keeps (fun _ h => h) (Keeps.refl _)
  | copyWriteEnd _ _ => exact execCopyWriteEnd_keeps (fun _ h => h) (Keeps.refl _)
  | surfaceState _ => exact execSurfaceState_keeps (fun _ h => h) (Keeps.refl _)
  | atlasDefine _ => exact execAtlasDefine_keeps (fun _ h => h) (Keeps.refl _)
  | layerSet _ => exact execLayerSet_keeps (fun _ h => h) (Keeps.refl _)
  | canvasSet _ => exact execCanvasSet_keeps (fun _ h => h) (Keeps.refl _)
  | commit _ => exact execCommit_keeps (fun _ h => h) (Keeps.refl _)
  | guardSet _ => exact execGuardSet_keeps (fun _ h => h) (Keeps.refl _)
  | guardCommit _ => exact execGuardCommit_keeps (fun _ h => h) (Keeps.refl _)
  | regionSet _ => exact execRegionSet_keeps (fun _ h => h) (Keeps.refl _)
  | scalerBind _ => exact execScalerBind_keeps (fun _ h => h) (Keeps.refl _)
  | coefLoad _ => exact execCoefLoad_keeps (fun _ h => h) (Keeps.refl _)
  | objWrite _ => exact execObjWrite_keeps (fun _ h => h) (Keeps.refl _)
  | meshLoad _ => exact execMeshLoad_keeps (fun _ h => h) (Keeps.refl _)
  | saddleLoad _ => exact execSaddleLoad_keeps (fun _ h => h) (Keeps.refl _)
  | engineSet _ => exact execEngineSet_keeps (fun _ h => h) (Keeps.refl _)
  | engineCommit _ => exact execEngineCommit_keeps (fun _ h => h) (Keeps.refl _)
  | twistLoad _ => exact execTwistLoad_keeps (fun _ h => h) (Keeps.refl _)
  | twistSet _ => exact execTwistSet_keeps (fun _ h => h) (Keeps.refl _)
  | lightSet _ => exact execLightSet_keeps (fun _ h => h) (Keeps.refl _)
  | calRequest _ => exact execCalRequest_keeps (fun _ h => h) (Keeps.refl _)
  | calStore _ => exact execCalStore_keeps (fun _ h => h) (Keeps.refl _)
  | flowWrite _ => exact execFlowWrite_keeps (fun _ h => h) (Keeps.refl _)
  | doorbell _ _ _ _ => exact execDoorbell_keeps (fun _ h => h) (Keeps.refl _)
  | descriptorFetch => exact execDescriptorFetch_keeps (fun _ h => h) (Keeps.refl _)
  | descriptorArrival _ _ => exact execDescriptorArrival_keeps (fun _ h => h) (Keeps.refl _)
  | hostReadError _ _ => exact execHostReadError_keeps (fun _ h => h) (Keeps.refl _)
  | headWriteBack _ => exact execHeadWriteBack_keeps (fun _ h => h) (Keeps.refl _)
  | evrHeadRead _ _ => exact execEvrHeadRead_keeps (fun _ h => h) (Keeps.refl _)
  | alarmQueueWrite _ => exact execAlarmQueueWrite_keeps (fun _ h => h) (Keeps.refl _)
  | hostInterfaceReset _ _ => exact execHostInterfaceReset_keeps (fun _ h => h) (Keeps.refl _)
  | d3hotEntry => exact execD3hotEntry_keeps (fun _ h => h) (Keeps.refl _)
  | d0Return => exact execD0Return_keeps (fun _ h => h) (Keeps.refl _)
  | setupWrite _ _ _ => exact execSetupWrite_keeps (fun _ h => h) (Keeps.refl _)
  | tickEnable _ => exact execTickEnable_keeps (fun _ h => h) (Keeps.refl _)
  | tickDisable _ => exact execTickDisable_keeps (fun _ h => h) (Keeps.refl _)
  | tickApply _ => exact execTickApply_keeps (fun _ h => h) (Keeps.refl _)
  | crEnable _ _ => exact execCrEnable_keeps (fun _ h => h) (Keeps.refl _)
  | crDisable _ _ => exact execCrDisable_keeps (fun _ h => h) (Keeps.refl _)
  | crRestart _ => exact execCrRestart_keeps (fun _ h => h) (Keeps.refl _)
  | evrEnable _ _ => exact execEvrEnable_keeps (fun _ h => h) (Keeps.refl _)
  | icMsgDoorbell _ => exact execIcMsgDoorbell_keeps (fun _ h => h) (Keeps.refl _)
  | icSrcSet _ => exact execIcSrcSet_keeps (fun _ h => h) (Keeps.refl _)
  | icPendClear _ _ => exact execIcPendClear_keeps (fun _ h => h) (Keeps.refl _)
  | icTgtClaim _ => exact execIcTgtClaim_keeps (fun _ h => h) (Keeps.refl _)
  | icTgtComplete _ _ => exact execIcTgtComplete_keeps (fun _ h => h) (Keeps.refl _)
  | release _ _ => exact execRelease_keeps (fun _ h => h) (Keeps.refl _)
  | targetWake _ _ => exact execTargetWake_keeps (fun _ h => h) (Keeps.refl _)
  | interruptArrival _ => exact execInterruptArrival_keeps (fun _ h => h) (Keeps.refl _)
  | notify _ => exact execNotify_keeps (fun _ h => h) (Keeps.refl _)
  | sknPortEnable _ _ => exact execSknPortEnable_keeps (fun _ h => h) (Keeps.refl _)
  | retrain _ => exact execRetrain_keeps (fun _ h => h) (Keeps.refl _)
  | accept _ => exact execAccept_keeps (fun _ h => h) (Keeps.refl _)
  | lsafeRelease => exact execLsafeRelease_keeps (fun _ h => h) (Keeps.refl _)
  | cbusEnable _ => exact execCbusEnable_keeps (fun _ h => h) (Keeps.refl _)
  | logClear => exact execLogClear_keeps (Keeps.refl _)
  | allowValid _ _ => exact execAllowValid_keeps (fun _ h => h) (Keeps.refl _)
  | bbnPortConfig _ _ => exact execBbnPortConfig_keeps (fun _ h => h) (Keeps.refl _)
  | streamEnable _ _ => exact execStreamEnable_keeps (fun _ h => h) (Keeps.refl _)
  | mapApply => exact execMapApply_keeps (fun _ h => h) (Keeps.refl _)
  | toTest _ => exact execToTest_keeps (fun _ h => h) (Keeps.refl _)
  | toField _ => exact execToField_keeps (fun _ h => h) (Keeps.refl _)
  | toReturn _ _ => exact execToReturn_keeps (fun _ h => h) (Keeps.refl _)
  | programRepair => exact execProgramRepair_keeps (fun _ h => h) (Keeps.refl _)
  | bistStart _ => exact execBistStart_keeps (fun _ h => h) (Keeps.refl _)
  | ceilingWrite _ => exact execCeilingWrite_keeps (fun _ h => h) (Keeps.refl _)
  | longOperationEnd _ => exact execLongOperationEnd_keeps (fun _ h => h) (Keeps.refl _)
  | porstLFall => exact absurd rfl h1
  | porstLRise g => exact absurd rfl (h2 g)
  | pwrOkFall => exact execPwrOkFall_keeps (fun _ h => h) (Keeps.refl _)
  | pwrOkRise => exact execPwrOkRise_keeps (fun _ h => h) (Keeps.refl _)
  | lsafeOpen => exact execLsafeOpen_keeps (fun _ h => h) (Keeps.refl _)
  | tickInEdge _ => exact execTickInEdge_keeps (fun _ h => h) (Keeps.refl _)
  | clockLoss _ => exact execClockLoss_keeps (fun _ h => h) (Keeps.refl _)
  | tickEdge => exact execTickEdge_keeps (fun _ h => h) (Keeps.refl _)
  | latchPoint => exact execLatchPoint_keeps (fun _ h => h) (Keeps.refl _)
  | tickOutPulseEnd => exact execTickOutPulseEnd_keeps (fun _ h => h) (Keeps.refl _)
  | tickGapEnd => exact execTickGapEnd_keeps (fun _ h => h) (Keeps.refl _)
  | slotStart _ => exact execSlotStart_keeps (fun _ h => h) (Keeps.refl _)
  | tableEnd _ => exact execTableEnd_keeps (fun _ h => h) (Keeps.refl _)
  | notch _ => exact execNotch_keeps (fun _ h => h) (Keeps.refl _)
  | loadStart _ => exact execLoadStart_keeps (fun _ h => h) (Keeps.refl _)
  | bandBlank _ _ => exact execBandBlank_keeps (fun _ h => h) (Keeps.refl _)
  | underrun _ => exact execUnderrun_keeps (fun _ h => h) (Keeps.refl _)
  | egressFetch _ _ => exact execEgressFetch_keeps (fun _ h => h) (Keeps.refl _)
  | plyTransmit _ _ => exact execPlyTransmit_keeps (fun _ h => h) (Keeps.refl _)
  | keepalive _ _ => exact execKeepalive_keeps (fun _ h => h) (Keeps.refl _)
  | composeUnit => exact execComposeUnit_keeps (fun _ h => h) (Keeps.refl _)
  | warpRow _ _ => exact execWarpRow_keeps (fun _ h => h) (Keeps.refl _)
  | bandComplete _ _ _ => exact execBandComplete_keeps (fun _ h => h) (Keeps.refl _)
  | objApplyWindow => exact execObjApplyWindow_keeps (fun _ h => h) (Keeps.refl _)
  | regionSignature _ _ => exact execRegionSignature_keeps (fun _ h => h) (Keeps.refl _)
  | ack _ _ => exact execAck_keeps (fun _ h => h) (Keeps.refl _)
  | nak _ _ => exact execNak_keeps (fun _ h => h) (Keeps.refl _)
  | rsStatus _ _ _ _ => exact execRsStatus_keeps (fun _ h => h) (Keeps.refl _)
  | sensor _ _ _ _ _ => exact execSensor_keeps (fun _ h => h) (Keeps.refl _)
  | string _ _ _ _ _ _ _ => exact execString_keeps (fun _ h => h) (Keeps.refl _)
  | temp _ _ _ _ _ => exact execTemp_keeps (fun _ h => h) (Keeps.refl _)
  | crcEcho _ _ _ => exact execCrcEcho_keeps (fun _ h => h) (Keeps.refl _)
  | ident _ _ => exact execIdent_keeps (fun _ h => h) (Keeps.refl _)
  | bandParked _ _ _ => exact execBandParked_keeps (fun _ h => h) (Keeps.refl _)
  | configOk _ _ => exact execConfigOk_keeps (fun _ h => h) (Keeps.refl _)
  | configReject _ _ _ => exact execConfigReject_keeps (fun _ h => h) (Keeps.refl _)
  | engineMsg _ _ => exact execEngineMsg_keeps (fun _ h => h) (Keeps.refl _)
  | late _ _ => exact execLate_keeps (fun _ h => h) (Keeps.refl _)
  | darkTimer _ _ => exact execDarkTimer_keeps (fun _ h => h) (Keeps.refl _)
  | badRecord _ _ _ => exact execBadRecord_keeps (fun _ h => h) (Keeps.refl _)
  | rsBadMessage _ _ => exact execRsBadMessage_keeps (Keeps.refl _)
  | returnStrandLost _ => exact execReturnStrandLost_keeps (fun _ h => h) (Keeps.refl _)
  | skeinNoAnswer _ => exact execSkeinNoAnswer_keeps (fun _ h => h) (Keeps.refl _)
  | crcEchoMissing _ => exact execCrcEchoMissing_keeps (fun _ h => h) (Keeps.refl _)
  | loopEdge => exact execLoopEdge_keeps (fun _ h => h) (Keeps.refl _)
  | calibrationTimeout _ _ => exact execCalibrationTimeout_keeps (fun _ h => h) (Keeps.refl _)
  | heatHoldExpiry _ _ => exact execHeatHoldExpiry_keeps (fun _ h => h) (Keeps.refl _)
  | escalationWindow _ => exact execEscalationWindow_keeps (fun _ h => h) (Keeps.refl _)
  | dieParityFail _ _ => exact execDieParityFail_keeps (fun _ h => h) (Keeps.refl _)
  | tableAck _ _ _ _ _ => exact execTableAck_keeps (fun _ h => h) (Keeps.refl _)
  | switchAck _ _ _ _ _ => exact execSwitchAck_keeps (fun _ h => h) (Keeps.refl _)
  | cbusStatus _ _ _ _ _ => exact execCbusStatus_keeps (fun _ h => h) (Keeps.refl _)
  | ambient _ _ _ => exact execAmbient_keeps (fun _ h => h) (Keeps.refl _)
  | cbusMsg _ _ _ => exact execCbusMsg_keeps (fun _ h => h) (Keeps.refl _)
  | stranger _ => exact execStranger_keeps (fun _ h => h) (Keeps.refl _)
  | cbusRxFault _ => exact execCbusRxFault_keeps (fun _ h => h) (Keeps.refl _)
  | tableRetry _ => exact execTableRetry_keeps (fun _ h => h) (Keeps.refl _)
  | switchRetry => exact execSwitchRetry_keeps (fun _ h => h) (Keeps.refl _)
  | plcaActiveChange _ => exact execPlcaActiveChange_keeps (fun _ h => h) (Keeps.refl _)
  | cbusTransmit => exact execCbusTransmit_keeps (fun _ h => h) (Keeps.refl _)
  | bbnFrameRx _ => exact execBbnFrameRx_keeps (fun _ h => h) (Keeps.refl _)
  | streamFrameComplete _ _ => exact execStreamFrameComplete_keeps (fun _ h => h) (Keeps.refl _)
  | streamFrameTimeout _ => exact execStreamFrameTimeout_keeps (fun _ h => h) (Keeps.refl _)
  | gptpMessage _ _ => exact execGptpMessage_keeps (fun _ h => h) (Keeps.refl _)
  | gptpLost _ => exact execGptpLost_keeps (fun _ h => h) (Keeps.refl _)
  | pdelayReq _ => exact execPdelayReq_keeps (fun _ h => h) (Keeps.refl _)
  | bbnLinkChange _ _ _ => exact execBbnLinkChange_keeps (fun _ h => h) (Keeps.refl _)
  | stackTempRead _ _ => exact execStackTempRead_keeps (fun _ h => h) (Keeps.refl _)
  | refreshBoundary _ _ _ => exact execRefreshBoundary_keeps (fun _ h => h) (Keeps.refl _)
  | c3Window _ _ => exact execC3Window_keeps (fun _ h => h) (Keeps.refl _)
  | agedTierJoin _ _ _ _ _ => exact execAgedTierJoin_keeps (fun _ h => h) (Keeps.refl _)
  | laneTrack _ _ => exact execLaneTrack_keeps (fun _ h => h) (Keeps.refl _)
  | stackParityFail _ _ _ => exact execStackParityFail_keeps (fun _ h => h) (Keeps.refl _)
  | pcRetrainEnd _ _ => exact execPcRetrainEnd_keeps (fun _ h => h) (Keeps.refl _)
  | thermalModelUpdate _ => exact execThermalModelUpdate_keeps (fun _ h => h) (Keeps.refl _)
  | caseSensorRead _ _ => exact execCaseSensorRead_keeps (fun _ h => h) (Keeps.refl _)
  | ceilingDecision => exact execCeilingDecision_keeps (fun _ h => h) (Keeps.refl _)
  | hostDataReadEnd _ _ => exact execHostDataReadEnd_keeps (fun _ h => h) (Keeps.refl _)
  | startUpStepEnd _ => exact execStartUpStepEnd_keeps (fun _ h => h) (Keeps.refl _)
  | clockReturn _ => exact execClockReturn_keeps (fun _ h => h) (Keeps.refl _)
  | lsafeClose => exact execLsafeClose_keeps (fun _ h => h) (Keeps.refl _)
  | pcieLinkUp _ _ => exact execPcieLinkUp_keeps (fun _ h => h) (Keeps.refl _)
  | msixEnableWrite _ _ => exact execMsixEnableWrite_keeps (fun _ h => h) (Keeps.refl _)
  | returnStrandLock _ _ => exact execReturnStrandLock_keeps (Keeps.refl _)
  | hello _ _ => exact execHello_keeps (fun _ h => h) (Keeps.refl _)

end Sys2Proof.Machine
end

