-- ==== Sys2Proof/Laws/PerInstr.lean ====
section
/-! SUPPORT. What holds of every command as syntax: its footprint names no part twice, and no set-up write with a row of its own
is among the commands that act at any time. -/

namespace Sys2Proof.Laws.Footprint

open Sys2Proof Sys2Proof.Machine

/-- The footprint of a command names each part once; a command that acts at any time is not a set-up row. -/
def Statement (i : Instr) : Prop := (footprint i).Nodup ∧ (anyTime i && setupRow i) = false

theorem nop (r : Nat) : Statement (.nop r) := ⟨of_decide_eq_true rfl, rfl⟩
theorem fence (r : Nat) : Statement (.fence r) := ⟨of_decide_eq_true rfl, rfl⟩
theorem waitTick (r : Nat) : Statement (.waitTick r) := ⟨of_decide_eq_true rfl, rfl⟩
theorem readBack (r : Nat) : Statement (.readBack r) := ⟨of_decide_eq_true rfl, rfl⟩
theorem readBackEnd (r : Nat) (n : Nat) : Statement (.readBackEnd r n) := ⟨of_decide_eq_true rfl, rfl⟩
theorem unfence (r : Nat) : Statement (.unfence r) := ⟨of_decide_eq_true rfl, rfl⟩
theorem surfaceDefine (r : Nat) : Statement (.surfaceDefine r) := ⟨of_decide_eq_true rfl, rfl⟩
theorem surfaceCopy (r : Nat) : Statement (.surfaceCopy r) := ⟨of_decide_eq_true rfl, rfl⟩
theorem copyWriteEnd (r : Nat) (bs : List Byte) : Statement (.copyWriteEnd r bs) := ⟨of_decide_eq_true rfl, rfl⟩
theorem surfaceState (r : Nat) : Statement (.surfaceState r) := ⟨of_decide_eq_true rfl, rfl⟩
theorem atlasDefine (r : Nat) : Statement (.atlasDefine r) := ⟨of_decide_eq_true rfl, rfl⟩
theorem layerSet (r : Nat) : Statement (.layerSet r) := ⟨of_decide_eq_true rfl, rfl⟩
theorem canvasSet (r : Nat) : Statement (.canvasSet r) := ⟨of_decide_eq_true rfl, rfl⟩
theorem commit (r : Nat) : Statement (.commit r) := ⟨of_decide_eq_true rfl, rfl⟩
theorem guardSet (r : Nat) : Statement (.guardSet r) := ⟨of_decide_eq_true rfl, rfl⟩
theorem guardCommit (r : Nat) : Statement (.guardCommit r) := ⟨of_decide_eq_true rfl, rfl⟩
theorem regionSet (r : Nat) : Statement (.regionSet r) := ⟨of_decide_eq_true rfl, rfl⟩
theorem scalerBind (r : Nat) : Statement (.scalerBind r) := ⟨of_decide_eq_true rfl, rfl⟩
theorem coefLoad (r : Nat) : Statement (.coefLoad r) := ⟨of_decide_eq_true rfl, rfl⟩
theorem objWrite (r : Nat) : Statement (.objWrite r) := ⟨of_decide_eq_true rfl, rfl⟩
theorem meshLoad (r : Nat) : Statement (.meshLoad r) := ⟨of_decide_eq_true rfl, rfl⟩
theorem saddleLoad (r : Nat) : Statement (.saddleLoad r) := ⟨of_decide_eq_true rfl, rfl⟩
theorem engineSet (r : Nat) : Statement (.engineSet r) := ⟨of_decide_eq_true rfl, rfl⟩
theorem engineCommit (r : Nat) : Statement (.engineCommit r) := ⟨of_decide_eq_true rfl, rfl⟩
theorem twistLoad (r : Nat) : Statement (.twistLoad r) := ⟨of_decide_eq_true rfl, rfl⟩
theorem twistSet (r : Nat) : Statement (.twistSet r) := ⟨of_decide_eq_true rfl, rfl⟩
theorem lightSet (r : Nat) : Statement (.lightSet r) := ⟨of_decide_eq_true rfl, rfl⟩
theorem calRequest (r : Nat) : Statement (.calRequest r) := ⟨of_decide_eq_true rfl, rfl⟩
theorem calStore (r : Nat) : Statement (.calStore r) := ⟨of_decide_eq_true rfl, rfl⟩
theorem flowWrite (r : Nat) : Statement (.flowWrite r) := ⟨of_decide_eq_true rfl, rfl⟩
theorem doorbell (r : Nat) (off : Nat) (full : Bool) (w : Word) : Statement (.doorbell r off full w) := ⟨of_decide_eq_true rfl, rfl⟩
theorem descriptorFetch : Statement (.descriptorFetch) := ⟨of_decide_eq_true rfl, rfl⟩
theorem descriptorArrival (r : Nat) (ds : List Desc) : Statement (.descriptorArrival r ds) := ⟨of_decide_eq_true rfl, rfl⟩
theorem hostReadError (kind : Nat) (r : Nat) : Statement (.hostReadError kind r) := ⟨of_decide_eq_true rfl, rfl⟩
theorem headWriteBack (r : Nat) : Statement (.headWriteBack r) := ⟨of_decide_eq_true rfl, rfl⟩
theorem evrHeadRead (v : Nat) (count : Word) : Statement (.evrHeadRead v count) := ⟨of_decide_eq_true rfl, rfl⟩
theorem alarmQueueWrite (v : Nat) : Statement (.alarmQueueWrite v) := ⟨of_decide_eq_true rfl, rfl⟩
theorem hostInterfaceReset (flr : Bool) (linkDown : Bool) : Statement (.hostInterfaceReset flr linkDown) := ⟨of_decide_eq_true rfl, rfl⟩
theorem d3hotEntry : Statement (.d3hotEntry) := ⟨of_decide_eq_true rfl, rfl⟩
theorem d0Return : Statement (.d0Return) := ⟨of_decide_eq_true rfl, rfl⟩
theorem setupWrite (off : Nat) (n : Nat) (v : Nat) : Statement (.setupWrite off n v) := ⟨of_decide_eq_true rfl, rfl⟩
theorem tickEnable (w : Word) : Statement (.tickEnable w) := ⟨of_decide_eq_true rfl, rfl⟩
theorem tickDisable (w : Word) : Statement (.tickDisable w) := ⟨of_decide_eq_true rfl, rfl⟩
theorem tickApply (w : Word) : Statement (.tickApply w) := ⟨of_decide_eq_true rfl, rfl⟩
theorem crEnable (r : Nat) (w : Word) : Statement (.crEnable r w) := ⟨of_decide_eq_true rfl, rfl⟩
theorem crDisable (r : Nat) (w : Word) : Statement (.crDisable r w) := ⟨of_decide_eq_true rfl, rfl⟩
theorem crRestart (r : Nat) : Statement (.crRestart r) := ⟨of_decide_eq_true rfl, rfl⟩
theorem evrEnable (v : Nat) (w : Word) : Statement (.evrEnable v w) := ⟨of_decide_eq_true rfl, rfl⟩
theorem icMsgDoorbell (w : Nat) : Statement (.icMsgDoorbell w) := ⟨of_decide_eq_true rfl, rfl⟩
theorem icSrcSet (w : Nat) : Statement (.icSrcSet w) := ⟨of_decide_eq_true rfl, rfl⟩
theorem icPendClear (k : Nat) (w : Nat) : Statement (.icPendClear k w) := ⟨of_decide_eq_true rfl, rfl⟩
theorem icTgtClaim (t : Nat) : Statement (.icTgtClaim t) := ⟨of_decide_eq_true rfl, rfl⟩
theorem icTgtComplete (t : Nat) (w : Nat) : Statement (.icTgtComplete t w) := ⟨of_decide_eq_true rfl, rfl⟩
theorem release (t : Nat) (w : Nat) : Statement (.release t w) := ⟨of_decide_eq_true rfl, rfl⟩
theorem targetWake (t : Nat) (w : Nat) : Statement (.targetWake t w) := ⟨of_decide_eq_true rfl, rfl⟩
theorem interruptArrival (n : Nat) : Statement (.interruptArrival n) := ⟨of_decide_eq_true rfl, rfl⟩
theorem notify (t : Nat) : Statement (.notify t) := ⟨of_decide_eq_true rfl, rfl⟩
theorem sknPortEnable (p : Nat) (w : Word) : Statement (.sknPortEnable p w) := ⟨of_decide_eq_true rfl, rfl⟩
theorem retrain (e : Nat) : Statement (.retrain e) := ⟨of_decide_eq_true rfl, rfl⟩
theorem accept (e : Nat) : Statement (.accept e) := ⟨of_decide_eq_true rfl, rfl⟩
theorem lsafeRelease : Statement (.lsafeRelease) := ⟨of_decide_eq_true rfl, rfl⟩
theorem cbusEnable (w : Word) : Statement (.cbusEnable w) := ⟨of_decide_eq_true rfl, rfl⟩
theorem logClear : Statement (.logClear) := ⟨of_decide_eq_true rfl, rfl⟩
theorem allowValid (n : Nat) (w : Word) : Statement (.allowValid n w) := ⟨of_decide_eq_true rfl, rfl⟩
theorem bbnPortConfig (p : Nat) (w : Word) : Statement (.bbnPortConfig p w) := ⟨of_decide_eq_true rfl, rfl⟩
theorem streamEnable (c : Nat) (w : Word) : Statement (.streamEnable c w) := ⟨of_decide_eq_true rfl, rfl⟩
theorem mapApply : Statement (.mapApply) := ⟨of_decide_eq_true rfl, rfl⟩
theorem toTest (w : Nat) : Statement (.toTest w) := ⟨of_decide_eq_true rfl, rfl⟩
theorem toField (w : Nat) : Statement (.toField w) := ⟨of_decide_eq_true rfl, rfl⟩
theorem toReturn (w : Nat) (sig : Bool) : Statement (.toReturn w sig) := ⟨of_decide_eq_true rfl, rfl⟩
theorem programRepair : Statement (.programRepair) := ⟨of_decide_eq_true rfl, rfl⟩
theorem bistStart (w : Nat) : Statement (.bistStart w) := ⟨of_decide_eq_true rfl, rfl⟩
theorem ceilingWrite (w : Word) : Statement (.ceilingWrite w) := ⟨of_decide_eq_true rfl, rfl⟩
theorem longOperationEnd (x : LongEnd) : Statement (.longOperationEnd x) := ⟨of_decide_eq_true rfl, rfl⟩
theorem porstLFall : Statement (.porstLFall) := ⟨of_decide_eq_true rfl, rfl⟩
theorem porstLRise (gpio : Nat) : Statement (.porstLRise gpio) := ⟨of_decide_eq_true rfl, rfl⟩
theorem pwrOkFall : Statement (.pwrOkFall) := ⟨of_decide_eq_true rfl, rfl⟩
theorem pwrOkRise : Statement (.pwrOkRise) := ⟨of_decide_eq_true rfl, rfl⟩
theorem lsafeOpen : Statement (.lsafeOpen) := ⟨of_decide_eq_true rfl, rfl⟩
theorem tickInEdge (t : Nat) : Statement (.tickInEdge t) := ⟨of_decide_eq_true rfl, rfl⟩
theorem clockLoss (c : Clock) : Statement (.clockLoss c) := ⟨of_decide_eq_true rfl, rfl⟩
theorem tickEdge : Statement (.tickEdge) := ⟨of_decide_eq_true rfl, rfl⟩
theorem latchPoint : Statement (.latchPoint) := ⟨of_decide_eq_true rfl, rfl⟩
theorem tickOutPulseEnd : Statement (.tickOutPulseEnd) := ⟨of_decide_eq_true rfl, rfl⟩
theorem tickGapEnd : Statement (.tickGapEnd) := ⟨of_decide_eq_true rfl, rfl⟩
theorem slotStart (e : Nat) : Statement (.slotStart e) := ⟨of_decide_eq_true rfl, rfl⟩
theorem tableEnd (e : Nat) : Statement (.tableEnd e) := ⟨of_decide_eq_true rfl, rfl⟩
theorem notch (e : Nat) : Statement (.notch e) := ⟨of_decide_eq_true rfl, rfl⟩
theorem loadStart (e : Nat) : Statement (.loadStart e) := ⟨of_decide_eq_true rfl, rfl⟩
theorem bandBlank (e : Nat) (beta : Nat) : Statement (.bandBlank e beta) := ⟨of_decide_eq_true rfl, rfl⟩
theorem underrun (e : Nat) : Statement (.underrun e) := ⟨of_decide_eq_true rfl, rfl⟩
theorem egressFetch (e : Nat) (n : Nat) : Statement (.egressFetch e n) := ⟨of_decide_eq_true rfl, rfl⟩
theorem plyTransmit (port : Nat) (strand : Nat) : Statement (.plyTransmit port strand) := ⟨of_decide_eq_true rfl, rfl⟩
theorem keepalive (port : Nat) (strand : Nat) : Statement (.keepalive port strand) := ⟨of_decide_eq_true rfl, rfl⟩
theorem composeUnit : Statement (.composeUnit) := ⟨of_decide_eq_true rfl, rfl⟩
theorem warpRow (p : Nat) (waited : Nat) : Statement (.warpRow p waited) := ⟨of_decide_eq_true rfl, rfl⟩
theorem bandComplete (e : Nat) (band : Nat) (stalled : Nat) : Statement (.bandComplete e band stalled) := ⟨of_decide_eq_true rfl, rfl⟩
theorem objApplyWindow : Statement (.objApplyWindow) := ⟨of_decide_eq_true rfl, rfl⟩
theorem regionSignature (c : Nat) (r : Nat) : Statement (.regionSignature c r) := ⟨of_decide_eq_true rfl, rfl⟩
theorem ack (e : Nat) (next : Nat) : Statement (.ack e next) := ⟨of_decide_eq_true rfl, rfl⟩
theorem nak (e : Nat) (q : Nat) : Statement (.nak e q) := ⟨of_decide_eq_true rfl, rfl⟩
theorem rsStatus (e : Nat) (estate : Nat) (lock : Nat) (flags : Nat) : Statement (.rsStatus e estate lock flags) := ⟨of_decide_eq_true rfl, rfl⟩
theorem sensor (e : Nat) (tag : Nat) (j : Nat) (value : Nat) (t16 : Nat) : Statement (.sensor e tag j value t16) := ⟨of_decide_eq_true rfl, rfl⟩
theorem string (e : Nat) (bank : Nat) (str : Nat) (volt : Nat) (cur : Nat) (flags : Nat) (t16 : Nat) : Statement (.string e bank str volt cur flags t16) := ⟨of_decide_eq_true rfl, rfl⟩
theorem temp (e : Nat) (array : Nat) (laser : Nat) (driver : Nat) (sensor : Nat) : Statement (.temp e array laser driver sensor) := ⟨of_decide_eq_true rfl, rfl⟩
theorem crcEcho (e : Nat) (t16 : Nat) (crc : Nat) : Statement (.crcEcho e t16 crc) := ⟨of_decide_eq_true rfl, rfl⟩
theorem ident (e : Nat) (x : Nat) : Statement (.ident e x) := ⟨of_decide_eq_true rfl, rfl⟩
theorem bandParked (e : Nat) (band : Nat) (t16 : Nat) : Statement (.bandParked e band t16) := ⟨of_decide_eq_true rfl, rfl⟩
theorem configOk (e : Nat) (id : Nat) : Statement (.configOk e id) := ⟨of_decide_eq_true rfl, rfl⟩
theorem configReject (e : Nat) (id : Nat) (cause : Nat) : Statement (.configReject e id cause) := ⟨of_decide_eq_true rfl, rfl⟩
theorem engineMsg (e : Nat) (source : Nat) : Statement (.engineMsg e source) := ⟨of_decide_eq_true rfl, rfl⟩
theorem late (e : Nat) (seq : Nat) : Statement (.late e seq) := ⟨of_decide_eq_true rfl, rfl⟩
theorem darkTimer (e : Nat) (strand : Nat) : Statement (.darkTimer e strand) := ⟨of_decide_eq_true rfl, rfl⟩
theorem badRecord (e : Nat) (code : Nat) (arg : Nat) : Statement (.badRecord e code arg) := ⟨of_decide_eq_true rfl, rfl⟩
theorem rsBadMessage (p : Nat) (kind : Nat) : Statement (.rsBadMessage p kind) := ⟨of_decide_eq_true rfl, rfl⟩
theorem returnStrandLost (p : Nat) : Statement (.returnStrandLost p) := ⟨of_decide_eq_true rfl, rfl⟩
theorem skeinNoAnswer (e : Nat) : Statement (.skeinNoAnswer e) := ⟨of_decide_eq_true rfl, rfl⟩
theorem crcEchoMissing (e : Nat) : Statement (.crcEchoMissing e) := ⟨of_decide_eq_true rfl, rfl⟩
theorem loopEdge : Statement (.loopEdge) := ⟨of_decide_eq_true rfl, rfl⟩
theorem calibrationTimeout (e : Nat) (b : Nat) : Statement (.calibrationTimeout e b) := ⟨of_decide_eq_true rfl, rfl⟩
theorem heatHoldExpiry (e : Nat) (i : Nat) : Statement (.heatHoldExpiry e i) := ⟨of_decide_eq_true rfl, rfl⟩
theorem escalationWindow (k : Nat) : Statement (.escalationWindow k) := ⟨of_decide_eq_true rfl, rfl⟩
theorem dieParityFail (w : DieWord) (third : Bool) : Statement (.dieParityFail w third) := ⟨of_decide_eq_true rfl, rfl⟩
theorem tableAck (mac : Nat) (ok : Bool) (e : Nat) (result : Nat) (id : Nat) : Statement (.tableAck mac ok e result id) := ⟨of_decide_eq_true rfl, rfl⟩
theorem switchAck (mac : Nat) (ok : Bool) (e : Nat) (result : Nat) (id : Nat) : Statement (.switchAck mac ok e result id) := ⟨of_decide_eq_true rfl, rfl⟩
theorem cbusStatus (mac : Nat) (ok : Bool) (e : Nat) (flags : Nat) (id : Nat) : Statement (.cbusStatus mac ok e flags id) := ⟨of_decide_eq_true rfl, rfl⟩
theorem ambient (mac : Nat) (ok : Bool) (lux : Nat) : Statement (.ambient mac ok lux) := ⟨of_decide_eq_true rfl, rfl⟩
theorem cbusMsg (mac : Nat) (ok : Bool) (source : Nat) : Statement (.cbusMsg mac ok source) := ⟨of_decide_eq_true rfl, rfl⟩
theorem stranger (mac : Nat) : Statement (.stranger mac) := ⟨of_decide_eq_true rfl, rfl⟩
theorem cbusRxFault (kind : Nat) : Statement (.cbusRxFault kind) := ⟨of_decide_eq_true rfl, rfl⟩
theorem tableRetry (e : Nat) : Statement (.tableRetry e) := ⟨of_decide_eq_true rfl, rfl⟩
theorem switchRetry : Statement (.switchRetry) := ⟨of_decide_eq_true rfl, rfl⟩
theorem plcaActiveChange (active : Bool) : Statement (.plcaActiveChange active) := ⟨of_decide_eq_true rfl, rfl⟩
theorem cbusTransmit : Statement (.cbusTransmit) := ⟨of_decide_eq_true rfl, rfl⟩
theorem bbnFrameRx (x : Frame) : Statement (.bbnFrameRx x) := ⟨of_decide_eq_true rfl, rfl⟩
theorem streamFrameComplete (c : Nat) (ns : Nat) : Statement (.streamFrameComplete c ns) := ⟨of_decide_eq_true rfl, rfl⟩
theorem streamFrameTimeout (c : Nat) : Statement (.streamFrameTimeout c) := ⟨of_decide_eq_true rfl, rfl⟩
theorem gptpMessage (p : Nat) (m : GptpMsg) : Statement (.gptpMessage p m) := ⟨of_decide_eq_true rfl, rfl⟩
theorem gptpLost (p : Nat) : Statement (.gptpLost p) := ⟨of_decide_eq_true rfl, rfl⟩
theorem pdelayReq (p : Nat) : Statement (.pdelayReq p) := ⟨of_decide_eq_true rfl, rfl⟩
theorem bbnLinkChange (p : Nat) (block : Bool) (fec : Bool) : Statement (.bbnLinkChange p block fec) := ⟨of_decide_eq_true rfl, rfl⟩
theorem stackTempRead (ok : Bool) (reading : Int) : Statement (.stackTempRead ok reading) := ⟨of_decide_eq_true rfl, rfl⟩
theorem refreshBoundary (pc : Nat) (rounds : Nat) (c0 : Bool) : Statement (.refreshBoundary pc rounds c0) := ⟨of_decide_eq_true rfl, rfl⟩
theorem c3Window (pc : Nat) (issued : Nat) : Statement (.c3Window pc issued) := ⟨of_decide_eq_true rfl, rfl⟩
theorem agedTierJoin (pc : Nat) (req : Nat) (arrival : Nat) (issued : Nat) (classA : Bool) : Statement (.agedTierJoin pc req arrival issued classA) := ⟨of_decide_eq_true rfl, rfl⟩
theorem laneTrack (lane : Nat) (up : Bool) : Statement (.laneTrack lane up) := ⟨of_decide_eq_true rfl, rfl⟩
theorem stackParityFail (v : StackVictim) (a : Nat) (n : Nat) : Statement (.stackParityFail v a n) := ⟨of_decide_eq_true rfl, rfl⟩
theorem pcRetrainEnd (pc : Nat) (ws : List LaneSweep) : Statement (.pcRetrainEnd pc ws) := ⟨of_decide_eq_true rfl, rfl⟩
theorem thermalModelUpdate (rails : List RailMs) : Statement (.thermalModelUpdate rails) := ⟨of_decide_eq_true rfl, rfl⟩
theorem caseSensorRead (ok : Bool) (value : Int) : Statement (.caseSensorRead ok value) := ⟨of_decide_eq_true rfl, rfl⟩
theorem ceilingDecision : Statement (.ceilingDecision) := ⟨of_decide_eq_true rfl, rfl⟩
theorem hostDataReadEnd (r : Nat) (bs : List Byte) : Statement (.hostDataReadEnd r bs) := ⟨of_decide_eq_true rfl, rfl⟩
theorem startUpStepEnd (x : StepEnd) : Statement (.startUpStepEnd x) := ⟨of_decide_eq_true rfl, rfl⟩
theorem clockReturn (c : Clock) : Statement (.clockReturn c) := ⟨of_decide_eq_true rfl, rfl⟩
theorem lsafeClose : Statement (.lsafeClose) := ⟨of_decide_eq_true rfl, rfl⟩
theorem pcieLinkUp (speed : Nat) (width : Nat) : Statement (.pcieLinkUp speed width) := ⟨of_decide_eq_true rfl, rfl⟩
theorem msixEnableWrite (enable : Bool) (mask : Bool) : Statement (.msixEnableWrite enable mask) := ⟨of_decide_eq_true rfl, rfl⟩
theorem returnStrandLock (p : Nat) (lock : Bool) : Statement (.returnStrandLock p lock) := ⟨of_decide_eq_true rfl, rfl⟩
theorem hello (port : Nat) (strand : Nat) : Statement (.hello port strand) := ⟨of_decide_eq_true rfl, rfl⟩

end Sys2Proof.Laws.Footprint
end

