-- ==== Sys2Proof/Laws/Records.lean ====
section
/-! SUPPORT. What event records leave: every register word below the event reels' own. -/

namespace Sys2Proof.Machine

/-- Where the registers of the event reels begin. -/
def evrStart : Nat := 0x22000

/-- The registers stay canonical, and those below the event reels' and the reels themselves stand. -/
def State.Reports (s t : State) : Prop := t.Canon ∧ (∀ a, a < evrStart → t.word a = s.word a) ∧ t.hif.reels = s.hif.reels

theorem State.Reports.refl {s : State} (h : s.Canon) : s.Reports s := ⟨h, fun _ _ => rfl, rfl⟩

theorem State.Reports.trans {s t u : State} (h : s.Reports t) (k : t.Reports u) : s.Reports u :=
  ⟨k.1, fun a ha => (k.2.1 a ha).trans (h.2.1 a ha), k.2.2.trans h.2.2⟩

theorem State.Reports.of_regs {s t u : State} (h : s.Reports t) (e : u.regs = t.regs)
    (k : u.hif.reels = t.hif.reels) : s.Reports u :=
  ⟨(congrArg (fun l => Tbl.wf regReset l = true) e).mpr h.1, fun a ha => (State.word_congr e a).trans (h.2.1 a ha), k.trans h.2.2⟩

theorem State.Reports.wr {s t : State} (h : s.Reports t) (f : Fld) (v : Nat) (hf : evrStart ≤ f.off) : s.Reports (t.wr f v) :=
  ⟨State.wr_canon h.1 f v, fun a ha => (State.word_wr h.1 v a (by omega) (by omega)).trans (h.2.1 a ha), (by simp : (t.wr f v).hif.reels = t.hif.reels).trans h.2.2⟩

theorem State.Reports.bump {s t : State} (h : s.Reports t) (f : Fld) (n : Nat) (hf : evrStart ≤ f.off) :
    s.Reports (t.bump f n) := h.wr f _ hf

/-- A field below the event reels' registers reads as before. -/
theorem State.Reports.rd {s t : State} (h : s.Reports t) {f : Fld} (hf : f.off + 4 < evrStart) : t.rd f = s.rd f := by
  unfold State.rd State.regOf
  rw [h.2.1 _ (by omega), h.2.1 _ (by omega)]

variable {s t : State}

theorem State.Reports.putRecord (h : s.Reports t) (v : Nat) (r : Record) : s.Reports (t.putRecord v r) := by
  have k : s.Reports ((t.hostWrite ((t.evr v).base + 32 * (t.rd (HIF_EVR_PRODUCED.PRODUCED v) % 2 ^ (t.evr v).sizeLog2)) 32
      (r.image (t.rd (HIF_EVR_PRODUCED.PRODUCED v)) (t.evr v).sizeLog2)).wr (HIF_EVR_PRODUCED.PRODUCED v)
      ((t.rd (HIF_EVR_PRODUCED.PRODUCED v) + 1) % 2 ^ 32)) :=
    (h.of_regs (State.hostWrite_regs ..) (by unfold State.hostWrite; dsimp only; split <;> rfl)).wr _ _ (Nat.le_trans (by decide : evrStart ≤ 0x22018) (Nat.le_add_right _ _))
  unfold State.putRecord
  dsimp only
  split
  · exact k.of_regs (State.raise_regs _ _) rfl
  · exact k

theorem State.Reports.dropRecord (h : s.Reports t) (v : Nat) (r : Record) : s.Reports (t.dropRecord v r) :=
  (h.bump SIG_DROPS.DROPPED 1 (by decide)).of_regs (State.setEvr_regs _ _ _) rfl

theorem State.Reports.drainList (v : Nat) (l : List Alarm) : ∀ {t : State}, s.Reports t → s.Reports (t.drainList v l) := by
  induction l with
  | nil => exact fun h => h.of_regs (State.setEvr_regs _ _ _) rfl
  | cons a l ih =>
    intro t h
    unfold State.drainList
    split
    · exact ih (h.putRecord v _)
    · exact h.of_regs (State.setEvr_regs _ _ _) rfl

theorem State.Reports.drainAlarms (h : s.Reports t) (v : Nat) : s.Reports (t.drainAlarms v) := by
  unfold State.drainAlarms
  split
  · exact h
  · exact State.Reports.drainList v _ h

theorem State.Reports.emitAlarm (h : s.Reports t) (v : Nat) (a : Alarm) : s.Reports (t.emitAlarm v a) := by
  unfold State.emitAlarm
  dsimp only
  split
  · exact (h.drainAlarms v).putRecord v _
  · exact ((h.drainAlarms v).of_regs (State.setEvr_regs _ _ _) rfl).wr _ _ (by decide)

theorem State.Reports.postAlarm (h : s.Reports t) (v : Nat) (i : Ident) (r : Record) : s.Reports (t.postAlarm v i r) := by
  unfold State.postAlarm
  split
  · exact h.bump _ _ (by decide)
  · split
    · exact h.emitAlarm v _
    · split
      · exact h.of_regs (State.setEvr_regs _ _ _) rfl
      · exact (h.emitAlarm v _).of_regs (State.setEvr_regs _ _ _) rfl

theorem State.Reports.postOther (h : s.Reports t) (v cls : Nat) (r : Record) : s.Reports (t.postOther v cls r) := by
  unfold State.postOther
  split
  · exact h.bump _ _ (by decide)
  · dsimp only
    split
    · exact ((h.drainAlarms v).putRecord v r).of_regs (State.setEvr_regs _ _ _) rfl
    · exact (h.drainAlarms v).dropRecord v r

theorem State.Reports.notice (h : s.Reports t) (n code sev reel seq : Nat) : s.Reports (t.notice n code sev reel seq) := by
  unfold State.notice
  dsimp only
  split
  · exact h.postAlarm _ _ _
  · exact h.postOther _ _ _

theorem State.Reports.freeSlot (h : s.Reports t) (o : Origin) : s.Reports (t.freeSlot o) := by
  unfold State.freeSlot
  split
  · exact h
  · exact h.of_regs (State.setEvr_regs _ _ _) rfl

theorem State.Reports.putReserved (h : s.Reports t) (v : Nat) (r : Record) : s.Reports (t.putReserved v r) := by
  unfold State.putReserved
  split
  · exact h.bump _ _ (by decide)
  · dsimp only
    split
    · exact (h.drainAlarms v).dropRecord v r
    · exact (h.drainAlarms v).putRecord v r

/-- The final record of a descriptor: LAST_CODE holds a code other than DONE, and every other register below the event reels'
stands. -/
theorem State.outcome_reports (hc : s.Canon) (o : Origin) (code detail : Nat) (ho : o.dead = false) :
    State.Reports (if code = cDone then s else s.wr (HIF_CR_STATUS.LAST_CODE o.reel) code) (s.outcome o code detail) := by
  replace hc : (if code = cDone then s else s.wr (HIF_CR_STATUS.LAST_CODE o.reel) code).Canon := by
    split
    · exact hc
    · exact State.wr_canon hc _ _
  unfold State.outcome
  rw [ho]
  simp only [Bool.false_eq_true, if_false]
  generalize (if code = cDone then s else s.wr (HIF_CR_STATUS.LAST_CODE o.reel) code) = u at hc ⊢
  have hu := State.Reports.refl hc
  split
  · exact hu.freeSlot o
  · split
    · split
      · exact hu.postOther _ _ _
      · exact hu.postAlarm _ _ _
    · exact (hu.freeSlot o).putReserved _ _

end Sys2Proof.Machine
end

