-- ==== Sys2Proof/Laws/Serve.lean ====
section
/-! SUPPORT. How a command that is served is carried out: set-up writes, commands in service, descriptors and messages. -/

namespace Sys2Proof.Machine

theorem State.inService_ready {s : State} (h : s.ready = true) (f : State → State) : s.inService f = f s := by
  simp [State.inService, h]

theorem State.inService_not {s : State} (h : s.ready = false) (f : State → State) : s.inService f = s := by
  simp [State.inService, h]

theorem State.setup_open {s : State} (h : s.Open) (f : State → State) : s.setup f = f s := by
  simp [State.setup, State.inService, h.1, h.2]

theorem State.setup_busy {s : State} (h : s.ready = true) (hb : s.flag DEV_STATUS.BUSY = true) (f : State → State) :
    s.setup f = s.bump DEV_SETUP_DROPPED.COUNT 1 := by
  simp [State.setup, State.inService, h, hb]

/-- The descriptor that is due is executed. -/
theorem State.descriptor_due {s : State} {r op : Nat} {d : Desc} (h : s.Due r op d) (body : Nat → Desc → State → Res) :
    s.descriptor r op body = s.apply r d (body r d s) := by
  simp [State.descriptor, State.inService, h.ready, h.reel, State.runFront, h.front, h.opcode, h.allowed]

/-- R82 passes a descriptor with clean fields in range, good addresses and no fenced unit that starts no store. -/
theorem State.r82_clean {s : State} {d : Desc} {l : List (Nat × Nat × Nat)} (h : s.Clean d l) :
    s.r82 d l true true false false = none := by
  simp [State.r82, h.1, h.2]

theorem State.checked_none (s : State) (k : Unit → Res) : s.checked none k = k () := rfl

theorem State.apply_done (s t : State) (r : Nat) (d : Desc) (c x : Nat) : s.apply r d (.done t c x) = t.completed r d c x := rfl

theorem State.apply_wait (s t : State) (r : Nat) (d : Desc) (b : Busy) :
    s.apply r d (.wait t b) = t.setReel r fun c => { c with busy := some b } := rfl

theorem State.apply_admitted (s t : State) (r : Nat) (d : Desc) : s.apply r d (.admitted t) = (t.executed r).settle r := rfl

/-- An engine that exists is one of 32. -/
theorem State.exists_lt {s : State} {e : Nat} (h : s.exists_ e = true) : e < 32 := by
  simp [State.exists_] at h; exact h.1

theorem State.message_hears {s : State} {e : Nat} (h : s.Hears e) (f : State → State) : s.message e f = f (s.heard e) := by
  obtain ⟨h1, h2, h3, h4⟩ := h
  have he := State.exists_lt h2
  unfold State.message
  rw [State.inService_ready h1]
  have h5 : ¬(32 ≤ e ∨ s.flag (SKN_PORT_STATUS.RS_LOCK (e / 2)) = false ∨ s.linkState (2 * (e / 2)) = 0 ∧
      s.linkState (2 * (e / 2) + 1) = 0) := by
    rintro (a | a | ⟨a, b⟩)
    · omega
    · rw [h4] at a; cases a
    · have : e = 2 * (e / 2) ∨ e = 2 * (e / 2) + 1 := by omega
      rcases this with k | k <;> rw [k] at h3 <;> contradiction
  dsimp only
  rw [if_neg h5]
  have e1 : (s.heard e).exists_ e = true := h2
  have e2 : (s.heard e).linkState e ≠ 0 := h3
  change (if (s.heard e).exists_ e = true then (if (s.heard e).linkState e = 0 then s.heard e else f (s.heard e))
    else (s.heard e).bump (SKN_PORT_DROPS.UNKNOWN (e / 2)) 1) = _
  rw [if_pos e1, if_neg e2]

end Sys2Proof.Machine
end

