-- ==== Sys2Proof/Machine/ReadPort.lean ====
section
/-! DEFINITION. The set-up port's reads (R9, R12, R97, R98): what a register shows, and what a read does to it. The table
has no row for a plain read, so no command calls this file; it says what the host sees of State. -/

namespace Sys2Proof.Machine

/-! ### Registers that show other state -/

/-- A word whose bit i is `f i`. -/
def wordOfBits (f : Nat → Bool) : Nat := ((List.range 32).map fun i => b2n (f i) * 2 ^ i).sum

/-- The string that CAL_SEL selects, as 9 × bank + string. -/
def State.calString (s : State) : Option Nat :=
  if s.rd CAL_SEL.BANK < 3 ∧ s.rd CAL_SEL.STRING < 9 then some (9 * s.rd CAL_SEL.BANK + s.rd CAL_SEL.STRING) else none

/-- PROGRESS and SAMPLES of a string (CAL_STR_STATE). -/
def LightEng.calProgress (l : LightEng) (i : Nat) : Nat × Nat :=
  match l.cal (i / 9) with
  | some c =>
    if c.str = i then (if !c.lent then 4 else if c.measuring then 3 else 2, c.samples.length)
    else (b2n (l.calReqs.any fun q => q.str = i), 0)
  | none => (b2n (l.calReqs.any fun q => q.str = i), 0)

/-- The calibration window at offsets 0x28_0024 to 0x28_0040; a selection naming nothing reads 0 (R335 to R345). -/
def State.calView (s : State) (off : Nat) : Nat :=
  let l := s.lightOf (s.rd CAL_SEL.ENGINE)
  let j := s.rd CAL_SEL.SENSOR
  let k := s.rd CAL_SEL.POINT
  let ofStr (f : Nat → StrModel → Nat) : Nat := match s.calString with | some i => f i (l.model i) | none => 0
  if off = CAL_STR_STATE.TH.off then
    ofStr fun i m => m.th % 4096 + 2 ^ 12 * (l.calProgress i).1 + 2 ^ 15 * min 63 (l.calProgress i).2
  else if off = CAL_STR_GAIN.G.off then ofStr fun _ m => m.g
  else if off = CAL_STR_INFO.COUNT.off then ofStr fun _ m => min 65535 m.count + 2 ^ 16 * (m.tRun % 65536)
  else if off = CAL_STR_LAST.TIME.off then ofStr fun _ m => m.last % 2 ^ 32
  else if off = CAL_STR_LAST.TIME.off + 4 then ofStr fun _ m => m.last / 2 ^ 32
  else if off = CAL_RESP.RESP.off then (if k < 5 then l.resp.getD (5 * j + k) (2 ^ 20) else 0)
  else if off = CAL_RESP_NOW.RESP.off then Tbl.get (fun _ => 2 ^ 20) l.respNow j
  else
    b2n l.respLoaded + 2 * b2n l.fromStore + ((List.range 3).map fun b => 2 ^ (2 + b) * b2n (l.cal b).isSome).sum +
      (if k < 5 then 2 ^ 16 * toField (l.respT.getD k 0) 16 else 0)

/-- Word `w` of a loaded kernel table in force (R161). -/
def State.coefView (s : State) (n : Nat) (vert : Bool) (w : Nat) : Nat :=
  let l := if vert then (s.sclForce n).coefV.getD ((List.range 64).flatMap fun _ => identityCoefs 6 2)
    else (s.sclForce n).coefH.getD ((List.range 64).flatMap fun _ => identityCoefs 8 3)
  toField (l.getD (2 * w) 0) 16 + 2 ^ 16 * toField (l.getD (2 * w + 1) 0) 16

/-- The error instance that SIG_ERR_SEL selects (R440). -/
def State.errSel (s : State) : Option ErrInst :=
  let k := s.rd SIG_ERR_SEL.KIND
  let i := s.rd SIG_ERR_SEL.INSTANCE
  if i < instances k then some (s.err k i) else none

/-- The interrupt controller's words of other state (R420, R423, R429). -/
def State.icView (s : State) (off : Nat) : Nat :=
  if 0x40100 ≤ off ∧ off < 0x40130 then wordOfBits fun i => s.pendBit (8 * (off - 0x40100) + i)
  else if 0x40200 ≤ off ∧ off < 0x40230 then wordOfBits fun i => s.actBit (8 * (off - 0x40200) + i)
  else if 0x41000 ≤ off ∧ off < 0x41200 ∧ off % 32 = 0x14 then
    let t := (off - 0x41000) / 32
    s.running t + 2 ^ 16 * b2n (s.deliverables t != []) + 2 ^ 17 * b2n (s.flag (IC_TGT_STATE.ARMED t)) +
      2 ^ 18 * b2n (s.flag (IC_TGT_STATE.ASSERTING t))
  else (s.word off).toNat

/-- DEV_GPIO_IN: a pin driven by OE shows OUT, else its level (DEV_GPIO_OUT, DEV_GPIO_OE). -/
def State.gpioIn (s : State) : Nat :=
  wordOfBits fun i => decide (i < 16) &&
    (if bitOf (s.rd DEV_GPIO_OE.OE) i then bitOf (s.rd DEV_GPIO_OUT.OUT) i else bitOf s.pwr.gpio i)

/-- What the mapped register word at `off` reads as. -/
def State.view (s : State) (off : Nat) : Nat :=
  let own := (s.word off).toNat
  if 0x40000 ≤ off ∧ off < 0x80000 then s.icView off
  else if off = DEV_GPIO_IN.IN.off then s.gpioIn
  else if off = TICK_DEVICE_TIME.TIME_NS.off then s.now % 2 ^ 32
  else if off = TICK_DEVICE_TIME.TIME_NS.off + 4 then s.now / 2 ^ 32 % 2 ^ 32
  else if off = CAL_CLOCK.TIME.off then s.calClock % 2 ^ 32
  else if off = CAL_CLOCK.TIME.off + 4 then s.calClock / 2 ^ 32
  else if CAL_STR_STATE.TH.off ≤ off ∧ off ≤ CAL_ENG_STATUS.BUSY.off then s.calView off
  else if 0xC8000 ≤ off ∧ off < 0xD8000 then
    s.coefView ((off - 0xC8000) / 0x800) (decide (0x400 ≤ off % 0x800)) (off % 0x400 / 4)
  else if 0x1C1800 ≤ off ∧ off < 0x1C1C00 ∧ off % 16 = 0 then
    insertBits own (FLY_TABLE.IN_USE 0).lo 1 (b2n (s.tableInUse ((off - 0x1C1800) / 16)))
  else if 0x180000 ≤ off ∧ off < 0x190000 ∧ off % 256 = 0x64 ∧ 0x100 ≤ off % 0x1000 then
    let e := 2 * ((off - 0x180000) / 0x1000) + (off % 0x1000 - 0x100) / 0x100
    (s.engine e).spin.matrixAt (s.rd (SPN_DITHER_IDX.INDEX e))
  else if off = SIG_STATUS.FENCED.off then insertBits own 8 1 (b2n (decide (0 < s.alarmDepth)))
  else if off = SIG_ALARM_QUEUE.DEPTH.off then insertBits own 0 14 s.alarmDepth
  else if off = SIG_ERR_STATE.COUNT.off then (match s.errSel with | some x => x.count + 2 ^ 16 * x.level | none => 0)
  else if off = SIG_ERR_TOTAL.TOTAL.off then (match s.errSel with | some x => x.total | none => 0)
  else own

/-- PCIE_CLKREQ_L is driven low whenever the part is powered and PORST_L is high; PCIE_WAKE_L is never asserted (R65). -/
def State.clkreqLow (s : State) : Bool := s.pwr.porst

/-- Vendor ID, device ID and class code of the function (R63). -/
def pcieIdentity : Nat × Nat × Nat := (0x1D7E, 0x1648, 0x048000)

/-! ### Reads (R9, R12, R97, R98) -/

/-- RC fields of word `k` of register `r` are cleared by a read (R9). -/
def State.clearRc (s : State) (r : RegRow) (k off : Nat) : State :=
  if r.accMask k .rc = 0 then s else s.setWord off (s.word off &&& ~~~(BitVec.ofNat 32 (r.accMask k .rc)))

/-- An aligned 32-bit read: its value, and the state after it (R97). -/
def State.read32 (s : State) (off : Nat) : State × Nat :=
  if inMsix off then
    (s, if off < 0x30400 then (Tbl.get msixDefault s.hif.msixTable ((off - 0x30000) / 4)).toNat
        else s.hif.pba / 2 ^ (8 * (off - 0x38000)) % 2 ^ 32)
  else if s.flag DEV_STATUS.BUSY ∧ off ≠ DEV_STATUS.BUSY.off then (s, 0xB0B0B0B0)
  else match findReg off with
    | none => (s, 0)
    | some (r, k) =>
      if 0x41000 ≤ off ∧ off < 0x41200 ∧ off % 32 = 8 then
        let s := s.claim ((off - 0x41000) / 32)
        (s, s.ic.claimed.toNat)
      else if r.wide && k == 1 then (s, (Tbl.get (fun _ => (0 : Word)) s.hif.captured off).toNat)
      else
        let v := s.view off
        let s := if r.wide then { s with hif := { s.hif with
          captured := Tbl.put (fun _ => 0) (off + 4) (BitVec.ofNat 32 (s.view (off + 4))) s.hif.captured } } else s
        (s.clearRc r k off, v)

/-- One part of a read: `n` bytes at `off` within one word, or a whole 64-bit register at once (R97). -/
def State.readPart (s : State) (off n : Nat) : State × Nat :=
  if n = 8 then
    if s.flag DEV_STATUS.BUSY then (s, 0xB0B0B0B0B0B0B0B0)
    else (s, s.view off + 2 ^ 32 * s.view (off + 4))
  else
    let p := s.read32 (off / 4 * 4)
    (p.1, p.2 / 2 ^ (8 * (off % 4)) % 2 ^ (8 * n))

/-- A BAR0 read of `n` bytes at `off`: the state after it and the bytes; no answer before READY (R97, R477). -/
def State.readPort (s : State) (off n : Nat) : State × Option Nat :=
  if !s.ready then (s, none)
  else
    let p := (accessParts 3 off n 0).foldl (fun (a : State × Nat × Nat) p =>
      let x := a.1.readPart p.1 p.2.1
      (x.1, a.2.1 + x.2 * 2 ^ (8 * a.2.2), a.2.2 + p.2.1)) (s, 0, 0)
    (p.1, some p.2.1)

end Sys2Proof.Machine
end

