-- ==== Sys2Proof/WellFormed.lean ====
section
/-! DEFINITION. The commands that can be sent: every operand within the range its source gives it. -/

namespace Sys2Proof

/-- A number of a set of `n` like things. -/
def below (x n : Nat) : Bool := decide (x < n)

/-- A value of an operand of `n` bits. -/
def bits (x n : Nat) : Bool := decide (x < 2 ^ n)

/-- A reference clock of R521. -/
def clockOk : Clock → Bool
  | .skn k => below k 4
  | _ => true

/-- A die word that exists (R25, R439). -/
def dieWordOk : DieWord → Bool
  | .moved b => below b 19
  | .palette k => below k 65536
  | .mesh e k => below e 32 && below k 4810
  | .ramp e k => below e 32 && below k 512
  | .matrix e k => below e 32 && below k 2048
  | .twist t slot k => below t 64 && below slot 256 && below k 4
  | .flow n k => below n 4096 && below k 14
  | .context n => below n 262144
  | .mirror n => below n 262144
  | .coef n v k => below n 32 && below k (if v then 384 else 512)
  | .lineBuffer n => below n 32

/-- A requester of the stack that exists (R404). -/
def victimOk : StackVictim → Bool
  | .flyer e => below e 32
  | .warpRead p => below p 16
  | .planeWrite e band => below e 32 && below band 16
  | .histogramWrite e => below e 32
  | .matrixRead e => below e 32
  | .copy r => below r 64
  | .ingest c => below c 256
  | .readBack r => below r 64
  | _ => true

/-- Every operand of the command is within its range. -/
def wellFormed : Instr → Bool
  | .nop r => below r 64
  | .fence r => below r 64
  | .waitTick r => below r 64
  | .readBack r => below r 64
  | .readBackEnd r n => below r 64 && bits n 25
  | .unfence r => below r 64
  | .surfaceDefine r => below r 64
  | .surfaceCopy r => below r 64
  | .copyWriteEnd r _ => below r 64
  | .surfaceState r => below r 64
  | .atlasDefine r => below r 64
  | .layerSet r => below r 64
  | .canvasSet r => below r 64
  | .commit r => below r 64
  | .guardSet r => below r 64
  | .guardCommit r => below r 64
  | .regionSet r => below r 64
  | .scalerBind r => below r 64
  | .coefLoad r => below r 64
  | .objWrite r => below r 64
  | .meshLoad r => below r 64
  | .saddleLoad r => below r 64
  | .engineSet r => below r 64
  | .engineCommit r => below r 64
  | .twistLoad r => below r 64
  | .twistSet r => below r 64
  | .lightSet r => below r 64
  | .calRequest r => below r 64
  | .calStore r => below r 64
  | .flowWrite r => below r 64
  | .doorbell r off _ _ => below r 64 && below off 4096
  | .descriptorFetch => true
  | .descriptorArrival r ds => below r 64 && decide (ds.length ≤ 64)
  | .hostReadError kind r => below kind 3 && below r 64
  | .headWriteBack r => below r 64
  | .evrHeadRead v _ => below v 8
  | .alarmQueueWrite v => below v 8
  | .hostInterfaceReset _ _ => true
  | .d3hotEntry => true
  | .d0Return => true
  | .setupWrite off n v => bits off 26 && [1, 2, 4, 8].contains n && below v (2 ^ (8 * n))
  | .tickEnable _ => true
  | .tickDisable _ => true
  | .tickApply _ => true
  | .crEnable r _ => below r 64
  | .crDisable r _ => below r 64
  | .crRestart r => below r 64
  | .evrEnable v _ => below v 8
  | .icMsgDoorbell w => bits w 32
  | .icSrcSet w => bits w 32
  | .icPendClear k w => below k 12 && bits w 32
  | .icTgtClaim t => below t 16
  | .icTgtComplete t w => below t 16 && bits w 32
  | .release t w => below t 16 && bits w 32
  | .targetWake t w => below t 16 && bits w 32
  | .interruptArrival n => below n 320
  | .notify t => below t 16
  | .sknPortEnable p _ => below p 16
  | .retrain e => below e 32
  | .accept e => below e 32
  | .lsafeRelease => true
  | .cbusEnable _ => true
  | .logClear => true
  | .allowValid n _ => below n 32
  | .bbnPortConfig p _ => below p 2
  | .streamEnable c _ => below c 256
  | .mapApply => true
  | .toTest w => bits w 32
  | .toField w => bits w 32
  | .toReturn w _ => bits w 32
  | .programRepair => true
  | .bistStart w => bits w 32
  | .ceilingWrite _ => true
  | .longOperationEnd _ => true
  | .porstLFall => true
  | .porstLRise gpio => bits gpio 16
  | .pwrOkFall => true
  | .pwrOkRise => true
  | .lsafeOpen => true
  | .tickInEdge t => bits t 64
  | .clockLoss c => clockOk c
  | .tickEdge => true
  | .latchPoint => true
  | .tickOutPulseEnd => true
  | .tickGapEnd => true
  | .slotStart e => below e 32
  | .tableEnd e => below e 32
  | .notch e => below e 32
  | .loadStart e => below e 32
  | .bandBlank e beta => below e 32 && below beta 16
  | .underrun e => below e 32
  | .egressFetch e n => below e 32 && bits n 21
  | .plyTransmit port strand => below port 16 && below strand 4
  | .keepalive port strand => below port 16 && below strand 4
  | .composeUnit => true
  | .warpRow p waited => below p 16 && bits waited 32
  | .bandComplete e band stalled => below e 32 && below band 16 && bits stalled 32
  | .objApplyWindow => true
  | .regionSignature c r => below c 8 && below r 64
  | .ack e next => below e 32 && bits next 14
  | .nak e q => below e 32 && bits q 14
  | .rsStatus e estate lock flags => below e 32 && bits estate 8 && bits lock 8 && bits flags 8
  | .sensor e tag j value t16 => below e 32 && bits tag 8 && bits j 8 && bits value 32 && bits t16 16
  | .string e bank str volt cur flags t16 => below e 32 && bits bank 8 && bits str 8 && bits volt 16 && bits cur 16 && bits flags 8 && bits t16 16
  | .temp e array laser driver sensor => below e 32 && bits array 16 && bits laser 16 && bits driver 16 && bits sensor 16
  | .crcEcho e t16 crc => below e 32 && bits t16 16 && bits crc 32
  | .ident e x => below e 32 && bits x 192
  | .bandParked e band t16 => below e 32 && bits band 8 && bits t16 16
  | .configOk e id => below e 32 && bits id 16
  | .configReject e id cause => below e 32 && bits id 16 && bits cause 8
  | .engineMsg e source => below e 32 && bits source 16
  | .late e seq => below e 32 && bits seq 14
  | .darkTimer e strand => below e 32 && bits strand 8
  | .badRecord e code arg => below e 32 && bits code 8 && bits arg 24
  | .rsBadMessage p kind => below p 16 && below kind 4
  | .returnStrandLost p => below p 16
  | .skeinNoAnswer e => below e 32
  | .crcEchoMissing e => below e 32
  | .loopEdge => true
  | .calibrationTimeout e b => below e 32 && below b 3
  | .heatHoldExpiry e i => below e 32 && below i 27
  | .escalationWindow k => below k 8
  | .dieParityFail w _ => dieWordOk w
  | .tableAck mac _ e result id => bits mac 48 && below e 32 && bits result 8 && bits id 16
  | .switchAck mac _ e result id => bits mac 48 && below e 32 && bits result 8 && bits id 16
  | .cbusStatus mac _ e flags id => bits mac 48 && below e 32 && bits flags 8 && bits id 16
  | .ambient mac _ lux => bits mac 48 && bits lux 32
  | .cbusMsg mac _ source => bits mac 48 && bits source 16
  | .stranger mac => bits mac 48
  | .cbusRxFault kind => below kind 3
  | .tableRetry e => below e 32
  | .switchRetry => true
  | .plcaActiveChange _ => true
  | .cbusTransmit => true
  | .bbnFrameRx x => below x.port 2
  | .streamFrameComplete c ns => below c 256 && bits ns 32
  | .streamFrameTimeout c => below c 256
  | .gptpMessage p _ => below p 2
  | .gptpLost p => below p 2
  | .pdelayReq p => below p 2
  | .bbnLinkChange p _ _ => below p 2
  | .stackTempRead _ reading => decide (-128 ≤ reading ∧ reading ≤ 127)
  | .refreshBoundary pc rounds _ => below pc 32 && bits rounds 8
  | .c3Window pc issued => below pc 32 && bits issued 16
  | .agedTierJoin pc req arrival issued _ => below pc 32 && below req 90 && bits arrival 64 && bits issued 16
  | .laneTrack lane _ => below lane 128
  | .stackParityFail v a n => victimOk v && bits a 34 && below n 9
  | .pcRetrainEnd pc ws => below pc 32 && ws.length == 4
  | .thermalModelUpdate rails => rails.length == 10
  | .caseSensorRead _ value => decide (-32768 ≤ value ∧ value ≤ 32767)
  | .ceilingDecision => true
  | .hostDataReadEnd r _ => below r 64
  | .startUpStepEnd _ => true
  | .clockReturn c => clockOk c
  | .lsafeClose => true
  | .pcieLinkUp speed width => bits speed 3 && bits width 4
  | .msixEnableWrite _ _ => true
  | .returnStrandLock p _ => below p 16
  | .hello port strand => below port 16 && below strand 4

end Sys2Proof
end

