-- ==== Sys2Proof/Tests/Slice0.lean ====
section
/-! SUPPORT. The tests of the model: ill-formed commands that the checks refuse, examples worked from the rules by hand, and for
every statement states and operands that meet its hypotheses. -/

namespace Sys2Proof.Tests

set_option Elab.async false

open Sys2Proof.Machine

/-! ### Small states -/

/-- A part in service, in life-cycle state FIELD, with every clock and PWR_OK. -/
def svc : State :=
  ({ now := 1000000, pwr := { porst := true, pwrOk := true, sysClk := true } } : State).wrs
    [(DEV_STATUS.READY, 1), (DEV_STATUS.LC, 2), (HIF_STATUS.LINK_UP, 1)]

/-- The same part with a long operation active. -/
def busy : State := svc.wr DEV_STATUS.BUSY 1

/-- A descriptor of an opcode, an INDEX and argument values by byte. -/
def descr (op index : Nat) (l : List (Nat × Nat)) : Desc :=
  BitVec.ofNat 512 (l.foldl (fun x p => x + p.2 * 2 ^ (8 * p.1)) (op + 2 ^ 16 * index))

/-- A state with a descriptor at the front of reel 0. -/
def at0 (s : State) (d : Desc) : State :=
  (s.wrs [(HIF_CR_CFG.ENABLE 0, 1), (HIF_CR_STATUS.ACTIVE 0, 1)]).setReel 0 fun c => { c with fetched := [d] }

/-- A state whose reel 0 has a descriptor in execution. -/
def held0 (s : State) (d : Desc) (b : Busy) : State := (at0 s d).setReel 0 fun c => { c with busy := some b }

theorem due_iff (s : State) (r op : Nat) (d : Desc) : s.Due r op d ↔
    s.ready = true ∧ r < 64 ∧ s.front r = some d ∧ dOpcode d = op ∧ badOpcode (s.reel r).cls op = false :=
  ⟨fun h => ⟨h.ready, h.reel, h.front, h.opcode, h.allowed⟩, fun h => ⟨h.1, h.2.1, h.2.2.1, h.2.2.2.1, h.2.2.2.2⟩⟩

/-! ### Well-formedness: an ill-formed command for each check, which it refuses, and the ends of every range -/

theorem test_ill_formed_1 : List.all (
    [.nop 64, .fence 64, .waitTick 64, .readBack 64, .readBackEnd 64 0, .readBackEnd 0 33554432, .unfence 64,
     .surfaceDefine 64, .surfaceCopy 64, .surfaceState 64, .atlasDefine 64, .layerSet 64, .canvasSet 64, .commit 64,
     .guardSet 64, .guardCommit 64, .regionSet 64, .scalerBind 64, .coefLoad 64, .objWrite 64, .meshLoad 64, .saddleLoad 64,
     .engineSet 64, .engineCommit 64, .twistLoad 64, .twistSet 64, .lightSet 64, .calRequest 64, .calStore 64, .flowWrite 64,
     .doorbell 64 0 false 0, .doorbell 0 4096 false 0, .hostReadError 3 0, .hostReadError 0 64, .headWriteBack 64,
     .evrHeadRead 8 0, .alarmQueueWrite 8, .crEnable 64 0, .crDisable 64 0, .crRestart 64, .evrEnable 8 0,
     .icMsgDoorbell 4294967296, .icSrcSet 4294967296, .icPendClear 12 0, .icPendClear 0 4294967296, .icTgtClaim 16,
     .icTgtComplete 16 0, .icTgtComplete 0 4294967296, .release 16 0, .release 0 4294967296, .targetWake 16 0,
     .targetWake 0 4294967296, .interruptArrival 320, .notify 16, .sknPortEnable 16 0, .retrain 32, .accept 32,
     .allowValid 32 0, .bbnPortConfig 2 0, .streamEnable 256 0, .toTest 4294967296, .toField 4294967296,
     .toReturn 4294967296 false, .bistStart 4294967296, .porstLRise 65536, .tickInEdge 18446744073709551616, .slotStart 32,
     .tableEnd 32, .notch 32, .loadStart 32, .bandBlank 32 0, .bandBlank 0 16, .underrun 32, .egressFetch 32 0,
     .egressFetch 0 2097152, .plyTransmit 16 0, .plyTransmit 0 4, .keepalive 16 0, .keepalive 0 4, .warpRow 16 0,
     .warpRow 0 4294967296, .bandComplete 32 0 0, .bandComplete 0 16 0, .bandComplete 0 0 4294967296, .regionSignature 8 0,
     .regionSignature 0 64, .ack 32 0, .ack 0 16384, .nak 32 0, .nak 0 16384, .rsStatus 32 0 0 0, .rsStatus 0 256 0 0,
     .rsStatus 0 0 256 0, .rsStatus 0 0 0 256, .sensor 32 0 0 0 0, .sensor 0 256 0 0 0, .sensor 0 0 256 0 0,
     .sensor 0 0 0 4294967296 0, .sensor 0 0 0 0 65536, .string 32 0 0 0 0 0 0, .string 0 256 0 0 0 0 0,
     .string 0 0 256 0 0 0 0, .string 0 0 0 65536 0 0 0, .string 0 0 0 0 65536 0 0, .string 0 0 0 0 0 256 0,
     .string 0 0 0 0 0 0 65536, .temp 32 0 0 0 0, .temp 0 65536 0 0 0, .temp 0 0 65536 0 0, .temp 0 0 0 65536 0,
     .temp 0 0 0 0 65536, .crcEcho 32 0 0, .crcEcho 0 65536 0, .crcEcho 0 0 4294967296, .ident 32 0,
     .ident 0 6277101735386680763835789423207666416102355444464034512896, .bandParked 32 0 0, .bandParked 0 256 0,
     .bandParked 0 0 65536, .configOk 32 0, .configOk 0 65536, .configReject 32 0 0, .configReject 0 65536 0,
     .configReject 0 0 256, .engineMsg 32 0, .engineMsg 0 65536, .late 32 0, .late 0 16384, .darkTimer 32 0, .darkTimer 0 256] : List Instr) (fun c => !wellFormed c) = true := by
  decide +kernel

theorem test_ill_formed_2 : List.all (
    [.badRecord 32 0 0, .badRecord 0 256 0, .badRecord 0 0 16777216, .rsBadMessage 16 0, .rsBadMessage 0 4,
     .returnStrandLost 16, .skeinNoAnswer 32, .crcEchoMissing 32, .calibrationTimeout 32 0, .calibrationTimeout 0 3,
     .heatHoldExpiry 32 0, .heatHoldExpiry 0 27, .escalationWindow 8, .tableAck 0 false 32 0 0,
     .tableAck 281474976710656 false 0 0 0, .tableAck 0 false 0 256 0, .tableAck 0 false 0 0 65536,
     .switchAck 0 false 32 0 0, .switchAck 281474976710656 false 0 0 0, .switchAck 0 false 0 256 0,
     .switchAck 0 false 0 0 65536, .cbusStatus 0 false 32 0 0, .cbusStatus 281474976710656 false 0 0 0,
     .cbusStatus 0 false 0 256 0, .cbusStatus 0 false 0 0 65536, .ambient 281474976710656 false 0,
     .ambient 0 false 4294967296, .cbusMsg 281474976710656 false 0, .cbusMsg 0 false 65536, .stranger 281474976710656,
     .cbusRxFault 3, .tableRetry 32, .streamFrameComplete 256 0, .streamFrameComplete 0 4294967296, .streamFrameTimeout 256,
     .gptpLost 2, .pdelayReq 2, .bbnLinkChange 2 false false, .refreshBoundary 32 0 false, .refreshBoundary 0 256 false,
     .c3Window 32 0, .c3Window 0 65536, .agedTierJoin 32 0 0 0 false, .agedTierJoin 0 90 0 0 false,
     .agedTierJoin 0 0 18446744073709551616 0 false, .agedTierJoin 0 0 0 65536 false, .laneTrack 128 false, .pcieLinkUp 8 0,
     .pcieLinkUp 0 16, .returnStrandLock 16 false, .hello 16 0, .hello 0 4, .copyWriteEnd 64 [], .descriptorArrival 64 [],
     .descriptorArrival 0 (List.replicate 65 0), .clockLoss (.skn 4), .clockReturn (.skn 4), .hostDataReadEnd 64 [],
     .gptpMessage 2 (.pdelayReq 0), .pcRetrainEnd 0 [], .pcRetrainEnd 32 [], .thermalModelUpdate [],
     .stackTempRead true (-129), .stackTempRead true 128, .caseSensorRead true (-32769), .caseSensorRead true 32768,
     .setupWrite 67108864 4 0, .setupWrite 0 3 0, .setupWrite 0 1 256, .bbnFrameRx { port := 2, len := 64, dstMac := [] },
     .stackParityFail .canvasWrite 17179869184 0, .stackParityFail .canvasWrite 0 9, .stackParityFail (.flyer 32) 0 1,
     .stackParityFail (.warpRead 16) 0 1, .stackParityFail (.planeWrite 32 0) 0 1, .stackParityFail (.planeWrite 0 16) 0 1,
     .stackParityFail (.histogramWrite 32) 0 1, .stackParityFail (.matrixRead 32) 0 1, .stackParityFail (.copy 64) 0 1,
     .stackParityFail (.ingest 256) 0 1, .stackParityFail (.readBack 64) 0 1, .dieParityFail (.moved 19) true,
     .dieParityFail (.palette 65536) true, .dieParityFail (.mesh 32 0) true, .dieParityFail (.mesh 0 4810) true,
     .dieParityFail (.ramp 32 0) true, .dieParityFail (.ramp 0 512) true, .dieParityFail (.matrix 32 0) true,
     .dieParityFail (.matrix 0 2048) true, .dieParityFail (.twist 64 0 0) true, .dieParityFail (.twist 0 256 0) true,
     .dieParityFail (.twist 0 0 4) true, .dieParityFail (.flow 4096 0) true, .dieParityFail (.flow 0 14) true,
     .dieParityFail (.context 262144) true, .dieParityFail (.mirror 262144) true, .dieParityFail (.coef 32 true 0) true,
     .dieParityFail (.coef 0 true 384) true, .dieParityFail (.coef 0 false 512) true, .dieParityFail (.lineBuffer 32) true] : List Instr) (fun c => !wellFormed c) = true := by
  decide +kernel

theorem test_well_formed_1 : List.all (
    [.nop 63, .fence 63, .waitTick 63, .readBack 63, .readBackEnd 63 33554431, .unfence 63, .surfaceDefine 63,
     .surfaceCopy 63, .surfaceState 63, .atlasDefine 63, .layerSet 63, .canvasSet 63, .commit 63, .guardSet 63,
     .guardCommit 63, .regionSet 63, .scalerBind 63, .coefLoad 63, .objWrite 63, .meshLoad 63, .saddleLoad 63, .engineSet 63,
     .engineCommit 63, .twistLoad 63, .twistSet 63, .lightSet 63, .calRequest 63, .calStore 63, .flowWrite 63,
     .doorbell 63 4095 false 0, .hostReadError 2 63, .headWriteBack 63, .evrHeadRead 7 0, .alarmQueueWrite 7, .crEnable 63 0,
     .crDisable 63 0, .crRestart 63, .evrEnable 7 0, .icMsgDoorbell 4294967295, .icSrcSet 4294967295,
     .icPendClear 11 4294967295, .icTgtClaim 15, .icTgtComplete 15 4294967295, .release 15 4294967295,
     .targetWake 15 4294967295, .interruptArrival 319, .notify 15, .sknPortEnable 15 0, .retrain 31, .accept 31,
     .allowValid 31 0, .bbnPortConfig 1 0, .streamEnable 255 0, .toTest 4294967295, .toField 4294967295,
     .toReturn 4294967295 false, .bistStart 4294967295, .porstLRise 65535, .tickInEdge 18446744073709551615, .slotStart 31,
     .tableEnd 31, .notch 31, .loadStart 31, .bandBlank 31 15, .underrun 31, .egressFetch 31 2097151, .plyTransmit 15 3,
     .keepalive 15 3, .warpRow 15 4294967295, .bandComplete 31 15 4294967295, .regionSignature 7 63, .ack 31 16383,
     .nak 31 16383, .rsStatus 31 255 255 255, .sensor 31 255 255 4294967295 65535, .string 31 255 255 65535 65535 255 65535,
     .temp 31 65535 65535 65535 65535, .crcEcho 31 65535 4294967295,
     .ident 31 6277101735386680763835789423207666416102355444464034512895, .bandParked 31 255 65535, .configOk 31 65535,
     .configReject 31 65535 255, .engineMsg 31 65535, .late 31 16383, .darkTimer 31 255, .badRecord 31 255 16777215,
     .rsBadMessage 15 3, .returnStrandLost 15, .skeinNoAnswer 31, .crcEchoMissing 31, .calibrationTimeout 31 2,
     .heatHoldExpiry 31 26, .escalationWindow 7, .tableAck 281474976710655 false 31 255 65535,
     .switchAck 281474976710655 false 31 255 65535, .cbusStatus 281474976710655 false 31 255 65535,
     .ambient 281474976710655 false 4294967295, .cbusMsg 281474976710655 false 65535, .stranger 281474976710655,
     .cbusRxFault 2, .tableRetry 31, .streamFrameComplete 255 4294967295, .streamFrameTimeout 255, .gptpLost 1, .pdelayReq 1,
     .bbnLinkChange 1 false false, .refreshBoundary 31 255 false, .c3Window 31 65535,
     .agedTierJoin 31 89 18446744073709551615 65535 false, .laneTrack 127 false, .pcieLinkUp 7 15,
     .returnStrandLock 15 false, .hello 15 3, .copyWriteEnd 63 [1], .descriptorArrival 63 (List.replicate 64 0),
     .clockLoss (.skn 3), .clockReturn (.skn 3), .clockLoss .sys, .hostDataReadEnd 63 [], .gptpMessage 1 (.pdelayReq 0),
     .thermalModelUpdate (List.replicate 10 none), .pcRetrainEnd 31 (List.replicate 4 ⟨0, 127, 0, 127⟩),
     .stackTempRead true (-128), .stackTempRead true 127, .caseSensorRead true (-32768), .caseSensorRead true 32767,
     .setupWrite 67108863 1 255, .setupWrite 0 8 (2 ^ 64 - 1), .bbnFrameRx { port := 1, len := 64, dstMac := [] },
     .stackParityFail .canvasWrite 17179869183 8, .stackParityFail (.flyer 31) 0 1, .stackParityFail (.warpRead 15) 0 1,
     .stackParityFail (.planeWrite 31 15) 0 1, .stackParityFail (.histogramWrite 31) 0 1,
     .stackParityFail (.matrixRead 31) 0 1, .stackParityFail (.copy 63) 0 1, .stackParityFail (.ingest 255) 0 1,
     .stackParityFail (.readBack 63) 0 1, .stackParityFail .guardedFetch 0 1, .stackParityFail .otherFetch 0 1,
     .dieParityFail (.moved 18) true, .dieParityFail (.palette 65535) true, .dieParityFail (.mesh 31 4809) true,
     .dieParityFail (.ramp 31 511) true, .dieParityFail (.matrix 31 2047) true, .dieParityFail (.twist 63 255 3) true,
     .dieParityFail (.flow 4095 13) true, .dieParityFail (.context 262143) true, .dieParityFail (.mirror 262143) true,
     .dieParityFail (.coef 31 true 383) true, .dieParityFail (.coef 31 false 511) true, .dieParityFail (.lineBuffer 31) true] : List Instr) wellFormed = true := by
  decide +kernel

/-! ### Hypotheses met: the queue, the step and the invariant

Each theorem `test_met_…` shows, clause by clause, states and operands that meet the hypotheses of the statement it names. -/

theorem test_met_StepRunsTheFrontCommand :
    ({ svc with pending := [.nop 0, .d3hotEntry] } : State).pending = .nop 0 :: [.d3hotEntry] := rfl

theorem test_met_IdleStepPassesTime :
    svc.pending = [] ∧ svc.powered = true ∧ State.reset.pending = [] ∧ State.reset.powered = false := by decide +kernel

theorem test_met_EveryStepKeepsInvariant : svc.Inv ∧ step svc = .next { svc with now := svc.now + 5 } := by
  refine ⟨by unfold State.Inv; decide +kernel, ?_⟩
  have h : svc.powered = true := by decide +kernel
  have p : svc.pending = [] := by decide +kernel
  unfold step; rw [p]; simp [State.idle, h]

/-- A command that answers: what the statements about every command and every next state suppose. -/
theorem test_d3hot_entry : exec .d3hotEntry svc = .next { svc with hif := { svc.hif with d3hot := true } } := by
  have h : svc.ready = true := by decide +kernel
  simp [exec, execD3hotEntry, State.inService, h]

theorem test_met_NoCommandTouchesTheQueue : ∃ t, exec .d3hotEntry svc = .next t := ⟨_, test_d3hot_entry⟩

theorem test_met_TimeNeverStepsBack : (Instr.d3hotEntry ≠ .porstLFall) ∧ ∀ g, Instr.d3hotEntry ≠ .porstLRise g := by simp

theorem test_met_NothingWorksBeforeReady :
    State.reset.ready = false ∧ anyTime (.nop 0) = false ∧ anyTime (.hello 15 3) = false := by decide +kernel

theorem test_met_BusyDropsSetupWrites :
    busy.ready = true ∧ busy.flag DEV_STATUS.BUSY = true ∧ setupRow .logClear = true := by decide +kernel

theorem test_met_CommandsKeepToTheirFootprint : Part.mem ∉ footprint .d3hotEntry := by decide +kernel

/-! ### Hypotheses met: the interrupt controller -/

/-- Source 383, pending, enabled and directed at target 15. -/
def pend383 : State :=
  svc.wrs [(IC_SRC_STATE.PENDING 383, 1), (IC_SRC_STATE.COUNT 383, 2), (IC_SRC_CFG.ENABLE 383, 1), (IC_SRC_CFG.TARGET 383, 15)]

/-- Source 383, active on target 15, with an arrival since. -/
def act383 : State := pend383.wrs [(IC_SRC_STATE.ACTIVE 383, 1), (IC_SRC_STATE.ACTIVE_TGT 383, 15)]

theorem test_met_ArrivalPendsTheSource :
    svc.Inv ∧ svc.Open ∧ (383 = 383 % 512 ∧ 383 < 384) ∧ 384 ≤ 511 % 512 ∧ (320 = 320 % 512 ∧ 320 ≤ 383) ∧ 319 % 512 < 320 ∧
      383 < 384 % 512 := by
  unfold State.Inv State.Open; decide +kernel

theorem test_met_ClaimTakesTheBestSource :
    (pend383.Inv ∧ pend383.Open ∧ 15 < 16 ∧ (pend383.arm 15).best ((pend383.arm 15).deliverables 15) = some 383) ∧
      (svc.Inv ∧ svc.Open ∧ 0 < 16 ∧ (svc.arm 0).best ((svc.arm 0).deliverables 0) = none) := by
  unfold State.Inv State.Open; decide +kernel

theorem test_met_BusyClaimTakesNothing : busy.ready = true ∧ busy.flag DEV_STATUS.BUSY = true ∧ 15 < 16 := by decide +kernel

theorem test_met_CompletionEndsService :
    (act383.Inv ∧ act383.Open ∧ 15 < 16 ∧ 383 = 383 % 512 ∧ 383 < 384 ∧ act383.rd (IC_SRC_STATE.ACTIVE 383) = 1 ∧
      act383.rd (IC_SRC_STATE.ACTIVE_TGT 383) = 15 ∧ act383.rd (IC_SRC_STATE.PENDING 383) = 1 ∧
      act383.rd (IC_SRC_CFG.ENABLE 383) = 1 ∧
      (act383.complete 15 383).groupOf 383 < (act383.complete 15 383).running (act383.rd (IC_SRC_CFG.TARGET 383))) ∧
    (384 = 384 % 512 ∧ 384 ≤ 384) ∧ act383.rd (IC_SRC_STATE.ACTIVE 0) = 0 ∧ act383.rd (IC_SRC_STATE.ACTIVE_TGT 383) ≠ 14 := by
  unfold State.Inv State.Open; decide +kernel

theorem test_met_PendingBitsClearByOnes :
    (svc.Open ∧ 383 < 384) ∧ (svc.Open ∧ 384 ≤ 384 ∧ 511 < 512) ∧ (svc.Inv ∧ svc.Open ∧ 11 < 12 ∧ 383 / 32 = 11) ∧
      (busy.ready = true ∧ busy.flag DEV_STATUS.BUSY = true) := by
  unfold State.Inv State.Open; decide +kernel

theorem test_met_ReleaseClearsActiveBits :
    (act383.Inv ∧ act383.Open ∧ 15 < 16 ∧ bitOf 1 0 = true) ∧ (svc.Open ∧ bitOf 2 0 = false) := by
  unfold State.Inv State.Open; decide +kernel

theorem test_met_WakeArmsTheTarget :
    let s := svc.wr (IC_TGT_CFG.ASLEEP 15) 1
    s.Inv ∧ s.Open ∧ 15 < 16 ∧ s.rd (IC_TGT_CFG.ASLEEP 15) = 1 ∧ bitOf 0x1F 7 = false := by
  unfold State.Inv State.Open; decide +kernel

/-- Source 319 has risen. -/
def risen : State := { svc with ic := { raised := [⟨2, 0⟩, ⟨319, 7⟩] } }

theorem test_met_RisenConditionArrives :
    risen.ready = true ∧ takeRaised 319 risen.ic.raised = some (⟨319, 7⟩, [⟨2, 0⟩]) ∧ takeRaised 3 risen.ic.raised = none := by
  decide +kernel

/-- Source 0 waits for target 0, whose coalescing has run out, with MSI-X enabled. -/
def due0 : State :=
  { svc.wrs [(IC_SRC_STATE.PENDING 0, 1)] with
    ic := { targets := [(0, { arrivals := 1, firstAt := some 0 })] }, hif := { msixEnable := true } }

/-- The same with a PIN target, and with the function's vectors masked. -/
def duePin : State := due0.wr (IC_TGT_CFG.KIND 0) 1
def dueMasked : State := { due0 with hif := { msixEnable := true, msixMask := true } }

theorem test_met_NotifySendsOrAsserts :
    (due0.Inv ∧ due0.ready = true ∧ due0.notifyDue 0 = true ∧ due0.flag (IC_TGT_CFG.KIND 0) = false ∧ due0.hif.msixMask = false) ∧
      (dueMasked.notifyDue 0 = true ∧ dueMasked.hif.msixMask = true) ∧
      (duePin.Inv ∧ duePin.ready = true ∧ duePin.notifyDue 0 = true ∧ duePin.flag (IC_TGT_CFG.KIND 0) = true) ∧
      due0.notifyDue 16 = false := by
  unfold State.Inv; decide +kernel

/-! ### Hypotheses met: host interface and reels -/

theorem test_met_CompletionCountsTheDescriptor :
    (svc.Inv ∧ 63 < 64 ∧ (svc.reel 63).carry = none ∧ 255 < 256) ∧ svc.flag (HIF_CR_CFG.ENABLE 63) = false ∧
      (at0 svc (descr 0 0 [(1, 4)])).flag (HIF_CR_CFG.ENABLE 0) = true ∧ dHaltOnFail (descr 0 0 [(1, 4)]) = true := by
  unfold State.Inv; decide +kernel

def fenceNow : Desc := descr 1 0 [(8, 0x1000), (16, 77)]
def fenceAt : Desc := descr 1 0 [(8, 0x1000), (16, 77), (24, 2), (32, 1)]
def waitRel : Desc := descr 2 0 [(16, 65535)]
def waitAbs : Desc := descr 2 0 [(8, 1)]

theorem test_met_ReelDescriptorsExecute :
    ((at0 svc (descr 0 0 [])).Due 0 0 (descr 0 0 []) ∧ (at0 svc (descr 0 0 [])).Clean (descr 0 0 []) [] ∧ dIndex (descr 0 0 []) = 0) ∧
    (let s := at0 svc fenceNow; s.Due 0 1 fenceNow ∧ s.Clean fenceNow [(8, 0, 64), (16, 0, 64), (24, 0, 2), (32, 0, 48)] ∧
      dIndex fenceNow = 0 ∧ dF fenceNow 24 0 2 = 0 ∧ dF fenceNow 32 0 48 = 0 ∧ dF fenceNow 8 0 64 % 8 = 0) ∧
    (let s := at0 svc fenceAt; s.Due 0 1 fenceAt ∧ s.Clean fenceAt [(8, 0, 64), (16, 0, 64), (24, 0, 2), (32, 0, 48)] ∧
      dIndex fenceAt = 0 ∧ dF fenceAt 24 0 2 = 2 ∧ s.tickNo < dF fenceAt 32 0 48 ∧ dF fenceAt 8 0 64 % 8 = 0 ∧
      s.hif.fences.length < 64) ∧
    (let s := at0 svc waitRel; s.Due 0 2 waitRel ∧ s.Clean waitRel [(8, 0, 2), (16, 0, 48)] ∧ dIndex waitRel = 0 ∧
      dB waitRel 8 0 = false ∧ 1 ≤ dF waitRel 16 0 48 ∧ dF waitRel 16 0 48 ≤ 65535) ∧
    (let s := at0 svc waitAbs; s.Due 0 2 waitAbs ∧ s.Clean waitAbs [(8, 0, 2), (16, 0, 48)] ∧ dIndex waitAbs = 0 ∧
      dB waitAbs 8 0 = true ∧ dB waitAbs 8 1 = false ∧ dF waitAbs 16 0 48 ≤ s.tickNo) := by
  simp only [due_iff, State.Clean]; decide +kernel

def rbStack : Desc := descr 3 0 [(8, 0x10000), (16, 16777216)]
def rbHist : Desc := descr 3 31 [(8, 0x10000), (16, 2048), (20, 2)]

theorem test_met_ReadBackCopies :
    (let s := at0 svc rbStack; s.Due 0 3 rbStack ∧ s.Clean rbStack [(8, 0, 64), (16, 0, 32), (20, 0, 3), (24, 0, 64)] ∧
      readBackFields rbStack = true ∧ s.readBackAddrs rbStack = true ∧ s.readBackFenced rbStack = false) ∧
    (let s := at0 svc rbHist; s.Due 0 3 rbHist ∧ s.Clean rbHist [(8, 0, 64), (16, 0, 32), (20, 0, 3), (24, 0, 64)] ∧
      readBackFields rbHist = true ∧ s.readBackAddrs rbHist = true ∧ s.readBackFenced rbHist = false) ∧
    (let s := held0 svc rbStack (.readBack true 0 []); s.ready = true ∧ s.held 0 = some (rbStack, .readBack true 0 []) ∧
      s.hif.d3hot = false ∧ 0 < 1 ∧ 0 + 1 < rbLength rbStack) ∧
    (let s := held0 svc rbStack (.readBack true 16777152 []); s.ready = true ∧
      s.held 0 = some (rbStack, .readBack true 16777152 []) ∧ s.hif.d3hot = false ∧ 0 < 64 ∧ 16777152 < rbLength rbStack ∧
      rbLength rbStack ≤ 16777152 + 64) := by
  simp only [due_iff, State.Clean]; decide +kernel

theorem test_met_DoorbellTakesOrRefuses :
    let s := svc.wr (HIF_CR_CFG.ENABLE 63) 1
    (s.Inv ∧ s.ready = true ∧ 63 < 64 ∧ s.tailOk 63 (16#32).toNat = true) ∧ s.tailOk 63 (17#32).toNat = false ∧
      ((0 : Nat) ≠ 0 ∨ false = false) := by
  unfold State.Inv; decide +kernel

/-- Reel 63 of a class with one descriptor still to fetch, tied to event reel 0, which has room for every record. -/
def asks (cls : Nat) : State :=
  (svc.wrs [(HIF_CR_CFG.ENABLE 63, 1), (HIF_CR_STATUS.ACTIVE 63, 1), (HIF_CR_TAIL.TAIL 63, 1), (HIF_EVR_STATUS.ACTIVE 0, 1)]).setReel 63
    fun c => { c with cls := cls, doorbells := [(1, 0)] }

theorem test_met_FetchAndArrival :
    (let s := asks 2
     s.ready = true ∧ s.hif.d3hot = false ∧ s.flag HIF_STATUS.LINK_UP = true ∧
      s.countStalls.fetchWinner ((List.range 64).filter fun r => decide (0 < s.countStalls.grantSize r)) = some 63 ∧
      s.countStalls.fetchClass 63 ≠ 1) ∧
    (let s := asks 1
     s.ready = true ∧ s.hif.d3hot = false ∧ s.flag HIF_STATUS.LINK_UP = true ∧
      s.countStalls.fetchWinner ((List.range 64).filter fun r => decide (0 < s.countStalls.grantSize r)) = some 63 ∧
      s.countStalls.fetchClass 63 = 1) ∧
    (svc.wr HIF_STATUS.LINK_UP 0).flag HIF_STATUS.LINK_UP = false ∧
    (let s := svc.setReel 63 fun c => { c with inFlight := 1 }
     s.ready = true ∧ 63 < 64 ∧ [descr 0 0 []].length ≤ (s.reel 63).inFlight) := by decide +kernel

/-- Event reel 7 takes records; the second state has reel 0 enabled in class GUARDED too. -/
def evr7 : State := svc.wr (HIF_EVR_STATUS.ACTIVE 7) 1
def guarded0 : State := (evr7.wrs [(HIF_CR_CFG.ENABLE 0, 1), (HIF_CR_STATUS.ACTIVE 0, 1)]).setReel 0 fun c => { c with cls := 0 }

theorem test_met_EnablingAReelZeroesItsCounts :
    (evr7.Inv ∧ evr7.Open ∧ 63 < 64 ∧ evr7.flag (HIF_CR_CFG.ENABLE 63) = false ∧
      (bitsOf (0x701#32).toNat 1 2 = 0 → (evr7.storeCrCfg 63 (0x701#32).toNat).guardedTaken 63 = false) ∧
      evr7.evrOn (bitsOf (0x701#32).toNat 8 3) = true) ∧
    (guarded0.Inv ∧ guarded0.Open ∧ guarded0.flag (HIF_CR_CFG.ENABLE 63) = false ∧ bitsOf (0x701#32).toNat 1 2 = 0 ∧
      (guarded0.storeCrCfg 63 (0x701#32).toNat).guardedTaken 63 = true) ∧
    evr7.evrOn (bitsOf (0x001#32).toNat 8 3) = false ∧ guarded0.flag (HIF_CR_CFG.ENABLE 0) = true := by
  unfold State.Inv State.Open; decide +kernel

theorem test_met_DisableAndRestart :
    (guarded0.Inv ∧ guarded0.Open ∧ 0 < 64 ∧ guarded0.flag (HIF_CR_CFG.ENABLE 0) = true) ∧
    (svc.Inv ∧ svc.Open ∧ 63 < 64 ∧ svc.flag (HIF_CR_CFG.ENABLE 63) = false) ∧
    (let s := svc.wr (HIF_CR_STATUS.HALTED 63) 1; s.Open ∧ s.flag (HIF_CR_STATUS.HALTED 63) = true) ∧
    svc.flag (HIF_CR_STATUS.HALTED 63) = false := by
  unfold State.Inv State.Open; decide +kernel

/-- Event reel 7 is full but for its alarm tail, and an alarm waits. -/
def full7 : State :=
  (evr7.wr (HIF_EVR_PRODUCED.PRODUCED 7) 56).setEvr 7 fun v => { v with queue := [⟨.single, ⟨1, 2, 0, 0, 0, false⟩, 1⟩] }

/-- Reel 63 owes its executed count. -/
def owes : State := (svc.wrs [(HIF_CR_HEAD_WB.ENABLE 63, 1)]).setReel 63 fun c => { c with wbDue := true }

theorem test_met_EventReelCounts :
    (svc.Inv ∧ svc.Open ∧ 7 < 8 ∧ bitOf (1#32).toNat 0 = true ∧ svc.evrOn 7 = false) ∧
    (evr7.Inv ∧ evr7.Open ∧ bitOf (0#32).toNat 0 = false ∧ evr7.evrOn 7 = true) ∧
    (full7.ready = true ∧ full7.evrOn 7 = true ∧ (full7.evr 7).lastHeadRead = none ∧ full7.hif.d3hot = false ∧
      full7.flag HIF_STATUS.LINK_UP = true ∧ full7.evrFree 7 ≤ full7.evrTail 7 + full7.evrReserved 7 ∧ full7.spaceWanted 7 = true) ∧
    (owes.ready = true ∧ 63 < 64 ∧ (owes.reel 63).lastWb = none ∧ owes.hif.d3hot = false ∧ owes.flag HIF_STATUS.LINK_UP = true ∧
      (owes.reel 63).wbDue = true ∧ owes.flag (HIF_CR_HEAD_WB.ENABLE 63) = true) := by
  unfold State.Inv State.Open; decide +kernel

/-- An IDX8 surface, 1 × 1, LINEAR, whose palette lies at the first host address but one. -/
def surfPal : Desc := descr 0x10 4095 [(16, 1), (18, 1), (20, 6), (24, 64), (32, 64)]

theorem test_met_AlarmsAndReadErrors :
    (full7.ready = true ∧ 7 < 8 ∧ (full7.evr 7).queue = [⟨.single, ⟨1, 2, 0, 0, 0, false⟩, 1⟩] ∧ full7.alarmRoom 7 = true) ∧
    (svc.Inv ∧ svc.ready = true ∧ 63 < 64 ∧ (svc.reel 63).inFlight = 0) ∧
    (held0 svc surfPal .hostData).held 0 = some (surfPal, .hostData) ∧ 7 < 8 := by
  unfold State.Inv; decide +kernel

theorem test_met_HostResetStopsNothingElse : svc.Inv ∧ svc.ready = true := by unfold State.Inv; decide +kernel

theorem test_met_LinkAndPowerStates :
    let s : State := { svc with hif := { d3hot := true, held := [⟨0, 4, 1⟩] } }
    svc.ready = true ∧ (s.ready = true ∧ s.hif.d3hot = true) ∧
      (svc.Inv ∧ svc.pwr.porst = true ∧ svc.pwr.sysClk = true ∧ svc.pwr.dead = false ∧ svc.pwr.pcieClk = true ∧ 7 < 8 ∧ 15 < 16) := by
  unfold State.Inv; decide +kernel

theorem test_met_SetupPortServesWrites :
    (svc.Inv ∧ svc.Open ∧ 0x40000 % 4 = 0 ∧ 7 < 2 ^ 32 ∧ inMsix 0x40000 = false ∧ ∃ r, findReg 0x40000 = some (r, 0) ∧ r.wide = false) ∧
    (∃ r, findReg 0x80000 = some (r, 0) ∧ r.wide = false) ∧
    (0x3FFFFFC % 4 = 0 ∧ inMsix 0x3FFFFFC = false ∧ findReg 0x3FFFFFC = none) ∧ (findReg 0x40000).isSome = true ∧
    (busy.Inv ∧ busy.ready = true ∧ busy.flag DEV_STATUS.BUSY = true) := by
  unfold State.Inv State.Open
  refine ⟨⟨by decide +kernel, by decide +kernel, rfl, by decide, rfl, ?_⟩, ?_, by decide +kernel, by decide +kernel, by decide +kernel⟩
  · exact ⟨_, rfl, rfl⟩
  · exact ⟨_, rfl, rfl⟩

/-- Reel 0 waits for the host data of a descriptor. -/
def await0 (d : Desc) : State := held0 svc d .hostData

/-- The bytes of a mesh whose points are all at the corner, and of tables of phases of 8 taps, each 1 times its first sample. -/
def cornerMesh : List Byte := List.replicate 19240 0#8
def unity : Nat → List Byte
  | 0 => []
  | n + 1 => ([0#8, 1#8] ++ List.replicate 14 0#8) ++ unity n

theorem leAt_zeros (n i k : Nat) : leAt (List.replicate n 0#8) i k = 0 := by
  have h : ∀ l, (∀ b ∈ l, b = 0#8) → ofLeBytes l = 0 := by
    intro l
    induction l with
    | nil => intro _; rfl
    | cons b r ih =>
      intro h
      simp [ofLeBytes, ih fun b hb => h b (List.mem_cons_of_mem _ hb), h b (List.mem_cons_self ..)]
  exact h _ fun b hb => List.eq_of_mem_replicate (List.mem_of_mem_drop (List.mem_of_mem_take hb))

theorem test_corner_mesh : cornerMesh.length = 19240 ∧ (meshPoints cornerMesh).findIdx? pointBad = none := by
  refine ⟨List.length_replicate, List.findIdx?_eq_none_iff.2 fun p hp => ?_⟩
  obtain ⟨k, -, rfl⟩ := List.mem_map.1 hp
  simp only [cornerMesh, leAt_zeros]
  decide

theorem unity_length : ∀ n, (unity n).length = 16 * n
  | 0 => rfl
  | n + 1 => by simp [unity, unity_length n]; omega

theorem unity_drop : ∀ n q, q ≤ n → (unity n).drop (16 * q) = unity (n - q)
  | n, 0, _ => by simp
  | 0, q + 1, h => absurd h (by omega)
  | n + 1, q + 1, h => by
    have e : 16 * (q + 1) = 16 + 16 * q := by omega
    rw [e, ← List.drop_drop, show n + 1 - (q + 1) = n - q by omega, ← unity_drop n q (by omega)]
    rfl

theorem unity_tap {n q j : Nat} (h : q < n) (k : j < 8) :
    leAt (unity n) (2 * (8 * q + j)) 2 = if j = 0 then 256 else 0 := by
  have e : 2 * (8 * q + j) = 16 * q + 2 * j := by omega
  obtain ⟨m, hm⟩ : ∃ m, n - q = m + 1 := ⟨n - q - 1, by omega⟩
  unfold leAt
  rw [e, ← List.drop_drop, unity_drop n q (by omega), hm]
  rcases j with _ | _ | _ | _ | _ | _ | _ | _ | j
  case' succ.succ.succ.succ.succ.succ.succ.succ => omega
  all_goals rfl

theorem test_unity_taps : badPhase 8 (coefsOf 8 (unity 64)) = none := by
  refine List.find?_eq_none.2 fun q hq => ?_
  have h : q < 64 := List.mem_range.1 hq
  have e : ((coefsOf 8 (unity 64)).drop (8 * q)).take 8 = [256, 0, 0, 0, 0, 0, 0, 0] := by
    refine List.ext_getElem (by simp [coefsOf]; omega) fun j h1 h2 => ?_
    have k : j < 8 := h2
    simp only [coefsOf, List.getElem_take, List.getElem_drop, List.getElem_map, List.getElem_range, unity_tap h k]
    rcases j with _ | _ | _ | _ | _ | _ | _ | _ | j
    case' succ.succ.succ.succ.succ.succ.succ.succ => omega
    all_goals rfl
  rw [e]; decide

theorem test_met_HostDataIsStored :
    ((await0 surfPal).ready = true ∧ (await0 surfPal).held 0 = some (surfPal, .hostData) ∧ (await0 surfPal).hif.d3hot = false) ∧
    (dOpcode surfPal = 0x10 ∧ (List.replicate 1024 0#8).length = 1024) ∧
    (dOpcode (descr 0x31 0 []) = 0x31 ∧ (List.replicate 2048 0#8).length = 2048) ∧ dOpcode (descr 0x30 0 []) = 0x30 ∧
    (dOpcode (descr 0x29 0 []) = 0x29 ∧ (List.replicate 1024 0#8).length = 128 * coefTaps (dF (descr 0x29 0 []) 16 0 1) ∧
      badPhase 8 (coefsOf 8 (List.replicate 1024 0#8)) = some 0) ∧
    ((unity 64).length = 128 * coefTaps (dF (descr 0x29 0 []) 16 0 1)) ∧
    ({ await0 surfPal with hif := { (await0 surfPal).hif with d3hot := true } } : State).hif.d3hot = true ∧
    ([] : List Byte).length ≠ hostDataLength surfPal := by
  decide +kernel

/-! ### Hypotheses met: the stack, surfaces and copies -/

/-- Pseudo-channel 0 is fenced. -/
def pcOut : State := svc.wr STK_FENCED.FENCED 1

theorem test_met_StackReadsWhatWasStored :
    (svc.Inv ∧ svc.pcFenced (svc.pcOf (2 ^ 34 - 1)) = false ∧ locate svc.stk.masks 0 ≠ locate svc.stk.masks (2 ^ 34 - 1)) ∧
      pcOut.pcFenced (pcOut.pcOf 0) = true := by
  unfold State.Inv; decide +kernel

/-- Surfaces 1 × 1 in format 0: LINEAR, and in a format that layout HANK forbids; a plain 16 × 16 surface stands at 4,095. -/
def surfOne : Desc := descr 0x10 4095 [(16, 1), (18, 1), (24, 64)]
def surfBad : Desc := descr 0x10 0 [(16, 1), (18, 1), (20, 0x22)]
def drawn : State := svc.setSurface 4095 fun f => { f with width := 16, height := 16, pitch := 64 }
def atlasGone : Desc := descr 0x13 255 [(8, 0)]
def atlasCopy : Desc := descr 0x13 255 [(8, 4095), (10, 1), (16, 64)]

abbrev SurfGood (d : Desc) : Prop := dIndex d < 4096 ∧ surfaceFields (surfaceOf d) (dF d 32 0 64) = true ∧
  dF d 8 0 64 % (if dF d 20 4 2 = 0 then 64 else 4096) = 0 ∧ dF d 8 0 64 + (surfaceOf d).footprint ≤ stackBytes ∧
  dF d 32 0 64 % 64 = 0 ∧ dF d 32 0 64 + 1024 ≤ 2 ^ 64

def surfF : List (Nat × Nat × Nat) :=
  [(8, 0, 64), (16, 0, 16), (18, 0, 16), (20, 0, 4), (20, 4, 2), (21, 0, 8), (24, 0, 32), (32, 0, 64)]

def asked (q : Nat) : Desc := descr 0x12 4095 [(8, q)]

theorem test_met_SurfacesAreDefined :
    ((at0 svc surfOne).Due 0 0x10 surfOne ∧ (at0 svc surfOne).Clean surfOne surfF ∧ SurfGood surfOne ∧
      surfaceFormatBad (surfaceOf surfOne) = false ∧ dF surfOne 32 0 64 = 0) ∧
    ((at0 svc surfPal).Due 0 0x10 surfPal ∧ (at0 svc surfPal).Clean surfPal surfF ∧ SurfGood surfPal ∧
      surfaceFormatBad (surfaceOf surfPal) = false ∧ dF surfPal 32 0 64 ≠ 0) ∧
    ((at0 svc surfBad).Due 0 0x10 surfBad ∧ (at0 svc surfBad).Clean surfBad surfF ∧ SurfGood surfBad ∧
      surfaceFormatBad (surfaceOf surfBad) = true) ∧
    ((at0 svc (asked 0)).Due 0 0x12 (asked 0) ∧ (at0 svc (asked 0)).Clean (asked 0) [(8, 0, 2)] ∧ dIndex (asked 0) < 4096 ∧
      dF (asked 0) 8 0 2 = 0) ∧
    ((at0 svc (asked 2)).Due 0 0x12 (asked 2) ∧ (at0 svc (asked 2)).Clean (asked 2) [(8, 0, 2)] ∧ dF (asked 2) 8 0 2 = 2) ∧
    ((at0 svc atlasGone).Due 0 0x13 atlasGone ∧ (at0 svc atlasGone).Clean atlasGone [(8, 0, 12), (10, 0, 2), (16, 0, 64)] ∧
      dIndex atlasGone < 256 ∧ dF atlasGone 16 0 64 = 0 ∧ dB atlasGone 10 0 = false) ∧
    (let s := at0 drawn atlasCopy
     s.Due 0 0x13 atlasCopy ∧ s.Clean atlasCopy [(8, 0, 12), (10, 0, 2), (16, 0, 64)] ∧ dIndex atlasCopy < 256 ∧
      dF atlasCopy 16 0 64 ≠ 0 ∧ dF atlasCopy 16 0 64 % 64 = 0 ∧
      dF atlasCopy 16 0 64 + (s.surface (dF atlasCopy 8 0 12)).footprint ≤ 2 ^ 64 ∧ dB atlasCopy 10 0 = true ∧
      (s.surface (dF atlasCopy 8 0 12)).width ≠ 0 ∧ (s.surface (dF atlasCopy 8 0 12)).format = 0) := by
  simp only [due_iff, State.Clean]
  refine ⟨?_, ?_, ?_, ?_, ?_, ?_, ?_⟩ <;> decide +kernel

/-- The last pixel of the surface, and the copy it makes. -/
def copyPix : Desc := descr 0x11 4095 [(8, 0x1000), (16, 4), (24, 15), (26, 15), (28, 1), (30, 1)]
def copying : State := (held0 drawn copyPix .copy).setCopy 0 (some (copyJob (drawn.surface 4095) copyPix))

theorem test_met_CopiesStoreWhereTheyPoint :
    (let s := at0 drawn copyPix
     s.Due 0 0x11 copyPix ∧ s.Clean copyPix [(8, 0, 64), (16, 0, 32), (20, 0, 1), (24, 0, 16), (26, 0, 16), (28, 0, 16), (30, 0, 16),
        (32, 0, 64), (40, 0, 32)] ∧ dIndex copyPix < 4096 ∧ copyFields (s.surface (dIndex copyPix)) copyPix = true ∧
      copyAddrs (s.surface (dIndex copyPix)) copyPix = true ∧ (s.surface (dIndex copyPix)).layout ≠ 2) ∧
    (copying.ready = true ∧ copying.held 0 = some (copyPix, .copy) ∧ copying.copyOf 0 = some (copyJob (drawn.surface 4095) copyPix) ∧
      copying.hif.d3hot = false) ∧
    (let j := copyJob (drawn.surface 4095) copyPix
     ([1#8] ≠ [] ∧ j.done + [1#8].length < j.length) ∧ (j.done + [1#8, 2#8, 3#8, 4#8].length = j.length ∧ dOpcode copyPix = 0x11)) ∧
    (copying.Inv ∧ exec (.copyWriteEnd 0 []) copying = .next copying) := by
  simp only [due_iff, State.Clean, State.Inv]
  refine ⟨by decide +kernel, by decide +kernel, by decide +kernel, by decide +kernel, ?_⟩
  simp only [exec, execCopyWriteEnd, State.inService]
  split
  · split <;> simp
  · rfl

/-! ### Hypotheses met: shadow settings, and descriptors that wait for host data -/

/-- The largest canvas 7, the smallest, a layer of one pixel on it, and regions of one pixel. -/
def cvBig : Desc := descr 0x21 7 [(16, 16384), (18, 4096), (20, 1), (22, 10000)]
def layOne : Desc := descr 0x20 127 [(8, 0xFF), (10, 4095), (16, 1), (18, 1), (24, 1), (26, 1)]
def withCanvas : State := { svc with comp := { svc.comp with shadowC := [(7, { width := 64, height := 64 })] } }
def rgnOff : Desc := descr 0x25 7 [(8, 63)]
def rgnOn : Desc := descr 0x25 7 [(8, 63), (9, 1), (10, 63), (12, 63), (14, 1), (16, 1)]
def rgnPast : Desc := descr 0x25 7 [(8, 63), (9, 1), (10, 64), (12, 63), (14, 1), (16, 1)]
def bind31 : Desc := descr 0x28 31 [(8, 15)]
def rgnF : List (Nat × Nat × Nat) := [(8, 0, 6), (9, 0, 6), (10, 0, 64), (18, 0, 4), (19, 0, 8), (20, 0, 128)]

theorem test_met_ShadowSettingsWaitForACommit :
    ((at0 svc cvBig).Due 0 0x21 cvBig ∧
      (at0 svc cvBig).Clean cvBig [(8, 0, 64), (16, 0, 16), (18, 0, 16), (20, 0, 2), (22, 0, 16), (24, 0, 48)] ∧ dIndex cvBig < 8 ∧
      canvasFields (canvasOf cvBig) = true ∧ canvasAddrs (canvasOf cvBig) = true) ∧
    ((at0 svc layOne).Due 0 0x20 layOne ∧ (at0 svc layOne).Clean layOne
      [(8, 0, 8), (9, 0, 8), (10, 0, 12), (12, 0, 64), (20, 0, 32), (24, 0, 32), (28, 0, 8), (29, 0, 3), (30, 0, 16), (32, 0, 48),
        (40, 0, 2), (41, 0, 5), (42, 0, 3), (43, 0, 8)] ∧ dIndex layOne < 128 ∧ layerFields (layerOf layOne) = true) ∧
    ((at0 svc rgnOff).Due 0 0x25 rgnOff ∧ (at0 svc rgnOff).Clean rgnOff rgnF ∧ dIndex rgnOff < 8 ∧
      regionFields (regionOf rgnOff 1) = true ∧ (regionOf rgnOff 1).enable = false) ∧
    (let s := at0 withCanvas rgnOn; s.Due 0 0x25 rgnOn ∧ s.Clean rgnOn rgnF ∧ regionFields (regionOf rgnOn 1) = true ∧
      (regionOf rgnOn 1).enable = true ∧ (regionOf rgnOn 1).guarded = false ∧
      (regionOf rgnOn 1).x + (regionOf rgnOn 1).w ≤ (s.shadowCanvas (dIndex rgnOn)).width ∧
      (regionOf rgnOn 1).y + (regionOf rgnOn 1).h ≤ (s.shadowCanvas (dIndex rgnOn)).height) ∧
    (let s := at0 withCanvas rgnPast; s.Due 0 0x25 rgnPast ∧ s.Clean rgnPast rgnF ∧ regionFields (regionOf rgnPast 1) = true ∧
      (regionOf rgnPast 1).enable = true ∧
      (s.shadowCanvas (dIndex rgnPast)).width < (regionOf rgnPast 1).x + (regionOf rgnPast 1).w) ∧
    ((at0 svc bind31).Due 0 0x28 bind31 ∧ (at0 svc bind31).Clean bind31 [(8, 0, 4)] ∧ dIndex bind31 < 32 ∧
      (at0 svc bind31).obj.fenced.contains (dIndex bind31) = false) := by
  simp only [due_iff, State.Clean]
  refine ⟨?_, ?_, ?_, ?_, ?_, ?_⟩ <;> decide +kernel

def eng31 : Desc := descr 0x32 31 [(9, 16), (56, 0xEC)]
def twist31 : Desc := descr 0x35 31 [(8, 1), (9, 3)]
def mesh31 : Desc := descr 0x30 31 []
def saddle31 : Desc := descr 0x31 31 [(16, 2048), (26, 4096)]
def meshF : List (Nat × Nat × Nat) := [(8, 0, 64), (16, 0, 2), (16, 2, 3), (17, 0, 5), (20, 0, 32), (24, 0, 32)]
def saddleF : List (Nat × Nat × Nat) := [(8, 0, 64), (16, 0, 64), (24, 0, 8), (25, 0, 2), (26, 0, 48), (32, 0, 144)]
def engF : List (Nat × Nat × Nat) :=
  [(8, 0, 2), (9, 0, 5), (10, 0, 32), (40, 0, 64), (48, 0, 64), (56, 0, 8), (57, 0, 3), (58, 0, 12)]

/-- Engine 31 is fenced. -/
def engOut : State := { svc with sig := { svc.sig with engFenced := [31] } }

theorem test_met_EngineSettingsWaitForACommit :
    ((at0 svc eng31).Due 0 0x32 eng31 ∧ (at0 svc eng31).Clean eng31 engF ∧ dIndex eng31 < 32 ∧ dB eng31 8 1 = false ∧
      1 ≤ dF eng31 9 0 5 ∧ dF eng31 9 0 5 ≤ 16 ∧ 6 ≤ dF eng31 56 0 4 ∧ dF eng31 56 0 4 ≤ 12 ∧ 6 ≤ dF eng31 56 4 4 ∧
      dF eng31 56 4 4 ≤ 14 ∧ dF eng31 40 0 64 % 4096 = 0 ∧ dB eng31 57 1 = false ∧ dF eng31 48 0 64 = 0 ∧
      (at0 svc eng31).engFenced (dIndex eng31) = false) ∧
    ((at0 svc twist31).Due 0 0x35 twist31 ∧
      (at0 svc twist31).Clean twist31 ([(8, 0, 1), (9, 0, 2), (10, 0, 8)] ++ (List.range 8).map fun c => (16 + c, 0, 6)) ∧
      dIndex twist31 < 32 ∧ twistSetFields twist31 = true ∧ (at0 svc twist31).engFenced (dIndex twist31) = false) ∧
    ((at0 svc mesh31).Due 0 0x30 mesh31 ∧ (at0 svc mesh31).Clean mesh31 meshF ∧ dIndex mesh31 < 32 ∧ meshFields mesh31 = true ∧
      dF mesh31 16 0 2 ≠ 2 ∧ (at0 svc mesh31).engFenced (dIndex mesh31) = false) ∧
    ((at0 svc saddle31).Due 0 0x31 saddle31 ∧ (at0 svc saddle31).Clean saddle31 saddleF ∧ dIndex saddle31 < 32 ∧
      (saddleRamps saddle31).contains 3 = false ∧ (∀ k, k < 4 → dF saddle31 (16 + 2 * k) 0 16 ≤ 2048) ∧
      (∀ k, k < 3 → dF saddle31 (26 + 2 * k) 0 16 ≤ 4096) ∧ dF saddle31 8 0 64 = 0 ∧
      (at0 svc saddle31).engFenced (dIndex saddle31) = false) ∧
    ({ (svc.engine 31).shadow with cfg := engineOf eng31 } : EngBundle) ≠ {} ∧
    ((at0 engOut mesh31).Due 0 0x30 mesh31 ∧ (at0 engOut mesh31).Clean mesh31 meshF ∧
      (at0 engOut mesh31).engFenced (dIndex mesh31) = true) := by
  simp only [due_iff, State.Clean]
  refine ⟨?_, ?_, ?_, ?_, ?_, ?_⟩ <;> decide +kernel

def coef31 : Desc := descr 0x29 31 [(8, 64), (16, 1)]
def objLast : Desc := descr 0x2A 0 [(8, 32), (16, 262143), (20, 1)]
def meshLoaded : Desc := descr 0x30 31 [(8, 64), (16, 2)]
def saddleLoaded : Desc := descr 0x31 31 [(8, 64), (24, 3)]
def twist63 : Desc := descr 0x34 63 [(8, 64), (16, 256)]
def usedTable : State := svc.setEngine 31 fun g => { g with fly := { g.fly with sel := { preset := 0, valid := 1, tables := [63] } } }

/-- The stage has no room left: a batch of 7,936 contexts waits. -/
def stageFull : State := { svc with obj := { svc.obj with batches := [⟨0, false, 0, 0, List.replicate 7936 0, none, false⟩] } }

theorem test_met_HostDataIsAwaited :
    ((at0 svc coef31).Due 0 0x29 coef31 ∧ (at0 svc coef31).Clean coef31 [(8, 0, 64), (16, 0, 1)] ∧ dIndex coef31 < 32 ∧
      hostOk (dF coef31 8 0 64) (128 * coefTaps (dF coef31 16 0 1)) 64 = true ∧
      (at0 svc coef31).obj.fenced.contains (dIndex coef31) = false) ∧
    (let s := at0 svc objLast
     s.Due 0 0x2A objLast ∧ s.Clean objLast [(8, 0, 64), (16, 0, 18), (20, 0, 14), (22, 0, 3)] ∧ dIndex objLast = 0 ∧
      1 ≤ dF objLast 20 0 14 ∧ dF objLast 20 0 14 ≤ (if (s.originOf 0 objLast).cls = 0 then 16 else 7936) ∧
      dF objLast 16 0 18 + dF objLast 20 0 14 ≤ 262144 ∧ hostOk (dF objLast 8 0 64) (32 * dF objLast 20 0 14) 32 = true ∧
      s.touchesFenced (dF objLast 16 0 18) (dF objLast 20 0 14) = false ∧
      dF objLast 20 0 14 ≤ s.stageFree (s.originOf 0 objLast).cls) ∧
    (let s := at0 stageFull objLast
     s.Due 0 0x2A objLast ∧ s.Clean objLast [(8, 0, 64), (16, 0, 18), (20, 0, 14), (22, 0, 3)] ∧
      s.touchesFenced (dF objLast 16 0 18) (dF objLast 20 0 14) = false ∧
      s.stageFree (s.originOf 0 objLast).cls < dF objLast 20 0 14) ∧
    ((at0 svc meshLoaded).Due 0 0x30 meshLoaded ∧ (at0 svc meshLoaded).Clean meshLoaded meshF ∧ dIndex meshLoaded < 32 ∧
      meshFields meshLoaded = true ∧ dF meshLoaded 16 0 2 = 2 ∧ hostOk (dF meshLoaded 8 0 64) 19240 64 = true ∧
      (at0 svc meshLoaded).engFenced (dIndex meshLoaded) = false) ∧
    ((at0 svc saddleLoaded).Due 0 0x31 saddleLoaded ∧ (at0 svc saddleLoaded).Clean saddleLoaded saddleF ∧
      dIndex saddleLoaded < 32 ∧ (saddleRamps saddleLoaded).contains 3 = true ∧
      (∀ k, k < 4 → dF saddleLoaded (16 + 2 * k) 0 16 ≤ 2048) ∧ (∀ k, k < 3 → dF saddleLoaded (26 + 2 * k) 0 16 ≤ 4096) ∧
      dF saddleLoaded 8 0 64 ≠ 0 ∧ hostOk (dF saddleLoaded 8 0 64) 2048 64 = true ∧
      (at0 svc saddleLoaded).engFenced (dIndex saddleLoaded) = false) ∧
    (let s := at0 svc twist63
     s.Due 0 0x34 twist63 ∧ s.Clean twist63 [(8, 0, 64), (16, 0, 9)] ∧ dIndex twist63 < 64 ∧ 1 ≤ dF twist63 16 0 9 ∧
      dF twist63 16 0 9 ≤ 256 ∧ hostOk (dF twist63 8 0 64) (64 + 16 * dF twist63 16 0 9) 64 = true ∧
      s.tableInUse (dIndex twist63) = false) ∧
    (let s := at0 usedTable twist63
     s.Due 0 0x34 twist63 ∧ s.Clean twist63 [(8, 0, 64), (16, 0, 9)] ∧ s.tableInUse (dIndex twist63) = true) := by
  simp only [due_iff, State.Clean]
  refine ⟨?_, ?_, ?_, ?_, ?_, ?_, ?_, ?_⟩ <;> decide +kernel

/-! ### Hypotheses met: commits, light settings, calibration and flows -/

def commit7 : Desc := descr 0x22 7 []

/-- A waiting commit of canvas 7 with its disabled shadow settings, and the same with slot 0 enabled on a surface without a size. -/
def badSlot : State := { svc with comp := { svc.comp with shadowL := [(0, { canvas := 7, enable := true })] } }
def carried (s : State) : WaitCommit :=
  s.newCommit (s.originOf 0 commit7) (.canvas 7 (s.shadowCanvas 7) (s.carriedSlots 7) [] (s.carriedScalers 7))

def withBatches7 (s : State) : WaitCommit :=
  { carried s with
    body := .canvas 7 (s.shadowCanvas 7) (s.carriedSlots 7) (s.carriable false 7 ((s.superseded (carried s).body).map (·.id)))
      (s.carriedScalers 7) }
def failsOf (s : State) : Option (Nat × Nat) :=
  s.commitFails (withBatches7 s) 7 (s.shadowCanvas 7) (s.carriedSlots 7) (s.carriedScalers 7) (dB commit7 8 0)

/-- A descriptor at the front of reel 0 of class GUARDED. -/
def atG (d : Desc) : State := (at0 svc d).setReel 0 fun c => { c with cls := 0 }

def guardOff : Desc := descr 0x24 7 []
def resOff : Desc := descr 0x23 7 []
def engCommit31 : Desc := descr 0x33 31 []
def bundle31 (s : State) : EngBundle := { (s.engine 31).shadow with plan := none, matrix := none, seedLoad := none }

theorem test_met_CommitsAreAdmittedOrRejected :
    (let s := at0 svc commit7
     s.Due 0 0x22 commit7 ∧ s.Clean commit7 [(8, 0, 1)] ∧ dIndex commit7 = 7 ∧ failsOf s = none ∧
      s.admits (s.waitingWith (withBatches7 s)) s.comp.shadowR 7 = none) ∧
    ((at0 badSlot commit7).Due 0 0x22 commit7 ∧ failsOf (at0 badSlot commit7) = some (0x22, 0)) ∧
    (let s := atG guardOff
     s.Due 0 0x24 guardOff ∧
      s.Clean guardOff [(8, 0, 2), (9, 0, 8), (10, 0, 3), (12, 0, 12), (16, 0, 96), (28, 0, 16), (30, 0, 48)] ∧ dIndex guardOff < 8 ∧
      (overlayOf guardOff).enable = false ∧ (overlayOf guardOff).col.blend = 0 ∧ (overlayOf guardOff).col.matrix ≠ 3 ∧
      s.carriable true 7 none = [] ∧ s.fitsReservation (s.reservation 7) (overlayOf guardOff) (s.guardedLoad 7 []) = true) ∧
    (let s := at0 svc engCommit31
     let w := s.newCommit (s.originOf 0 engCommit31) (.engine 31 (bundle31 s))
     s.Due 0 0x33 engCommit31 ∧ s.Clean engCommit31 [] ∧ dIndex engCommit31 < 32 ∧ s.engFenced 31 = false ∧
      s.warpFails (s.waitingWith w) 31 (bundle31 s) = none ∧ spindleFails (bundle31 s) = none ∧
      s.twistFails (s.waitingWith w) 31 (bundle31 s) = none ∧ s.admits (s.waitingWith w) s.comp.shadowR 31 = none) ∧
    (let s := atG resOff
     s.Due 0 0x23 resOff ∧ s.Clean resOff [(8, 0, 64), (16, 0, 6), (24, 0, 32), (28, 0, 32), (32, 0, 48)] ∧ dIndex resOff < 8 ∧
      (reservationOf resOff).format < 8 ∧ (reservationOf resOff).fallback ≠ 3 ∧ (reservationOf resOff).some_ = false ∧
      s.admits s.comp.waiting (s.resWith 7 (reservationOf resOff)) 7 = none ∧ s.guardConflict 7 (reservationOf resOff) = false) := by
  simp only [due_iff, State.Clean]
  refine ⟨?_, ?_, ?_, ?_, ?_⟩ <;> decide +kernel

/-- LIGHT_SET of part 0 and of part 1, the latter with notches of 9 µs in a tick gap of 8 µs. -/
def light0 : Desc := descr 0x38 31 []
def light1 : Desc := descr 0x38 31 [(8, 1), (10, 1024), (12, 1024), (14, 1024), (16, 1), (23, 1), (24, 10), (25, 105), (26, 10),
  (27, 0x81), (28, 1), (30, 1), (32, 1), (33, 1), (34, 1)]
def shortGap : State := svc.wr TICK_TIMING.GAP_US 8

def calAsk : Desc := descr 0x39 31 [(10, 1)]
def calStat : Desc := descr 0x39 31 [(8, 2)]
def known31 : State := svc.setLight 31 fun l => { l with known := true }
def store0 : Desc := descr 0x3A 0 []
def canWrite : State := svc.wr THM_STATUS.WRITE_OK 1
def flowMin : Desc := descr 0x40 4095 [(8, 0x20), (60, 2)]
def flowBare : Desc := descr 0x40 4095 [(8, 1), (60, 256)]
def flowF : List (Nat × Nat × Nat) := [(8, 0, 6), (9, 0, 8), (10, 0, 16), (12, 0, 16), (14, 0, 14), (16, 0, 5), (17, 0, 16),
  (20, 0, 128), (36, 0, 128), (52, 0, 48), (58, 0, 32)]

theorem test_met_LightCalibrationAndFlowDescriptors :
    (let s := at0 svc light0
     s.Due 0 0x38 light0 ∧ s.Clean light0 (lightFields (dF light0 8 0 2)) ∧ dIndex light0 < 32 ∧ lightRanges light0 = true ∧
      s.engFenced 31 = false ∧ dF light0 8 0 2 ≠ 1 ∧ ((s.lightOf 31).written.written light0).gainZero = false) ∧
    (let s := at0 shortGap light1
     s.Due 0 0x38 light1 ∧ s.Clean light1 (lightFields (dF light1 8 0 2)) ∧ lightRanges light1 = true ∧ dF light1 8 0 2 = 1 ∧
      ((s.lightOf 31).written.written light1).notchEnable = true ∧
      notchCapacity s.gap ((s.lightOf 31).written.written light1).notchW = 0) ∧
    (let s := at0 svc calAsk
     s.Due 0 0x39 calAsk ∧ s.Clean calAsk (calFields calAsk) ∧ dIndex calAsk < 32 ∧ s.engFenced 31 = false ∧
      dF calAsk 8 0 2 = 0 ∧ (s.lightOf 31).known = false) ∧
    ((at0 known31 calAsk).Due 0 0x39 calAsk ∧ ((at0 known31 calAsk).lightOf 31).known = true ∧ calNamed calAsk = [0]) ∧
    ((at0 known31 calStat).Due 0 0x39 calStat ∧ (at0 known31 calStat).Clean calStat (calFields calStat) ∧ dF calStat 8 0 2 = 2) ∧
    (let s := at0 canWrite store0
     s.Due 0 0x3A store0 ∧ s.Clean store0 [] ∧ dIndex store0 = 0 ∧ s.flag DEV_STATUS.BUSY = false ∧
      s.flag THM_STATUS.WRITE_OK = true) ∧
    ((at0 busy store0).Due 0 0x3A store0 ∧ (at0 busy store0).flag DEV_STATUS.BUSY = true) ∧
    (let s := at0 svc flowMin
     s.Due 0 0x40 flowMin ∧ s.Clean flowMin flowF ∧ dIndex flowMin < 4096 ∧ flowRanges flowMin (flowOf flowMin) = true ∧
      s.flowCode 4095 (flowOf flowMin) = none) ∧
    ((at0 svc flowBare).Due 0 0x40 flowBare ∧ (at0 svc flowBare).Clean flowBare flowF ∧
      flowRanges flowBare (flowOf flowBare) = true ∧ (flowOf flowBare).valid = true ∧ (flowOf flowBare).port0 = false ∧
      (flowOf flowBare).port1 = false) ∧ (at0 canWrite store0).Inv := by
  simp only [due_iff, State.Clean, State.Inv]
  refine ⟨?_, ?_, ?_, ?_, ?_, ?_, ?_, ?_, ?_, ?_⟩ <;> decide +kernel

/-! ### Hypotheses met: the tick -/

/-- A running tick in its first half, and one latched. -/
def ticking : State := { svc.wr TICK_CTRL.ENABLE 1 with tick := { running := true, nextEdge := 5000000 } }
def latched : State := { ticking with tick := { running := true, nextEdge := 5000000, latched := true, out := true, outEnd := 1000005 } }
def stored (s : State) (w : Nat) : State :=
  s.wrs [(TICK_CTRL.SOURCE, bitsOf w 1 2), (TICK_CTRL.GPTP_PORT, bitsOf w 3 1), (TICK_CTRL.PRESET, bitsOf w 4 4),
    (TICK_CTRL.ENABLE, b2n (bitOf w 0))]

/-- The same with a gap that no APPLY may take. -/
def gapSeven : State := svc.wr TICK_NEXT_TIMING.GAP_US 7

theorem test_met_TickStartsStopsAndApplies :
    (svc.Inv ∧ svc.Open ∧ bitOf (1#32).toNat 0 = true ∧ bitOf (1#32).toNat 8 = false ∧ bitsOf (1#32).toNat 1 2 = 0 ∧
      svc.flag TICK_CTRL.ENABLE = false ∧ svc.rd DEV_STATUS.LC ≠ 0 ∧ svc.tick.apply = none) ∧
    (ticking.Open ∧ bitOf (0#32).toNat 0 = false ∧ bitOf (0#32).toNat 8 = false ∧ ticking.flag TICK_CTRL.ENABLE = true ∧
      ticking.tick.running = true) ∧
    (gapSeven.Inv ∧ gapSeven.Open ∧ bitOf (0x100#32).toNat 8 = true ∧
      bitOf (0x100#32).toNat 0 = gapSeven.flag TICK_CTRL.ENABLE ∧ (stored gapSeven (0x100#32).toNat).proposed.ranges = false) ∧
    (bitOf (0x100#32).toNat 0 = svc.flag TICK_CTRL.ENABLE ∧ (stored svc (0x100#32).toNat).proposed.ranges = true ∧
      (stored svc (0x100#32).toNat).applyCode (stored svc (0x100#32).toNat).proposed = none) := by
  unfold State.Inv State.Open; decide +kernel

def pinTick : State := { ticking.wr TICK_STATUS.SOURCE 1 with tick := { running := true, nextEdge := 5000000 } }

theorem test_met_LatchPointsAndTickEdges :
    (ticking.ready = true ∧ ticking.tick.running = true ∧ ticking.tick.latched = false) ∧ svc.tick.running = false ∧
    (latched.ready = true ∧ latched.tick.running = true ∧ latched.tick.latched = true) ∧
    (latched.Inv ∧ latched.tick.apply = none ∧ latched.now < 2 ^ 64) ∧ (ticking.Inv ∧ ticking.rd TICK_STATUS.SOURCE = 0) ∧
    (latched.tick.out = true ∧ ticking.rd TICK_STATUS.SOURCE ≠ 1) ∧
    (pinTick.ready = true ∧ pinTick.now ≤ 1000000 ∧ pinTick.tick.running = true ∧ pinTick.rd TICK_STATUS.SOURCE = 1 ∧
      pinTick.tick.accepted = none ∧ pinTick.tick.candidate = none ∧ pinTick.tick.settled = true) := by
  unfold State.Inv; decide +kernel

/-! ### Hypotheses met: the Flyer -/

/-- Engine 30 in a lit tick of a table with two slots: slot 0 loads band 0 and resets it, slot 1 begins 100 units later. -/
def table2 : TwistTable :=
  { bands := 1, planes := 1, lit := 1, end_ := 300, slots := [{ start := 0, load := 1 }, { start := 100, reset := 1 }] }
def load0 : LoadRun := { at_ := ⟨0, 0, 0, 0, 10, 20⟩ }
def lit30 (r : FlyRun) : State :=
  (ticking.setEngine 30 fun g => { g with
    fly := { g.fly with cfg := { g.fly.cfg with width := 8, height := 1, bands := 1 } }, run := r }).setLight 30 id

/-- Before its gap has ended, in its gap with a notch to fire, after slot 0, at its end, and past the first load. -/
def gapRun : FlyRun :=
  { table := some table2, lit := true, loads := [load0], cells := [none], shows := [none], notches := [⟨0, 2, 8, 7, none, false⟩] }
def openRun : FlyRun := { gapRun with gapDone := true }
def slot1Run : FlyRun := { openRun with slot := 1, loads := [{ load0 with queued := true }] }
def endRun : FlyRun := { openRun with slot := 2 }
def startedRun : FlyRun := { slot1Run with loads := [{ load0 with queued := true, started := true }] }
def sentRun : FlyRun := { slot1Run with loads := [{ load0 with queued := true, started := true, sent := 1 }] }
def bandsIn (s : State) : State := s.setEngine 30 fun g => { g with bandsOk := [0] }

theorem test_met_TheTableOfATickRuns :
    (ticking.ready = true ∧ ticking.tick.running = true ∧ ∀ e, e < 32 → ticking.litNow e = false) ∧
    ((lit30 gapRun).ready = true ∧ (lit30 gapRun).tick.running = true ∧ (lit30 gapRun).litNow 30 = true) ∧
    (30 < 32 ∧ (lit30 slot1Run).leads 30 = true ∧ ((lit30 slot1Run).engine 30).run.gapDone = true ∧
      ((lit30 slot1Run).engine 30).run.nextSlot = some { start := 100, reset := 1 }) ∧
    ((lit30 endRun).ready = true ∧ (lit30 endRun).leads 30 = true ∧ ((lit30 endRun).engine 30).run.gapDone = true ∧
      ((lit30 endRun).engine 30).run.table = some table2 ∧ ((lit30 endRun).engine 30).run.slot = table2.slots.length ∧
      (lit30 endRun).clonesOf 30 = []) ∧
    ((lit30 gapRun).Inv ∧ ((lit30 gapRun).engine 30).run.gapDone = false ∧
      ((lit30 gapRun).engine 30).run.notches.find? (fun n => !n.fired) = some ⟨0, 2, 8, 7, none, false⟩ ∧ 2 < 3 ∧ 8 < 9) := by
  unfold State.Inv
  refine ⟨?_, ?_, ?_, ?_, ?_⟩ <;> decide +kernel

theorem test_met_LoadsBeginOrEndTheTick :
    (let s := bandsIn (lit30 slot1Run)
     s.ready = true ∧ 30 < 32 ∧ s.litNow 30 = true ∧ s.nextLoad 30 = some (0, { load0 with queued := true }) ∧
      s.bandReady 30 { load0 with queued := true } = true) ∧
    (let s := lit30 slot1Run
     s.nextLoad 30 = some (0, { load0 with queued := true }) ∧ s.bandReady 30 { load0 with queued := true } = false) ∧
    ((lit30 startedRun).ready = true ∧ (lit30 startedRun).litNow 30 = true ∧ (lit30 startedRun).underrun 30 = some 0) ∧
    (lit30 sentRun).underrun 30 = none ∧
    (let s := lit30 sentRun
     let z := s.reach (s.edgeTime + s.gap + 5 * 100 - 500)
     s.ready = true ∧ s.litNow 30 = true ∧ (s.engine 30).run.gapDone = true ∧ (s.engine 30).run.table = some table2 ∧
      table2.slots[(s.engine 30).run.slot]? = some { start := 100, reset := 1 } ∧
      (table2.slots.drop (s.engine 30).run.slot).find? (fun x => bitOf x.reset 0) = some { start := 100, reset := 1 } ∧
      (z.engine 30).run.nextShown 0 = some 0 ∧ z.loadComplete 30 0 = true) ∧
    (let s := lit30 slot1Run
     let z := s.reach (s.edgeTime + s.gap + 5 * 100 - 500)
     (z.engine 30).run.nextShown 0 = some 0 ∧ z.loadComplete 30 0 = false ∧ z.clonesOf 30 = []) ∧
    (let s := bandsIn (lit30 slot1Run)
     let c := (s.engine 30).fly.cfg
     s.leads 30 = true ∧ s.bandReady 30 { load0 with queued := true } = true ∧ s.clonesOf 30 = [] ∧
      ((s.engine 30).run.loads.zipIdx).find?
        (fun p => !p.1.abandoned && !p.1.dead && decide (p.1.data.length < c.width / 8 * (c.height / c.bands))) =
        some ({ load0 with queued := true }, 0)) := by
  refine ⟨?_, ?_, ?_, ?_, ?_, ?_, ?_⟩ <;> decide +kernel

/-! ### Hypotheses met: the Skein link -/

/-- Port 15 with its return strand locked and alive, and its sub-port 30 in a link state with a record of the link. -/
def port15 (st : Nat) (l : SubPort) : State :=
  ((svc.wrs [(SKN_PORT_CFG.ENABLE 15, 1), (SKN_PORT_STATUS.RS_LOCK 15, 1), (SKN_ENG_STATUS.STATE 30, st)]).setPort 15 fun p =>
    { p with lastMsg := 1000000, lost := false }).setEngine 30 fun g => { g with link := l }

/-- A HOLD of REASON 0x40 with an identity on offer. -/
def hold40 : State := (port15 6 { offered := some 5 }).wr (SKN_ENG_STATUS.REASON 30) 0x40
def later (s : State) (t : Nat) : State := { s with now := t }

theorem test_met_SubPortsFollowTheLinkTable :
    (svc.Open ∧ 15 < 16 ∧ bitOf (0#32).toNat 0 = false ∧ bitOf (1#32).toNat 0 = true) ∧
    ((port15 2 {}).Open ∧ (port15 2 {}).exists_ 30 = true ∧ 2 ≤ (port15 2 {}).linkState 30) ∧ (port15 1 {}).linkState 30 < 2 ∧
    (hold40.Open ∧ (hold40.engine 30).link.offered = some 5 ∧ hold40.linkState 30 = 6 ∧ hold40.rd (SKN_ENG_STATUS.REASON 30) = 0x40) ∧
    ((port15 2 {}).Hears 30 ∧ (port15 2 {}).Inv) ∧ ((port15 1 {}).Hears 30 ∧ (port15 1 {}).linkState 30 = 1 ∧ (port15 1 {}).Inv) ∧
    (port15 2 {}).linkState 30 ≠ 6 ∧
    (let s := later (port15 1 { trainAt := 1000000 }) 11000000
     s.ready = true ∧ s.exists_ 30 = true ∧ s.linkState 30 = 1 ∧ (s.engine 30).link.trainAt + 10000000 ≤ s.now) ∧
    (let s := port15 4 { configEdges := 8 }; s.linkState 30 = 4 ∧ 8 ≤ (s.engine 30).link.configEdges) ∧
    (let s := later (port15 2 {}) 1020000
     s.ready = true ∧ (s.portLink 15).lost = false ∧ (s.portLink 15).lastMsg + 20000 ≤ s.now ∧
      ((s.enginesOf 15).filter fun e => s.linkState e != 0) ≠ []) ∧
    ((port15 2 {}).Inv ∧ (port15 2 {}).exists_ 30 = true ∧ (port15 2 {}).linkState 30 ≠ 5 ∧ svc.linkState 30 = 0) := by
  unfold State.Inv State.Open State.Hears
  refine ⟨?_, ?_, ?_, ?_, ?_, ?_, ?_, ?_, ?_, ?_, ?_⟩ <;> decide +kernel

/-- The permit is granted. -/
def permitted : State := svc.wrs [(SKN_LSAFE_STATUS.PERMIT, 1), (SKN_LSAFE_STATUS.IN_OPEN, 0)]

theorem test_met_PermitFollowsTheInterlock :
    (permitted.Inv ∧ permitted.pwr.porst = true ∧ permitted.permit = true) ∧ (svc.pwr.porst = true ∧ svc.eng.lsafeLowAt = none) ∧
    (let s := svc.wr SKN_LSAFE_STATUS.IN_OPEN 1; s.Open ∧ s.flag SKN_LSAFE_STATUS.IN_OPEN = true) ∧
    (permitted.Open ∧ permitted.flag SKN_LSAFE_STATUS.IN_OPEN = false) := by
  unfold State.Inv State.Open; decide +kernel

def abortPly : Ply := { kind := kAbort }
def blankPly : Ply := { kind := kBlank, seq := 5 }
def eventPly : Ply := { kind := kEvent, seq := 6 }
def dataPly (j : Nat) : Ply := { kind := kData, seq := 7, load := some j }

/-- Engine 30's link with one ply in its store. -/
def keeping (p : Ply) (n : Nat) : State := port15 5 { store := [{ ply := p, replays := n }] }

/-- The same with a load in a lit tick, and the store's ply of that load. -/
def loading (p : Ply) (n : Nat) : State := (keeping p n).setRun 30 fun _ => { startedRun with slot := 0 }

theorem test_met_PliesGoOutAndAreAcknowledged :
    (let s := port15 5 { aborts := [abortPly] }
     s.ready = true ∧ 15 < 16 ∧ 3 < 4 ∧ s.linkState (s.engineOfStrand 15 3) ≠ 0 ∧ bitOf s.pwr.sknClk (15 / 4) = true ∧
      s.engineOfStrand 15 3 = 30 ∧ (s.engine 30).link.aborts = [abortPly]) ∧
    (let s := port15 5 { blanks := [blankPly] }
     (s.engine 30).link.aborts = [] ∧ (s.engine 30).link.blanks = [blankPly] ∧ s.linkState (s.engineOfStrand 15 0) ≠ 0) ∧
    (let s := port15 5 { evReplays := [eventPly] }
     (s.engine 30).link.aborts = [] ∧ (s.engine 30).link.blanks = [] ∧ (s.strands 30).head? = some 0 ∧
      (s.engine 30).link.evReplays = [eventPly] ∧ (s.strands 30).head? ≠ some 3) ∧
    (let s := port15 2 {}
     s.ready = true ∧ 2 ≤ s.linkState (s.engineOfStrand 15 3) ∧ (s.engine (s.engineOfStrand 15 3)).link.kaDue.contains 3 = false ∧
      s.linkState (s.engineOfStrand 15 3) = 2 ∧ (s.engine (s.engineOfStrand 15 3)).link.helloDue.contains 3 = false) ∧
    (let s := later (port15 1 { trainAt := 1000000 }) 1100000
     s.linkState (s.engineOfStrand 15 0) = 1 ∧ (s.engine (s.engineOfStrand 15 0)).link.trainAt + 100000 ≤ s.now) ∧
    (port15 5 {}).Hears 30 ∧
    ((keeping blankPly 0).engine 30).link.store.find? (fun x => x.ply.seq == 5) = some { ply := blankPly } ∧
    (((keeping (dataPly 0) 0).engine 30).link.store.find? (fun x => x.ply.seq == 7) = some { ply := dataPly 0 } ∧
      (keeping (dataPly 0) 0).loadOver 30 (dataPly 0) = true) ∧
    (let s := loading (dataPly 0) 8
     (s.engine 30).link.store.find? (fun x => x.ply.seq == 7) = some { ply := dataPly 0, replays := 8 } ∧
      s.loadOver 30 (dataPly 0) = false ∧ max 1 (s.rd (SKN_PORT_CFG.REPLAY_MAX (30 / 2))) ≤ 8) ∧
    (let s := loading (dataPly 0) 0
     s.loadOver 30 (dataPly 0) = false ∧ 0 < max 1 (s.rd (SKN_PORT_CFG.REPLAY_MAX (30 / 2)))) ∧
    (let p := { eventPly with recs := [⟨1001039, 0, 0, 0⟩] }
     ((keeping p 0).engine 30).link.store.find? (fun x => x.ply.seq == 6) = some { ply := p } ∧
      replayInTime (keeping p 0).now p.recs = false) := by
  unfold State.Hears
  refine ⟨?_, ?_, ?_, ?_, ?_, ?_, ?_, ?_, ?_, ?_, ?_⟩ <;> decide +kernel

/-- An IDENT of 4 strands with serial 5. -/
def ident4 : Nat := 5 + 4 * 2 ^ 136

theorem test_met_IdentificationAndConfiguration :
    ((port15 1 {}).Inv ∧ (port15 1 {}).Hears 30 ∧ 7 < 8 ∧ 15 < 16 ∧ (port15 1 {}).linkState 30 = 1 ∧
      (port15 1 {}).allLocked 30 15 = true ∧ (port15 1 {}).allLocked 30 7 = false) ∧
    ((port15 5 {}).linkState 30 ≠ 1 ∧ (port15 5 {}).allLocked 30 15 = true ∧ (port15 5 {}).allLocked 30 7 = false) ∧
    ((port15 2 {}).Hears 30 ∧ (port15 2 {}).linkState 30 = 2 ∧ identStrands 0 ≠ ((port15 2 {}).strands 30).length) ∧
    (let s := (port15 2 { held := some 6 }).wr (SKN_PORT_CFG.ID_LOCK 15) 1
     s.Hears 30 ∧ s.linkState 30 = 2 ∧ identStrands ident4 = (s.strands 30).length ∧ s.flag (SKN_PORT_CFG.ID_LOCK (30 / 2)) = true ∧
      (s.engine 30).link.held = some 6 ∧ 6 ≠ identSerial ident4) ∧
    (identStrands ident4 = ((port15 2 {}).strands 30).length ∧ (port15 2 {}).flag (SKN_PORT_CFG.ID_LOCK (30 / 2)) = false) ∧
    ((port15 4 { asked := some 9 }).Inv ∧ (port15 4 { asked := some 9 }).Hears 30 ∧ (port15 4 { asked := some 9 }).linkState 30 = 4 ∧
      ((port15 4 { asked := some 9 }).engine 30).link.asked = some 9 ∧ (some 9 : Option Nat) ≠ some 8) := by
  unfold State.Inv State.Hears
  refine ⟨?_, ?_, ?_, ?_, ?_, ?_⟩ <;> decide +kernel

/-- A tick whose plane CRC is awaited, and one whose echo is overdue. -/
def awaited : CrcEntry := { tick := 3, status := 4, crc := 77, endAt := 900000 }
def echoing (t : Nat) : State := later ((port15 5 {}).setCrcs 30 fun _ => [awaited]) t

theorem test_met_EngineMessagesAreTaken :
    ((port15 5 {}).Inv ∧ (port15 5 {}).Hears 30 ∧ 65535 < 2 ^ 16) ∧
    (let s := (port15 5 {}).wr (SKN_PORT_CFG.MSG_ENABLE 15) 1; s.Hears 30 ∧ s.flag (SKN_PORT_CFG.MSG_ENABLE (30 / 2)) = true) ∧
    (let s := (port15 5 {}).wr (SKN_PORT_CFG.MSG_ENABLE 15) 0; s.Hears 30 ∧ s.flag (SKN_PORT_CFG.MSG_ENABLE (30 / 2)) = false) ∧
    (((port15 5 {}).engine 30).fly.warp.mode ≠ 3 ∧ 0 = (port15 5 {}).tickNo % 65536 ∧
      (65535 + 1) % 65536 = (port15 5 {}).tickNo % 65536) ∧
    (let s := (port15 5 {}).setEngine 30 fun g => { g with fly := { g.fly with warp := { g.fly.warp with mode := 3 } } }
     s.Inv ∧ s.Hears 30 ∧ (s.engine 30).fly.warp.mode = 3) ∧
    (let s := echoing 1100000
     s.Hears 30 ∧ (s.crcs 30).find? (fun c => c.tick % 65536 == 3 && c.status == 4 && decide (s.now ≤ c.endAt + 200000)) =
      some awaited) ∧
    (let s := echoing 1100000
     s.ready = true ∧ ((s.crcs 30).filter fun c => c.status == 4 && decide (c.endAt + 200000 ≤ s.now)).getLast? = some awaited) := by
  unfold State.Inv State.Hears
  refine ⟨?_, ?_, ?_, ?_, ?_, ?_, ?_⟩ <;> decide +kernel

/-! ### Hypotheses met: composition, warp and signatures -/

/-- One unit of canvas 7 waits; the compositor rests; the apply window is open. -/
def units (l : List (Nat × Nat)) : State := { svc with comp := { svc.comp with todo := l } }
def window : State := { svc with tick := { latched := true } }

/-- Engine 30 warps its row 0 from canvas 0 of 8 rows, whose unit is or is not done; and its one band of 8 rows is written. -/
def warping (done : List (Nat × Nat)) : State :=
  { svc.setEngine 30 fun g => { g with
      row := some 0
      spin := { g.spin with
        cfg := { g.spin.cfg with width := 8, height := 8, bands := 1 }
        warp := { g.spin.warp with mode := 1, wc := 8, hc := 8 } } } with
    comp := { svc.comp with
      composing := { svc.comp.composing with canvases := [(0, { width := 64, height := 8, enable := true })] }
      done := done } }
def written : State := (warping []).setEngine 30 fun g => { g with row := some 8 }

/-- Region 63 of canvas 7, one pixel wide, whose unit has been issued. -/
def rgn63 : Region := { enable := true, x := 63, y := 7, w := 1, h := 1 }
def signing : State :=
  { svc with
    comp := { svc.comp with
      composing := { svc.comp.composing with canvases := [(7, { width := 64, height := 8, enable := true })] }
      done := [(7, 0)] }
    sig := { svc.sig with force := [(511, rgn63)] } }

theorem test_met_FramesAreComposedAndChecked :
    ((units [(7, 0)]).ready = true ∧ (units [(7, 0)]).comp.todo = [(7, 0)] ∧ (units []).comp.todo = []) ∧
    ((warping []).ready = true ∧ 15 < 16 ∧ (warping []).nextRow 15 = some (30, 0) ∧ (warping []).rowReady 30 0 = false ∧
      (warping [(0, 0)]).nextRow 15 = some (30, 0) ∧ (warping [(0, 0)]).rowReady 30 0 = true ∧ svc.nextRow 15 = none) ∧
    (written.ready = true ∧ 30 < 32 ∧ 0 < (written.engine 30).spin.cfg.bands ∧ (written.engine 30).row = some 8 ∧
      (0 + 1) * ((written.engine 30).spin.cfg.height / (written.engine 30).spin.cfg.bands) ≤ 8 ∧
      (written.engine 30).acked.contains 0 = false ∧ (written.engine 30).lostBands.contains 0 = false) ∧
    (window.ready = true ∧ window.tick.latched = true ∧ window.comp.todo = []) ∧ ((units [(7, 0)]).comp.todo ≠ []) ∧
    (signing.ready = true ∧ Tbl.get (fun _ => ({} : Region)) signing.sig.force (64 * 7 + 63) = rgn63 ∧
      (signing.comp.composing.canvas 7).enable = true ∧ (rgn63.clip (signing.comp.composing.canvas 7)).area ≠ 0 ∧
      signing.sig.checked.contains (64 * 7 + 63) = false ∧
      signing.comp.done.contains (7, ((rgn63.clip (signing.comp.composing.canvas 7)).y1 - 1) / 8) = true) ∧
    (svc.Inv ∧ rgn63.nexp = 0 ∧ (let g := { rgn63 with nexp := 4, expect := [1, 2, 3, 4] }
      (g.expect.take g.nexp).contains 4 = true ∧ 0 < g.nexp ∧ (g.expect.take g.nexp).contains 5 = false ∧ g.guarded = false)) := by
  unfold State.Inv
  refine ⟨?_, ?_, ?_, ?_, ?_, ?_, ?_⟩ <;> decide +kernel

/-! ### Hypotheses met: light timers, error windows and die words -/

/-- A loop edge is due; a calibration of string 0 of engine 31 began at tick 0; string 26 is off for its heat; a window is due. -/
def loopDue : State := { svc with light := { svc.light with loopDue := true } }
def calRun : CalRun := { str := 0, lent := false, start := 0 }
def calibrating (c : CalRun) (tick : Nat) : State :=
  (svc.wr TICK_COUNT.COUNT tick).setLight 31 fun l => l.setCal 0 (some c)
def hot26 : State := svc.setLight 31 fun l => l.setStr 26 fun p => { p with state := stHeatOff }
def windowDue : State := { svc with sig := { svc.sig with windowDue := [7] } }

theorem test_met_LightTimersAndErrorsRun :
    (loopDue.ready = true ∧ loopDue.light.loopDue = true ∧ svc.light.loopDue = false) ∧
    (let s := calibrating calRun (16 * svc.calTimeout)
     s.ready = true ∧ (s.lightOf 31).cal 0 = some calRun ∧ calRun.fit.isNone = true ∧ calRun.start + 16 * s.calTimeout ≤ s.tickNo) ∧
    (let s := calibrating calRun (16 * svc.calTimeout - 1); s.tickNo < calRun.start + 16 * s.calTimeout) ∧
    (let s := calibrating { calRun with fit := some {} } 0; (s.lightOf 31).cal 0 = some { calRun with fit := some {} }) ∧
    (hot26.ready = true ∧ 26 < 27 ∧ ((hot26.lightOf 31).str 26).state = stHeatOff) ∧
    (windowDue.ready = true ∧ windowDue.sig.windowDue.contains 7 = true) ∧ pcOut.resFenced 4 0 = true ∧ svc.resFenced 4 31 = false := by
  refine ⟨?_, ?_, ?_, ?_, ?_, ?_, ?_⟩ <;> decide +kernel

/-! ### Hypotheses met: the coach bus -/

/-- The bus is on; entry 31 lists the driver board of engines 30 and 31 under address 9. -/
def onBus : State := svc.wr CBUS_CFG.ENABLE 1
def board31 : State :=
  onBus.wrs [(CBUS_ALLOW_MAC_LO.MAC 31, 9), (CBUS_ALLOW_CFG.VALID 31, 1), (CBUS_ALLOW_CFG.ENGINE 31, 30), (CBUS_ALLOW_CFG.PAIR 31, 1)]
def table5 : BoardTable := { id := 5, strs := [] }
def staged5 : Staged := { table := table5 }
def staging (g : Staged) : State := board31.setLight 31 fun l => { l with staged := some g }
def inForce : State := board31.setLight 31 fun l => { l with force := some table5 }

theorem test_met_CoachBusAdmitsListedFrames :
    (svc.Inv ∧ svc.Open ∧ bitOf (1#32).toNat 0 = true ∧ svc.cbusOn = false ∧ bitOf (0#32).toNat 0 = false) ∧
    (onBus.Open ∧ onBus.cbusOn = true ∧ 31 < 32 ∧ onBus.ready = true ∧ onBus.listed 9 = none) ∧
    (board31.ready = true ∧ board31.cbusOn = true ∧ board31.listed 9 = some 31 ∧ board31.Inv ∧ (board31.covered 31).contains 31 = true) ∧
    ((staging staged5).listed 9 = some 31 ∧ (staging staged5).ready = true ∧ (staging staged5).cbusOn = true ∧
      ((staging staged5).covered 31).contains 31 = true ∧ ((staging staged5).lightOf 31).staged.isSome = true) ∧
    (inForce.ready = true ∧ inForce.cbusOn = true ∧ inForce.listed 9 = some 31 ∧ (inForce.covered 31).contains 31 = true ∧
      (inForce.lightOf 31).staged = none ∧ inForce.light.switch = none ∧ (inForce.lightOf 31).force = some table5 ∧ 6 ≠ table5.id) ∧
    onBus.flag CBUS_STATUS.PLCA_ACTIVE ≠ true := by
  unfold State.Inv State.Open
  refine ⟨?_, ?_, ?_, ?_, ?_, ?_⟩ <;> decide +kernel

/-- A sent table and a sent SWITCH that nothing has answered for 1 s; and both due to go out. -/
def sent5 : Staged := { staged5 with due := false, sends := 1, lastSend := 0 }
def switch5 : Switch := { id := 3, tick := 1000, entries := [{ engine := 31, table := table5 }], due := false }
def switching (w : Switch) : State := { board31 with light := { board31.light with switch := some w } }

theorem test_met_TablesAndSwitchesAreDelivered :
    (let s := staging staged5
     s.ready = true ∧ s.cbusOn = true ∧ s.listed 9 = some 31 ∧ (s.covered 31).contains 31 = true ∧
      (s.lightOf 31).staged = some staged5 ∧ staged5.table.id = 5 ∧ staged5.failed = false ∧ staged5.acked = false) ∧
    (let s := later (staging sent5) 1000000000
     s.ready = true ∧ s.cbusOn = true ∧ (s.boardOf 31).isSome = true ∧ (s.lightOf 31).staged = some sent5 ∧ sent5.acked = false ∧
      sent5.failed = false ∧ sent5.due = false ∧ 0 < sent5.sends ∧ sent5.lastSend + s.retryNs ≤ s.now) ∧
    (let s := switching switch5
     s.ready = true ∧ s.cbusOn = true ∧ s.listed 9 = some 31 ∧ (s.covered 31).contains 31 = true ∧ s.light.switch = some switch5 ∧
      2 ≤ 2) ∧
    (let s := later (switching switch5) 1000000000
     s.ready = true ∧ s.light.switch = some switch5 ∧ switch5.due = false ∧ (∃ x ∈ switch5.entries, x.answer = none) ∧
      switch5.lastSend + s.retryNs ≤ s.now ∧ 1 < (switch5.tick + 2 ^ 32 - s.tickNo % 2 ^ 32) % 2 ^ 32 ∧
      (switch5.tick + 2 ^ 32 - s.tickNo % 2 ^ 32) % 2 ^ 32 < 2 ^ 31) ∧
    (let s := switching { switch5 with due := true }
     s.ready = true ∧ s.cbusOn = true ∧ s.light.switch = some { switch5 with due := true }) ∧
    (let s := staging staged5
     s.light.switch.filter (·.due) = none ∧ bestTable s.tablesDue = some (false, 0, 31) ∧ s.boardOf 31 = some 31) := by
  refine ⟨?_, ?_, ?_, ?_, ?_, ?_⟩ <;> decide +kernel

/-! ### Hypotheses met: the backbone -/

/-- Port 1 is on with its 802.1AS function and its link up, in an 802.1AS state. -/
def port1 (state : Nat) : State :=
  svc.wrs [(BBN_PORT_CFG.ENABLE 1, 1), (BBN_PORT_CFG.GPTP_ENABLE 1, 1), (BBN_PORT_STATUS.LINK 1, 1), (BBN_GPTP_STATUS.STATE 1, state)]

theorem test_met_LinkAndTimeStatesFollow :
    ((port1 1).Inv ∧ (port1 1).ready = true ∧ 1 < 2 ∧ (port1 1).bbnOn 1 = true ∧ (port1 1).pwr.bbnClk = true) ∧
    ((port1 1).flag (BBN_PORT_STATUS.LINK 1) = true ∧ svc.flag (BBN_PORT_STATUS.LINK 1) = false) ∧
    ((port1 1).Open ∧ (port1 1).gptpOn 1 = true ∧ svc.gptpOn 1 = false) ∧
    ((port1 2).gptpState 1 = 2 ∧ (port1 3).gptpState 1 = 3 ∧ (port1 1).gptpState 1 ≠ 2 ∧ (port1 1).gptpState 1 ≠ 3 ∧ 800 ≤ 800) := by
  unfold State.Inv State.Open
  refine ⟨?_, ?_, ?_, ?_⟩ <;> decide +kernel

/-- A multicast datagram to port 1 of the least length, and the entry that takes it. -/
def datagram : Frame := { port := 1, len := 64, dstMac := [1, 0, 94, 0, 0, 1], dport := 5000 }
def flowed : State :=
  { port1 1 with bbn := { (port1 1).bbn with flows := [(4095, { valid := true, port1 := true, dport := 5000 })] } }

/-- Context 255 holds an open class A frame of a TILE stream whose last packet is seen. -/
def inFrame (x : StreamCtx) : State :=
  (svc.wrs [(BBN_SC_STATUS.IN_FRAME 255, 1), (BBN_SC_STATUS.ACTIVE 255, 1), (BBN_SC_CFG.ENABLE 255, 1)]).setStream 255 fun _ => x

/-- Surface 9 suits a TILE stream, and context 255 names it. -/
def tiled : State :=
  (svc.wrs [(BBN_SC_SURF.SURFACE_A 255, 9), (BBN_SC_SURF.SURFACE_B 255, 9)]).setSurface 9 fun _ =>
    { format := 8, layout := 2, width := 512, height := 512 }

theorem test_met_StreamsAreIngested :
    (flowed.ready = true ∧ datagram.port < 2 ∧ flowed.flag (BBN_PORT_STATUS.LINK 1) = true ∧ datagram.bad = false ∧
      datagram.fecUncorrected = 0 ∧ ¬ datagram.len < 64 ∧ ¬ clampN (flowed.rd (BBN_PORT_CFG.MAX_FRAME 1)) 1518 9600 < 64 ∧
      datagram.gptp = false ∧ flowed.accepts datagram = true ∧ (flowed.flowFor datagram).isSome = true ∧
      (port1 1).flowFor datagram = none ∧ ({ datagram with len := 63 } : Frame).len < 64) ∧
    (svc.Inv ∧ svc.Open ∧ 255 < 256 ∧ bitOf (1#32).toNat 0 = true ∧ svc.flag (BBN_SC_STATUS.ACTIVE 255) = false ∧
      svc.streamCheck 1 0 ≠ 0 ∧ tiled.streamCheck 3 (9 + 2 ^ 16 * 9) = 0 ∧ bitOf (0#32).toNat 0 = false) ∧
    (tiled.Inv ∧ tiled.Open ∧ tiled.flag (BBN_SC_STATUS.ACTIVE 255) = false) ∧
    (let x : StreamCtx := { cfg := 3, key := true, lastSeen := true }
     (inFrame x).Inv ∧ (inFrame x).ready = true ∧ (inFrame x).inFrame 255 = true ∧ ((inFrame x).stream 255).lastSeen = true ∧
      x.key = true ∧ bitOf x.cfg 3 = false ∧ x.cls = 0 ∧ bitsOf x.cfg 1 2 = 1 ∧ 15 < 16) ∧ svc.inFrame 255 = false := by
  unfold State.Inv State.Open
  refine ⟨?_, ?_, ?_, ?_, ?_⟩ <;> decide +kernel

/-! ### Hypotheses met: the memory stack and the heat -/

def masksSet (l : List Nat) : State :=
  svc.wrs ((List.range 9).map fun k => (if k < 5 then STK_MAP_PC.MASK k else STK_MAP_BA.MASK (k - 5), l.getD k 0))
def mapped : State := masksSet svc.stk.masks
def reads : State := mapped.wr (HIF_CR_CFG.ENABLE 63) 1

/-- Lane 127 is tracked with a drift and a limit flag; pseudo-channel 31 is being retrained; an UNFENCE. -/
def tracking (d : Nat) (lim : Nat) : State :=
  svc.wrs [(STK_CFG.TRACK, 1), (STK_LANE.DRIFT 127, d), (STK_LANE.AT_LIMIT 127, lim)]
def train31 : State := { svc with stk := { svc.stk with retraining := [31] } }
def unfencing (l : List (Nat × Nat)) : Desc := descr 0x04 0 l

theorem test_met_TheStackIsKept :
    ((masksSet (List.replicate 9 0)).Open ∧ masksOk (masksSet (List.replicate 9 0)).masksWritten = false) ∧
    (mapped.Inv ∧ mapped.Open ∧ masksOk mapped.masksWritten = true ∧ mapped.stackBusy = false) ∧
    (reads.Open ∧ masksOk reads.masksWritten = true ∧ reads.stackBusy = true) ∧
    (svc.ready = true ∧ 31 < 32 ∧ 89 < 90 ∧ requesterClass 89 = 3 ∧ 0 + svc.ageLimit 3 ≤ svc.now ∧ requesterClass 87 = 3 ∧
      svc.c3Moved 31 < ({ svc with tick := { svc.tick with c3 := 1 } } : State).c3Floor) ∧
    ((86 : Int) ≤ 86 ∧ (82 : Int) ≤ 82 ∧ (82 : Int) < 83 ∧ (85 : Int) < 86) ∧
    ((tracking 1 0).Inv ∧ (tracking 1 0).ready = true ∧ 127 < 128 ∧ (tracking 1 0).flag STK_CFG.TRACK = true ∧
      signedOf ((tracking 1 0).rd (STK_LANE.DRIFT 127)) 3 + 1 ≤ 2) ∧
    (2 < signedOf ((tracking 2 0).rd (STK_LANE.DRIFT 127)) 3 + 1 ∧ (tracking 2 0).flag (STK_LANE.AT_LIMIT 127) = false ∧
      signedOf ((tracking 6 1).rd (STK_LANE.DRIFT 127)) 3 - 1 < -2 ∧ (tracking 6 1).flag (STK_LANE.AT_LIMIT 127) = true ∧
      (tracking 6 1).flag STK_CFG.TRACK = true) ∧
    (2 ^ 34 - 1 < stackBytes ∧ svc.replayMax + 1 ≤ svc.replayMax + 1 ∧ svc.pcFenced (svc.pcOf (2 ^ 34 - 1)) = false) ∧
    (train31.ready = true ∧ train31.stk.retraining.contains 31 = true) ∧
    (let d := unfencing [(8, 3), (10, 31)]
     let s := at0 svc d
     s.Due 0 0x04 d ∧ s.Clean d [(8, 0, 3), (9, 0, 3), (10, 0, 16)] ∧ dIndex d = 0 ∧ dF d 8 0 3 < 4 ∧ dF d 9 0 3 = 0 ∧
      unfenceRange (dF d 8 0 3) 0 (dF d 10 0 16) = true ∧ s.unitFenced (dF d 8 0 3) (dF d 10 0 16) = false) ∧
    (let d := unfencing [(8, 1), (10, 31)]
     let s := (at0 svc d).wr DEV_PU_FENCED.PORTS 0x8000
     s.Due 0 0x04 d ∧ s.Clean d [(8, 0, 3), (9, 0, 3), (10, 0, 16)] ∧ s.unitFenced 1 31 = true ∧ s.selfFenced 1 31 = true) ∧
    (let d := unfencing []
     let s := at0 pcOut d
     s.Due 0 0x04 d ∧ s.Clean d [(8, 0, 3), (9, 0, 3), (10, 0, 16)] ∧ s.unitFenced 0 0 = true ∧ s.selfFenced 0 0 = false) := by
  unfold State.Inv State.Open
  simp only [due_iff, State.Clean]
  refine ⟨?_, ?_, ?_, ?_, ?_, ?_, ?_, ?_, ?_, ?_, ?_, ?_⟩ <;> decide +kernel

/-- A ceiling of `c` W under a hottest spot of `t` °C, an interval of 10 ms with a sum of `p` mW, and the host's ceiling. -/
def warm (c : Nat) (t : Int) (p host : Nat) : State :=
  let s := svc.wrs [(THM_STATUS.CEIL_NOW, c), (THM_CFG.CEILING, host)]
  { s with thm := { s.thm with hots := List.replicate 8 (s.onHot t), powerSum := p, powerN := 10 } }

theorem test_met_TheCeilingFollowsTheHeat :
    (svc.powered = true ∧ svc.thm.caseAt = none ∧ svc.ready = true) ∧
    ((warm 41 120 0 58).Inv ∧ (warm 41 120 0 58).ready = true ∧ 40 < (warm 41 120 0 58).ceilNow ∧
      (warm 41 120 0 58).onHot (warm 41 120 0 58).tHigh ≤ (warm 41 120 0 58).hotMax) ∧
    (1000 * (warm 50 80 500001 58).ceilNow * (warm 50 80 500001 58).thm.powerN < (warm 50 80 500001 58).thm.powerSum) ∧
    (let s := warm 50 115 480000 58
     s.Inv ∧ s.ready = true ∧ s.hotMax < s.onHot s.tHigh ∧ s.thm.powerSum ≤ 1000 * s.ceilNow * s.thm.powerN ∧
      s.hotMax ≤ s.onHot (s.tHigh - s.tHyst : Nat) ∧ s.thm.powerSum ≤ 1000 * (s.ceilNow - s.ceilStep) * s.thm.powerN ∧
      s.ceilNow < s.ceilHost) ∧
    ((warm 50 80 0 58).Inv ∧ (warm 50 80 0 58).Open ∧ nearer (bitsOf (49#32).toNat 0 6) 40 58 < (warm 50 80 0 58).ceilNow ∧
      (warm 50 80 0 58).ceilNow ≤ nearer (bitsOf (50#32).toNat 0 6) 40 58) := by
  unfold State.Inv State.Open
  refine ⟨?_, ?_, ?_, ?_, ?_⟩ <;> decide +kernel

/-! ### Hypotheses met: life cycle, power and the stranger log -/

/-- The life-cycle state, and whether the window for writes is open; and a long operation with its refusal. -/
def lifeOf (lc w : Nat) : State := svc.wrs [(DEV_STATUS.LC, lc), (THM_STATUS.WRITE_OK, w)]
def longOf (l : LongOp) (r : Option Nat) : State :=
  { busy with pwr := { busy.pwr with long := some l, refusal := r } }

theorem test_met_LongOperationsRun :
    (svc.Inv ∧ svc.Open ∧ bitOf 1 0 = true ∧ bitOf 2 1 = true ∧ bitOf 4 2 = true ∧ 0 < 7 ∧ 7 < 8) ∧
    ((lifeOf 1 1).lcAllowed ≠ some 4 ∧ (lifeOf 1 0).lcAllowed = some 2 ∧ (lifeOf 1 0).flag THM_STATUS.WRITE_OK = false ∧
      (lifeOf 2 1).lcAllowed = some 4 ∧ (lifeOf 2 1).flag THM_STATUS.WRITE_OK = true ∧ (lifeOf 2 1).tokenOk false = false) ∧
    (let s := longOf (.lifeCycle 1) (some rRefusedTemp)
     s.Inv ∧ s.ready = true ∧ s.pwr.long = some (.lifeCycle 1) ∧ s.pwr.refusal = some rRefusedTemp ∧ rRefusedTemp ≠ rDone ∧
      rRefusedTemp < 8) ∧
    (let s := longOf (.lifeCycle 2) none
     s.Inv ∧ s.ready = true ∧ s.pwr.long = some (.lifeCycle 2) ∧ s.pwr.refusal = none ∧ 3 ≤ 3) ∧
    (bitOf (2 ^ 16 + 4) 16 = true ∧ (lifeOf 3 0).Open ∧ (lifeOf 3 0).rd DEV_STATUS.LC = 3 ∧ (2 ^ 16 + 4) % 4096 ≠ 0 ∧
      (2 ^ 16 + 4) % 4 = 0 ∧ (lifeOf 2 0).rd DEV_STATUS.LC = 2 ∧ (lifeOf 3 0).Inv) ∧
    ((longOf (.bist [11]) none).ready = true ∧ (longOf (.bist [11]) none).pwr.long = some (.bist [11]) ∧
      (longOf (.bist [2, 11]) none).pwr.long = some (.bist [2, 11]) ∧ svc.pwr.long = none) := by
  unfold State.Inv State.Open
  refine ⟨?_, ?_, ?_, ?_, ?_, ?_⟩ <;> decide +kernel

/-- In reset; in a step of start-up; and in service with some pins and clocks otherwise. -/
def inStep (n : Nat) : State := { pwr := { porst := true, pwrOk := true, sysClk := true, step := n } }
def unpowered : State := { svc with pwr := { svc.pwr with pwrOk := false } }

theorem test_met_PowerAndClocksAreFollowed :
    (({} : State).pwr.porst = false ∧ (inStep 1).pwr.porst = true ∧ (inStep 1).pwr.pwrOk = true ∧ (inStep 1).pwr.sysClk = true ∧
      (inStep 1).ready = false ∧ (inStep 1).pwr.dead = false ∧ (inStep 1).pwr.step = 1 ∧ (inStep 2).pwr.step = 2 ∧
      (inStep 4).pwr.step = 4 ∧ (inStep 5).pwr.step = 5) ∧
    (svc.ready = true ∧ svc.pwr.pwrOk = true ∧ svc.pwr.long = none ∧
      ({ svc with pwr := { svc.pwr with pwrOk := false } } : State).withdrawPermit.pwr.long = none ∧ 3 < 4 ∧ svc.pwr.porst = true ∧
      svc.flag HIF_STATUS.LINK_UP = true) ∧
    (unpowered.ready = true ∧ unpowered.pwr.pwrOk = false) ∧
    (let s : State := { pwr := { porst := true } }
     s.ready = false ∧ s.pwr.pwrOk = false ∧ s.pwr.porst = true ∧ s.pwr.step = 0 ∧ s.pwr.dead = false) ∧
    (bitOf ({ svc with pwr := { svc.pwr with sknClk := 7 } } : State).pwr.sknClk 3 = false) := by
  refine ⟨?_, ?_, ?_, ?_, ?_⟩ <;> decide +kernel

/-- The log with the addresses 9 to 9 + n − 1. -/
def logged (n : Nat) : State :=
  onBus.wrs ((List.range n).flatMap fun i => [(CBUS_LOG_MAC_LO.MAC i, 9 + i), (CBUS_LOG_MAC_HI.COUNT i, 1)])

theorem test_met_StrangersAreLogged :
    (let used (s : State) (i : Nat) : Bool := s.rd (CBUS_LOG_MAC_HI.COUNT i) != 0
     let holds (s : State) (mac i : Nat) : Bool :=
      used s i && s.rd (CBUS_LOG_MAC_LO.MAC i) + 2 ^ 32 * s.rd (CBUS_LOG_MAC_HI.MAC i) == mac
     ((logged 8).Inv ∧ (logged 8).ready = true ∧ (logged 8).cbusOn = true ∧ (logged 8).listed 16 = none ∧ 16 < 2 ^ 48 ∧
       holds (logged 8) 16 7 = true ∧ (∀ i, i < 8 → holds (logged 8) 17 i = false) ∧ (∀ i, i < 8 → used (logged 8) i = true)) ∧
     ((logged 7).Inv ∧ (logged 7).ready = true ∧ (logged 7).cbusOn = true ∧ (logged 7).listed 16 = none ∧
       (∀ i, i < 8 → holds (logged 7) 16 i = false) ∧ used (logged 7) 7 = false)) ∧ svc.Inv ∧ svc.Open := by
  unfold State.Inv State.Open
  refine ⟨⟨?_, ?_⟩, ?_, ?_⟩ <;> decide +kernel

/-! ### Worked examples of the spec -/

/-- 04_surfaces: the A8 ramp block, its 72 bytes written out by R118. -/
def rampSlot : List Byte :=
  (leBytes 0x492000000000fffffff1fe3fc7f8ff1fe3fc7f8ff1fe3fc7f8ff1fe3fc00000000000000000000000000000000000000000000000000000000000000000000000000000000000000 72).reverse

theorem test_hank_ramp : decodeBlock 7 72 rampSlot = ((List.range 256).map fun i => 16 * (i % 16), false) := by decide +kernel

/-- 05_composition: one pixel of the ceiling, from its sources to the canvas word. -/
theorem test_ceiling_pixel :
    ycToRgb 1 0 8 126 128 128 = (2057, 2057, 2057) ∧ linear16 2 0 2057 4095 = 12555 ∧
    [255, 128, 0].map (linear16 1 0 · 255) = [65535, 14146, 0] ∧ toBt2020 65535 14146 0 = (45777, 17535, 2321) ∧
    (let map := premultiply false 65535 45777 17535 2321 32896
     map = { r := 22978, g := 8802, b := 1165, a := 32896 } ∧
      canvasWord (blendPx 0 { r := 12555, g := 12555, b := 12555, a := 65535 } map) = 0x19D8AADB) := by decide +kernel

/-- 07_canvas_and_warp: a saddle pixel, seen by two engines. -/
theorem test_saddle_pixel :
    warpCoefs 0 = [0, 1024, 0, 0] ∧ warpCoefs 8 = [-49, 987, 93, -7] ∧
    bicubic (fun _ y => if 949 ≤ y then 1023 else 0) 9600 2048 211200 60680 = 5504 ∧
    saddleGain [(100, 640, rampEntry 1 fun _ => 0)] (65535, 0) = (10291, 1) ∧
    saddleGain [(539, 640, rampEntry 1 fun _ => 0)] (65535, 0) = (55244, 1) ∧
    liftOut 24 1 1 (roundDivN (5504 * 10291) 65535) = 864 ∧ liftOut 24 1 1 (roundDivN (5504 * 55244) 65535) = 4640 := by
  decide +kernel

/-- 08_spindle_planes: the three banks of a mirror, and the bytes of its planes. -/
theorem test_plane_pixel :
    seedOf 2 0 = 0x0DA9 ∧ [40000, 12345, 300].map (spinC · 12 2) = [9998, 3086, 75] ∧
    (List.range 3).map (ditherIndex 0x0DA9 · 2000 1080) = [64 * 46 + 57, 64 * 5 + 34, 64 * 28 + 11] ∧
    [spinS 40000 12 2 (spinQ true 2 3071), spinS 12345 12 2 (spinQ true 2 1024), spinS 300 12 2 (spinQ true 2 2999)] = [2500, 771, 19] ∧
    blockBytes 3840 2160 4 = 260096 ∧ planeBufBytes 3840 2160 4 12 = 37453824 ∧
    planeAddr 0x100000000 3840 2160 4 12 1 0 0 2 0 250 = 0x1024370FA ∧
    planeAddr 0x100000000 3840 2160 4 12 1 2 4 2 0 250 = 0x103FFF0FA ∧ spinLuma 13933 46871 4732 40000 12345 300 = 17355 := by
  decide +kernel

/-- 15_stack_memory: the ceiling's plane byte, and its neighbour 256 bytes on. -/
theorem test_stack_address :
    (let l := locate svc.stk.masks 0x1024370FA
     pcOfLoc l = 24 ∧ bankOfLoc l = 4 ∧ rowOfLoc l = 8264) ∧
    (let l := locate svc.stk.masks 0x1024371FA
     pcOfLoc l = 25 ∧ bankOfLoc l = 4 ∧ rowOfLoc l = 8264) := by decide +kernel

/-- 11_light_strings: the codes of a string after one update (share 8.2995, G 0.0032, TH 410). -/
theorem test_string_codes :
    codesOf 3686 (8 * 65536 + 19628) { g := 858993, th := 410 } = [3004, 1707, 1058, 734, 572, 491, 451, 430] := by decide +kernel

/-- 01_architecture: the FLY page of port 5 and the LGT page of engine 11. -/
theorem test_pages : (FLY_PORT_STATUS.SPLIT 5).off = 0x1CA000 ∧ (LGT_ENG_CFG.LOOP_ON 11).off = 0x24B000 := by decide +kernel

end Sys2Proof.Tests
end

section
/-! The stranger log of the coach bus (R365): what a received stranger and LOG_CLEAR do to its entries. -/

namespace Sys2Proof.Machine

/-! ### Several field writes -/

/-- A word that holds no bit of any field written stands. -/
theorem State.word_wrs {a : Nat} {l : List (Fld × Nat)} (hl : ∀ p ∈ l, a ≠ p.1.off ∧ (32 ≤ p.1.hi → a ≠ p.1.off + 4)) :
    ∀ {s : State}, s.Canon → (s.wrs l).word a = s.word a := by
  induction l with
  | nil => intro s _; rfl
  | cons p l ih =>
    intro s h
    obtain ⟨hp, hl⟩ := List.forall_mem_cons.1 hl
    rw [wrs_cons, ih hl (wr_canon h _ _), word_wr h _ _ hp.1 hp.2]

/-- A field that shares no bit with any field written reads as before. -/
theorem State.rd_wrs_apart {f : Fld} (hf : f.hi < 64) {l : List (Fld × Nat)} (hl : ∀ p ∈ l, f.apart p.1) :
    ∀ {s : State}, s.Canon → (s.wrs l).rd f = s.rd f := by
  induction l with
  | nil => intro s _; rfl
  | cons p l ih =>
    intro s h
    obtain ⟨hp, hl⟩ := List.forall_mem_cons.1 hl
    rw [wrs_cons, ih hl (wr_canon h _ _), rd_wr_apart h _ hp hf]

/-- Of fields that share no bit, each reads what was written to it. -/
theorem State.rd_wrs_mem {f : Fld} {v : Nat} (hf : f.hi < 64) {l : List (Fld × Nat)} (hl : l.Pairwise fun p q => p.1.apart q.1)
    (hm : (f, v) ∈ l) : ∀ {s : State}, s.Canon → (s.wrs l).rd f = v % 2 ^ (f.hi + 1 - f.lo) := by
  induction l with
  | nil => cases hm
  | cons p l ih =>
    intro s h
    obtain ⟨hp, hl⟩ := List.pairwise_cons.1 hl
    rw [wrs_cons]
    rcases List.mem_cons.1 hm with rfl | hm
    · rw [rd_wrs_apart hf hp (wr_canon h _ _), rd_wr h _ _ hf]
    · exact ih hl hm (wr_canon h _ _)

/-! ### Counters -/

/-- A counter within one word changes no other word. -/
theorem State.bump_only {s : State} (h : s.Canon) {f : Fld} (n : Nat) (hf : f.hi < 32) : s.Only [f.off] (s.bump f n) :=
  fun _ ha => word_wr h _ _ (fun e => ha (List.mem_singleton.2 e)) (by omega)

theorem State.Only.trans {s t u : State} {l m n : List Nat} (hst : s.Only l t) (htu : t.Only m u) (hl : l ⊆ n) (hm : m ⊆ n) :
    s.Only n u :=
  fun a ha => (htu a fun h => ha (hm h)).trans (hst a fun h => ha (hl h))

/-! ### The entries of the log -/

/-- Entry `i` of the stranger log is in use. -/
def State.logUsed (s : State) (i : Nat) : Prop := s.rd (CBUS_LOG_MAC_HI.COUNT i) ≠ 0

/-- Entry `i` of the stranger log holds the address `mac`. -/
def State.logHolds (s : State) (mac i : Nat) : Prop :=
  s.logUsed i ∧ s.rd (CBUS_LOG_MAC_LO.MAC i) + 2 ^ 32 * s.rd (CBUS_LOG_MAC_HI.MAC i) = mac

/-- The writes of all four fields of entry `i`. -/
def logWrites (i lo hi count tick : Nat) : List (Fld × Nat) :=
  [(CBUS_LOG_MAC_LO.MAC i, lo), (CBUS_LOG_MAC_HI.MAC i, hi), (CBUS_LOG_MAC_HI.COUNT i, count), (CBUS_LOG_TICK.TICK i, tick)]

theorem logWrites_pairwise (i lo hi count tick : Nat) :
    (logWrites i lo hi count tick).Pairwise fun p q => p.1.apart q.1 := by
  simp only [logWrites, List.pairwise_cons, List.forall_mem_cons, List.not_mem_nil, Fld.apart, CBUS_LOG_MAC_LO.MAC,
    CBUS_LOG_MAC_HI.MAC, CBUS_LOG_MAC_HI.COUNT, CBUS_LOG_TICK.TICK, false_imp_iff, implies_true, List.Pairwise.nil, and_true]
  omega

/-- The writes of entry `i` leave the count of another entry. -/
theorem count_apart_logWrites {i k : Nat} (hk : k ≠ i) (lo hi count tick : Nat) :
    ∀ p ∈ logWrites i lo hi count tick, (CBUS_LOG_MAC_HI.COUNT k).apart p.1 := by
  simp only [logWrites, List.forall_mem_cons, List.not_mem_nil, Fld.apart, CBUS_LOG_MAC_LO.MAC, CBUS_LOG_MAC_HI.MAC,
    CBUS_LOG_MAC_HI.COUNT, CBUS_LOG_TICK.TICK, false_imp_iff, implies_true, and_true]
  omega

/-- The writes of entry `i` reach no word of another entry. -/
theorem word_apart_logWrites {i k : Nat} (hk : k ≠ i) (lo hi count tick : Nat) {a : Nat}
    (ha : a ∈ [(CBUS_LOG_MAC_LO.MAC k).off, (CBUS_LOG_MAC_HI.MAC k).off, (CBUS_LOG_TICK.TICK k).off]) :
    ∀ p ∈ logWrites i lo hi count tick, a ≠ p.1.off ∧ (32 ≤ p.1.hi → a ≠ p.1.off + 4) := by
  simp only [List.mem_cons, List.not_mem_nil, or_false, CBUS_LOG_MAC_LO.MAC, CBUS_LOG_MAC_HI.MAC, CBUS_LOG_TICK.TICK] at ha
  simp only [logWrites, List.forall_mem_cons, List.not_mem_nil, CBUS_LOG_MAC_LO.MAC, CBUS_LOG_MAC_HI.MAC,
    CBUS_LOG_MAC_HI.COUNT, CBUS_LOG_TICK.TICK, false_imp_iff, implies_true, and_true]
  omega

/-- The three words of entry `k` stand where entry `i` is written. -/
theorem State.word_logWrites {s : State} (h : s.Canon) {i k : Nat} (hk : k ≠ i) (lo hi count tick : Nat) {a : Nat}
    (ha : a ∈ [(CBUS_LOG_MAC_LO.MAC k).off, (CBUS_LOG_MAC_HI.MAC k).off, (CBUS_LOG_TICK.TICK k).off]) :
    (s.wrs (logWrites i lo hi count tick)).word a = s.word a :=
  word_wrs (word_apart_logWrites hk lo hi count tick ha) h

theorem State.rd_mac_lo_logWrites {s : State} (h : s.Canon) (i lo hi count tick : Nat) :
    (s.wrs (logWrites i lo hi count tick)).rd (CBUS_LOG_MAC_LO.MAC i) = lo % 2 ^ 32 :=
  rd_wrs_mem (f := CBUS_LOG_MAC_LO.MAC i) (by simp [CBUS_LOG_MAC_LO.MAC]) (logWrites_pairwise ..) (by simp [logWrites]) h

theorem State.rd_mac_hi_logWrites {s : State} (h : s.Canon) (i lo hi count tick : Nat) :
    (s.wrs (logWrites i lo hi count tick)).rd (CBUS_LOG_MAC_HI.MAC i) = hi % 2 ^ 16 :=
  rd_wrs_mem (f := CBUS_LOG_MAC_HI.MAC i) (by simp [CBUS_LOG_MAC_HI.MAC]) (logWrites_pairwise ..) (by simp [logWrites]) h

theorem State.rd_count_logWrites {s : State} (h : s.Canon) (i lo hi count tick : Nat) :
    (s.wrs (logWrites i lo hi count tick)).rd (CBUS_LOG_MAC_HI.COUNT i) = count % 2 ^ 16 :=
  rd_wrs_mem (f := CBUS_LOG_MAC_HI.COUNT i) (by simp [CBUS_LOG_MAC_HI.COUNT]) (logWrites_pairwise ..) (by simp [logWrites]) h

theorem State.rd_tick_logWrites {s : State} (h : s.Canon) (i lo hi count tick : Nat) :
    (s.wrs (logWrites i lo hi count tick)).rd (CBUS_LOG_TICK.TICK i) = tick % 2 ^ 32 :=
  rd_wrs_mem (f := CBUS_LOG_TICK.TICK i) (by simp [CBUS_LOG_TICK.TICK]) (logWrites_pairwise ..) (by simp [logWrites]) h

theorem State.rd_count_logWrites_ne {s : State} (h : s.Canon) {i k : Nat} (hk : k ≠ i) (lo hi count tick : Nat) :
    (s.wrs (logWrites i lo hi count tick)).rd (CBUS_LOG_MAC_HI.COUNT k) = s.rd (CBUS_LOG_MAC_HI.COUNT k) :=
  rd_wrs_apart (f := CBUS_LOG_MAC_HI.COUNT k) (by simp [CBUS_LOG_MAC_HI.COUNT]) (count_apart_logWrites hk lo hi count tick) h

/-! ### A stranger -/

/-- The frame of a stranger, counted as dropped (R364). -/
def State.dropped (s : State) : State := s.bump CBUS_DROPS.STRANGER 1

theorem State.dropped_eq (s : State) : s.dropped = s.bump CBUS_DROPS.STRANGER 1 := rfl

theorem State.dropped_canon {s : State} (h : s.Canon) : s.dropped.Canon := bump_canon h _ _

theorem State.dropped_only {s : State} (h : s.Canon) : s.Only [CBUS_DROPS.STRANGER.off] s.dropped := bump_only h _ (by decide)

theorem State.dropped_rd {s : State} (h : s.Canon) {f : Fld} (hf : f.apart CBUS_DROPS.STRANGER) (hi : f.hi < 64) :
    s.dropped.rd f = s.rd f := rd_bump_apart h _ hf hi

@[simp] theorem State.dropped_ic (s : State) : s.dropped.ic = s.ic := bump_ic ..

theorem State.dropped_tickNo {s : State} (h : s.Canon) : s.dropped.tickNo = s.tickNo :=
  dropped_rd h (.inl (by decide)) (by decide)

theorem State.dropped_logFull {s : State} (h : s.Canon) : s.dropped.rd CBUS_DROPS.LOG_FULL = s.rd CBUS_DROPS.LOG_FULL :=
  dropped_rd h (.inr (by decide)) (by decide)

theorem State.dropped_count {s : State} (h : s.Canon) (i : Nat) :
    s.dropped.rd (CBUS_LOG_MAC_HI.COUNT i) = s.rd (CBUS_LOG_MAC_HI.COUNT i) :=
  dropped_rd h (by simp only [Fld.apart, CBUS_LOG_MAC_HI.COUNT, CBUS_DROPS.STRANGER]; omega) (by simp [CBUS_LOG_MAC_HI.COUNT])

theorem State.dropped_mac_lo {s : State} (h : s.Canon) (i : Nat) :
    s.dropped.rd (CBUS_LOG_MAC_LO.MAC i) = s.rd (CBUS_LOG_MAC_LO.MAC i) :=
  dropped_rd h (by simp only [Fld.apart, CBUS_LOG_MAC_LO.MAC, CBUS_DROPS.STRANGER]; omega) (by simp [CBUS_LOG_MAC_LO.MAC])

theorem State.dropped_mac_hi {s : State} (h : s.Canon) (i : Nat) :
    s.dropped.rd (CBUS_LOG_MAC_HI.MAC i) = s.rd (CBUS_LOG_MAC_HI.MAC i) :=
  dropped_rd h (by simp only [Fld.apart, CBUS_LOG_MAC_HI.MAC, CBUS_DROPS.STRANGER]; omega) (by simp [CBUS_LOG_MAC_HI.MAC])

/-- Counting the drop changes no word of the log. -/
theorem State.dropped_log_word {s : State} (h : s.Canon) {k a : Nat}
    (ha : a ∈ [(CBUS_LOG_MAC_LO.MAC k).off, (CBUS_LOG_MAC_HI.MAC k).off, (CBUS_LOG_TICK.TICK k).off]) :
    s.dropped.word a = s.word a := by
  refine dropped_only h a ?_
  simp only [CBUS_LOG_MAC_LO.MAC, CBUS_LOG_MAC_HI.MAC, CBUS_LOG_TICK.TICK, CBUS_DROPS.STRANGER, List.mem_cons,
    List.not_mem_nil, or_false] at ha ⊢
  omega

/-- The drop counted, the entry that holds the address counts once more. -/
def State.strangerHeld (s : State) (i : Nat) : State := s.dropped.bump (CBUS_LOG_MAC_HI.COUNT i) 1

/-- The drop counted, the address and the tick are recorded in entry `i`, and source 289 is raised. -/
def State.strangerNew (s : State) (mac i : Nat) : State :=
  (s.dropped.wrs (logWrites i (mac % 2 ^ 32) (mac / 2 ^ 32) 1 (s.tickNo % 2 ^ 32))).raise 289

/-- The drop counted, the stranger that finds the log full is counted. -/
def State.strangerFull (s : State) : State := s.dropped.bump CBUS_DROPS.LOG_FULL 1

/-- The three things a stranger can do, with the state of the log in which it does each. -/
theorem State.stranger_cases {s : State} (h : s.Canon) {mac : Nat} (hm : mac < 2 ^ 48) :
    (∃ i, i < 8 ∧ s.logHolds mac i ∧ s.stranger mac = s.strangerHeld i) ∨
    ((∀ i, i < 8 → ¬ s.logHolds mac i) ∧ ∃ i, i < 8 ∧ ¬ s.logUsed i ∧ s.stranger mac = s.strangerNew mac i) ∨
    ((∀ i, i < 8 → ¬ s.logHolds mac i) ∧ (∀ i, i < 8 → s.logUsed i) ∧ s.stranger mac = s.strangerFull) := by
  have hmod : mac % 2 ^ 48 = mac := Nat.mod_eq_of_lt hm
  unfold State.stranger
  simp only [hmod, ← dropped_eq, dropped_count h, dropped_mac_lo h, dropped_mac_hi h, dropped_tickNo h]
  split
  case h_1 i hi =>
    have hmac := List.find?_some hi
    have hmem := List.mem_of_find?_eq_some hi
    simp only [List.mem_filter, List.mem_range, bne_iff_ne, beq_iff_eq] at hmem hmac
    exact .inl ⟨i, hmem.1, ⟨hmem.2, hmac⟩, rfl⟩
  case h_2 hnone =>
    have hno : ∀ i, i < 8 → ¬ s.logHolds mac i := fun i hi ⟨hu, hmac⟩ =>
      List.find?_eq_none.1 hnone i (List.mem_filter.2 ⟨List.mem_range.2 hi, bne_iff_ne.2 hu⟩) (beq_iff_eq.2 hmac)
    refine .inr ?_
    split
    case h_1 i hi =>
      have hfree := List.find?_some hi
      have hlt := List.mem_range.1 (List.mem_of_find?_eq_some hi)
      simp only [Bool.not_eq_true', List.contains_eq_mem, List.mem_filter, List.mem_range, hlt, bne_iff_ne, true_and,
        decide_eq_false_iff_not] at hfree
      exact .inl ⟨hno, i, hlt, hfree, rfl⟩
    case h_2 hfull =>
      refine .inr ⟨hno, fun i hi => ?_, rfl⟩
      have hused := List.find?_eq_none.1 hfull i (List.mem_range.2 hi)
      simp only [Bool.not_eq_true', List.contains_eq_mem, List.mem_filter, List.mem_range, hi, bne_iff_ne, true_and,
        decide_eq_false_iff_not, Classical.not_not] at hused
      exact hused

/-- In service with the bus on, a frame of a source in no valid entry is a stranger's. -/
theorem exec_stranger {s : State} {mac : Nat} (hr : s.ready = true) (hon : s.cbusOn = true) (hl : s.listed mac = none) :
    exec (.stranger mac) s = .next (s.stranger mac) := by
  have he : exec (.stranger mac) s = execStranger mac s := rfl
  rw [he, execStranger, State.inService_ready hr, State.frameRx, hon, hl]
  rfl

/-! ### What each of the three does -/

theorem State.strangerHeld_count {s : State} (h : s.Canon) (i : Nat) :
    (s.strangerHeld i).rd (CBUS_LOG_MAC_HI.COUNT i) = min (s.rd (CBUS_LOG_MAC_HI.COUNT i) + 1) 65535 := by
  rw [← dropped_count h i]
  exact rd_bump (dropped_canon h) (CBUS_LOG_MAC_HI.COUNT i) 1 (by simp [CBUS_LOG_MAC_HI.COUNT])

theorem State.strangerHeld_logFull {s : State} (h : s.Canon) (i : Nat) :
    (s.strangerHeld i).rd CBUS_DROPS.LOG_FULL = s.rd CBUS_DROPS.LOG_FULL := by
  rw [← dropped_logFull h]
  refine rd_bump_apart (dropped_canon h) 1 ?_ (by decide)
  simp only [Fld.apart, CBUS_LOG_MAC_HI.COUNT, CBUS_DROPS.LOG_FULL]
  omega

theorem State.strangerHeld_only {s : State} (h : s.Canon) (i : Nat) :
    s.Only [CBUS_DROPS.STRANGER.off, (CBUS_LOG_MAC_HI.COUNT i).off] (s.strangerHeld i) :=
  (dropped_only h).trans (bump_only (dropped_canon h) 1 (by simp [CBUS_LOG_MAC_HI.COUNT])) (by simp) (by simp)

theorem State.strangerHeld_eq (s : State) (i : Nat) : s.strangerHeld i = { s with regs := (s.strangerHeld i).regs } := by
  apply State.eq_of <;> simp [strangerHeld, dropped]

theorem State.strangerNew_mac {s : State} (h : s.Canon) {mac : Nat} (hm : mac < 2 ^ 48) (i : Nat) :
    (s.strangerNew mac i).rd (CBUS_LOG_MAC_LO.MAC i) + 2 ^ 32 * (s.strangerNew mac i).rd (CBUS_LOG_MAC_HI.MAC i) = mac := by
  simp only [strangerNew, raise_rd, rd_mac_lo_logWrites (dropped_canon h), rd_mac_hi_logWrites (dropped_canon h)]
  omega

theorem State.strangerNew_count {s : State} (h : s.Canon) (mac i : Nat) :
    (s.strangerNew mac i).rd (CBUS_LOG_MAC_HI.COUNT i) = 1 :=
  rd_count_logWrites (dropped_canon h) ..

theorem State.strangerNew_tick {s : State} (h : s.Canon) (mac i : Nat) :
    (s.strangerNew mac i).rd (CBUS_LOG_TICK.TICK i) = s.tickNo % 2 ^ 32 :=
  (rd_tick_logWrites (dropped_canon h) ..).trans (Nat.mod_mod _ _)

theorem State.strangerNew_raised (s : State) (mac i : Nat) : (s.strangerNew mac i).ic.raised = s.ic.raised ++ [⟨289, 0⟩] := by
  simp [strangerNew, raise, raiseWith]

theorem State.strangerNew_word {s : State} (h : s.Canon) (mac : Nat) {i k : Nat} (hk : k ≠ i) {a : Nat}
    (ha : a ∈ [(CBUS_LOG_MAC_LO.MAC k).off, (CBUS_LOG_MAC_HI.MAC k).off, (CBUS_LOG_TICK.TICK k).off]) :
    (s.strangerNew mac i).word a = s.word a :=
  (word_logWrites (dropped_canon h) hk _ _ _ _ ha).trans (dropped_log_word h ha)

theorem State.strangerFull_logFull {s : State} (h : s.Canon) :
    s.strangerFull.rd CBUS_DROPS.LOG_FULL = min (s.rd CBUS_DROPS.LOG_FULL + 1) 15 := by
  rw [← dropped_logFull h]
  exact rd_bump (dropped_canon h) CBUS_DROPS.LOG_FULL 1 (by decide)

theorem State.strangerFull_ic (s : State) : s.strangerFull.ic = s.ic := by simp [strangerFull]

/-- LOG_FULL stands in the word of the drops. -/
theorem State.strangerFull_only {s : State} (h : s.Canon) : s.Only [CBUS_DROPS.STRANGER.off] s.strangerFull :=
  (dropped_only h).trans (bump_only (dropped_canon h) (f := CBUS_DROPS.LOG_FULL) 1 (by decide)) (by decide) (by decide)

/-! ### LOG_CLEAR -/

/-- The first `n` entries of the log emptied. -/
def State.clearLog (s : State) (n : Nat) : State := (List.range n).foldl (fun s i => s.wrs (logWrites i 0 0 0 0)) s

theorem State.clearLog_succ (s : State) (n : Nat) : s.clearLog (n + 1) = (s.clearLog n).wrs (logWrites n 0 0 0 0) := by
  simp [clearLog, List.range_succ]

theorem State.clearLog_canon {s : State} (h : s.Canon) (n : Nat) : (s.clearLog n).Canon := by
  induction n with
  | zero => exact h
  | succ n ih => rw [clearLog_succ]; exact wrs_canon ih

theorem State.clearLog_count {s : State} (h : s.Canon) {i n : Nat} (hi : i < n) :
    (s.clearLog n).rd (CBUS_LOG_MAC_HI.COUNT i) = 0 := by
  induction n with
  | zero => omega
  | succ n ih =>
    rw [clearLog_succ]
    by_cases e : i = n
    · rw [e]; exact rd_count_logWrites (clearLog_canon h n) ..
    · rw [rd_count_logWrites_ne (clearLog_canon h n) e]; exact ih (by omega)

theorem exec_logClear {s : State} (h : s.Open) : exec .logClear s = .next (s.clearLog 8) := by
  have he : exec .logClear s = execLogClear s := rfl
  rw [he, execLogClear, State.setup_open h]
  rfl

/-! ### The statement -/

/-- Settles O60: the state of the log decides which of the three cases of `stranger_cases` a stranger is, and LOG_CLEAR empties
every entry. -/
theorem strangersAreLogged : Obligations.StrangersAreLogged := by
  unfold Obligations.StrangersAreLogged
  refine ⟨?held, ?new, ?full, ?clear⟩
  case held =>
    intro s mac hinv hr hon hl hm ⟨k, hk, hheld⟩
    have h : s.Canon := hinv.1
    refine ⟨_, exec_stranger hr hon hl, ?_⟩
    obtain ⟨i, hi, hh, e⟩ | ⟨hno, -⟩ | ⟨hno, -⟩ := s.stranger_cases h hm
    · rw [e]
      exact ⟨i, hi, hh, s.strangerHeld_count h i, s.strangerHeld_logFull h i, s.strangerHeld_only h i, s.strangerHeld_eq i⟩
    · exact absurd hheld (hno k hk)
    · exact absurd hheld (hno k hk)
  case new =>
    intro s mac hinv hr hon hl hm hnone ⟨j, hj, hfree⟩
    have h : s.Canon := hinv.1
    refine ⟨_, exec_stranger hr hon hl, ?_⟩
    obtain ⟨i, hi, hh, -⟩ | ⟨-, i, hi, hu, e⟩ | ⟨-, hfull, -⟩ := s.stranger_cases h hm
    · exact absurd hh (hnone i hi)
    · rw [e]
      exact ⟨i, hi, hu, s.strangerNew_mac h hm i, s.strangerNew_count h mac i, s.strangerNew_tick h mac i,
        s.strangerNew_raised mac i, fun k _ hki a ha => s.strangerNew_word h mac hki ha⟩
    · exact absurd (hfull j hj) hfree
  case full =>
    intro s mac hinv hr hon hl hm hnone hused
    have h : s.Canon := hinv.1
    refine ⟨_, exec_stranger hr hon hl, ?_⟩
    obtain ⟨i, hi, hh, -⟩ | ⟨-, i, hi, hu, -⟩ | ⟨-, -, e⟩ := s.stranger_cases h hm
    · exact absurd hh (hnone i hi)
    · exact absurd (hused i hi) hu
    · rw [e]
      exact ⟨s.strangerFull_logFull h, s.strangerFull_ic, s.strangerFull_only h⟩
  case clear =>
    intro s hinv hopen
    exact ⟨_, exec_logClear hopen, fun i hi hu => hu (State.clearLog_count hinv.1 hi)⟩

end Sys2Proof.Machine
end

section
/-! Completions (R430), arrivals by IC_SRC_SET and cleared pending bits (R420): what a write to IC_TGT_COMPLETE, IC_SRC_SET or
IC_PENDk does to the sources and the targets. -/

namespace Sys2Proof.Machine

/-! ### The fields of sources and of targets -/

/-- A field of a source's configuration or state: its register stands behind those of every target. -/
structure Fld.OfSource (f : Fld) : Prop where
  behind : 0x042000 ≤ f.off
  narrow : f.hi < 64

theorem Fld.ofSource_of_base {o k n hi lo : Nat} (ho : 0x042000 ≤ o) (hw : hi < 64) : (Fld.mk (o + k * n) hi lo).OfSource :=
  ⟨Nat.le_add_right_of_le ho, hw⟩

theorem pending_ofSource (n : Nat) : (IC_SRC_STATE.PENDING n).OfSource := Fld.ofSource_of_base (by decide) (by decide)
theorem active_ofSource (n : Nat) : (IC_SRC_STATE.ACTIVE n).OfSource := Fld.ofSource_of_base (by decide) (by decide)
theorem activeTgt_ofSource (n : Nat) : (IC_SRC_STATE.ACTIVE_TGT n).OfSource := Fld.ofSource_of_base (by decide) (by decide)
theorem count_ofSource (n : Nat) : (IC_SRC_STATE.COUNT n).OfSource := Fld.ofSource_of_base (by decide) (by decide)
theorem enable_ofSource (n : Nat) : (IC_SRC_CFG.ENABLE n).OfSource := Fld.ofSource_of_base (by decide) (by decide)
theorem target_ofSource (n : Nat) : (IC_SRC_CFG.TARGET n).OfSource := Fld.ofSource_of_base (by decide) (by decide)

theorem Fld.OfSource.apart_armed {f : Fld} (hf : f.OfSource) {t : Nat} (ht : t < 16) : f.apart (IC_TGT_STATE.ARMED t) := by
  have := hf.behind
  simp only [Fld.apart, IC_TGT_STATE.ARMED]
  omega

theorem Fld.OfSource.apart_asserting {f : Fld} (hf : f.OfSource) (t : Nat) (ht : t < 16) :
    f.apart (IC_TGT_STATE.ASSERTING t) := by
  have := hf.behind
  simp only [Fld.apart, IC_TGT_STATE.ASSERTING]
  omega

theorem armed_apart_active (t n : Nat) : (IC_TGT_STATE.ARMED t).apart (IC_SRC_STATE.ACTIVE n) := by
  simp only [Fld.apart, IC_TGT_STATE.ARMED, IC_SRC_STATE.ACTIVE]
  omega

theorem armed_apart_asserting (t k : Nat) : (IC_TGT_STATE.ARMED t).apart (IC_TGT_STATE.ASSERTING k) := by
  simp only [Fld.apart, IC_TGT_STATE.ARMED, IC_TGT_STATE.ASSERTING]
  omega

theorem armed_apart_badComplete (t : Nat) : (IC_TGT_STATE.ARMED t).apart (IC_TGT_STATS.BAD_COMPLETE t) := by
  simp only [Fld.apart, IC_TGT_STATE.ARMED, IC_TGT_STATS.BAD_COMPLETE]
  omega

theorem badComplete_apart_armed (t : Nat) : (IC_TGT_STATS.BAD_COMPLETE t).apart (IC_TGT_STATE.ARMED t) :=
  (armed_apart_badComplete t).symm

theorem badComplete_apart_active (t n : Nat) : (IC_TGT_STATS.BAD_COMPLETE t).apart (IC_SRC_STATE.ACTIVE n) := by
  simp only [Fld.apart, IC_TGT_STATS.BAD_COMPLETE, IC_SRC_STATE.ACTIVE]
  omega

theorem badComplete_apart_asserting (t k : Nat) : (IC_TGT_STATS.BAD_COMPLETE t).apart (IC_TGT_STATE.ASSERTING k) := by
  simp only [Fld.apart, IC_TGT_STATS.BAD_COMPLETE, IC_TGT_STATE.ASSERTING]
  omega

theorem pending_apart_pending {m n : Nat} (h : m ≠ n) : (IC_SRC_STATE.PENDING m).apart (IC_SRC_STATE.PENDING n) := by
  simp only [Fld.apart, IC_SRC_STATE.PENDING]
  omega

theorem active_apart_pending (m n : Nat) : (IC_SRC_STATE.ACTIVE m).apart (IC_SRC_STATE.PENDING n) := by
  simp only [Fld.apart, IC_SRC_STATE.ACTIVE, IC_SRC_STATE.PENDING]
  omega

theorem count_apart_pending (m n : Nat) : (IC_SRC_STATE.COUNT m).apart (IC_SRC_STATE.PENDING n) := by
  simp only [Fld.apart, IC_SRC_STATE.COUNT, IC_SRC_STATE.PENDING]
  omega

theorem count_apart_active (m n : Nat) : (IC_SRC_STATE.COUNT m).apart (IC_SRC_STATE.ACTIVE n) := by
  simp only [Fld.apart, IC_SRC_STATE.COUNT, IC_SRC_STATE.ACTIVE]
  omega

theorem enable_apart_active (m n : Nat) : (IC_SRC_CFG.ENABLE m).apart (IC_SRC_STATE.ACTIVE n) := by
  simp only [Fld.apart, IC_SRC_CFG.ENABLE, IC_SRC_STATE.ACTIVE]
  omega

theorem target_apart_active {m : Nat} (hm : m < 384) (n : Nat) : (IC_SRC_CFG.TARGET m).apart (IC_SRC_STATE.ACTIVE n) := by
  simp only [Fld.apart, IC_SRC_CFG.TARGET, IC_SRC_STATE.ACTIVE]
  omega

/-! ### Arming, the pins and the deliverable set -/

theorem State.arm_canon {s : State} (h : s.Canon) (t : Nat) : (s.arm t).Canon := wr_canon h _ _

theorem State.arm_armed {s : State} (h : s.Canon) (t : Nat) : (s.arm t).rd (IC_TGT_STATE.ARMED t) = 1 :=
  rd_wr h (IC_TGT_STATE.ARMED t) 1 (by simp [IC_TGT_STATE.ARMED])

theorem State.arm_rd {s : State} (h : s.Canon) {t : Nat} {f : Fld} (hf : f.apart (IC_TGT_STATE.ARMED t)) (hi : f.hi < 64) :
    (s.arm t).rd f = s.rd f := rd_wr_apart h 1 hf hi

theorem State.arm_source {s : State} (h : s.Canon) {t : Nat} (ht : t < 16) {f : Fld} (hf : f.OfSource) :
    (s.arm t).rd f = s.rd f := arm_rd h (hf.apart_armed ht) hf.narrow

theorem State.arm_only {s : State} (h : s.Canon) (t : Nat) : s.Only [(IC_TGT_STATE.ARMED t).off] (s.arm t) := fun _ ha =>
  word_wr h _ _ (fun e => ha (List.mem_singleton.2 e)) fun hw => absurd hw (by simp [IC_TGT_STATE.ARMED])

/-- The pins change no field of a source. -/
theorem State.settlePins_source {s : State} (h : s.Canon) {f : Fld} (hf : f.OfSource) : s.settlePins.rd f = s.rd f :=
  (settlePins_rd h hf.apart_asserting hf.narrow).2

/-- The deliverable set of a target (R423). -/
theorem State.mem_deliverables {s : State} {t n : Nat} : n ∈ s.deliverables t ↔
    n < 384 ∧ s.rd (IC_SRC_STATE.PENDING n) = 1 ∧ s.rd (IC_SRC_STATE.ACTIVE n) ≠ 1 ∧ s.rd (IC_SRC_CFG.ENABLE n) = 1 ∧
      s.rd (IC_SRC_CFG.TARGET n) = t ∧ s.groupOf n < s.running t := by
  simp [deliverables, deliverable, pendBit, actBit, flag, and_assoc]

/-! ### A completion -/

/-- Target `t` armed, the service of source `n` over, and the pins following. -/
def State.ended (s : State) (t n : Nat) : State := ((s.arm t).wr (IC_SRC_STATE.ACTIVE n) 0).settlePins

/-- Target `t` armed, and an ignored completion counted. -/
def State.ignored (s : State) (t : Nat) : State := (s.arm t).bump (IC_TGT_STATS.BAD_COMPLETE t) 1

/-- A completion is valid where the source is active on the target. -/
theorem State.complete_valid {s : State} (h : s.Canon) {t n : Nat} (ht : t < 16) (hn : n < 384)
    (ha : s.rd (IC_SRC_STATE.ACTIVE n) = 1) (hg : s.rd (IC_SRC_STATE.ACTIVE_TGT n) = t) : s.complete t n = s.ended t n := by
  have hact : (s.arm t).actBit n = true := beq_iff_eq.2 ((arm_source h ht (active_ofSource n)).trans ha)
  have htgt := (arm_source h ht (activeTgt_ofSource n)).trans hg
  exact if_pos ⟨hn, hact, htgt⟩

/-- Every other completion is ignored. -/
theorem State.complete_invalid {s : State} (h : s.Canon) {t n : Nat} (ht : t < 16)
    (hno : 384 ≤ n ∨ s.rd (IC_SRC_STATE.ACTIVE n) = 0 ∨ s.rd (IC_SRC_STATE.ACTIVE_TGT n) ≠ t) :
    s.complete t n = s.ignored t := by
  refine if_neg fun ⟨hn, hact, htgt⟩ => ?_
  have ha : s.rd (IC_SRC_STATE.ACTIVE n) = 1 := (arm_source h ht (active_ofSource n)).symm.trans (beq_iff_eq.1 hact)
  have hg : s.rd (IC_SRC_STATE.ACTIVE_TGT n) = t := (arm_source h ht (activeTgt_ofSource n)).symm.trans htgt
  obtain h384 | h0 | hne := hno
  · omega
  · omega
  · exact hne hg

/-- A field that shares no bit with ARMED, the source's active bit and the pins reads as before the completion. -/
theorem State.ended_rd {s : State} (h : s.Canon) {t n : Nat} {f : Fld} (hr : f.apart (IC_TGT_STATE.ARMED t))
    (ha : f.apart (IC_SRC_STATE.ACTIVE n)) (hp : ∀ k, k < 16 → f.apart (IC_TGT_STATE.ASSERTING k)) (hi : f.hi < 64) :
    (s.ended t n).rd f = s.rd f := by
  have hc := arm_canon h t
  calc (s.ended t n).rd f = ((s.arm t).wr (IC_SRC_STATE.ACTIVE n) 0).rd f := (settlePins_rd (wr_canon hc _ _) hp hi).2
    _ = (s.arm t).rd f := rd_wr_apart hc 0 ha hi
    _ = s.rd f := arm_rd h hr hi

theorem State.ended_source {s : State} (h : s.Canon) {t n : Nat} (ht : t < 16) {f : Fld} (hf : f.OfSource)
    (ha : f.apart (IC_SRC_STATE.ACTIVE n)) : (s.ended t n).rd f = s.rd f :=
  ended_rd h (hf.apart_armed ht) ha hf.apart_asserting hf.narrow

theorem State.ended_active {s : State} (h : s.Canon) (t n : Nat) : (s.ended t n).rd (IC_SRC_STATE.ACTIVE n) = 0 := by
  have hc := arm_canon h t
  rw [ended, settlePins_source (wr_canon hc _ _) (active_ofSource n), rd_wr hc _ _ (active_ofSource n).narrow, Nat.zero_mod]

theorem State.ended_armed {s : State} (h : s.Canon) (t n : Nat) : (s.ended t n).rd (IC_TGT_STATE.ARMED t) = 1 := by
  have hc := arm_canon h t
  have hi : (IC_TGT_STATE.ARMED t).hi < 64 := by simp [IC_TGT_STATE.ARMED]
  rw [ended, (settlePins_rd (wr_canon hc _ _) (fun k _ => armed_apart_asserting t k) hi).2,
    rd_wr_apart hc 0 (armed_apart_active t n) hi, arm_armed h]

theorem State.ended_badComplete {s : State} (h : s.Canon) (t n : Nat) :
    (s.ended t n).rd (IC_TGT_STATS.BAD_COMPLETE t) = s.rd (IC_TGT_STATS.BAD_COMPLETE t) :=
  ended_rd h (badComplete_apart_armed t) (badComplete_apart_active t n) (fun k _ => badComplete_apart_asserting t k)
    (by simp [IC_TGT_STATS.BAD_COMPLETE])

/-- A source that is pending and enabled when its service ends is deliverable again, where its group priority allows. -/
theorem State.ended_deliverable {s : State} (h : s.Canon) {t n : Nat} (ht : t < 16) (hn : n < 384)
    (hp : s.rd (IC_SRC_STATE.PENDING n) = 1) (he : s.rd (IC_SRC_CFG.ENABLE n) = 1)
    (hg : (s.ended t n).groupOf n < (s.ended t n).running (s.rd (IC_SRC_CFG.TARGET n))) :
    n ∈ (s.ended t n).deliverables (s.rd (IC_SRC_CFG.TARGET n)) :=
  mem_deliverables.2 ⟨hn, (ended_source h ht (pending_ofSource n) (active_apart_pending n n).symm).trans hp,
    by rw [ended_active h]; decide,
    (ended_source h ht (enable_ofSource n) (enable_apart_active n n)).trans he,
    ended_source h ht (target_ofSource n) (target_apart_active hn n), hg⟩

theorem State.ignored_badComplete {s : State} (h : s.Canon) (t : Nat) :
    (s.ignored t).rd (IC_TGT_STATS.BAD_COMPLETE t) = min (s.rd (IC_TGT_STATS.BAD_COMPLETE t) + 1) 65535 := by
  have hi : (IC_TGT_STATS.BAD_COMPLETE t).hi < 64 := by simp [IC_TGT_STATS.BAD_COMPLETE]
  rw [← arm_rd h (badComplete_apart_armed t) hi]
  exact rd_bump (arm_canon h t) (IC_TGT_STATS.BAD_COMPLETE t) 1 hi

theorem State.ignored_armed {s : State} (h : s.Canon) (t : Nat) : (s.ignored t).rd (IC_TGT_STATE.ARMED t) = 1 :=
  (rd_bump_apart (arm_canon h t) 1 (armed_apart_badComplete t) (by simp [IC_TGT_STATE.ARMED])).trans (arm_armed h t)

theorem State.ignored_only {s : State} (h : s.Canon) (t : Nat) :
    s.Only [(IC_TGT_STATE.ARMED t).off, (IC_TGT_STATS.BAD_COMPLETE t).off] (s.ignored t) :=
  (arm_only h t).trans (bump_only (arm_canon h t) 1 (by simp [IC_TGT_STATS.BAD_COMPLETE])) (by simp) (by simp)

theorem State.ignored_eq (s : State) (t : Nat) : s.ignored t = { s with regs := (s.ignored t).regs } := by
  apply State.eq_of <;> simp [ignored, arm]

/-! ### Cleared pending bits -/

/-- The writes that clear the pending bits of the ones of `w` in IC_PENDk. -/
def pendClears (k w : Nat) : List (Fld × Nat) :=
  ((List.range 32).filter (bitOf w)).map fun i => (IC_SRC_STATE.PENDING (32 * k + i), 0)

theorem State.clearPend_eq_wrs (s : State) (k w : Nat) : s.clearPend k w = s.wrs (pendClears k w) := by
  rw [clearPend, wrs, pendClears, List.foldl_map, List.foldl_filter]

theorem mem_pendClears {k w : Nat} {p : Fld × Nat} : p ∈ pendClears k w ↔
    ∃ i, i < 32 ∧ bitOf w i = true ∧ p = (IC_SRC_STATE.PENDING (32 * k + i), 0) := by
  simp only [pendClears, List.mem_map, List.mem_filter, List.mem_range, and_assoc, eq_comm (a := p)]

theorem pendClears_pairwise (k w : Nat) : (pendClears k w).Pairwise fun p q => p.1.apart q.1 :=
  List.pairwise_map.2 <| (List.nodup_range.filter _).imp fun hij => pending_apart_pending (by omega)

/-- A one clears the pending bit of its source. -/
theorem State.clearPend_one {s : State} (h : s.Canon) {w n : Nat} (hw : bitOf w (n % 32) = true) :
    (s.clearPend (n / 32) w).rd (IC_SRC_STATE.PENDING n) = 0 := by
  have hmem : (IC_SRC_STATE.PENDING n, 0) ∈ pendClears (n / 32) w :=
    mem_pendClears.2 ⟨n % 32, Nat.mod_lt _ (by decide), hw, by rw [Nat.div_add_mod]⟩
  rw [clearPend_eq_wrs, rd_wrs_mem (pending_ofSource n).narrow (pendClears_pairwise _ w) hmem h, Nat.zero_mod]

/-- A field apart from the pending bits of the ones stands. -/
theorem State.clearPend_rd {s : State} (h : s.Canon) {k w : Nat} {f : Fld} (hi : f.hi < 64)
    (hf : ∀ i, i < 32 → bitOf w i = true → f.apart (IC_SRC_STATE.PENDING (32 * k + i))) :
    (s.clearPend k w).rd f = s.rd f := by
  rw [clearPend_eq_wrs]
  refine rd_wrs_apart hi (fun p hp => ?_) h
  obtain ⟨i, hi, hw, rfl⟩ := mem_pendClears.1 hp
  exact hf i hi hw

/-- The pending bits after a write of ones to IC_PENDk. -/
theorem State.clearPend_pending {s : State} (h : s.Canon) (k w n : Nat) :
    (s.clearPend k w).rd (IC_SRC_STATE.PENDING n) =
      if n / 32 = k ∧ bitOf w (n % 32) = true then 0 else s.rd (IC_SRC_STATE.PENDING n) := by
  split
  next hc =>
    obtain ⟨rfl, hw⟩ := hc
    exact clearPend_one h hw
  next hc =>
    refine clearPend_rd h (pending_ofSource n).narrow fun i hi hw => pending_apart_pending fun e => hc ?_
    rw [show n / 32 = k by omega, show n % 32 = i by omega]
    exact ⟨rfl, hw⟩

theorem State.clearPend_canon {s : State} (h : s.Canon) (k w : Nat) : (s.clearPend k w).Canon := by
  rw [clearPend_eq_wrs]
  exact wrs_canon h

/-! ### The commands, served and dropped -/

theorem exec_icTgtComplete {s : State} (h : s.Open) {t : Nat} (ht : t < 16) (w : Nat) :
    exec (.icTgtComplete t w) s = .next (s.complete t (w % 512)) := by
  have he : exec (.icTgtComplete t w) s = execIcTgtComplete t w s := rfl
  rw [he, execIcTgtComplete, State.setup_open h, if_pos ht]

theorem exec_icSrcSet {s : State} (h : s.Open) (w : Nat) :
    exec (.icSrcSet w) s = .next (if w % 512 < 384 then s.arrive (w % 512) else s) := by
  have he : exec (.icSrcSet w) s = execIcSrcSet w s := rfl
  rw [he, execIcSrcSet, State.setup_open h]

theorem exec_icPendClear {s : State} (h : s.Open) {k : Nat} (hk : k < 12) (w : Nat) :
    exec (.icPendClear k w) s = .next (s.clearPend k w).settlePins := by
  have he : exec (.icPendClear k w) s = execIcPendClear k w s := rfl
  rw [he, execIcPendClear, State.setup_open h, if_pos hk]

theorem exec_icSrcSet_busy {s : State} (hr : s.ready = true) (hb : s.flag DEV_STATUS.BUSY = true) (w : Nat) :
    exec (.icSrcSet w) s = .next (s.bump DEV_SETUP_DROPPED.COUNT 1) := by
  have he : exec (.icSrcSet w) s = execIcSrcSet w s := rfl
  rw [he, execIcSrcSet, State.setup_busy hr hb]

theorem exec_icPendClear_busy {s : State} (hr : s.ready = true) (hb : s.flag DEV_STATUS.BUSY = true) (k w : Nat) :
    exec (.icPendClear k w) s = .next (s.bump DEV_SETUP_DROPPED.COUNT 1) := by
  have he : exec (.icPendClear k w) s = execIcPendClear k w s := rfl
  rw [he, execIcPendClear, State.setup_busy hr hb]

/-! ### The statements -/

/-- Settles O14: a completion is `ended` where the source is active on the target, and `ignored` in every other case. -/
theorem completionEndsService : Obligations.CompletionEndsService := by
  unfold Obligations.CompletionEndsService
  refine ⟨?valid, ?invalid⟩
  case valid =>
    rintro s t w n hinv hopen ht rfl hn ha hg
    have h : s.Canon := hinv.1
    refine ⟨_, exec_icTgtComplete hopen ht w, ?_⟩
    rw [State.complete_valid h ht hn ha hg]
    exact ⟨State.ended_active h t _, State.ended_source h ht (pending_ofSource _) (active_apart_pending _ _).symm,
      State.ended_source h ht (count_ofSource _) (count_apart_active _ _), State.ended_armed h t _,
      State.ended_badComplete h t _, State.ended_deliverable h ht hn⟩
  case invalid =>
    rintro s t w n hinv hopen ht rfl hno
    have h : s.Canon := hinv.1
    refine ⟨_, exec_icTgtComplete hopen ht w, ?_⟩
    rw [State.complete_invalid h ht hno]
    exact ⟨State.ignored_badComplete h t, State.ignored_armed h t, State.ignored_only h t, s.ignored_eq t⟩

/-- Settles O15: IC_SRC_SET is an arrival of a number below 384, a write to IC_PENDk is the writes `pendClears` with the pins
following, and a long operation drops both. -/
theorem pendingBitsClearByOnes : Obligations.PendingBitsClearByOnes := by
  unfold Obligations.PendingBitsClearByOnes
  refine ⟨?arrival, ?beyond, ?clear, ?busy⟩
  case arrival =>
    intro s n hopen hn
    rw [exec_icSrcSet hopen, Nat.mod_eq_of_lt (by omega), if_pos hn]
  case beyond =>
    intro s n hopen hlo hhi
    rw [exec_icSrcSet hopen, Nat.mod_eq_of_lt hhi, if_neg (by omega)]
  case clear =>
    intro s k w hinv hopen hk
    have h : s.Canon := hinv.1
    have hc := State.clearPend_canon h k w
    refine ⟨_, exec_icPendClear hopen hk w, fun n _ => ⟨?_, ?_, ?_⟩⟩
    · rw [State.settlePins_source hc (pending_ofSource n), State.clearPend_pending h]
    · rw [State.settlePins_source hc (count_ofSource n),
        State.clearPend_rd h (count_ofSource n).narrow fun i _ _ => count_apart_pending n _]
    · rw [State.settlePins_source hc (active_ofSource n),
        State.clearPend_rd h (active_ofSource n).narrow fun i _ _ => active_apart_pending n _]
  case busy =>
    intro s k w hr hb
    exact ⟨exec_icSrcSet_busy hr hb w, exec_icPendClear_busy hr hb k w⟩

end Sys2Proof.Machine
end

section
/-! The step (R24), and what every command keeps: the queue, the course of device time, the invariant, and the parts outside its
footprint. PORST_L puts `held0` in place of the state; every other command has `exec_keeps`. -/

namespace Sys2Proof.Machine

/-- The parts that PORST_L may change: all but the boot flash. -/
def porstFootprint : List Part :=
  [.hif, .ic, .sig, .tick, .surf, .comp, .obj, .eng, .light, .bbn, .stk, .thm, .pwr, .mem, .fuses]

/-- A command keeps what its footprint leaves, or it is one of PORST_L's and starts from the held state. -/
theorem exec_cases {c : Instr} {s t : State} (h : exec c s = .next t) :
    Keeps (footprint c) s t ∨ footprint c = porstFootprint ∧ Keeps [.eng, .pwr] s.held0 t := by
  by_cases hfall : c = .porstLFall
  · subst hfall
    cases h
    exact .inr ⟨rfl, Keeps.refl _⟩
  by_cases hrise : ∃ g, c = .porstLRise g
  · obtain ⟨g, rfl⟩ := hrise
    change Host.Outcome.next (if s.pwr.porst then s else s.porstRise g) = .next t at h
    cases h
    split
    · exact .inl (Keeps.refl _)
    · exact .inr ⟨rfl, State.porstRise_keeps fun _ hp => hp⟩
  have hk := (exec_keeps hfall (fun g e => hrise ⟨g, e⟩) (s := s)).holds
  rw [h] at hk
  exact .inl hk

/-- A state that keeps what a state with the invariant holds has the invariant. -/
theorem Keeps.inv {F : List Part} {s t : State} (h : Keeps F s t) (hs : s.Inv) : t.Inv := by
  obtain ⟨hregs, hmem, hflash⟩ := hs
  exact ⟨h.regs hregs, h.mem hmem, h.flash hflash⟩

/-- The held state has empty registers and an empty stack, and the boot flash outlasts PORST_L. -/
theorem State.held0_inv {s : State} (hs : s.Inv) : s.held0.Inv := by
  obtain ⟨-, -, hflash⟩ := hs
  exact ⟨Tbl.wf_nil, Tbl.wf_nil, hflash⟩

theorem exec_inv {c : Instr} {s t : State} (hs : s.Inv) (h : exec c s = .next t) : t.Inv := by
  obtain hk | ⟨-, hk⟩ := exec_cases h
  · exact hk.inv hs
  · exact hk.inv (State.held0_inv hs)

/-- Settles O1: `step` is by definition the meaning of the command at the front of the queue. -/
theorem stepRunsTheFrontCommand : Obligations.StepRunsTheFrontCommand := by
  unfold Obligations.StepRunsTheFrontCommand
  intro s c rest h
  rw [step, h]

/-- Settles O2: on an empty queue the step is `idle`. -/
theorem idleStepPassesTime : Obligations.IdleStepPassesTime := by
  unfold Obligations.IdleStepPassesTime
  intro s h
  have hstep : step s = .next s.idle := by rw [step, h]
  rw [hstep, State.idle]
  exact ⟨fun hp => by rw [if_pos hp], fun hp => by rw [hp]; rfl⟩

/-- Settles O3: the tables of the reset state are empty, and an empty table is canonical and reads its defaults. -/
theorem resetMeetsInvariant : Obligations.ResetMeetsInvariant := by
  unfold Obligations.ResetMeetsInvariant
  exact ⟨⟨Tbl.wf_nil, Tbl.wf_nil, Tbl.wf_nil⟩, rfl, rfl, fun _ => rfl⟩

/-- Settles O4: the idle step moves device time only, and `exec_inv` is every other step. -/
theorem everyStepKeepsInvariant : Obligations.EveryStepKeepsInvariant := by
  unfold Obligations.EveryStepKeepsInvariant
  intro s t hs h
  unfold step at h
  split at h
  case h_1 =>
    cases h
    exact (State.idle_keeps (F := []) (Keeps.refl s)).inv hs
  case h_2 c rest _ =>
    have hrest : State.Inv { s with pending := rest } := hs
    exact exec_inv hrest h

/-- Settles O5. -/
theorem noCommandTouchesTheQueue : Obligations.NoCommandTouchesTheQueue := by
  unfold Obligations.NoCommandTouchesTheQueue
  intro c s t h
  obtain hk | ⟨-, hk⟩ := exec_cases h
  · exact hk.pending
  · exact hk.pending.trans State.held0_pending

/-- Settles O6. -/
theorem timeNeverStepsBack : Obligations.TimeNeverStepsBack := by
  unfold Obligations.TimeNeverStepsBack
  intro c s t h hfall hrise
  have hk := (exec_keeps hfall hrise (s := s)).holds
  rw [h] at hk
  exact hk.time

/-- Settles O10: the one part outside `porstFootprint` is the boot flash, which the held state keeps. -/
theorem commandsKeepToTheirFootprint : Obligations.CommandsKeepToTheirFootprint := by
  unfold Obligations.CommandsKeepToTheirFootprint
  intro c s t h p hp
  obtain hk | ⟨hF, hk⟩ := exec_cases h
  · exact (hk.parts p).resolve_left hp
  · have hflash : p = .flash := by
      rw [hF] at hp
      revert hp
      cases p <;> simp [porstFootprint]
    subst hflash
    exact (hk.parts .flash).resolve_left (by decide)

/-- Every command's meaning is a next state, whatever it finds. -/
theorem exec_next (c : Instr) (s : State) : ∃ t, exec c s = .next t := by
  cases c <;> exact ⟨_, rfl⟩

/-- Settles O7. -/
theorem everyCommandAnswers : Obligations.EveryCommandAnswers := by
  unfold Obligations.EveryCommandAnswers
  intro c s
  obtain ⟨t, ht⟩ := exec_next c s
  exact ⟨t, ht, trivial⟩

/-- A set-up write with a row of its own passes the gate of R98. -/
theorem exec_setupRow {c : Instr} (h : setupRow c = true) (s : State) : ∃ f, exec c s = .next (s.setup f) := by
  cases c with
  | tickEnable _ | tickDisable _ | tickApply _ | crEnable _ _ | crDisable _ _ | crRestart _ | evrEnable _ _ | icMsgDoorbell _
  | icSrcSet _ | icPendClear _ _ | icTgtComplete _ _ | release _ _ | targetWake _ _ | sknPortEnable _ _ | retrain _ | accept _
  | lsafeRelease | cbusEnable _ | logClear | allowValid _ _ | bbnPortConfig _ _ | streamEnable _ _ | mapApply | toTest _
  | toField _ | toReturn _ _ | programRepair | bistStart _ | ceilingWrite _ => exact ⟨_, rfl⟩
  | _ => cases h

/-- Settles O9. -/
theorem busyDropsSetupWrites : Obligations.BusyDropsSetupWrites := by
  unfold Obligations.BusyDropsSetupWrites
  intro c s hr hb hc
  obtain ⟨f, hf⟩ := exec_setupRow hc s
  rw [hf, State.setup_busy hr hb]

end Sys2Proof.Machine
end

section
/-! The interrupt controller (R418 to R435): arrivals, claims, RELEASE, the configuration of a target, and risen conditions. -/

namespace Sys2Proof.Machine

/-! ### What register writes leave -/

theorem State.Only.refl (s : State) (l : List Nat) : s.Only l s := fun _ _ => rfl

theorem State.Only.of_regs {s t u : State} {l : List Nat} (h : s.Only l t) (e : u.regs = t.regs) : s.Only l u := fun a ha =>
  (State.word_congr e a).trans (h a ha)

/-- A field within one word changes no other word. -/
theorem State.wr_only {s : State} (h : s.Canon) {f : Fld} (v : Nat) (hf : f.hi < 32) : s.Only [f.off] (s.wr f v) := fun _ ha =>
  word_wr h _ _ (fun e => ha (List.mem_singleton.2 e)) (by omega)

/-- Fields within one word change no other words than theirs. -/
theorem State.wrs_only {s : State} (h : s.Canon) {l : List (Fld × Nat)} {offs : List Nat}
    (hl : ∀ p ∈ l, p.1.off ∈ offs ∧ p.1.hi < 32) : s.Only offs (s.wrs l) := fun a ha =>
  word_wrs (fun p hp => ⟨fun e => ha (by rw [e]; exact (hl p hp).1), fun hw => absurd (hl p hp).2 (by omega)⟩) h

/-- A write changes the registers alone. -/
theorem State.wr_eq (s : State) (f : Fld) (v : Nat) : s.wr f v = { s with regs := (s.wr f v).regs } := by
  apply State.eq_of <;> simp

theorem State.wrs_eq (s : State) (l : List (Fld × Nat)) : s.wrs l = { s with regs := (s.wrs l).regs } := by
  apply State.eq_of <;> simp

theorem State.bump_eq (s : State) (f : Fld) (n : Nat) : s.bump f n = { s with regs := (s.bump f n).regs } := s.wr_eq f _

/-! ### Arrivals -/

theorem State.arrive_rd (s : State) (n : Nat) (f : Fld) :
    (s.arrive n).rd f = ((s.bump (IC_SRC_STATE.COUNT n) 1).wr (IC_SRC_STATE.PENDING n) 1).rd f := State.rd_congr (s.arrive_regs n) f

theorem State.arrive_pending {s : State} (h : s.Canon) (n : Nat) : (s.arrive n).rd (IC_SRC_STATE.PENDING n) = 1 := by
  rw [arrive_rd]
  exact rd_wr (bump_canon h _ _) (IC_SRC_STATE.PENDING n) 1 (pending_ofSource n).narrow

theorem State.arrive_count {s : State} (h : s.Canon) (n : Nat) :
    (s.arrive n).rd (IC_SRC_STATE.COUNT n) = min (s.rd (IC_SRC_STATE.COUNT n) + 1) 255 := by
  rw [arrive_rd, rd_wr_apart (bump_canon h _ _) 1 (count_apart_pending n n) (count_ofSource n).narrow]
  exact rd_bump h (IC_SRC_STATE.COUNT n) 1 (count_ofSource n).narrow

/-- A field apart from the counter and the pending bit of the source reads as before its arrival. -/
theorem State.arrive_rd_apart {s : State} (h : s.Canon) {n : Nat} {f : Fld} (hc : f.apart (IC_SRC_STATE.COUNT n))
    (hp : f.apart (IC_SRC_STATE.PENDING n)) (hi : f.hi < 64) : (s.arrive n).rd f = s.rd f := by
  rw [arrive_rd, rd_wr_apart (bump_canon h _ _) 1 hp hi, rd_bump_apart h 1 hc hi]

theorem State.arrive_active {s : State} (h : s.Canon) (n : Nat) :
    (s.arrive n).rd (IC_SRC_STATE.ACTIVE n) = s.rd (IC_SRC_STATE.ACTIVE n) :=
  arrive_rd_apart h (count_apart_active n n).symm (active_apart_pending n n) (active_ofSource n).narrow

theorem State.arrive_only {s : State} (h : s.Canon) (n : Nat) : s.Only [(IC_SRC_STATE.PENDING n).off] (s.arrive n) :=
  (((bump_only h (f := IC_SRC_STATE.COUNT n) 1 (of_decide_eq_true rfl)).trans
    (wr_only (bump_canon h _ _) (f := IC_SRC_STATE.PENDING n) 1 (of_decide_eq_true rfl)) (fun _ h => h) (fun _ h => h))).of_regs
    (s.arrive_regs n)

/-- A counter of the message doorbell, which stands before every source. -/
theorem msgStats_apart_source {f : Fld} (hf : f.off = IC_STATS.MSG_COUNT.off) (hi : f.hi < 64) {g : Fld} (hg : g.OfSource) :
    f.apart g := by
  have hb := hg.behind
  simp only [IC_STATS.MSG_COUNT] at hf
  simp only [Fld.apart]
  omega

theorem msgCount_apart_source {g : Fld} (hg : g.OfSource) : IC_STATS.MSG_COUNT.apart g := msgStats_apart_source rfl (by decide) hg

theorem msgBad_apart_source {g : Fld} (hg : g.OfSource) : IC_STATS.MSG_BAD.apart g :=
  msgStats_apart_source (f := IC_STATS.MSG_BAD) rfl (by decide) hg

/-- A doorbell of a message source, counted, before its source arrives. -/
theorem State.msgCounted_source {s : State} (h : s.Canon) {f : Fld} (hf : f.OfSource) :
    (s.bump IC_STATS.MSG_COUNT 1).rd f = s.rd f := rd_bump_apart h 1 (msgCount_apart_source hf).symm hf.narrow

theorem exec_icMsgDoorbell {s : State} (h : s.Open) (w : Nat) : exec (.icMsgDoorbell w) s = .next (s.msgDoorbell (w % 512)) := by
  change execIcMsgDoorbell w s = _
  rw [execIcMsgDoorbell, State.setup_open h]

/-- Settles O11: IC_SRC_SET is an arrival, and a doorbell one behind the counter MSG_COUNT. -/
theorem arrivalPendsTheSource : Obligations.ArrivalPendsTheSource := by
  unfold Obligations.ArrivalPendsTheSource
  refine ⟨?arrival, ?beyond, ?message, ?bad⟩
  case arrival =>
    rintro s w n hinv hopen rfl hn
    have h : s.Canon := hinv.1
    refine ⟨_, exec_icSrcSet hopen w, ?_⟩
    rw [if_pos hn]
    exact ⟨State.arrive_pending h _, State.arrive_count h _, State.arrive_active h _, State.arrive_only h _, s.arrive_parts _⟩
  case beyond =>
    intro s w hopen hw
    rw [exec_icSrcSet hopen, if_neg (by omega)]
  case message =>
    rintro s w n hinv hopen rfl hlo hhi
    have h : s.Canon := hinv.1
    have hb : (s.bump IC_STATS.MSG_COUNT 1).Canon := State.bump_canon h _ _
    refine ⟨_, exec_icMsgDoorbell hopen w, ?_⟩
    rw [State.msgDoorbell, if_pos ⟨hlo, hhi⟩]
    refine ⟨State.arrive_pending hb _, ?_, ?_, ?_, ?_, ?_, ?_⟩
    · rw [State.arrive_count hb, State.msgCounted_source h (count_ofSource _)]
    · rw [State.arrive_active hb, State.msgCounted_source h (active_ofSource _)]
    · rw [State.arrive_rd_apart hb (msgCount_apart_source (count_ofSource _)) (msgCount_apart_source (pending_ofSource _))
        (by decide)]
      exact State.rd_bump h IC_STATS.MSG_COUNT 1 (by decide)
    · rw [State.arrive_rd_apart hb (msgBad_apart_source (count_ofSource _)) (msgBad_apart_source (pending_ofSource _)) (by decide)]
      exact State.rd_bump_apart h 1 (.inl (by decide)) (by decide)
    · exact (State.bump_only h 1 (by decide)).trans (State.arrive_only hb _) (by simp) (by simp)
    · rw [State.arrive_parts]
      apply State.eq_of <;> simp
  case bad =>
    intro s w hinv hopen hw
    have h : s.Canon := hinv.1
    refine ⟨_, exec_icMsgDoorbell hopen w, ?_⟩
    rw [State.msgDoorbell, if_neg (by omega)]
    exact ⟨State.rd_bump h IC_STATS.MSG_BAD 1 (by decide), State.rd_bump_apart h 1 (.inr (by decide)) (by decide),
      State.bump_only h 1 (by decide), s.bump_eq _ _⟩

/-! ### Claims -/

theorem activeTgt_apart_active (m n : Nat) : (IC_SRC_STATE.ACTIVE_TGT m).apart (IC_SRC_STATE.ACTIVE n) := by
  simp only [Fld.apart, IC_SRC_STATE.ACTIVE_TGT, IC_SRC_STATE.ACTIVE]
  omega

theorem activeTgt_apart_pending (m n : Nat) : (IC_SRC_STATE.ACTIVE_TGT m).apart (IC_SRC_STATE.PENDING n) := by
  simp only [Fld.apart, IC_SRC_STATE.ACTIVE_TGT, IC_SRC_STATE.PENDING]
  omega

theorem activeTgt_apart_count (m n : Nat) : (IC_SRC_STATE.ACTIVE_TGT m).apart (IC_SRC_STATE.COUNT n) := by
  simp only [Fld.apart, IC_SRC_STATE.ACTIVE_TGT, IC_SRC_STATE.COUNT]
  omega

theorem priority_ofSource (n : Nat) : (IC_SRC_CFG.PRIORITY n).OfSource := Fld.ofSource_of_base (by decide) (by decide)

/-- The writes of a claim of source `n` for target `t`. -/
def claimWrites (t n : Nat) : List (Fld × Nat) :=
  [(IC_SRC_STATE.ACTIVE n, 1), (IC_SRC_STATE.ACTIVE_TGT n, t), (IC_SRC_STATE.PENDING n, 0), (IC_SRC_STATE.COUNT n, 0)]

theorem claimWrites_pairwise (t n : Nat) : (claimWrites t n).Pairwise fun p q => p.1.apart q.1 := by
  simp only [claimWrites, List.pairwise_cons, List.forall_mem_cons, List.not_mem_nil, false_imp_iff, implies_true,
    List.Pairwise.nil, and_true]
  exact ⟨⟨(activeTgt_apart_active n n).symm, active_apart_pending n n, (count_apart_active n n).symm⟩,
    ⟨activeTgt_apart_pending n n, activeTgt_apart_count n n⟩, (count_apart_pending n n).symm⟩

theorem claimWrites_ofSource {t n : Nat} {p : Fld × Nat} (hp : p ∈ claimWrites t n) : p.1.OfSource := by
  simp only [claimWrites, List.mem_cons, List.not_mem_nil, or_false] at hp
  obtain rfl | rfl | rfl | rfl := hp
  · exact active_ofSource n
  · exact activeTgt_ofSource n
  · exact pending_ofSource n
  · exact count_ofSource n

/-- Source `n` claimed on target `t`, with the value the read returns, and the pins following. -/
theorem State.claimFor_some (s : State) (t n : Nat) : s.claimFor t (some n) = ((s.wrs (claimWrites t n)).setClaimed
    (claimValue n (s.rd (IC_SRC_STATE.COUNT n)) (s.rd (IC_SRC_CFG.PRIORITY n)))).settlePins := by
  simp only [claimFor, claimWrites]

@[simp] theorem State.setClaimed_rd (s : State) (w : Word) (f : Fld) : (s.setClaimed w).rd f = s.rd f := rfl

@[simp] theorem State.setClaimed_canon (s : State) (w : Word) : (s.setClaimed w).Canon = s.Canon := by
  simp only [setClaimed, mk_canon]

theorem State.claimed_canon {s : State} (h : s.Canon) (t n : Nat) (w : Word) : ((s.wrs (claimWrites t n)).setClaimed w).Canon := by
  rw [setClaimed_canon]
  exact wrs_canon h

/-- The four fields of the claimed source read what the claim writes to them. -/
theorem State.claimFor_mem {s : State} (h : s.Canon) {t n : Nat} {p : Fld × Nat} (hp : p ∈ claimWrites t n) :
    (s.claimFor t (some n)).rd p.1 = p.2 % 2 ^ (p.1.hi + 1 - p.1.lo) := by
  have hs := claimWrites_ofSource hp
  rw [claimFor_some, settlePins_source (claimed_canon h t n _) hs, setClaimed_rd]
  exact rd_wrs_mem hs.narrow (claimWrites_pairwise t n) hp h

theorem State.claimFor_armed {s : State} (h : s.Canon) {t n : Nat} (ht : t < 16) :
    (s.claimFor t (some n)).rd (IC_TGT_STATE.ARMED t) = s.rd (IC_TGT_STATE.ARMED t) := by
  have hi : (IC_TGT_STATE.ARMED t).hi < 64 := of_decide_eq_true rfl
  rw [claimFor_some, (settlePins_rd (claimed_canon h t n _) (fun k _ => armed_apart_asserting t k) hi).2, setClaimed_rd]
  exact rd_wrs_apart hi (fun p hp => ((claimWrites_ofSource hp).apart_armed ht).symm) h

/-- The value of a claim is that of the counter and the priority before the target is armed. -/
theorem State.claimFor_claimed {s : State} (h : s.Canon) {t : Nat} (ht : t < 16) (n : Nat) :
    ((s.arm t).claimFor t (some n)).ic.claimed =
      claimValue n (s.rd (IC_SRC_STATE.COUNT n)) (s.rd (IC_SRC_CFG.PRIORITY n)) := by
  rw [claimFor_some, settlePins_ic, arm_source h ht (count_ofSource n), arm_source h ht (priority_ofSource n), setClaimed]

theorem exec_icTgtClaim {s : State} (h : s.Open) {t : Nat} (ht : t < 16) : exec (.icTgtClaim t) s = .next (s.claim t) := by
  change execIcTgtClaim t s = _
  rw [execIcTgtClaim, State.inService_ready h.1, if_neg (by omega), h.2, if_neg Bool.false_ne_true]

/-- Settles O12: the claim arms the target and then takes the choice that the hypothesis names. -/
theorem claimTakesTheBestSource : Obligations.ClaimTakesTheBestSource := by
  unfold Obligations.ClaimTakesTheBestSource
  refine ⟨?some, ?none⟩
  case some =>
    intro s t n hinv hopen ht hbest
    have h : s.Canon := hinv.1
    have ha := State.arm_canon h t
    refine ⟨_, exec_icTgtClaim hopen ht, ?_⟩
    rw [State.claim, hbest]
    refine ⟨State.claimFor_claimed h ht n, State.claimFor_mem ha (p := (IC_SRC_STATE.ACTIVE n, 1)) (by simp [claimWrites]), ?_,
      State.claimFor_mem ha (p := (IC_SRC_STATE.PENDING n, 0)) (by simp [claimWrites]),
      State.claimFor_mem ha (p := (IC_SRC_STATE.COUNT n, 0)) (by simp [claimWrites]),
      (State.claimFor_armed ha ht).trans (State.arm_armed h t)⟩
    exact (State.claimFor_mem ha (p := (IC_SRC_STATE.ACTIVE_TGT n, t)) (by simp [claimWrites])).trans (Nat.mod_eq_of_lt ht)
  case none =>
    intro s t hinv hopen ht hbest
    have h : s.Canon := hinv.1
    refine ⟨_, exec_icTgtClaim hopen ht, ?_⟩
    have hnone : s.claim t = (s.arm t).setClaimed 0x1FF#32 := by
      rw [State.claim, hbest, State.claimFor]
      rfl
    rw [hnone]
    refine ⟨by rw [State.setClaimed], by rw [State.setClaimed_rd, State.arm_armed h], (State.arm_only h t).of_regs ?_, ?_⟩
    · rw [State.setClaimed]
    · apply State.eq_of <;> simp [State.setClaimed, State.arm]

/-- Settles O13. -/
theorem busyClaimTakesNothing : Obligations.BusyClaimTakesNothing := by
  unfold Obligations.BusyClaimTakesNothing
  intro s t hr hb ht
  change execIcTgtClaim t s = _
  rw [execIcTgtClaim, State.inService_ready hr, if_neg (by omega), hb, if_pos rfl, State.setClaimed]

/-! ### RELEASE -/

/-- The active bits of target `t` cleared among the first `k` sources. -/
def State.releaseUpTo (s : State) (t k : Nat) : State :=
  (List.range k).foldl (fun s n =>
    if s.actBit n && s.rd (IC_SRC_STATE.ACTIVE_TGT n) == t then s.wr (IC_SRC_STATE.ACTIVE n) 0 else s) s

theorem State.releaseUpTo_succ (s : State) (t k : Nat) : s.releaseUpTo t (k + 1) =
    if (s.releaseUpTo t k).actBit k && (s.releaseUpTo t k).rd (IC_SRC_STATE.ACTIVE_TGT k) == t then
      (s.releaseUpTo t k).wr (IC_SRC_STATE.ACTIVE k) 0 else s.releaseUpTo t k := by
  simp [releaseUpTo, List.range_succ]

theorem State.release_eq (s : State) (t : Nat) : s.release t = ((s.releaseUpTo t 384).arm t).settlePins := rfl

theorem State.releaseUpTo_canon {s : State} (h : s.Canon) (t k : Nat) : (s.releaseUpTo t k).Canon := by
  induction k with
  | zero => exact h
  | succ k ih =>
    rw [releaseUpTo_succ]
    split
    · exact wr_canon ih _ _
    · exact ih

/-- A field apart from the active bits that are cleared stands. -/
theorem State.releaseUpTo_rd {s : State} (h : s.Canon) (t k : Nat) {f : Fld} (hi : f.hi < 64)
    (hf : ∀ n, n < k → f.apart (IC_SRC_STATE.ACTIVE n)) : (s.releaseUpTo t k).rd f = s.rd f := by
  induction k with
  | zero => rfl
  | succ k ih =>
    have ihk := ih fun n hn => hf n (by omega)
    rw [releaseUpTo_succ]
    split
    · rw [rd_wr_apart (releaseUpTo_canon h t k) 0 (hf k (by omega)) hi, ihk]
    · exact ihk

theorem active_apart_active {m n : Nat} (h : m ≠ n) : (IC_SRC_STATE.ACTIVE m).apart (IC_SRC_STATE.ACTIVE n) := by
  simp only [Fld.apart, IC_SRC_STATE.ACTIVE]
  omega

/-- An active bit of a source is 0 or 1. -/
theorem State.active_eq_zero {s : State} {n : Nat} (h : ¬ s.actBit n = true) : s.rd (IC_SRC_STATE.ACTIVE n) = 0 := by
  have hlt := s.rd_lt (IC_SRC_STATE.ACTIVE n)
  have hne : s.rd (IC_SRC_STATE.ACTIVE n) ≠ 1 := fun e => h (beq_iff_eq.2 e)
  simp only [IC_SRC_STATE.ACTIVE] at hlt hne ⊢
  omega

/-- The active bits after the first `k` sources are released. -/
theorem State.releaseUpTo_active {s : State} (h : s.Canon) (t : Nat) {n k : Nat} (hn : n < k) :
    (s.releaseUpTo t k).rd (IC_SRC_STATE.ACTIVE n) =
      if s.rd (IC_SRC_STATE.ACTIVE_TGT n) = t then 0 else s.rd (IC_SRC_STATE.ACTIVE n) := by
  induction k with
  | zero => omega
  | succ k ih =>
    have hc := releaseUpTo_canon h t k
    have htgt : (s.releaseUpTo t k).rd (IC_SRC_STATE.ACTIVE_TGT k) = s.rd (IC_SRC_STATE.ACTIVE_TGT k) :=
      releaseUpTo_rd h t k (activeTgt_ofSource k).narrow fun m _ => activeTgt_apart_active k m
    rw [releaseUpTo_succ, htgt]
    by_cases e : n = k
    · subst e
      have hact : (s.releaseUpTo t n).rd (IC_SRC_STATE.ACTIVE n) = s.rd (IC_SRC_STATE.ACTIVE n) :=
        releaseUpTo_rd h t n (active_ofSource n).narrow fun m hm => active_apart_active (by omega)
      by_cases ht : s.rd (IC_SRC_STATE.ACTIVE_TGT n) = t
      · rw [if_pos ht]
        split
        · rw [rd_wr hc _ _ (active_ofSource n).narrow, Nat.zero_mod]
        next hno => exact active_eq_zero fun ha => hno (by rw [ha, ht]; simp)
      · rw [if_neg ht, if_neg (by simp [ht]), hact]
    · rw [← ih (by omega)]
      split
      · exact rd_wr_apart hc 0 (active_apart_active e) (active_ofSource n).narrow
      · rfl

/-- A field of a source after RELEASE reads as after the clearing of the active bits. -/
theorem State.release_source {s : State} (h : s.Canon) {t : Nat} (ht : t < 16) {f : Fld} (hf : f.OfSource) :
    (s.release t).rd f = (s.releaseUpTo t 384).rd f := by
  have hc := releaseUpTo_canon h t 384
  rw [release_eq, settlePins_source (arm_canon hc t) hf, arm_source hc ht hf]

theorem State.release_armed {s : State} (h : s.Canon) (t : Nat) : (s.release t).rd (IC_TGT_STATE.ARMED t) = 1 := by
  have hc := releaseUpTo_canon h t 384
  rw [release_eq, (settlePins_rd (arm_canon hc t) (fun k _ => armed_apart_asserting t k) (of_decide_eq_true rfl)).2, arm_armed hc]

theorem exec_release {s : State} (h : s.Open) (t w : Nat) :
    exec (.release t w) s = .next (if t < 16 ∧ bitOf w 0 then s.release t else s) := by
  change execRelease t w s = _
  rw [execRelease, State.setup_open h]

/-- Settles O16: `releaseUpTo` over every source, then the target is armed and the pins follow. -/
theorem releaseClearsActiveBits : Obligations.ReleaseClearsActiveBits := by
  unfold Obligations.ReleaseClearsActiveBits
  refine ⟨?write1, ?write0⟩
  case write1 =>
    intro s t w hinv hopen ht hw
    have h : s.Canon := hinv.1
    refine ⟨_, exec_release hopen t w, ?_⟩
    rw [if_pos ⟨ht, hw⟩]
    refine ⟨State.release_armed h t, fun n hn => ⟨?_, ?_⟩⟩
    · rw [State.release_source h ht (active_ofSource n), State.releaseUpTo_active h t hn]
    · rw [State.release_source h ht (pending_ofSource n),
        State.releaseUpTo_rd h t 384 (pending_ofSource n).narrow fun m _ => (active_apart_pending m n).symm]
  case write0 =>
    intro s t w hopen hw
    rw [exec_release hopen, if_neg (by simp [hw])]

/-! ### The configuration of a target -/

/-- The writes of IC_TGT_CFG. -/
def tgtCfgWrites (t w : Nat) : List (Fld × Nat) :=
  [(IC_TGT_CFG.KIND t, bitsOf w 0 1), (IC_TGT_CFG.VECTOR t, bitsOf w 1 6), (IC_TGT_CFG.ASLEEP t, bitsOf w 7 1)]

theorem tgtCfgWrites_pairwise (t w : Nat) : (tgtCfgWrites t w).Pairwise fun p q => p.1.apart q.1 := by
  simp only [tgtCfgWrites, List.pairwise_cons, List.forall_mem_cons, List.not_mem_nil, Fld.apart, IC_TGT_CFG.KIND,
    IC_TGT_CFG.VECTOR, IC_TGT_CFG.ASLEEP, false_imp_iff, implies_true, List.Pairwise.nil, and_true]
  omega

/-- The fields of IC_TGT_CFG share no bit with the state of any target. -/
theorem tgtCfgWrites_apart {t w : Nat} {p : Fld × Nat} (hp : p ∈ tgtCfgWrites t w) (k : Nat) :
    p.1.apart (IC_TGT_STATE.ARMED k) ∧ p.1.apart (IC_TGT_STATE.ASSERTING k) ∧ p.1.hi < 64 := by
  revert p
  simp only [tgtCfgWrites, List.forall_mem_cons, List.not_mem_nil, Fld.apart, IC_TGT_CFG.KIND, IC_TGT_CFG.VECTOR,
    IC_TGT_CFG.ASLEEP, IC_TGT_STATE.ARMED, IC_TGT_STATE.ASSERTING, false_imp_iff, implies_true, and_true]
  omega

/-- The target configured, and armed where it wakes. -/
def State.configured (s : State) (t w : Nat) : State :=
  if s.flag (IC_TGT_CFG.ASLEEP t) && !bitOf w 7 then (s.wrs (tgtCfgWrites t w)).arm t else s.wrs (tgtCfgWrites t w)

theorem State.configured_canon {s : State} (h : s.Canon) (t w : Nat) : (s.configured t w).Canon := by
  unfold configured
  split
  · exact arm_canon (wrs_canon h) t
  · exact wrs_canon h

/-- A field of IC_TGT_CFG reads what was written to it. -/
theorem State.configured_mem {s : State} (h : s.Canon) {t w : Nat} {p : Fld × Nat} (hp : p ∈ tgtCfgWrites t w) :
    (s.configured t w).settlePins.rd p.1 = p.2 % 2 ^ (p.1.hi + 1 - p.1.lo) := by
  have hi := (tgtCfgWrites_apart hp t).2.2
  rw [(settlePins_rd (configured_canon h t w) (fun k _ => (tgtCfgWrites_apart hp k).2.1) hi).2,
    ← rd_wrs_mem hi (tgtCfgWrites_pairwise t w) hp h]
  unfold configured
  split
  · exact arm_rd (wrs_canon h) (tgtCfgWrites_apart hp t).1 hi
  · rfl

theorem State.configured_armed {s : State} (h : s.Canon) (t w : Nat) :
    (s.configured t w).settlePins.rd (IC_TGT_STATE.ARMED t) =
      if s.rd (IC_TGT_CFG.ASLEEP t) = 1 ∧ bitOf w 7 = false then 1 else s.rd (IC_TGT_STATE.ARMED t) := by
  have hi : (IC_TGT_STATE.ARMED t).hi < 64 := of_decide_eq_true rfl
  have hwake : (s.flag (IC_TGT_CFG.ASLEEP t) && !bitOf w 7) = true ↔ s.rd (IC_TGT_CFG.ASLEEP t) = 1 ∧ bitOf w 7 = false := by
    simp [State.flag]
  rw [(settlePins_rd (configured_canon h t w) (fun k _ => armed_apart_asserting t k) hi).2]
  by_cases hc : s.rd (IC_TGT_CFG.ASLEEP t) = 1 ∧ bitOf w 7 = false
  · rw [if_pos hc, configured, if_pos (hwake.2 hc), arm_armed (wrs_canon h)]
  · rw [if_neg hc, configured, if_neg (hc ∘ hwake.1)]
    exact rd_wrs_apart hi (fun p hp => (tgtCfgWrites_apart hp t).1.symm) h

theorem exec_targetWake {s : State} (h : s.Open) {t : Nat} (ht : t < 16) (w : Nat) :
    exec (.targetWake t w) s = .next (s.configured t w).settlePins := by
  change execTargetWake t w s = _
  rw [execTargetWake, State.setup_open h, if_pos ht]
  rfl

/-- A value of `k` bits is written whole to a field of `k` bits. -/
theorem bitsOf_mod (x lo k : Nat) : bitsOf x lo k % 2 ^ k = bitsOf x lo k := Nat.mod_mod _ _

/-- Settles O17. -/
theorem wakeArmsTheTarget : Obligations.WakeArmsTheTarget := by
  unfold Obligations.WakeArmsTheTarget
  intro s t w hinv hopen ht
  have h : s.Canon := hinv.1
  refine ⟨_, exec_targetWake hopen ht w, ?_, ?_, ?_, State.configured_armed h t w⟩
  · exact (State.configured_mem h (p := (IC_TGT_CFG.KIND t, bitsOf w 0 1)) (by simp [tgtCfgWrites])).trans (bitsOf_mod ..)
  · exact (State.configured_mem h (p := (IC_TGT_CFG.VECTOR t, bitsOf w 1 6)) (by simp [tgtCfgWrites])).trans (bitsOf_mod ..)
  · exact (State.configured_mem h (p := (IC_TGT_CFG.ASLEEP t, bitsOf w 7 1)) (by simp [tgtCfgWrites])).trans (bitsOf_mod ..)

/-! ### Risen conditions -/

/-- What one state function does in service and what it leaves out of it, where it leaves the state of itself. -/
theorem State.inService_rest {s : State} {f : State → State} (h : f s = s) : s.inService f = s := by
  unfold State.inService
  rw [h, ite_self]

/-- Settles O18: INTERRUPT_ARRIVAL takes the first risen condition of its source, and with none risen it rests. -/
theorem risenConditionArrives : Obligations.RisenConditionArrives := by
  unfold Obligations.RisenConditionArrives
  refine ⟨fun s n a rest hr htake => ?_, fun s n hnone => ?_⟩
  · change execInterruptArrival n s = _
    rw [execInterruptArrival, State.inService_ready hr, htake]
  · change execInterruptArrival n s = _
    rw [execInterruptArrival, State.inService_rest (by rw [hnone])]

end Sys2Proof.Machine
end

section
/-! Descriptors on their reels (R71 to R75, R87 to R90): what a completion counts, and how NOP, FENCE, WAIT_TICK and READ_BACK
execute. -/

namespace Sys2Proof.Machine

/-! ### The executed count -/

/-- Two fields of one word at other bits. -/
theorem Fld.apart_same {f g : Fld} (ho : f.off = g.off) (h : f.hi < g.lo ∨ g.hi < f.lo) : f.apart g := by
  unfold Fld.apart
  omega

/-- Two fields within words of other offsets. -/
theorem Fld.apart_word {f g : Fld} (hf : f.hi < 32) (hg : g.hi < 32) (ho : f.off + 4 ≤ g.off ∨ g.off + 4 ≤ f.off) :
    f.apart g := by
  unfold Fld.apart
  omega

/-- A field within a word of the 64 bytes that HIF gives command reel `r`. -/
structure Fld.OfReel (f : Fld) (r : Nat) : Prop where
  upper : f.off + 0x20 ≤ 0x021040 + 0x40 * r
  narrow : f.hi < 32

theorem Fld.OfReel.below {f : Fld} {r : Nat} (hf : f.OfReel r) (hr : r < 64) : f.off + 4 < evrStart := by
  have := hf.upper
  unfold evrStart
  omega

theorem Fld.OfReel.of {f : Fld} {r : Nat} (b : Nat) (hf : f.off = b + 0x40 * r) (hb : b ≤ 0x021020) (hi : f.hi < 32) :
    f.OfReel r := ⟨by omega, hi⟩

theorem exec_ofReel (r : Nat) : (HIF_CR_EXEC.EXEC r).OfReel r := .of _ rfl (by decide) (of_decide_eq_true rfl)
theorem enable_ofReel (r : Nat) : (HIF_CR_CFG.ENABLE r).OfReel r := .of _ rfl (by decide) (of_decide_eq_true rfl)
theorem active_ofReel (r : Nat) : (HIF_CR_STATUS.ACTIVE r).OfReel r := .of _ rfl (by decide) (of_decide_eq_true rfl)
theorem halted_ofReel (r : Nat) : (HIF_CR_STATUS.HALTED r).OfReel r := .of _ rfl (by decide) (of_decide_eq_true rfl)
theorem waiting_ofReel (r : Nat) : (HIF_CR_STATUS.WAITING r).OfReel r := .of _ rfl (by decide) (of_decide_eq_true rfl)
theorem lastCode_ofReel (r : Nat) : (HIF_CR_STATUS.LAST_CODE r).OfReel r := .of _ rfl (by decide) (of_decide_eq_true rfl)

/-- A word of the reel reads after the outcome as with LAST_CODE written. -/
theorem State.outcome_rd {s : State} (h : s.Canon) {o : Origin} (ho : o.dead = false) (code detail : Nat) {f : Fld} {r : Nat}
    (hf : f.OfReel r) (hr : r < 64) :
    (s.outcome o code detail).rd f = (if code = cDone then s else s.wr (HIF_CR_STATUS.LAST_CODE o.reel) code).rd f :=
  (outcome_reports h o code detail ho).rd (hf.below hr)

theorem State.outcome_canon {s : State} (h : s.Canon) {o : Origin} (ho : o.dead = false) (code detail : Nat) :
    (s.outcome o code detail).Canon := (outcome_reports h o code detail ho).1

theorem State.originOf_dead (s : State) (r : Nat) (d : Desc) : (s.originOf r d).dead = false := rfl
theorem State.originOf_reel (s : State) (r : Nat) (d : Desc) : (s.originOf r d).reel = r := rfl

theorem State.outcome_reel {s : State} (h : s.Canon) {o : Origin} (ho : o.dead = false) (code detail r : Nat) :
    (s.outcome o code detail).reel r = s.reel r := by
  have hreels := (outcome_reports h o code detail ho).2.2
  have : (if code = cDone then s else s.wr (HIF_CR_STATUS.LAST_CODE o.reel) code).hif.reels = s.hif.reels := by
    split <;> simp
  simp only [reel, hreels, this]

/-- The outcome leaves every field of the reel but LAST_CODE. -/
theorem State.outcome_rd_apart {s : State} (h : s.Canon) {r : Nat} (d : Desc) (code detail : Nat) {f : Fld} (hf : f.OfReel r)
    (hr : r < 64) (ha : f.apart (HIF_CR_STATUS.LAST_CODE r)) : (s.outcome (s.originOf r d) code detail).rd f = s.rd f := by
  rw [outcome_rd h (s.originOf_dead r d) code detail hf hr, originOf_reel]
  split
  · rfl
  · exact rd_wr_apart h code ha (Nat.lt_trans hf.narrow (by decide))

theorem State.outcome_lastCode {s : State} (h : s.Canon) {r code : Nat} (d : Desc) (detail : Nat) (hr : r < 64) (hc : code < 256) :
    (s.outcome (s.originOf r d) code detail).rd (HIF_CR_STATUS.LAST_CODE r) =
      if code = 0 then s.rd (HIF_CR_STATUS.LAST_CODE r) else code := by
  rw [outcome_rd h (s.originOf_dead r d) code detail (lastCode_ofReel r) hr, originOf_reel, cDone]
  split
  · rfl
  · rw [rd_wr h _ _ (of_decide_eq_true rfl)]
    exact Nat.mod_eq_of_lt hc

/-- EXEC and the status word are apart. -/
theorem status_apart_exec {f : Fld} {r : Nat} (hf : f.off = (HIF_CR_STATUS.ACTIVE r).off) (hi : f.hi < 32) :
    f.apart (HIF_CR_EXEC.EXEC r) :=
  Fld.apart_word hi (of_decide_eq_true rfl) (by simp only [hf, HIF_CR_STATUS.ACTIVE, HIF_CR_EXEC.EXEC]; omega)

theorem exec_apart_status {f : Fld} {r : Nat} (hf : f.off = (HIF_CR_STATUS.ACTIVE r).off) (hi : f.hi < 32) :
    (HIF_CR_EXEC.EXEC r).apart f := (status_apart_exec hf hi).symm

theorem enable_apart_status {f : Fld} {r : Nat} (hf : f.off = (HIF_CR_STATUS.ACTIVE r).off) (hi : f.hi < 32) :
    (HIF_CR_CFG.ENABLE r).apart f :=
  Fld.apart_word (of_decide_eq_true rfl) hi (by simp only [hf, HIF_CR_STATUS.ACTIVE, HIF_CR_CFG.ENABLE]; omega)

theorem enable_apart_exec (r : Nat) : (HIF_CR_CFG.ENABLE r).apart (HIF_CR_EXEC.EXEC r) :=
  Fld.apart_word (of_decide_eq_true rfl) (of_decide_eq_true rfl) (by simp only [HIF_CR_EXEC.EXEC, HIF_CR_CFG.ENABLE]; omega)

/-- EXEC counts the descriptor, unless it carries its count from before an enable. -/
def State.countExec (s : State) (r : Nat) (carried : Bool) : State :=
  if carried then s else s.wr (HIF_CR_EXEC.EXEC r) ((s.rd (HIF_CR_EXEC.EXEC r) + 1) % 2 ^ 32)

theorem State.countExec_canon {s : State} (h : s.Canon) (r : Nat) (b : Bool) : (s.countExec r b).Canon := by
  unfold countExec
  split
  · exact h
  · exact wr_canon h _ _

theorem State.countExec_congr {s t : State} (h : t.regs = s.regs) (r : Nat) (b : Bool) :
    (t.countExec r b).regs = (s.countExec r b).regs := by
  unfold countExec
  rw [rd_congr h]
  split
  · exact h
  · exact wr_congr h _ _

theorem State.countExec_rd {s : State} (h : s.Canon) {r : Nat} (b : Bool) {f : Fld} (he : f.apart (HIF_CR_EXEC.EXEC r))
    (hi : f.hi < 64) : (s.countExec r b).rd f = s.rd f := by
  unfold countExec
  split
  · rfl
  · exact rd_wr_apart h _ he hi

/-- The writes of an executed descriptor. -/
def State.executedRegs (s : State) (r : Nat) (carried : Bool) : State := (s.countExec r carried).wr (HIF_CR_STATUS.WAITING r) 0

theorem State.executedRegs_canon {s : State} (h : s.Canon) (r : Nat) (b : Bool) : (s.executedRegs r b).Canon :=
  wr_canon (countExec_canon h r b) _ _

theorem State.executedRegs_congr {s t : State} (h : t.regs = s.regs) (r : Nat) (b : Bool) :
    (t.executedRegs r b).regs = (s.executedRegs r b).regs := wr_congr (countExec_congr h r b) _ _

theorem State.executedRegs_rd {s : State} (h : s.Canon) {r : Nat} (b : Bool) {f : Fld} (he : f.apart (HIF_CR_EXEC.EXEC r))
    (hw : f.apart (HIF_CR_STATUS.WAITING r)) (hi : f.hi < 64) : (s.executedRegs r b).rd f = s.rd f :=
  (rd_wr_apart (countExec_canon h r b) 0 hw hi).trans (countExec_rd h b he hi)

theorem State.executedRegs_enable {s : State} (h : s.Canon) (r : Nat) (b : Bool) :
    (s.executedRegs r b).flag (HIF_CR_CFG.ENABLE r) = s.flag (HIF_CR_CFG.ENABLE r) :=
  congrArg (· == 1) (executedRegs_rd h b (enable_apart_exec r) (enable_apart_status rfl (of_decide_eq_true rfl))
    (of_decide_eq_true rfl))

/-- The registers after a descriptor is executed: a reel disabled meanwhile shows that it is inactive. -/
theorem State.executed_regs {s : State} (h : s.Canon) (r : Nat) : (s.executed r).regs =
    (if s.flag (HIF_CR_CFG.ENABLE r) then s.executedRegs r (s.reel r).carry.isSome
      else (s.executedRegs r (s.reel r).carry.isSome).wr (HIF_CR_STATUS.ACTIVE r) 0).regs := by
  unfold executed
  generalize hu : s.setReel r _ = u
  have hregs : u.regs = s.regs := by rw [← hu, setReel_regs]
  dsimp only
  rw [← countExec, ← executedRegs, flag, rd_congr (executedRegs_congr hregs r _), ← flag, executedRegs_enable h]
  split
  · exact executedRegs_congr hregs r _
  · exact wr_congr (executedRegs_congr hregs r _) _ _

theorem State.executed_canon {s : State} (h : s.Canon) (r : Nat) : (s.executed r).Canon := by
  unfold Canon
  rw [executed_regs h]
  split
  · exact executedRegs_canon h r _
  · exact wr_canon (executedRegs_canon h r _) _ _

theorem State.executed_rd {s : State} (h : s.Canon) {r : Nat} {f : Fld} (hi : f.hi < 64)
    (ha : f.apart (HIF_CR_STATUS.ACTIVE r)) : (s.executed r).rd f = (s.executedRegs r (s.reel r).carry.isSome).rd f := by
  rw [rd_congr (executed_regs h r)]
  split
  · rfl
  · exact rd_wr_apart (executedRegs_canon h r _) 0 ha hi

theorem State.executed_exec {s : State} (h : s.Canon) {r : Nat} (hc : (s.reel r).carry = none) :
    (s.executed r).rd (HIF_CR_EXEC.EXEC r) = (s.rd (HIF_CR_EXEC.EXEC r) + 1) % 2 ^ 32 := by
  have hi : (HIF_CR_EXEC.EXEC r).hi < 64 := of_decide_eq_true rfl
  rw [executed_rd h hi (exec_apart_status rfl (of_decide_eq_true rfl)), hc, Option.isSome_none, executedRegs,
    rd_wr_apart (countExec_canon h r _) 0 (exec_apart_status (f := HIF_CR_STATUS.WAITING r) rfl (of_decide_eq_true rfl)) hi, countExec,
    if_neg Bool.false_ne_true, rd_wr h _ _ hi]
  exact Nat.mod_mod _ _

theorem State.executed_waiting {s : State} (h : s.Canon) (r : Nat) :
    (s.executed r).rd (HIF_CR_STATUS.WAITING r) = 0 := by
  have hi : (HIF_CR_STATUS.WAITING r).hi < 64 := of_decide_eq_true rfl
  rw [executed_rd h hi (Fld.apart_same rfl (of_decide_eq_true rfl)), executedRegs, rd_wr (countExec_canon h r _) _ _ hi,
    Nat.zero_mod]

theorem State.executed_active {s : State} (h : s.Canon) (r : Nat) :
    (s.executed r).rd (HIF_CR_STATUS.ACTIVE r) =
      if s.flag (HIF_CR_CFG.ENABLE r) = true then s.rd (HIF_CR_STATUS.ACTIVE r) else 0 := by
  have hi : (HIF_CR_STATUS.ACTIVE r).hi < 64 := of_decide_eq_true rfl
  rw [rd_congr (executed_regs h r)]
  split
  · exact executedRegs_rd h _ (status_apart_exec rfl (of_decide_eq_true rfl)) (Fld.apart_same rfl (of_decide_eq_true rfl)) hi
  · rw [rd_wr (executedRegs_canon h r _) _ _ hi, Nat.zero_mod]

/-- A field that an executed descriptor does not write. -/
theorem State.executed_rd_apart {s : State} (h : s.Canon) {r : Nat} {f : Fld} (hi : f.hi < 64)
    (ha : f.apart (HIF_CR_STATUS.ACTIVE r)) (he : f.apart (HIF_CR_EXEC.EXEC r)) (hw : f.apart (HIF_CR_STATUS.WAITING r)) :
    (s.executed r).rd f = s.rd f := (executed_rd h hi ha).trans (executedRegs_rd h _ he hw hi)

/-- HALT_ON_FAIL sets HALTED where its three conditions hold, and its notice leaves the reel's registers. -/
theorem State.haltOn_reports {s : State} (h : s.Canon) (r : Nat) (d : Desc) (code : Nat) :
    State.Reports (if dHaltOnFail d ∧ 2 < code ∧ s.flag (HIF_CR_CFG.ENABLE r) then s.wr (HIF_CR_STATUS.HALTED r) 1 else s)
      (s.haltOn r d code) := by
  unfold haltOn
  split
  · exact (Reports.refl (wr_canon h _ _)).notice _ _ _ _ _
  · exact Reports.refl h

theorem State.haltOn_rd {s : State} (h : s.Canon) {r : Nat} (d : Desc) (code : Nat) (hr : r < 64) {f : Fld} (hf : f.OfReel r)
    (ha : f.apart (HIF_CR_STATUS.HALTED r)) : (s.haltOn r d code).rd f = s.rd f := by
  rw [(haltOn_reports h r d code).rd (hf.below hr)]
  split
  · exact rd_wr_apart h 1 ha (Nat.lt_trans hf.narrow (by decide))
  · rfl

theorem State.haltOn_halted {s : State} (h : s.Canon) {r : Nat} (d : Desc) (code : Nat) (hr : r < 64) :
    (s.haltOn r d code).rd (HIF_CR_STATUS.HALTED r) =
      if dHaltOnFail d = true ∧ 2 < code ∧ s.flag (HIF_CR_CFG.ENABLE r) = true then 1 else s.rd (HIF_CR_STATUS.HALTED r) := by
  rw [(haltOn_reports h r d code).rd ((halted_ofReel r).below hr)]
  split
  · exact rd_wr h _ _ (of_decide_eq_true rfl)
  · rfl

/-- Settles O20: the fields pass through the outcome, the executed count and HALT_ON_FAIL, each of which writes its own. -/
theorem completionCountsTheDescriptor : Obligations.CompletionCountsTheDescriptor := by
  unfold Obligations.CompletionCountsTheDescriptor
  intro s r code detail d hinv hr hcarry hcode
  have h : s.Canon := hinv.1
  have ho := State.outcome_canon h (s.originOf_dead r d) code detail
  have hoc : ((s.outcome (s.originOf r d) code detail).reel r).carry = none := by
    rw [State.outcome_reel h (s.originOf_dead r d), hcarry]
  have hec := State.executed_canon ho r
  have hbit {f : Fld} (hi : f.hi < 32) : f.hi < 64 := Nat.lt_trans hi (by decide)
  have henable : (s.outcome (s.originOf r d) code detail).flag (HIF_CR_CFG.ENABLE r) = s.flag (HIF_CR_CFG.ENABLE r) :=
    congrArg (· == 1) (State.outcome_rd_apart h d code detail (enable_ofReel r) hr
      (enable_apart_status rfl (of_decide_eq_true rfl)))
  rw [State.finish]
  refine ⟨?exec, ?waiting, ?lastCode, ?active, ?halted⟩
  case exec =>
    rw [State.haltOn_rd hec d code hr (exec_ofReel r) (exec_apart_status rfl (of_decide_eq_true rfl)), State.executed_exec ho hoc,
      State.outcome_rd_apart h d code detail (exec_ofReel r) hr (exec_apart_status rfl (of_decide_eq_true rfl))]
  case waiting =>
    rw [State.haltOn_rd hec d code hr (waiting_ofReel r) (Fld.apart_same rfl (of_decide_eq_true rfl)),
      State.executed_waiting ho r]
  case lastCode =>
    rw [State.haltOn_rd hec d code hr (lastCode_ofReel r) (Fld.apart_same rfl (of_decide_eq_true rfl)),
      State.executed_rd_apart ho (hbit (lastCode_ofReel r).narrow) (Fld.apart_same rfl (of_decide_eq_true rfl))
        (status_apart_exec rfl (of_decide_eq_true rfl)) (Fld.apart_same rfl (of_decide_eq_true rfl)),
      State.outcome_lastCode h d detail hr hcode]
  case active =>
    rw [State.haltOn_rd hec d code hr (active_ofReel r) (Fld.apart_same rfl (of_decide_eq_true rfl)),
      State.executed_active ho r, henable,
      State.outcome_rd_apart h d code detail (active_ofReel r) hr (Fld.apart_same rfl (of_decide_eq_true rfl))]
  case halted =>
    have heflag : ((s.outcome (s.originOf r d) code detail).executed r).flag (HIF_CR_CFG.ENABLE r) =
        s.flag (HIF_CR_CFG.ENABLE r) :=
      (congrArg (· == 1) (State.executed_rd_apart ho (hbit (enable_ofReel r).narrow)
        (enable_apart_status rfl (of_decide_eq_true rfl)) (enable_apart_exec r)
        (enable_apart_status rfl (of_decide_eq_true rfl)))).trans henable
    rw [State.haltOn_halted hec d code hr, heflag,
      State.executed_rd_apart ho (hbit (halted_ofReel r).narrow) (Fld.apart_same rfl (of_decide_eq_true rfl))
        (status_apart_exec rfl (of_decide_eq_true rfl)) (Fld.apart_same rfl (of_decide_eq_true rfl)),
      State.outcome_rd_apart h d code detail (halted_ofReel r) hr (Fld.apart_same rfl (of_decide_eq_true rfl))]

end Sys2Proof.Machine
end

section
/-! Descriptors on their reels (R69, R76, R87 to R90): how NOP, FENCE, WAIT_TICK and READ_BACK execute, and what a doorbell, a
fetch and an arrival of descriptors do. -/

namespace Sys2Proof.Machine

/-! ### NOP, FENCE and WAIT_TICK -/

theorem dF_lt (d : Desc) (b lo w : Nat) : dF d b lo w < 2 ^ w := Nat.mod_lt _ (Nat.two_pow_pos w)

/-- An aligned 8-byte access at a 64-bit address ends within the address range. -/
theorem hostOk_of_aligned {d : Desc} (h : dF d 8 0 64 % 8 = 0) : hostOk (dF d 8 0 64) 8 8 = true := by
  have hlt := dF_lt d 8 0 64
  simp only [hostOk, h, Bool.and_eq_true, decide_eq_true_eq]
  exact ⟨rfl, by omega⟩

theorem exec_nop_due {s : State} {r : Nat} {d : Desc} (h : s.Due r 0x00 d) :
    exec (.nop r) s = .next (s.apply r d (nopBody r d s)) := by
  change execNop r s = _
  rw [execNop, State.descriptor_due h]

theorem exec_fence_due {s : State} {r : Nat} {d : Desc} (h : s.Due r 0x01 d) :
    exec (.fence r) s = .next (s.apply r d (fenceBody r d s)) := by
  change execFence r s = _
  rw [execFence, State.descriptor_due h]

/-- WAIT_TICK, with WAITING shown where it holds its reel. -/
def waitTickShown (r : Nat) (d : Desc) (s : State) : Res :=
  match waitTickBody r d s with
  | .wait t b => .wait (t.wr (HIF_CR_STATUS.WAITING r) 1) b
  | x => x

theorem exec_waitTick_due {s : State} {r : Nat} {d : Desc} (h : s.Due r 0x02 d) :
    exec (.waitTick r) s = .next (s.apply r d (waitTickShown r d s)) := by
  change execWaitTick r s = _
  rw [execWaitTick, State.descriptor_due h]
  rfl

/-- A FENCE of mode EXECUTED is written at once. -/
theorem fenceBody_executed {s : State} {r : Nat} {d : Desc}
    (hclean : s.Clean d [(8, 0, 64), (16, 0, 64), (24, 0, 2), (32, 0, 48)]) (hidx : dIndex d = 0) (hmode : dF d 24 0 2 = 0)
    (htick : dF d 32 0 48 = 0) (hal : dF d 8 0 64 % 8 = 0) :
    fenceBody r d s = .admitted (s.writeFence (s.originOf r d) (dF d 8 0 64) (dF d 16 0 64)) := by
  simp [fenceBody, hidx, hmode, htick, hostOk_of_aligned hal, State.r82_clean hclean, State.checked_none]

/-- A FENCE of mode AT_TICK whose tick is to come waits in one of the 64 places. -/
theorem fenceBody_atTick {s : State} {r : Nat} {d : Desc}
    (hclean : s.Clean d [(8, 0, 64), (16, 0, 64), (24, 0, 2), (32, 0, 48)]) (hidx : dIndex d = 0) (hmode : dF d 24 0 2 = 2)
    (htick : s.tickNo < dF d 32 0 48) (hal : dF d 8 0 64 % 8 = 0) (hroom : s.hif.fences.length < 64) :
    fenceBody r d s = .admitted { s with hif := { s.hif with fences := s.hif.fences ++
      [{ origin := s.originOf r d, addr := dF d 8 0 64, value := dF d 16 0 64, waits := [], tick := dF d 32 0 48 }] } } := by
  have hlate : ¬ dF d 32 0 48 ≤ s.tickNo := by omega
  have hplace : ¬ 64 ≤ s.hif.fences.length := by omega
  simp [fenceBody, hidx, hmode, hlate, hplace, hostOk_of_aligned hal, State.r82_clean hclean, State.checked_none]

/-- A WAIT_TICK of a later tick, counted from now, holds its reel. -/
theorem waitTickBody_relative {s : State} {r : Nat} {d : Desc} (hclean : s.Clean d [(8, 0, 2), (16, 0, 48)]) (hidx : dIndex d = 0)
    (habs : dB d 8 0 = false) (hlo : 1 ≤ dF d 16 0 48) (hhi : dF d 16 0 48 ≤ 65535) :
    waitTickBody r d s = .wait s (.waitTick (s.tickNo + dF d 16 0 48) (dB d 8 1)) := by
  have hlate : ¬ s.tickNo + dF d 16 0 48 ≤ s.tickNo := by omega
  have hpast : ¬ s.tickNo + dF d 16 0 48 < s.tickNo := by omega
  have hnow : dF d 16 0 48 ≠ 0 := by omega
  simp [waitTickBody, hidx, habs, hlo, hhi, hlate, hpast, hnow, State.r82_clean hclean, State.checked_none]

/-- A WAIT_TICK of a tick that has passed completes. -/
theorem waitTickBody_passed {s : State} {r : Nat} {d : Desc} (hclean : s.Clean d [(8, 0, 2), (16, 0, 48)]) (hidx : dIndex d = 0)
    (habs : dB d 8 0 = true) (hlatch : dB d 8 1 = false) (hpast : dF d 16 0 48 ≤ s.tickNo) :
    waitTickBody r d s = .done s cDone 0 := by
  have hrange : dF d 16 0 48 ≤ s.tickNo + 4294967296 := by omega
  simp [waitTickBody, hidx, habs, hlatch, hpast, hrange, State.r82_clean hclean, State.checked_none]

/-- Settles O21. -/
theorem reelDescriptorsExecute : Obligations.ReelDescriptorsExecute := by
  unfold Obligations.ReelDescriptorsExecute
  refine ⟨?nop, ?executed, ?atTick, ?waits, ?passed⟩
  case nop =>
    intro s r d hdue hclean hidx
    rw [exec_nop_due hdue, nopBody, hidx]
    exact congrArg (fun o => Host.Outcome.next (s.apply r d (s.checked o fun _ => .done s cDone 0))) (State.r82_clean hclean)
  case executed =>
    intro s r d hdue hclean hidx hmode htick hal
    rw [exec_fence_due hdue, fenceBody_executed hclean hidx hmode htick hal, State.apply_admitted, State.writeFence]
  case atTick =>
    intro s r d hdue hclean hidx hmode htick hal hroom
    rw [exec_fence_due hdue, fenceBody_atTick hclean hidx hmode htick hal hroom, State.apply_admitted]
  case waits =>
    intro s r d hdue hclean hidx habs hlo hhi
    rw [exec_waitTick_due hdue, waitTickShown, waitTickBody_relative hclean hidx habs hlo hhi, State.apply_wait]
  case passed =>
    intro s r d hdue hclean hidx habs hlatch hpast
    rw [exec_waitTick_due hdue, waitTickShown, waitTickBody_passed hclean hidx habs hlatch hpast, State.apply_done]

/-! ### READ_BACK -/

/-- READ_BACK_END of a running copy writes no more than what LENGTH still wants. -/
theorem exec_readBackEnd {s : State} {r n k : Nat} {d : Desc} {whole : List Byte} (hr : s.ready = true)
    (hheld : s.held r = some (d, .readBack true k whole)) :
    exec (.readBackEnd r n) s = .next (s.readBackMore r d k whole (min n (rbLength d - k))) := by
  change execReadBackEnd r n s = _
  rw [execReadBackEnd, State.inService_ready hr, hheld]

theorem State.readBackMore_piece {s : State} {r n k : Nat} {d : Desc} {whole : List Byte} (hd : s.hif.d3hot = false)
    (hn : 0 < n) : s.readBackMore r d k whole n = s.readBackPiece r d k whole n := by
  rw [readBackMore, hd, if_neg (by simp; omega)]

/-- Settles O22: a piece ends the copy exactly where it reaches LENGTH. -/
theorem readBackCopies : Obligations.ReadBackCopies := by
  unfold Obligations.ReadBackCopies
  refine ⟨?start, ?piece, ?last⟩
  case start =>
    intro s r d hdue hclean hfields haddrs hfenced
    change execReadBack r s = _
    rw [execReadBack, State.descriptor_due hdue, readBackBody, hfields, haddrs, hfenced, State.r82_clean hclean,
      State.checked_none, State.apply_wait]
  case piece =>
    intro s r n k d whole hr hheld hd hn hlt
    have hmin : min n (rbLength d - k) = n := by omega
    rw [exec_readBackEnd hr hheld, hmin, State.readBackMore_piece hd hn, State.readBackPiece, if_neg (by omega)]
  case last =>
    intro s r n k d whole hr hheld hd hn hk hle
    have hmin : min n (rbLength d - k) = rbLength d - k := by omega
    rw [exec_readBackEnd hr hheld, hmin, State.readBackMore_piece hd (by omega), State.readBackPiece, if_pos (by omega)]
    rfl

/-! ### Doorbells -/

/-- What a 32-bit doorbell at the start of its page does (R69). -/
theorem exec_doorbell {s : State} {r : Nat} (hr : s.ready = true) (hlt : r < 64) (w : Word) :
    exec (.doorbell r 0 true w) s = .next (if s.tailOk r w.toNat then
      if w.toNat = s.rd (HIF_CR_TAIL.TAIL r) then s
      else (s.wr (HIF_CR_TAIL.TAIL r) w.toNat).setReel r fun c => { c with doorbells := c.doorbells ++ [(w.toNat, s.now)] }
    else (s.bump HIF_DB_ERRORS.REFUSED 1).notice 1 cBadField 1 r (s.reel r).fetchCount) := by
  change execDoorbell r 0 true w s = _
  rw [execDoorbell, State.inService_ready hr, if_neg (by omega), if_neg (by simp)]

theorem exec_doorbell_stray {s : State} {r off : Nat} {full : Bool} (hr : s.ready = true) (hlt : r < 64)
    (h : off ≠ 0 ∨ full = false) (w : Word) : exec (.doorbell r off full w) s = .next (s.bump HIF_DB_ERRORS.STRAY 1) := by
  change execDoorbell r off full w s = _
  rw [execDoorbell, State.inService_ready hr, if_neg (by omega), if_pos h]

/-- Settles O23. -/
theorem doorbellTakesOrRefuses : Obligations.DoorbellTakesOrRefuses := by
  unfold Obligations.DoorbellTakesOrRefuses
  refine ⟨?taken, ?refused, ?stray⟩
  case taken =>
    intro s r w hinv hr hlt hok
    have h : s.Canon := hinv.1
    refine ⟨_, exec_doorbell hr hlt w, ?_⟩
    rw [if_pos hok]
    split
    next heq => exact ⟨heq.symm, State.Only.refl s _, rfl⟩
    next =>
      refine ⟨?_, (State.wr_only h _ (of_decide_eq_true rfl)).of_regs (State.setReel_regs ..), ?_⟩
      · rw [State.setReel_rd, State.rd_wr h _ _ (of_decide_eq_true rfl)]
        exact Nat.mod_eq_of_lt w.isLt
      · apply State.eq_of <;> simp
  case refused =>
    intro s r w hr hlt hno
    rw [exec_doorbell hr hlt, hno, if_neg Bool.false_ne_true]
  case stray =>
    intro s r off full w hinv hr hlt hoff
    have h : s.Canon := hinv.1
    exact ⟨_, exec_doorbell_stray hr hlt hoff w, State.rd_bump h HIF_DB_ERRORS.STRAY 1 (by decide),
      State.bump_only h 1 (by decide), s.bump_eq _ _⟩

/-! ### Fetches and arrivals -/

/-- The reels that ask the fetch arbiter. -/
def State.asking (s : State) : List Nat := (List.range 64).filter fun r => decide (0 < s.grantSize r)

/-- Each BULK reel that asked waits one grant more. -/
def State.bulkWaits (s : State) (w : Nat) (asked : List Nat) : State :=
  asked.foldl (fun t r =>
    if r ≠ w ∧ (t.reel r).cls = 2 then t.setReel r fun c => { c with bulkWait := c.bulkWait + 1 } else t) s

/-- One grant of the arbiter (R76), with the link up and out of D3hot. -/
theorem exec_descriptorFetch {s : State} {w : Nat} (hr : s.ready = true) (hd : s.hif.d3hot = false)
    (hl : s.flag HIF_STATUS.LINK_UP = true) (hw : s.countStalls.fetchWinner s.countStalls.asking = some w) :
    exec .descriptorFetch s = .next (if s.countStalls.fetchClass w == 1 then
      (s.countStalls.grantFetch w).bulkWaits w s.countStalls.asking else s.countStalls.grantFetch w) := by
  change execDescriptorFetch s = _
  rw [execDescriptorFetch, State.inService_ready hr, hd, hl, if_neg (by decide)]
  dsimp only
  rw [← State.asking, hw]
  rfl

/-- Settles O24. -/
theorem fetchAndArrival : Obligations.FetchAndArrival := by
  unfold Obligations.FetchAndArrival
  refine ⟨?other, ?normal, ?rests, ?arrival⟩
  case other =>
    intro s w hr hd hl hw hcls
    rw [exec_descriptorFetch hr hd hl hw, if_neg (by simpa using hcls)]
  case normal =>
    intro s w hr hd hl hw hcls
    rw [exec_descriptorFetch hr hd hl hw, if_pos (by simpa using hcls)]
    rfl
  case rests =>
    intro s hs
    have hcond : (s.hif.d3hot || !s.flag HIF_STATUS.LINK_UP) = true := by simpa using hs
    change execDescriptorFetch s = _
    rw [execDescriptorFetch, State.inService_rest (by rw [if_pos hcond])]
  case arrival =>
    intro s r ds hr hlt hle
    change execDescriptorArrival r ds s = _
    rw [execDescriptorArrival, State.inService_ready hr, if_pos ⟨hlt, hle⟩]

end Sys2Proof.Machine
end

section
/-! Enabling, disabling and restarting reels (R68, R72 to R74, R91), and the consumed and executed counts (R71, R92). -/

namespace Sys2Proof.Machine

/-! ### HIF_CR_CFG -/

/-- The fields of HIF_CR_CFG that a write stores, but for ENABLE. -/
def crCfgWrites (r w : Nat) : List (Fld × Nat) :=
  [(HIF_CR_CFG.CLASS r, bitsOf w 1 2), (HIF_CR_CFG.SIZE_LOG2 r, bitsOf w 3 4), (HIF_CR_CFG.EVR r, bitsOf w 8 3)]

theorem State.storeCrCfg_eq (s : State) (r w : Nat) : s.storeCrCfg r w = s.wrs (crCfgWrites r w) := rfl

theorem crCfgWrites_pairwise (r w : Nat) : (crCfgWrites r w).Pairwise fun p q => p.1.apart q.1 := by
  simp only [crCfgWrites, List.pairwise_cons, List.forall_mem_cons, List.not_mem_nil, Fld.apart, HIF_CR_CFG.CLASS,
    HIF_CR_CFG.SIZE_LOG2, HIF_CR_CFG.EVR, false_imp_iff, implies_true, List.Pairwise.nil, and_true]
  omega

theorem crCfgWrites_word {r w : Nat} {p : Fld × Nat} (hp : p ∈ crCfgWrites r w) :
    p.1.off = (HIF_CR_CFG.ENABLE r).off ∧ p.1.hi < 32 ∧ 0 < p.1.lo := by
  simp only [crCfgWrites, List.mem_cons, List.not_mem_nil, or_false] at hp
  obtain rfl | rfl | rfl := hp <;> exact ⟨rfl, of_decide_eq_true rfl, of_decide_eq_true rfl⟩

theorem State.storeCrCfg_canon {s : State} (h : s.Canon) (r w : Nat) : (s.storeCrCfg r w).Canon := wrs_canon h

theorem State.storeCrCfg_mem {s : State} (h : s.Canon) {r w : Nat} {p : Fld × Nat} (hp : p ∈ crCfgWrites r w) :
    (s.storeCrCfg r w).rd p.1 = p.2 % 2 ^ (p.1.hi + 1 - p.1.lo) :=
  rd_wrs_mem (Nat.lt_trans (crCfgWrites_word hp).2.1 (by decide)) (crCfgWrites_pairwise r w) hp h

/-- A field of another word stands. -/
theorem State.storeCrCfg_rd {s : State} (h : s.Canon) {r : Nat} (w : Nat) {f : Fld} (hi : f.hi < 32)
    (ho : f.off + 4 ≤ (HIF_CR_CFG.ENABLE r).off ∨ (HIF_CR_CFG.ENABLE r).off + 4 ≤ f.off) : (s.storeCrCfg r w).rd f = s.rd f :=
  rd_wrs_apart (Nat.lt_trans hi (by decide)) (fun p hp => by
    obtain ⟨hoff, hhi, -⟩ := crCfgWrites_word hp
    exact Fld.apart_word hi hhi (by rw [hoff]; exact ho)) h

theorem State.storeCrCfg_enable {s : State} (h : s.Canon) (r w : Nat) :
    (s.storeCrCfg r w).rd (HIF_CR_CFG.ENABLE r) = s.rd (HIF_CR_CFG.ENABLE r) :=
  rd_wrs_apart (of_decide_eq_true rfl) (fun p hp => by
    obtain ⟨hoff, -, hlo⟩ := crCfgWrites_word hp
    exact Fld.apart_same hoff.symm (.inl hlo)) h

theorem State.storeCrCfg_flag {s : State} (h : s.Canon) (r w : Nat) :
    (s.storeCrCfg r w).flag (HIF_CR_CFG.ENABLE r) = s.flag (HIF_CR_CFG.ENABLE r) := congrArg (· == 1) (storeCrCfg_enable h r w)

theorem State.storeCrCfg_only {s : State} (h : s.Canon) (r w : Nat) : s.Only [(HIF_CR_CFG.ENABLE r).off] (s.storeCrCfg r w) :=
  wrs_only h fun _ hp => ⟨List.mem_singleton.2 (crCfgWrites_word hp).1, (crCfgWrites_word hp).2.1⟩

theorem State.storeCrCfg_evrOn {s : State} (h : s.Canon) {r : Nat} (hr : r < 64) (w v : Nat) :
    (s.storeCrCfg r w).evrOn v = s.evrOn v := by
  have hoff : (HIF_CR_CFG.ENABLE r).off + 4 ≤ (HIF_EVR_STATUS.ACTIVE v).off := by
    simp only [HIF_EVR_STATUS.ACTIVE, HIF_CR_CFG.ENABLE]
    omega
  exact congrArg (· == 1) (storeCrCfg_rd h w (of_decide_eq_true rfl) (.inr hoff))

/-- A field of three bits or so reads whole what is stored from the written word. -/
theorem State.storeCrCfg_class {s : State} (h : s.Canon) (r w : Nat) :
    (s.storeCrCfg r w).rd (HIF_CR_CFG.CLASS r) = bitsOf w 1 2 :=
  (storeCrCfg_mem h (p := (HIF_CR_CFG.CLASS r, bitsOf w 1 2)) (by simp [crCfgWrites])).trans (bitsOf_mod ..)

theorem State.storeCrCfg_size {s : State} (h : s.Canon) (r w : Nat) :
    (s.storeCrCfg r w).rd (HIF_CR_CFG.SIZE_LOG2 r) = bitsOf w 3 4 :=
  (storeCrCfg_mem h (p := (HIF_CR_CFG.SIZE_LOG2 r, bitsOf w 3 4)) (by simp [crCfgWrites])).trans (bitsOf_mod ..)

theorem State.storeCrCfg_evr {s : State} (h : s.Canon) (r w : Nat) :
    (s.storeCrCfg r w).rd (HIF_CR_CFG.EVR r) = bitsOf w 8 3 :=
  (storeCrCfg_mem h (p := (HIF_CR_CFG.EVR r, bitsOf w 8 3)) (by simp [crCfgWrites])).trans (bitsOf_mod ..)

/-! ### A successful enable -/

/-- The registers that an enable sets (R68). -/
def crEnableWrites (r : Nat) : List (Fld × Nat) :=
  [(HIF_CR_CFG.ENABLE r, 1), (HIF_CR_STATUS.ACTIVE r, 1), (HIF_CR_STATUS.HALTED r, 0), (HIF_CR_STATUS.CFG_ERROR r, 0),
    (HIF_CR_STATUS.WAITING r, 0), (HIF_CR_TAIL.TAIL r, 0), (HIF_CR_EXEC.EXEC r, 0)]

theorem crEnableWrites_pairwise (r : Nat) : (crEnableWrites r).Pairwise fun p q => p.1.apart q.1 := by
  simp only [crEnableWrites, List.pairwise_cons, List.forall_mem_cons, List.not_mem_nil, Fld.apart, HIF_CR_CFG.ENABLE,
    HIF_CR_STATUS.ACTIVE, HIF_CR_STATUS.HALTED, HIF_CR_STATUS.CFG_ERROR, HIF_CR_STATUS.WAITING, HIF_CR_TAIL.TAIL,
    HIF_CR_EXEC.EXEC, false_imp_iff, implies_true, List.Pairwise.nil, and_true]
  omega

/-- The words that an enable changes. -/
def crEnableOffs (r : Nat) : List Nat :=
  [(HIF_CR_CFG.ENABLE r).off, (HIF_CR_STATUS.ACTIVE r).off, (HIF_CR_TAIL.TAIL r).off, (HIF_CR_EXEC.EXEC r).off]

theorem crEnableWrites_word {r : Nat} {p : Fld × Nat} (hp : p ∈ crEnableWrites r) : p.1.off ∈ crEnableOffs r ∧ p.1.hi < 32 := by
  simp only [crEnableWrites, List.mem_cons, List.not_mem_nil, or_false] at hp
  obtain rfl | rfl | rfl | rfl | rfl | rfl | rfl := hp <;>
    exact ⟨by simp [crEnableOffs, HIF_CR_STATUS.ACTIVE, HIF_CR_STATUS.HALTED, HIF_CR_STATUS.CFG_ERROR, HIF_CR_STATUS.WAITING],
      of_decide_eq_true rfl⟩

/-- The settings in HIF_CR_CFG beside ENABLE are apart from what an enable sets. -/
theorem crCfg_apart_crEnable {r w : Nat} {q : Fld × Nat} (hq : q ∈ crCfgWrites r w) : ∀ p ∈ crEnableWrites r, q.1.apart p.1 := by
  obtain ⟨hoff, hhi, hlo⟩ := crCfgWrites_word hq
  simp only [HIF_CR_CFG.ENABLE] at hoff
  simp only [crEnableWrites, List.forall_mem_cons, List.not_mem_nil, Fld.apart, HIF_CR_CFG.ENABLE, HIF_CR_STATUS.ACTIVE,
    HIF_CR_STATUS.HALTED, HIF_CR_STATUS.CFG_ERROR, HIF_CR_STATUS.WAITING, HIF_CR_TAIL.TAIL, HIF_CR_EXEC.EXEC, false_imp_iff,
    implies_true, and_true]
  omega

/-- Field writes see the registers alone. -/
theorem State.wrs_congr (l : List (Fld × Nat)) {t u : State} (e : t.regs = u.regs) : (t.wrs l).regs = (u.wrs l).regs := by
  induction l generalizing t u with
  | nil => exact e
  | cons p l ih => exact ih (wr_congr e p.1 p.2)

theorem State.enableReel_regs (s : State) (r w : Nat) : (s.enableReel r w).regs = (s.wrs (crEnableWrites r)).regs :=
  wrs_congr (crEnableWrites r) (setReel_regs ..)

theorem State.enableReel_mem {s : State} (h : s.Canon) {r : Nat} (w : Nat) {p : Fld × Nat} (hp : p ∈ crEnableWrites r) :
    (s.enableReel r w).rd p.1 = p.2 % 2 ^ (p.1.hi + 1 - p.1.lo) := by
  rw [rd_congr (s.enableReel_regs r w)]
  exact rd_wrs_mem (Nat.lt_trans (crEnableWrites_word hp).2 (by decide)) (crEnableWrites_pairwise r) hp h

/-- The stored settings outlast the enable. -/
theorem State.enableReel_crCfg {s : State} (h : s.Canon) {r w : Nat} (v : Nat) {q : Fld × Nat} (hq : q ∈ crCfgWrites r w) :
    (s.enableReel r v).rd q.1 = s.rd q.1 := by
  rw [rd_congr (s.enableReel_regs r v)]
  exact rd_wrs_apart (Nat.lt_trans (crCfgWrites_word hq).2.1 (by decide)) (crCfg_apart_crEnable hq) h

theorem State.enableReel_only {s : State} (h : s.Canon) (r w : Nat) : s.Only (crEnableOffs r) (s.enableReel r w) :=
  (wrs_only h fun _ hp => crEnableWrites_word hp).of_regs (s.enableReel_regs r w)

/-- What a write of HIF_CR_CFG with ENABLE 1 does (R68, R74). -/
theorem exec_crEnable {s : State} (h : s.Open) {r : Nat} (hr : r < 64) (w : Word) : exec (.crEnable r w) s = .next
    (if (s.storeCrCfg r w.toNat).flag (HIF_CR_CFG.ENABLE r) then s.storeCrCfg r w.toNat
    else if (bitsOf w.toNat 1 2 == 0 && (s.storeCrCfg r w.toNat).guardedTaken r) ||
        !(s.storeCrCfg r w.toNat).evrOn (bitsOf w.toNat 8 3) then
      (s.storeCrCfg r w.toNat).wr (HIF_CR_STATUS.CFG_ERROR r) 1
    else (s.storeCrCfg r w.toNat).enableReel r w.toNat) := by
  change execCrEnable r w s = _
  rw [execCrEnable, State.setup_open h, if_neg (by omega)]

theorem State.flag_iff {s : State} {f : Fld} : s.flag f = true ↔ s.rd f = 1 := beq_iff_eq

/-- A one-bit field that is no 1 is 0. -/
theorem State.rd_eq_zero {s : State} {f : Fld} (hf : f.hi = f.lo) (h : s.flag f = false) : s.rd f = 0 := by
  have hlt := s.rd_lt f
  have hne : s.rd f ≠ 1 := fun e => by rw [flag_iff.2 e] at h; cases h
  rw [hf, Nat.add_sub_cancel_left] at hlt
  omega

/-- Settles O25: the three outcomes of a write with ENABLE 1 to a reel that is enabled, may not be, or becomes it. -/
theorem enablingAReelZeroesItsCounts : Obligations.EnablingAReelZeroesItsCounts := by
  unfold Obligations.EnablingAReelZeroesItsCounts
  refine ⟨?enables, ?refused, ?enabled⟩
  case enables =>
    intro s r w hinv hopen hr hoff hguard hevr
    have h : s.Canon := hinv.1
    have hc := State.storeCrCfg_canon h r w.toNat
    have hok : ((bitsOf w.toNat 1 2 == 0 && (s.storeCrCfg r w.toNat).guardedTaken r) ||
        !(s.storeCrCfg r w.toNat).evrOn (bitsOf w.toNat 8 3)) = false := by
      rw [State.storeCrCfg_evrOn h hr, hevr]
      simpa using hguard
    refine ⟨_, exec_crEnable hopen hr w, ?_⟩
    rw [State.storeCrCfg_flag h, hoff, if_neg Bool.false_ne_true, hok, if_neg Bool.false_ne_true]
    have hmem {p : Fld × Nat} (hp : p ∈ crEnableWrites r) := State.enableReel_mem hc w.toNat hp
    have hcfg {q : Fld × Nat} (hq : q ∈ crCfgWrites r w.toNat) := State.enableReel_crCfg hc w.toNat hq
    refine ⟨hmem (p := (HIF_CR_CFG.ENABLE r, 1)) (by simp [crEnableWrites]),
      hmem (p := (HIF_CR_STATUS.ACTIVE r, 1)) (by simp [crEnableWrites]),
      hmem (p := (HIF_CR_STATUS.HALTED r, 0)) (by simp [crEnableWrites]),
      hmem (p := (HIF_CR_STATUS.CFG_ERROR r, 0)) (by simp [crEnableWrites]),
      hmem (p := (HIF_CR_TAIL.TAIL r, 0)) (by simp [crEnableWrites]),
      hmem (p := (HIF_CR_EXEC.EXEC r, 0)) (by simp [crEnableWrites]),
      (hcfg (q := (HIF_CR_CFG.CLASS r, bitsOf w.toNat 1 2)) (by simp [crCfgWrites])).trans (State.storeCrCfg_class h r _),
      (hcfg (q := (HIF_CR_CFG.SIZE_LOG2 r, bitsOf w.toNat 3 4)) (by simp [crCfgWrites])).trans (State.storeCrCfg_size h r _),
      (hcfg (q := (HIF_CR_CFG.EVR r, bitsOf w.toNat 8 3)) (by simp [crCfgWrites])).trans (State.storeCrCfg_evr h r _),
      (State.storeCrCfg_only h r _).trans (State.enableReel_only hc r _) (by simp) (fun _ ha => ha), ?_⟩
    apply State.eq_of <;> simp [State.enableReel, State.storeCrCfg]
  case refused =>
    intro s r w hinv hopen hr hoff hno
    have h : s.Canon := hinv.1
    have hc := State.storeCrCfg_canon h r w.toNat
    have hbad : ((bitsOf w.toNat 1 2 == 0 && (s.storeCrCfg r w.toNat).guardedTaken r) ||
        !(s.storeCrCfg r w.toNat).evrOn (bitsOf w.toNat 8 3)) = true := by
      rw [State.storeCrCfg_evrOn h hr]
      simpa using hno
    refine ⟨_, exec_crEnable hopen hr w, ?_⟩
    rw [State.storeCrCfg_flag h, hoff, if_neg Bool.false_ne_true, if_pos hbad]
    refine ⟨State.rd_wr hc (HIF_CR_STATUS.CFG_ERROR r) 1 (of_decide_eq_true rfl), ?_,
      (State.storeCrCfg_only h r _).trans (State.wr_only hc (f := HIF_CR_STATUS.CFG_ERROR r) 1 (of_decide_eq_true rfl))
        (by simp) (by simp), ?_⟩
    · rw [State.rd_wr_apart hc 1 (enable_apart_status (f := HIF_CR_STATUS.CFG_ERROR r) rfl (of_decide_eq_true rfl)) (of_decide_eq_true rfl),
        State.storeCrCfg_enable h, State.rd_eq_zero rfl hoff]
    · apply State.eq_of <;> simp [State.storeCrCfg]
  case enabled =>
    intro s r w hinv hopen hr hon
    have h : s.Canon := hinv.1
    refine ⟨_, exec_crEnable hopen hr w, ?_⟩
    rw [State.storeCrCfg_flag h, if_pos hon]
    exact ⟨(State.storeCrCfg_enable h r _).trans (State.flag_iff.1 hon), State.storeCrCfg_class h r _,
      State.storeCrCfg_rd h _ (of_decide_eq_true rfl) (by simp only [HIF_CR_TAIL.TAIL, HIF_CR_CFG.ENABLE]; omega),
      State.storeCrCfg_only h r _, s.wrs_eq _⟩

/-! ### Disabling and restarting a reel -/

theorem exec_crDisable {s : State} (h : s.Open) {r : Nat} (hr : r < 64) (w : Word) : exec (.crDisable r w) s = .next
    (if (s.storeCrCfg r w.toNat).flag (HIF_CR_CFG.ENABLE r) then (s.storeCrCfg r w.toNat).disableReel r
    else s.storeCrCfg r w.toNat) := by
  change execCrDisable r w s = _
  rw [execCrDisable, State.setup_open h, if_neg (by omega)]

theorem State.finish_canon {s : State} (h : s.Canon) (r : Nat) (d : Desc) (code detail : Nat) : (s.finish r d code detail).Canon :=
  (haltOn_reports (executed_canon (outcome_canon h (s.originOf_dead r d) code detail) r) r d code).1

/-- The completion of a descriptor leaves ENABLE. -/
theorem State.finish_enable {s : State} (h : s.Canon) {r : Nat} (hr : r < 64) (d : Desc) (code detail : Nat) :
    (s.finish r d code detail).rd (HIF_CR_CFG.ENABLE r) = s.rd (HIF_CR_CFG.ENABLE r) := by
  have ho := outcome_canon h (s.originOf_dead r d) code detail
  rw [finish, haltOn_rd (executed_canon ho r) d code hr (enable_ofReel r) (enable_apart_status rfl (of_decide_eq_true rfl)),
    executed_rd_apart ho (of_decide_eq_true rfl) (enable_apart_status rfl (of_decide_eq_true rfl)) (enable_apart_exec r)
      (enable_apart_status rfl (of_decide_eq_true rfl)),
    outcome_rd_apart h d code detail (enable_ofReel r) hr (enable_apart_status rfl (of_decide_eq_true rfl))]

theorem State.finish_waiting {s : State} (h : s.Canon) {r : Nat} (hr : r < 64) (d : Desc) (code detail : Nat) :
    (s.finish r d code detail).rd (HIF_CR_STATUS.WAITING r) = 0 := by
  have ho := outcome_canon h (s.originOf_dead r d) code detail
  rw [finish, haltOn_rd (executed_canon ho r) d code hr (waiting_ofReel r) (Fld.apart_same rfl (of_decide_eq_true rfl)),
    executed_waiting ho r]

/-- What a disable writes (R72). -/
def crStopWrites (r : Nat) : List (Fld × Nat) := [(HIF_CR_CFG.ENABLE r, 0), (HIF_CR_STATUS.WAITING r, 0)]

theorem crStopWrites_pairwise (r : Nat) : (crStopWrites r).Pairwise fun p q => p.1.apart q.1 :=
  List.pairwise_pair.2 (enable_apart_status rfl (of_decide_eq_true rfl))

/-- A reel is disabled by `crStopWrites`, after which a WAIT_TICK in execution ends, and a reel with nothing in execution is
inactive. -/
theorem State.disableReel_cases (s : State) (r : Nat) : ∃ t : State, t.regs = s.regs ∧
    ((∃ d, s.disableReel r = (t.wrs (crStopWrites r)).finish r d cSuperseded 0) ∨ s.disableReel r = t.wrs (crStopWrites r) ∨
      s.disableReel r = (t.wrs (crStopWrites r)).wr (HIF_CR_STATUS.ACTIVE r) 0) := by
  unfold disableReel
  dsimp only
  generalize hz : State.setReel _ r _ = z
  refine ⟨z, ?_, ?_⟩
  · rw [← hz, setReel_regs]
    split
    · rfl
    · rw [setEvr_regs]
  · rw [← crStopWrites]
    split
    · exact .inl ⟨_, rfl⟩
    · exact .inr (.inl rfl)
    · exact .inr (.inr rfl)

theorem State.disableReel_off {s : State} (h : s.Canon) {r : Nat} (hr : r < 64) :
    (s.disableReel r).rd (HIF_CR_CFG.ENABLE r) = 0 ∧ (s.disableReel r).rd (HIF_CR_STATUS.WAITING r) = 0 := by
  obtain ⟨t, hregs, hcases⟩ := s.disableReel_cases r
  have ht : t.Canon := by unfold Canon; rw [hregs]; exact h
  have hu : (t.wrs (crStopWrites r)).Canon := wrs_canon ht
  have henable : (t.wrs (crStopWrites r)).rd (HIF_CR_CFG.ENABLE r) = 0 :=
    rd_wrs_mem (v := 0) (of_decide_eq_true rfl) (crStopWrites_pairwise r) (by simp [crStopWrites]) ht
  have hwaiting : (t.wrs (crStopWrites r)).rd (HIF_CR_STATUS.WAITING r) = 0 :=
    rd_wrs_mem (v := 0) (of_decide_eq_true rfl) (crStopWrites_pairwise r) (by simp [crStopWrites]) ht
  obtain ⟨d, e⟩ | e | e := hcases
  · rw [e, finish_enable hu hr, finish_waiting hu hr]
    exact ⟨henable, rfl⟩
  · rw [e]
    exact ⟨henable, hwaiting⟩
  · rw [e]
    exact ⟨Eq.trans (rd_wr_apart hu 0 (enable_apart_status rfl (of_decide_eq_true rfl)) (of_decide_eq_true rfl)) henable,
      Eq.trans (rd_wr_apart hu 0 (Fld.apart_same rfl (of_decide_eq_true rfl)) (of_decide_eq_true rfl)) hwaiting⟩

theorem exec_crRestart {s : State} (h : s.Open) (r : Nat) : exec (.crRestart r) s = .next
    (if r < 64 ∧ s.flag (HIF_CR_STATUS.HALTED r) then (s.wr (HIF_CR_STATUS.HALTED r) 0).settle r else s) := by
  change execCrRestart r s = _
  rw [execCrRestart, State.setup_open h]

/-- Settles O26. -/
theorem disableAndRestart : Obligations.DisableAndRestart := by
  unfold Obligations.DisableAndRestart
  refine ⟨?disables, fun s r hinv hr => State.disableReel_off hinv.1 hr, ?disabled, ?halted, ?running⟩
  case disables =>
    intro s r w hinv hopen hr hon
    rw [exec_crDisable hopen hr, State.storeCrCfg_flag hinv.1, if_pos hon]
  case disabled =>
    intro s r w hinv hopen hr hoff
    have h : s.Canon := hinv.1
    refine ⟨_, exec_crDisable hopen hr w, ?_⟩
    rw [State.storeCrCfg_flag h, hoff, if_neg Bool.false_ne_true]
    exact ⟨(State.storeCrCfg_enable h r _).trans (State.rd_eq_zero rfl hoff), State.storeCrCfg_evr h r _,
      State.storeCrCfg_only h r _, s.wrs_eq _⟩
  case halted =>
    intro s r hopen hr hon
    rw [exec_crRestart hopen, if_pos ⟨hr, hon⟩]
  case running =>
    intro s r hopen hoff
    rw [exec_crRestart hopen, if_neg (by simp [hoff])]

end Sys2Proof.Machine
end

section
/-! Event reels and the write-back of executed counts (R71, R91, R92). -/

namespace Sys2Proof.Machine

theorem State.wrs_append (s : State) (l m : List (Fld × Nat)) : s.wrs (l ++ m) = (s.wrs l).wrs m := List.foldl_append

theorem bitsOf_one (x n : Nat) : bitsOf x n 1 = (bitOf x n).toNat := by
  simp only [bitsOf, bitOf]
  obtain h | h := Nat.mod_two_eq_zero_or_one (x >>> n) <;> simp [h]

/-- The fields of HIF_EVR_CFG that a write stores. -/
def evrCfgWrites (v w : Nat) : List (Fld × Nat) :=
  [(HIF_EVR_CFG.ENABLE v, bitsOf w 0 1), (HIF_EVR_CFG.SIZE_LOG2 v, bitsOf w 1 4), (HIF_EVR_CFG.IRQ_SEV v, bitsOf w 5 2)]

/-- The registers that an enable of an event reel sets (R91). -/
def evrEnableWrites (v : Nat) : List (Fld × Nat) :=
  [(HIF_EVR_STATUS.ACTIVE v, 1), (HIF_EVR_STATUS.HEAD_ERROR v, 0), (HIF_EVR_PRODUCED.PRODUCED v, 0),
    (HIF_EVR_CONSUMED.CONSUMED v, 0)]

/-- The words that an enable of an event reel changes. -/
def evrEnableOffs (v : Nat) : List Nat :=
  [(HIF_EVR_CFG.ENABLE v).off, (HIF_EVR_STATUS.ACTIVE v).off, (HIF_EVR_PRODUCED.PRODUCED v).off, (HIF_EVR_CONSUMED.CONSUMED v).off]

theorem evrWrites_pairwise (v w : Nat) : (evrCfgWrites v w ++ evrEnableWrites v).Pairwise fun p q => p.1.apart q.1 := by
  simp only [evrCfgWrites, evrEnableWrites, List.cons_append, List.nil_append, List.pairwise_cons, List.forall_mem_cons,
    List.not_mem_nil, Fld.apart, HIF_EVR_CFG.ENABLE, HIF_EVR_CFG.SIZE_LOG2, HIF_EVR_CFG.IRQ_SEV, HIF_EVR_STATUS.ACTIVE,
    HIF_EVR_STATUS.HEAD_ERROR, HIF_EVR_PRODUCED.PRODUCED, HIF_EVR_CONSUMED.CONSUMED, false_imp_iff, implies_true,
    List.Pairwise.nil, and_true]
  omega

theorem evrWrites_word {v w : Nat} {p : Fld × Nat} (hp : p ∈ evrCfgWrites v w ++ evrEnableWrites v) :
    p.1.off ∈ evrEnableOffs v ∧ p.1.hi < 32 := by
  simp only [evrCfgWrites, evrEnableWrites, List.cons_append, List.nil_append, List.mem_cons, List.not_mem_nil, or_false] at hp
  obtain rfl | rfl | rfl | rfl | rfl | rfl | rfl := hp <;>
    exact ⟨by simp [evrEnableOffs, HIF_EVR_CFG.ENABLE, HIF_EVR_CFG.SIZE_LOG2, HIF_EVR_CFG.IRQ_SEV, HIF_EVR_STATUS.ACTIVE,
      HIF_EVR_STATUS.HEAD_ERROR], of_decide_eq_true rfl⟩

/-- An event reel as its enable leaves it (R91). -/
def State.evrEnabled (s : State) (v w : Nat) : State :=
  ((s.wrs (evrCfgWrites v w)).setEvr v fun q =>
    { base := 4096 * (s.wrs (evrCfgWrites v w)).rd (HIF_EVR_BASE.ADDR v), sizeLog2 := nearer (bitsOf w 1 4) 6 14,
      reserved := q.reserved }).wrs (evrEnableWrites v)

/-- An event reel as its disable leaves it: the records not yet written are discarded (R91). -/
def State.evrDisabled (s : State) (v w : Nat) : State :=
  ((s.wrs (evrCfgWrites v w)).setEvr v fun q => { base := q.base, sizeLog2 := q.sizeLog2, reserved := q.reserved }).wr
    (HIF_EVR_STATUS.ACTIVE v) 0

theorem exec_evrEnable {s : State} (h : s.Open) {v : Nat} (hv : v < 8) {w : Word} (hw : bitOf w.toNat 0 = true)
    (hoff : s.evrOn v = false) : exec (.evrEnable v w) s = .next (s.evrEnabled v w.toNat) := by
  change execEvrEnable v w s = _
  rw [execEvrEnable, State.setup_open h, if_neg (Nat.not_le.2 hv)]
  dsimp only
  rw [hw, hoff, if_pos (by decide)]
  rfl

theorem exec_evrDisable {s : State} (h : s.Open) {v : Nat} (hv : v < 8) {w : Word} (hw : bitOf w.toNat 0 = false)
    (hon : s.evrOn v = true) : exec (.evrEnable v w) s = .next (s.evrDisabled v w.toNat) := by
  change execEvrEnable v w s = _
  rw [execEvrEnable, State.setup_open h, if_neg (Nat.not_le.2 hv)]
  dsimp only
  rw [hw, hon, if_neg (by decide), if_pos (by decide)]
  rfl

theorem State.evrEnabled_regs (s : State) (v w : Nat) :
    (s.evrEnabled v w).regs = (s.wrs (evrCfgWrites v w ++ evrEnableWrites v)).regs := by
  rw [wrs_append]
  exact wrs_congr (evrEnableWrites v) (setEvr_regs ..)

theorem State.evrEnabled_mem {s : State} (h : s.Canon) {v w : Nat} {p : Fld × Nat}
    (hp : p ∈ evrCfgWrites v w ++ evrEnableWrites v) : (s.evrEnabled v w).rd p.1 = p.2 % 2 ^ (p.1.hi + 1 - p.1.lo) := by
  rw [rd_congr (s.evrEnabled_regs v w)]
  exact rd_wrs_mem (Nat.lt_trans (evrWrites_word hp).2 (by decide)) (evrWrites_pairwise v w) hp h

theorem State.evrEnabled_eq (s : State) (v w : Nat) :
    s.evrEnabled v w = { s with regs := (s.evrEnabled v w).regs, hif := (s.evrEnabled v w).hif } := by
  unfold evrEnabled setEvr
  apply State.eq_of <;> simp

theorem State.evrDisabled_eq (s : State) (v w : Nat) :
    s.evrDisabled v w = { s with regs := (s.evrDisabled v w).regs, hif := (s.evrDisabled v w).hif } := by
  unfold evrDisabled setEvr
  apply State.eq_of <;> simp

theorem State.evrDisabled_rd {s : State} (h : s.Canon) {v w : Nat} {f : Fld} (hi : f.hi < 32)
    (hf : f.apart (HIF_EVR_STATUS.ACTIVE v)) : (s.evrDisabled v w).rd f = (s.wrs (evrCfgWrites v w)).rd f := by
  unfold evrDisabled
  rw [rd_wr_apart (by unfold Canon; rw [setEvr_regs]; exact wrs_canon h) 0 hf (Nat.lt_trans hi (by decide))]
  exact rd_congr (setEvr_regs ..) f

/-- Settles O27. -/
theorem eventReelCounts : Obligations.EventReelCounts := by
  unfold Obligations.EventReelCounts
  refine ⟨?enables, ?disables, ?head, ?back⟩
  case enables =>
    intro s v w hinv hopen hv hon hoff
    have h : s.Canon := hinv.1
    refine ⟨_, exec_evrEnable hopen hv hon hoff, ?_⟩
    have henable := State.evrEnabled_mem h (v := v) (p := (HIF_EVR_CFG.ENABLE v, bitsOf w.toNat 0 1)) (w := w.toNat) (by simp [evrCfgWrites])
    have hsize := State.evrEnabled_mem h (v := v) (p := (HIF_EVR_CFG.SIZE_LOG2 v, bitsOf w.toNat 1 4)) (w := w.toNat) (by simp [evrCfgWrites])
    have hsev := State.evrEnabled_mem h (v := v) (p := (HIF_EVR_CFG.IRQ_SEV v, bitsOf w.toNat 5 2)) (w := w.toNat) (by simp [evrCfgWrites])
    refine ⟨henable.trans ?_, hsize.trans (bitsOf_mod ..), hsev.trans (bitsOf_mod ..), ?_, ?_, ?_, ?_, State.evrEnabled_eq ..⟩
    · rw [bitsOf_one, hon]
      rfl
    · exact State.evrEnabled_mem h (v := v) (p := (HIF_EVR_STATUS.ACTIVE v, 1)) (w := w.toNat) (by simp [evrEnableWrites])
    · exact State.evrEnabled_mem h (v := v) (p := (HIF_EVR_PRODUCED.PRODUCED v, 0)) (w := w.toNat) (by simp [evrEnableWrites])
    · exact State.evrEnabled_mem h (v := v) (p := (HIF_EVR_CONSUMED.CONSUMED v, 0)) (w := w.toNat) (by simp [evrEnableWrites])
    · exact (State.wrs_only h fun _ hp => evrWrites_word hp).of_regs (s.evrEnabled_regs v w.toNat)
  case disables =>
    intro s v w hinv hopen hv hoff hon
    have h : s.Canon := hinv.1
    refine ⟨_, exec_evrDisable hopen hv hoff hon, ?_⟩
    refine ⟨?_, ?_, ?_, State.evrDisabled_eq ..⟩
    · rw [State.evrDisabled_rd h (of_decide_eq_true rfl) (by simp only [Fld.apart, HIF_EVR_CFG.ENABLE, HIF_EVR_STATUS.ACTIVE]; omega)]
      refine (State.rd_wrs_mem (v := bitsOf w.toNat 0 1) (of_decide_eq_true rfl)
        ((List.pairwise_append.1 (evrWrites_pairwise v w.toNat)).1) (by simp [evrCfgWrites]) h).trans ?_
      rw [bitsOf_one, hoff]
      rfl
    · exact State.rd_wr (by unfold State.Canon; rw [State.setEvr_regs]; exact State.wrs_canon h) _ _ (of_decide_eq_true rfl)
    · rw [State.evrDisabled_rd h (of_decide_eq_true rfl)
        (by simp only [Fld.apart, HIF_EVR_PRODUCED.PRODUCED, HIF_EVR_STATUS.ACTIVE]; omega)]
      exact State.rd_wrs_apart (of_decide_eq_true rfl) (fun p hp => (List.pairwise_append.1 (evrWrites_pairwise v w.toNat)).2.2 p hp
        (HIF_EVR_PRODUCED.PRODUCED v, 0) (by simp [evrEnableWrites]) |>.symm) h
  case head =>
    intro s v count hr hv hon hlast hd hlink hfull hwanted
    change execEvrHeadRead v count s = _
    rw [execEvrHeadRead, State.inService_ready hr, hlast, if_pos ⟨hv, hon, rfl, hd, hlink, hfull, hwanted⟩]
    rfl
  case back =>
    intro s r hr hlt hlast hd hlink hdue hwb
    change execHeadWriteBack r s = _
    rw [execHeadWriteBack, State.inService_ready hr, hlast, if_pos ⟨hlt, rfl, hd, hlink⟩, State.writeBack, hdue, hwb]
    rfl

end Sys2Proof.Machine
end

section
/-! The resets and power states of the host interface (R66, R67, R426), and the set-up port (R8 to R10, R97, R98). -/

namespace Sys2Proof.Machine

/-! ### HOST_INTERFACE_RESET -/

/-- Dropping entries by their key leaves the values of the other keys. -/
theorem Tbl.get_filter {α : Type} [DecidableEq α] {d : Nat → α} {g : Nat → Bool} (k : Nat) :
    ∀ {t : Tbl α} {lo : Option Nat}, Tbl.wfFrom d lo t = true →
      Tbl.get d (t.filter fun p => g p.1) k = if g k then Tbl.get d t k else d k := by
  intro t
  induction t with
  | nil => intro lo _; exact (ite_self _).symm
  | cons p t ih =>
    intro lo h
    obtain ⟨i, v⟩ := p
    obtain ⟨-, -, ht⟩ := Tbl.wfFrom_cons.1 h
    have hlow : k ≤ i → Tbl.get d (t.filter fun p => g p.1) k = d k := fun hk => by
      rw [ih ht, Tbl.get_below hk ht, ite_self]
    rw [List.filter_cons]
    by_cases hki : i = k
    · subst hki
      cases hg : g i
      · simpa using hlow (Nat.le_refl _)
      · simp [Tbl.get]
    · by_cases hlt : k < i
      · simp only [Tbl.get, hki, hlt, if_false, if_true, ite_self]
        split
        · simp only [Tbl.get, hki, hlt, if_false, if_true]
        · exact hlow (Nat.le_of_lt hlt)
      · simp only [Tbl.get, hki, hlt, if_false]
        rw [← ih ht]
        split
        · simp only [Tbl.get, hki, hlt, if_false]
        · rfl

theorem State.clearHif_word {s : State} (h : s.Canon) (a : Nat) : s.clearHif.word a = if hifReg a then regReset a else s.word a := by
  refine (Tbl.get_filter (g := fun k => !hifReg k) a h).trans ?_
  cases hifReg a <;> rfl

theorem State.clearHif_canon {s : State} (h : s.Canon) : s.clearHif.Canon := Tbl.wf_filter h

theorem State.dropCopies_eq (s : State) : s.dropCopies = { s with surf := s.dropCopies.surf } := by
  obtain ⟨x, e⟩ : ∃ x, s.dropCopies = { s with surf := x } := by
    unfold dropCopies
    refine foldl_keeps (P := fun y : State => ∃ x, { y with surf := { y.surf with copies := [] } } = { s with surf := x })
      (fun y p _ ⟨x, e⟩ => ?_) ⟨_, rfl⟩
    have hy : y = { s with surf := y.surf } := by
      simp only [State.mk.injEq] at e
      apply State.eq_of <;> simp [e]
    rw [hy]
    split
    · split
      · exact ⟨_, rfl⟩
      · exact ⟨_, rfl⟩
    · exact ⟨_, rfl⟩
  rw [e]

/-- The state of the host interface and of what it owes after a reset, but for HIF_STATUS (R66). -/
def State.hostCleared (s : State) : State :=
  let t := s.dropCopies.clearHif
  { t with
    hif := { out := t.hif.out, msix := t.hif.msix }
    pwr := { t.pwr with long := match t.pwr.long with | some (.store _) => some (.store 64) | x => x }
    sig := { t.sig with unfences := t.sig.unfences.map fun (u : Nat × Nat × Nat) => (64, u.2) }
    comp := { t.comp with waiting := t.comp.waiting.map fun (w : WaitCommit) =>
      { w with origin := { w.origin with dead := true }, owners := [] } } }

/-- What HIF_STATUS shows when the link goes down. -/
def linkDownWrites : List (Fld × Nat) := [(HIF_STATUS.LINK_UP, 0), (HIF_STATUS.SPEED, 0), (HIF_STATUS.WIDTH, 0)]

theorem State.hostCleared_word {s : State} (h : s.Canon) (a : Nat) :
    s.hostCleared.word a = if hifReg a then regReset a else s.word a := by
  have hw : s.hostCleared.word a = s.clearHif.word a := by
    rw [hostCleared, dropCopies_eq]
    rfl
  rw [hw, clearHif_word h]

theorem State.hostCleared_canon {s : State} (h : s.Canon) : s.hostCleared.Canon := by
  rw [hostCleared, dropCopies_eq]
  exact clearHif_canon h

/-- A field of HIF_STATUS stands at the clearing. -/
theorem State.hostCleared_rd {s : State} (h : s.Canon) {f : Fld} (ho : f.off = HIF_STATUS.LINK_UP.off) (hi : f.hi < 32) :
    s.hostCleared.rd f = s.rd f := by
  have hw : s.hostCleared.word f.off = s.word f.off := by
    rw [hostCleared_word h, ho]
    rfl
  unfold rd regOf
  rw [if_pos hi, if_pos hi, hw]

theorem linkDown_pairwise : linkDownWrites.Pairwise fun p q => p.1.apart q.1 := by
  simp [linkDownWrites, Fld.apart, HIF_STATUS.LINK_UP, HIF_STATUS.SPEED, HIF_STATUS.WIDTH]

theorem linkDown_word {p : Fld × Nat} (hp : p ∈ linkDownWrites) : p.1.off = HIF_STATUS.LINK_UP.off ∧ p.1.hi < 16 := by
  simp only [linkDownWrites, List.mem_cons, List.not_mem_nil, or_false] at hp
  obtain rfl | rfl | rfl := hp <;> decide

/-- The state before the reset counts itself. -/
def State.hostDowned (s : State) (down : Bool) : State := if down then s.hostCleared.wrs linkDownWrites else s.hostCleared

theorem State.hostDowned_canon {s : State} (h : s.Canon) (down : Bool) : (s.hostDowned down).Canon := by
  unfold hostDowned
  split
  · exact wrs_canon (hostCleared_canon h)
  · exact hostCleared_canon h

theorem State.hostDowned_word {s : State} (h : s.Canon) (down : Bool) {a : Nat} (ha : a ≠ HIF_STATUS.LINK_UP.off) :
    (s.hostDowned down).word a = s.hostCleared.word a := by
  unfold hostDowned
  split
  · exact word_wrs (fun p hp => ⟨by rw [(linkDown_word hp).1]; exact ha, fun h32 => by have := (linkDown_word hp).2; omega⟩)
      (hostCleared_canon h)
  · rfl

/-- The counters of resets stand where the link goes down. -/
theorem State.hostDowned_rd {s : State} (h : s.Canon) (down : Bool) {f : Fld} (ho : f.off = HIF_STATUS.LINK_UP.off)
    (hlo : 16 ≤ f.lo) (hi : f.hi < 32) : (s.hostDowned down).rd f = s.rd f := by
  unfold hostDowned
  split
  · rw [rd_wrs_apart (Nat.lt_trans hi (by decide)) (fun p hp =>
      Fld.apart_same (ho.trans (linkDown_word hp).1.symm) (.inr (Nat.lt_of_lt_of_le (linkDown_word hp).2 hlo))) (hostCleared_canon h)]
    exact hostCleared_rd h ho hi
  · exact hostCleared_rd h ho hi

theorem State.hostDowned_linkUp {s : State} (h : s.Canon) (down : Bool) :
    (s.hostDowned down).rd HIF_STATUS.LINK_UP = if down then 0 else s.rd HIF_STATUS.LINK_UP := by
  unfold hostDowned
  cases down
  · exact hostCleared_rd h rfl (by decide)
  · exact rd_wrs_mem (v := 0) (by decide) linkDown_pairwise (by simp [linkDownWrites]) (hostCleared_canon h)

theorem State.hostDowned_rest (s : State) (down : Bool) : s.hostDowned down = { s.hostCleared with regs := (s.hostDowned down).regs } := by
  unfold hostDowned
  split
  · exact wrs_eq ..
  · rfl

/-- The counter of HIF_STATUS that a reset adds to (R66). -/
def resetCounter (flr : Bool) : Fld := if flr then HIF_STATUS.FLR_COUNT else HIF_STATUS.RESET_COUNT

theorem resetCounter_off (flr : Bool) : (resetCounter flr).off = HIF_STATUS.LINK_UP.off := by cases flr <;> rfl

theorem resetCounter_hi (flr : Bool) : (resetCounter flr).hi < 32 := by cases flr <;> decide

theorem linkUp_apart_resetCounter (flr : Bool) : HIF_STATUS.LINK_UP.apart (resetCounter flr) := by
  cases flr
  · exact .inl (by decide)
  · exact .inl (by decide)

theorem resetCounter_apart (flr : Bool) : (resetCounter flr).apart (resetCounter !flr) := by
  cases flr
  · exact .inr (by decide)
  · exact .inl (by decide)

theorem State.hostReset_eq (s : State) (flr down : Bool) :
    s.hostReset flr down = (s.hostDowned down).bump (resetCounter flr) 1 := rfl

theorem State.hostReset_counts {s : State} (h : s.Canon) (flr down : Bool) :
    (s.hostReset flr down).rd (resetCounter flr) = min (s.rd (resetCounter flr) + 1) 255 := by
  rw [hostReset_eq, rd_bump (hostDowned_canon h down) _ _ (Nat.lt_trans (resetCounter_hi flr) (by decide)),
    hostDowned_rd h down (resetCounter_off flr) (by cases flr <;> decide) (resetCounter_hi flr)]
  cases flr <;> rfl

theorem State.hostReset_other {s : State} (h : s.Canon) (flr down : Bool) :
    (s.hostReset flr down).rd (resetCounter !flr) = s.rd (resetCounter !flr) := by
  have hapart := resetCounter_apart !flr
  rw [Bool.not_not] at hapart
  rw [hostReset_eq, rd_bump_apart (hostDowned_canon h down) 1 hapart (Nat.lt_trans (resetCounter_hi _) (by decide))]
  exact hostDowned_rd h down (resetCounter_off _) (by cases flr <;> decide) (resetCounter_hi _)

theorem State.hostReset_linkUp {s : State} (h : s.Canon) (flr down : Bool) :
    (s.hostReset flr down).rd HIF_STATUS.LINK_UP = if down then 0 else s.rd HIF_STATUS.LINK_UP := by
  rw [hostReset_eq, rd_bump_apart (hostDowned_canon h down) 1 (linkUp_apart_resetCounter flr) (by decide), hostDowned_linkUp h]

theorem State.hostReset_word {s : State} (h : s.Canon) (flr down : Bool) {a : Nat} (ha : a ≠ HIF_STATUS.LINK_UP.off) :
    (s.hostReset flr down).word a = if hifReg a then regReset a else s.word a := by
  rw [← hostCleared_word h, ← hostDowned_word h down ha, hostReset_eq]
  exact bump_only (hostDowned_canon h down) 1 (resetCounter_hi flr) a (by simpa [resetCounter_off] using ha)

theorem State.hostReset_rest (s : State) (flr down : Bool) :
    s.hostReset flr down = { s.hostCleared with regs := (s.hostReset flr down).regs } := by
  have hd := hostDowned_rest s down
  rw [hostReset_eq]
  generalize s.hostDowned down = u at hd ⊢
  rw [hd]
  exact bump_eq ..

/-- Settles O29. -/
theorem hostResetStopsNothingElse : Obligations.HostResetStopsNothingElse := by
  unfold Obligations.HostResetStopsNothingElse
  intro s flr down hinv hr
  have h : s.Canon := hinv.1
  have hexec : exec (.hostInterfaceReset flr down) s = .next (s.hostReset flr down) := by
    change execHostInterfaceReset flr down s = _
    rw [execHostInterfaceReset, State.inService_ready hr]
  have hcounts := State.hostReset_counts h flr down
  have hother := State.hostReset_other h flr down
  refine ⟨_, hexec, fun a ha => ?_, fun a ha hne => ?_, ?_, ?_, State.hostReset_linkUp h flr down, ?_⟩
  · rw [State.hostReset_word h flr down (fun e => by rw [e] at ha; cases ha), ha, if_pos rfl]
  · rw [State.hostReset_word h flr down hne, ha, if_neg Bool.false_ne_true]
  · cases flr
    · exact hother
    · exact hcounts
  · cases flr
    · exact hcounts
    · exact hother
  · rw [State.hostReset_rest, State.hostCleared, State.dropCopies_eq]
    exact ⟨rfl, rfl, rfl, rfl, rfl, rfl, rfl, rfl, rfl⟩

/-! ### Power states and the link -/

theorem State.flushPba_regs (s : State) : s.flushPba.regs = s.regs := by
  unfold flushPba
  refine foldl_keeps (P := fun y : State => y.regs = s.regs) (fun y n _ hy => ?_) rfl
  split
  · exact hy
  · exact hy

/-- What HIF_STATUS shows when the link comes up. -/
def linkUpWrites (speed width : Nat) : List (Fld × Nat) :=
  [(HIF_STATUS.LINK_UP, 1), (HIF_STATUS.SPEED, speed), (HIF_STATUS.WIDTH, width)]

theorem linkUp_pairwise (speed width : Nat) : (linkUpWrites speed width).Pairwise fun p q => p.1.apart q.1 := by
  simp [linkUpWrites, Fld.apart, HIF_STATUS.LINK_UP, HIF_STATUS.SPEED, HIF_STATUS.WIDTH]

theorem linkUp_word {speed width : Nat} {p : Fld × Nat} (hp : p ∈ linkUpWrites speed width) :
    p.1.off ∈ [HIF_STATUS.LINK_UP.off] ∧ p.1.hi < 32 := by
  simp only [linkUpWrites, List.mem_cons, List.not_mem_nil, or_false] at hp
  obtain rfl | rfl | rfl := hp <;> exact ⟨List.mem_singleton.2 rfl, of_decide_eq_true rfl⟩

/-- Settles O30. -/
theorem linkAndPowerStates : Obligations.LinkAndPowerStates := by
  unfold Obligations.LinkAndPowerStates
  refine ⟨?entry, fun s a n x hd => if_pos hd, ?return_, ?link, ?msix⟩
  case entry =>
    intro s hr
    change execD3hotEntry s = _
    rw [execD3hotEntry, State.inService_ready hr]
  case return_ =>
    intro s hr hd
    change execD0Return s = _
    rw [execD0Return, State.inService_ready hr, if_pos hd]
  case link =>
    intro s speed width hinv hporst hclk hdead hpcie hspeed hwidth
    have h : s.Canon := hinv.1
    have hexec : exec (.pcieLinkUp speed width) s = .next (s.wrs (linkUpWrites speed width)).flushPba := by
      change execPcieLinkUp speed width s = _
      rw [execPcieLinkUp, if_pos ⟨hporst, hclk, by rw [hdead]; rfl, hpcie⟩]
      rfl
    have hreads : ∀ p ∈ linkUpWrites speed width,
        (s.wrs (linkUpWrites speed width)).flushPba.rd p.1 = p.2 % 2 ^ (p.1.hi + 1 - p.1.lo) := fun p hp => by
      rw [State.rd_congr (State.flushPba_regs _)]
      exact State.rd_wrs_mem (Nat.lt_trans (linkUp_word hp).2 (by decide)) (linkUp_pairwise speed width) hp h
    refine ⟨_, hexec, hreads (HIF_STATUS.LINK_UP, 1) (by simp [linkUpWrites]),
      (hreads (HIF_STATUS.SPEED, speed) (by simp [linkUpWrites])).trans (Nat.mod_eq_of_lt hspeed),
      (hreads (HIF_STATUS.WIDTH, width) (by simp [linkUpWrites])).trans (Nat.mod_eq_of_lt hwidth), ?_⟩
    exact (State.wrs_only h fun _ hp => linkUp_word hp).of_regs (State.flushPba_regs _)
  case msix =>
    intro s enable mask hr
    change execMsixEnableWrite enable mask s = _
    rw [execMsixEnableWrite, State.inService_ready hr]

/-! ### The set-up port -/

theorem accessParts_one {off n : Nat} (v : Nat) (hoff : off % 4 = 0) (hn : n = 1 ∨ n = 2 ∨ n = 4) :
    accessParts 3 off n v = [(off, n, v % 2 ^ (8 * n))] := by
  have hmin : min n (4 - off % 4) = n := by omega
  rw [accessParts, if_neg (by omega), if_neg (by omega), hmin]
  dsimp only
  rw [Nat.sub_self]
  rfl

theorem exec_setupWrite {s : State} (h : s.Open) {off n v : Nat} (hoff : off % 4 = 0) (hn : n = 1 ∨ n = 2 ∨ n = 4) :
    exec (.setupWrite off n v) s = .next (s.writePart off n (v % 2 ^ (8 * n))) := by
  change execSetupWrite off n v s = _
  rw [execSetupWrite, if_pos (by omega), accessParts_one v hoff hn, List.foldl_cons, List.foldl_nil, State.portPart,
    State.inService_ready h.1, State.setup_open h, ite_self]

theorem State.writePart_word (s : State) (off v : Nat) : s.writePart off 4 v = s.write32 off (BitVec.ofNat 32 v) := rfl

/-- A write between the interrupt controller and the set-up registers of LSAFE and the stack does no more than store. -/
theorem State.afterWrite_plain {s : State} {off : Nat} (hlo : 0x80000 ≤ off) (hhi : off < 0x200000) : s.afterWrite off = s := by
  unfold afterWrite
  simp only [TICK_OUT_CFG.ENABLE, SKN_LSAFE_CFG.LATCH, THM_SHED_ORDER.FIRST]
  rw [if_neg (by omega), if_neg (by omega), if_neg (by omega), if_neg (by omega), if_neg (by omega)]

/-- Settles O31. -/
theorem setupPortServesWrites : Obligations.SetupPortServesWrites := by
  unfold Obligations.SetupPortServesWrites
  refine ⟨?stored, ?unmapped, ?narrow, ?busy⟩
  case stored =>
    intro s off v r hinv hopen hoff hv hmsix hfind hwide m
    have hexec : exec (.setupWrite off 4 v) s =
        .next ((s.setWord off ((s.word off &&& ~~~m) ||| (BitVec.ofNat 32 v &&& m))).afterWrite off) := by
      rw [exec_setupWrite hopen hoff (.inr (.inr rfl)), State.writePart_word, Nat.mod_eq_of_lt hv, State.write32, hmsix,
        if_neg Bool.false_ne_true, hfind]
      simp only [hwide, Bool.false_and, Bool.false_eq_true, if_false]
      rfl
    refine ⟨_, hexec, rfl, fun hlo hhi => ?_⟩
    rw [State.afterWrite_plain hlo hhi]
    refine ⟨?_, fun a ha => ?_, rfl⟩
    · rw [State.word_setWord hinv.1, if_pos rfl]
    · rw [State.word_setWord hinv.1, if_neg (by simpa using ha)]
  case unmapped =>
    intro s off v hinv hopen hoff hv hmsix hfind
    have hexec : exec (.setupWrite off 4 v) s = .next (s.bump DEV_UNMAPPED.COUNT 1) := by
      rw [exec_setupWrite hopen hoff (.inr (.inr rfl)), State.writePart_word, State.write32, hmsix, if_neg Bool.false_ne_true, hfind]
    exact ⟨_, hexec, State.rd_bump hinv.1 _ 1 (by decide), State.bump_only hinv.1 1 (by decide), State.bump_eq ..⟩
  case narrow =>
    intro s off n v hinv hopen hoff hn hfind
    have hexec : exec (.setupWrite off n v) s = .next (s.bump DEV_SETUP_DROPPED.COUNT 1) := by
      rw [exec_setupWrite hopen hoff (by omega), State.writePart, if_neg (by omega), if_neg (by omega), if_pos]
      right
      rw [Nat.div_mul_cancel (Nat.dvd_of_mod_eq_zero hoff)]
      exact hfind
    exact ⟨_, hexec, State.rd_bump hinv.1 _ 1 (by decide), State.bump_only hinv.1 1 (by decide), State.bump_eq ..⟩
  case busy =>
    intro s off v hinv hr hbusy hoff hmsix
    change execSetupWrite off 4 v s = _
    rw [execSetupWrite, if_pos (by omega), accessParts_one v hoff (.inr (.inr rfl)), List.foldl_cons, List.foldl_nil,
      State.portPart, Nat.div_mul_cancel (Nat.dvd_of_mod_eq_zero hoff), hmsix, if_neg Bool.false_ne_true]
    exact congrArg _ (State.setup_busy hr hbusy _)

end Sys2Proof.Machine
end

section
/-! Host data, the memory stack, surfaces and their copies (R100 to R114, R187, R397, R413). -/

namespace Sys2Proof.Machine

/-! ### Host data -/

/-- The host data of a descriptor arrives whole and is used. -/
theorem exec_hostDataReadEnd {s : State} {r : Nat} {d : Desc} {bs : List Byte} (hr : s.ready = true)
    (hheld : s.held r = some (d, .hostData)) (hd : s.hif.d3hot = false) (hlen : bs.length = hostDataLength d) :
    exec (.hostDataReadEnd r bs) s = .next (s.apply r d (hostDataBody r d bs s)) := by
  change execHostDataReadEnd r bs s = _
  rw [execHostDataReadEnd, State.inService_ready hr]
  simp only [hheld, hd, hlen, and_self, if_true]

theorem hostDataBody_palette {d : Desc} (h : dOpcode d = 0x10) (r : Nat) (bs : List Byte) (s : State) :
    hostDataBody r d bs s = paletteData d bs s := if_pos h

theorem hostDataBody_coef {d : Desc} (h : dOpcode d = 0x29) (r : Nat) (bs : List Byte) (s : State) :
    hostDataBody r d bs s = coefData d bs s := by
  simp [hostDataBody, h]

theorem hostDataBody_mesh {d : Desc} (h : dOpcode d = 0x30) (r : Nat) (bs : List Byte) (s : State) :
    hostDataBody r d bs s = meshData d bs s := by
  simp [hostDataBody, h]

theorem hostDataBody_saddle {d : Desc} (h : dOpcode d = 0x31) (r : Nat) (bs : List Byte) (s : State) :
    hostDataBody r d bs s = saddleData d bs s := by
  simp [hostDataBody, h]

theorem meshData_good {d : Desc} {bs : List Byte} (h : (meshPoints bs).findIdx? pointBad = none) (s : State) :
    meshData d bs s = .done (s.setShadow (dIndex d) fun b => { b with warp := b.warp.withMesh d (meshPoints bs) }) cDone 0 := by
  unfold meshData
  dsimp only
  rw [h]

theorem coefData_bad {d : Desc} {bs : List Byte} {ph : Nat}
    (h : badPhase (coefTaps (dF d 16 0 1)) (coefsOf (coefTaps (dF d 16 0 1)) bs) = some ph) (s : State) :
    coefData d bs s = .done s 0x29 ph := by
  simp only [coefData, h]

theorem coefData_good {d : Desc} {bs : List Byte}
    (h : badPhase (coefTaps (dF d 16 0 1)) (coefsOf (coefTaps (dF d 16 0 1)) bs) = none) (s : State) :
    coefData d bs s = .done (s.setSclShadow (dIndex d) fun x =>
      if dF d 16 0 1 = 0 then { x with coefH := some (coefsOf (coefTaps (dF d 16 0 1)) bs) }
      else { x with coefV := some (coefsOf (coefTaps (dF d 16 0 1)) bs) }) cDone 0 := by
  simp only [coefData, h]

theorem hostDataLength_palette {d : Desc} (h : dOpcode d = 0x10) : hostDataLength d = 1024 := by simp only [hostDataLength, h]
theorem hostDataLength_mesh {d : Desc} (h : dOpcode d = 0x30) : hostDataLength d = 19240 := by simp only [hostDataLength, h]
theorem hostDataLength_saddle {d : Desc} (h : dOpcode d = 0x31) : hostDataLength d = 2048 := by simp only [hostDataLength, h]
theorem hostDataLength_coef {d : Desc} (h : dOpcode d = 0x29) : hostDataLength d = 128 * coefTaps (dF d 16 0 1) := by
  simp only [hostDataLength, h]

/-- Settles O32. -/
theorem hostDataIsStored : Obligations.HostDataIsStored := by
  unfold Obligations.HostDataIsStored
  refine ⟨?palette, ?saddle, ?mesh, ?badCoef, ?coef, ?undue⟩
  case palette =>
    intro s r d bs hr hheld hd hop hlen
    rw [exec_hostDataReadEnd hr hheld hd (hlen.trans (hostDataLength_palette hop).symm), hostDataBody_palette hop, paletteData,
      State.apply_done]
  case saddle =>
    intro s r d bs hr hheld hd hop hlen
    rw [exec_hostDataReadEnd hr hheld hd (hlen.trans (hostDataLength_saddle hop).symm), hostDataBody_saddle hop, saddleData,
      State.apply_done]
  case mesh =>
    intro s r d bs hr hheld hd hop hlen hpoints
    rw [exec_hostDataReadEnd hr hheld hd (hlen.trans (hostDataLength_mesh hop).symm), hostDataBody_mesh hop,
      meshData_good hpoints, State.apply_done]
  case badCoef =>
    intro s r ph d bs hr hheld hd hop hlen hbad
    rw [exec_hostDataReadEnd hr hheld hd (hlen.trans (hostDataLength_coef hop).symm), hostDataBody_coef hop,
      coefData_bad hbad, State.apply_done]
  case coef =>
    intro s r d bs hr hheld hd hop hlen hgood
    rw [exec_hostDataReadEnd hr hheld hd (hlen.trans (hostDataLength_coef hop).symm), hostDataBody_coef hop,
      coefData_good hgood, State.apply_done]
  case undue =>
    intro s r d bs hheld hundue
    change execHostDataReadEnd r bs s = _
    refine congrArg _ (State.inService_rest ?_)
    simp only [hheld]
    refine if_neg fun ⟨hd, hlen⟩ => ?_
    obtain hot | hne := hundue
    · rw [hd] at hot; cases hot
    · exact hne hlen

/-! ### The memory stack -/

/-- Settles O33. -/
theorem stackReadsWhatWasStored : Obligations.StackReadsWhatWasStored := by
  unfold Obligations.StackReadsWhatWasStored
  refine ⟨fun s a b hinv hopen => ?_, fun s a b hfenced => ⟨if_pos hfenced, if_pos hfenced⟩⟩
  have hset : s.memSet a b = { s with stk := { s.stk with mem := Tbl.put memDefault (locate s.stk.masks a) b s.stk.mem } } :=
    if_neg (ne_true_of_eq_false hopen)
  have hcell : ∀ l, (s.memSet a b).cell l = if l = locate s.stk.masks a then b else s.cell l := fun l => by
    rw [hset]
    exact Tbl.get_put hinv.2.1
  refine ⟨?_, fun l hl => by rw [hcell, if_neg hl]⟩
  have hread : (s.memSet a b).mem a = (s.memSet a b).cell (locate s.stk.masks a) := by
    rw [hset]
    exact if_neg (ne_true_of_eq_false hopen)
  rw [hread, hcell, if_pos rfl]

/-! ### Descriptors that pass R82 -/

/-- A clean descriptor with its fields in range, good addresses and no fenced unit goes on, where it starts no store. -/
theorem State.checked_clean {s : State} {d : Desc} {l : List (Nat × Nat × Nat)} {fields addrs fenced : Bool} (h : s.Clean d l)
    (hfields : fields = true) (haddrs : addrs = true) (hfenced : fenced = false) (k : Unit → Res) :
    s.checked (s.r82 d l fields addrs fenced false) k = k () := by
  rw [hfields, haddrs, hfenced, r82_clean h, checked_none]

/-! ### Surfaces and atlases -/

theorem hostOk_of {a n al : Nat} (ha : a % al = 0) (hn : a + n ≤ 2 ^ 64) : hostOk a n al = true := by
  rw [hostOk, ha, decide_eq_true hn]
  rfl

/-- What a SURFACE_DEFINE that R82 passes comes to. -/
theorem surfaceDefineBody_clean {s : State} {d : Desc} (r : Nat)
    (hclean : s.Clean d [(8, 0, 64), (16, 0, 16), (18, 0, 16), (20, 0, 4), (20, 4, 2), (21, 0, 8), (24, 0, 32), (32, 0, 64)])
    (hidx : dIndex d < 4096) (hfields : surfaceFields (surfaceOf d) (dF d 32 0 64) = true)
    (hbase : dF d 8 0 64 % (if dF d 20 4 2 = 0 then 64 else 4096) = 0)
    (hend : dF d 8 0 64 + (surfaceOf d).footprint ≤ stackBytes) (hpal : hostOk (dF d 32 0 64) 1024 64 = true) :
    surfaceDefineBody r d s = if surfaceFormatBad (surfaceOf d) then .done s cSurfaceFormat 0
      else if dF d 32 0 64 ≠ 0 then .wait s .hostData else .done (s.defineSurface (dIndex d) (surfaceOf d)) cDone 0 := by
  have haddrs : ((surfaceOf d).base % (if (surfaceOf d).layout = 0 then 64 else 4096) == 0 &&
      decide ((surfaceOf d).base + (surfaceOf d).footprint ≤ stackBytes) && hostOk (dF d 32 0 64) 1024 64) = true := by
    rw [hpal, Bool.and_true, Bool.and_eq_true]
    exact ⟨beq_iff_eq.2 hbase, decide_eq_true hend⟩
  unfold surfaceDefineBody
  dsimp only
  rw [State.checked_clean hclean (Bool.and_eq_true_iff.2 ⟨decide_eq_true hidx, hfields⟩) haddrs rfl]

theorem surfaceStateBody_clean {s : State} {d : Desc} (r : Nat) (hclean : s.Clean d [(8, 0, 2)]) (hidx : dIndex d < 4096)
    (hact : dF d 8 0 2 ≠ 3) : surfaceStateBody r d s =
      let t := if dF d 8 0 2 = 0 then s else s.setSurface (dIndex d) fun f => { f with ready := dF d 8 0 2 == 1 }
      .done t cDone (b2n (t.surface (dIndex d)).ready + 2 * ((t.surface (dIndex d)).writes % 512)) := by
  have hfields : (decide (dIndex d < 4096) && dF d 8 0 2 != 3) = true :=
    Bool.and_eq_true_iff.2 ⟨decide_eq_true hidx, bne_iff_ne.2 hact⟩
  unfold surfaceStateBody
  dsimp only
  rw [State.checked_clean hclean hfields rfl rfl]

/-- The copy that an ATLAS_DEFINE starts of a whole surface (R111). -/
def atlasCopy (f : Surface) (d : Desc) : CopyJob :=
  { surface := dF d 8 0 12, desc := f, image := some 0, x := 0, y := 0, w := 0, h := 0, length := f.footprint, done := 0,
    began := false }

theorem atlasDefineBody_clean {s : State} {d : Desc} (r : Nat) (hclean : s.Clean d [(8, 0, 12), (10, 0, 2), (16, 0, 64)])
    (hidx : dIndex d < 256)
    (hhost : hostOk (dF d 16 0 64) (if dF d 16 0 64 = 0 then 0 else (s.surface (dF d 8 0 12)).footprint) 64 = true) :
    atlasDefineBody r d s =
      if dB d 10 0 ∧ ((s.surface (dF d 8 0 12)).width = 0 ∨ !((s.surface (dF d 8 0 12)).format == 0 ||
          (s.surface (dF d 8 0 12)).format == 1 || (s.surface (dF d 8 0 12)).format == 6 ||
          (s.surface (dF d 8 0 12)).format == 7)) then .done s cSurfaceFormat 0
      else if dF d 16 0 64 ≠ 0 ∧ dB d 10 0 then
        .wait (s.setCopy r (some (atlasCopy (s.surface (dF d 8 0 12)) d))) .copy
      else .done (s.setAtlas (dIndex d) (atlasOf d)) cDone 0 := by
  unfold atlasDefineBody
  dsimp only
  rw [State.checked_clean hclean (decide_eq_true hidx) hhost rfl]
  rfl

theorem exec_surfaceDefine {s : State} {r : Nat} {d : Desc} (h : s.Due r 0x10 d) :
    exec (.surfaceDefine r) s = .next (s.apply r d (surfaceDefineBody r d s)) := by
  change execSurfaceDefine r s = _
  rw [execSurfaceDefine, State.descriptor_due h]

theorem exec_surfaceState {s : State} {r : Nat} {d : Desc} (h : s.Due r 0x12 d) :
    exec (.surfaceState r) s = .next (s.apply r d (surfaceStateBody r d s)) := by
  change execSurfaceState r s = _
  rw [execSurfaceState, State.descriptor_due h]

theorem exec_atlasDefine {s : State} {r : Nat} {d : Desc} (h : s.Due r 0x13 d) :
    exec (.atlasDefine r) s = .next (s.apply r d (atlasDefineBody r d s)) := by
  change execAtlasDefine r s = _
  rw [execAtlasDefine, State.descriptor_due h]

/-- Settles O34. -/
theorem surfacesAreDefined : Obligations.SurfacesAreDefined := by
  unfold Obligations.SurfacesAreDefined
  intro fields good
  refine ⟨?define, ?palette, ?bad, ?query, ?mark, ?entry, ?copy⟩
  case define =>
    intro s r d hdue hclean ⟨hidx, hfields, hbase, hend, hal, hpal⟩ hformat hnone
    rw [exec_surfaceDefine hdue, surfaceDefineBody_clean r hclean hidx hfields hbase hend (hostOk_of hal hpal), hformat,
      if_neg Bool.false_ne_true, if_neg (not_not_intro hnone), State.apply_done, State.defineSurface]
  case palette =>
    intro s r d hdue hclean ⟨hidx, hfields, hbase, hend, hal, hpal⟩ hformat hsome
    rw [exec_surfaceDefine hdue, surfaceDefineBody_clean r hclean hidx hfields hbase hend (hostOk_of hal hpal), hformat,
      if_neg Bool.false_ne_true, if_pos hsome, State.apply_wait]
  case bad =>
    intro s r d hdue hclean ⟨hidx, hfields, hbase, hend, hal, hpal⟩ hformat
    rw [exec_surfaceDefine hdue, surfaceDefineBody_clean r hclean hidx hfields hbase hend (hostOk_of hal hpal), hformat,
      if_pos rfl, State.apply_done, cSurfaceFormat]
  case query =>
    intro s r d hdue hclean hidx hact
    rw [exec_surfaceState hdue, surfaceStateBody_clean r hclean hidx (by omega), if_pos hact]
    dsimp only
    rw [State.apply_done]
  case mark =>
    intro s r d hdue hclean hidx hact t
    rw [exec_surfaceState hdue, surfaceStateBody_clean r hclean hidx (by omega), if_neg (by omega)]
    dsimp only
    rw [State.apply_done]
  case entry =>
    intro s r d hdue hclean hidx hhost hvalid
    rw [exec_atlasDefine hdue, atlasDefineBody_clean r hclean hidx (by rw [hhost]; rfl), if_neg (by simp [hvalid]),
      if_neg (by simp [hvalid]), State.apply_done]
  case copy =>
    intro s r d hdue hclean hidx hhost hal hend hvalid hwidth hformat
    refine ⟨atlasCopy (s.surface (dF d 8 0 12)) d, rfl, rfl, rfl, rfl, rfl, ?_⟩
    rw [exec_atlasDefine hdue, atlasDefineBody_clean r hclean hidx (by rw [if_neg hhost]; exact hostOk_of hal hend),
      if_neg (by simp [hwidth, hformat]), if_pos ⟨hhost, hvalid⟩, State.apply_wait]

/-! ### Copies -/

/-- No cell at a location of `P` changes, and neither does the address map. -/
structure State.Spares (s t : State) (P : Nat → Prop) : Prop where
  masks : t.stk.masks = s.stk.masks
  wf : Memory.wf s.stk.mem = true → Memory.wf t.stk.mem = true
  cells : Memory.wf s.stk.mem = true → ∀ l, P l → t.cell l = s.cell l

theorem State.Spares.of_stk {s t : State} (P : Nat → Prop) (hmasks : t.stk.masks = s.stk.masks) (hmem : t.stk.mem = s.stk.mem) :
    s.Spares t P where
  masks := hmasks
  wf h := by rw [hmem]; exact h
  cells _ l _ := by unfold cell; rw [hmem]

theorem State.Spares.refl (s : State) (P : Nat → Prop) : s.Spares s P := .of_stk P rfl rfl

theorem State.Spares.trans {s t u : State} {P : Nat → Prop} (h : s.Spares t P) (k : t.Spares u P) : s.Spares u P where
  masks := k.masks.trans h.masks
  wf hw := k.wf (h.wf hw)
  cells hw l hl := (k.cells (h.wf hw) l hl).trans (h.cells hw l hl)

theorem State.Spares.of_keeps {F : List Part} {s t : State} (P : Nat → Prop) (h : Keeps F s t) (hstk : Part.stk ∉ F)
    (hmem : Part.mem ∉ F) : s.Spares t P := by
  have hs : Part.stk.same s t := (h.parts .stk).resolve_left hstk
  have hm : Part.mem.same s t := (h.parts .mem).resolve_left hmem
  exact .of_stk P (congrArg (·.masks) hs) hm

theorem State.Spares.foldl {α : Type} {P : Nat → Prop} {f : State → α → State} {l : List α} {s : State}
    (hf : ∀ t a, a ∈ l → s.Spares t P → t.Spares (f t a) P) : s.Spares (l.foldl f s) P :=
  foldl_keeps (P := fun t => s.Spares t P) (fun t a ha ht => ht.trans (hf t a ha ht)) (.refl s P)

theorem State.memSet_spares {s : State} {P : Nat → Prop} {a : Nat} (b : Byte) (hP : ∀ l, P l → l ≠ locate s.stk.masks a) :
    s.Spares (s.memSet a b) P := by
  unfold memSet
  dsimp only
  split
  · exact .refl s P
  · exact ⟨rfl, fun h => Tbl.wf_put h, fun h l hl => (Tbl.get_put h).trans (if_neg (hP l hl))⟩

theorem State.memWrite_spares {P : Nat → Prop} {bs : List Byte} : ∀ {s : State} {a : Nat},
    (∀ l, P l → ∀ k, k < bs.length → l ≠ locate s.stk.masks (a + k)) → s.Spares (s.memWrite a bs) P := by
  induction bs with
  | nil => exact fun _ => .refl _ P
  | cons b bs ih =>
    intro s a hP
    have hset : s.Spares (s.memSet a b) P := memSet_spares b fun l hl => hP l hl 0 (Nat.succ_pos _)
    refine hset.trans (ih fun l hl k hk => ?_)
    rw [hset.masks, Nat.add_assoc, Nat.add_comm 1]
    exact hP l hl (k + 1) (Nat.succ_lt_succ hk)

theorem State.countC3_spares (s : State) (a n : Nat) (P : Nat → Prop) : s.Spares (s.countC3 a n) P := by
  refine .foldl fun t b _ _ => ?_
  dsimp only
  split
  · exact .refl t P
  · exact .of_stk P rfl rfl

theorem State.countFenced_spares (s : State) (a n : Nat) (P : Nat → Prop) : s.Spares (s.countFenced a n) P :=
  .of_keeps (F := []) P (State.countFenced_keeps (Keeps.refl s)) List.not_mem_nil List.not_mem_nil

theorem State.copyBytes_spares {s : State} {P : Nat → Prop} {j : CopyJob} {bs : List Byte}
    (hP : ∀ l, P l → ∀ k, k < bs.length → l ≠ locate s.stk.masks (copyTarget j k)) : s.Spares (s.copyBytes j bs) P := by
  unfold copyBytes
  cases himage : j.image with
  | some off =>
    have hcount := (s.countC3_spares (j.desc.base + off + j.done) bs.length P).trans (countFenced_spares _ (j.desc.base + off + j.done) bs.length P)
    refine hcount.trans (memWrite_spares fun l hl k hk => ?_)
    have htarget : copyTarget j k = j.desc.base + off + j.done + k := by simp only [copyTarget, himage]
    rw [hcount.masks, ← htarget]
    exact hP l hl k hk
  | none =>
    dsimp only
    generalize hz : List.foldl (fun s a => s.countFenced a 1) s _ = z
    have hcount : s.Spares z P := by
      rw [← hz]
      exact .foldl fun t a _ _ => countFenced_spares t a 1 P
    refine hcount.trans ?_
    refine .foldl fun t p hp ht => ?_
    refine (t.countC3_spares p.1 1 P).trans (memSet_spares _ fun l hl => ?_)
    obtain ⟨⟨b, i⟩, hi, rfl⟩ := List.mem_map.1 hp
    have hlt : i < bs.length := (List.getElem?_eq_some_iff.1 (List.mk_mem_zipIdx_iff_getElem?.1 hi)).1
    have htarget : copyTarget j i = j.rectAddr (j.done + i) := by simp only [copyTarget, himage]
    rw [(t.countC3_spares _ 1 P).masks, ht.masks, hcount.masks, ← htarget]
    exact hP l hl i hlt

/-- A SURFACE_COPY that R82 passes and its layout allows begins its copy. -/
theorem surfaceCopyBody_clean {s : State} {d : Desc} (r : Nat)
    (hclean : s.Clean d [(8, 0, 64), (16, 0, 32), (20, 0, 1), (24, 0, 16), (26, 0, 16), (28, 0, 16), (30, 0, 16), (32, 0, 64),
      (40, 0, 32)])
    (hidx : dIndex d < 4096) (hfields : copyFields (s.surface (dIndex d)) d = true)
    (haddrs : copyAddrs (s.surface (dIndex d)) d = true) (hmode : dF d 20 0 1 = 1 ∨ (s.surface (dIndex d)).layout ≠ 2) :
    surfaceCopyBody r d s = .wait (s.setCopy r (some (copyJob (s.surface (dIndex d)) d))) .copy := by
  unfold surfaceCopyBody
  dsimp only
  rw [State.checked_clean hclean (Bool.and_eq_true_iff.2 ⟨decide_eq_true hidx, hfields⟩) haddrs rfl, if_neg (by omega)]

/-- The state in which a copy's next bytes are written: the first begin a write into the surface (R112). -/
def State.copyBegun (s : State) (j : CopyJob) : State := if j.began then s else s.startWrite j.surface

/-- What the next bytes of a copy in execution do, no more than are left of it (R108, R112). -/
def State.copyStep (s : State) (r : Nat) (d : Desc) (j : CopyJob) (bs : List Byte) : State :=
  if j.done + bs.length = j.length then
    ((s.copyBegun j).copyBytes j bs).endCopy r d { j with done := j.done + bs.length, began := true } true cDone 0
  else ((s.copyBegun j).copyBytes j bs).setCopy r (some { j with done := j.done + bs.length, began := true })

theorem exec_copyWriteEnd {s : State} {r : Nat} {d : Desc} {j : CopyJob} (hheld : s.held r = some (d, .copy))
    (hcopy : s.copyOf r = some j) (bs : List Byte) : exec (.copyWriteEnd r bs) s = .next (s.inService fun s =>
      if s.hif.d3hot ∨ bs.take (j.length - j.done) = [] then s else s.copyStep r d j (bs.take (j.length - j.done))) := by
  change execCopyWriteEnd r bs s = _
  rw [execCopyWriteEnd]
  unfold State.inService
  split
  · simp only [hheld, hcopy]
    rfl
  · rfl

/-- Bytes that are left of the copy are written. -/
theorem exec_copyWriteEnd_next {s : State} {r : Nat} {d : Desc} {j : CopyJob} {bs : List Byte} (hr : s.ready = true)
    (hheld : s.held r = some (d, .copy)) (hcopy : s.copyOf r = some j) (hd : s.hif.d3hot = false) (hbs : bs ≠ [])
    (hlen : j.done + bs.length ≤ j.length) : exec (.copyWriteEnd r bs) s = .next (s.copyStep r d j bs) := by
  rw [exec_copyWriteEnd hheld hcopy, State.inService_ready hr, List.take_of_length_le (by omega), if_neg (by simp [hd, hbs])]

theorem State.copyBegun_spares (s : State) (j : CopyJob) (P : Nat → Prop) : s.Spares (s.copyBegun j) P := by
  unfold copyBegun
  split
  · exact .refl s P
  · exact .of_stk P rfl rfl

/-- The bytes of a copy change no cell but those of their own addresses. -/
theorem State.copyStep_spares {s : State} {r : Nat} {d : Desc} {j : CopyJob} {bs : List Byte} {P : Nat → Prop}
    (hP : ∀ l, P l → ∀ k, k < bs.length → l ≠ locate s.stk.masks (copyTarget j k)) : s.Spares (s.copyStep r d j bs) P := by
  have hbegun := s.copyBegun_spares j P
  have hbytes : s.Spares ((s.copyBegun j).copyBytes j bs) P :=
    hbegun.trans (copyBytes_spares fun l hl k hk => by rw [hbegun.masks]; exact hP l hl k hk)
  unfold copyStep
  split
  · exact hbytes.trans (.of_keeps (F := [.hif, .ic, .surf]) P (State.endCopy_keeps (fun _ h => h) (Keeps.refl _)) (by decide) (by decide))
  · exact hbytes.trans (.of_stk P rfl rfl)

theorem exec_surfaceCopy {s : State} {r : Nat} {d : Desc} (h : s.Due r 0x11 d) :
    exec (.surfaceCopy r) s = .next (s.apply r d (surfaceCopyBody r d s)) := by
  change execSurfaceCopy r s = _
  rw [execSurfaceCopy, State.descriptor_due h]

/-- Settles O35. -/
theorem copiesStoreWhereTheyPoint : Obligations.CopiesStoreWhereTheyPoint := by
  unfold Obligations.CopiesStoreWhereTheyPoint
  refine ⟨?starts, ?chunk, ?last, ?frame⟩
  case starts =>
    intro s r d hdue hclean hidx hfields haddrs hmode
    rw [exec_surfaceCopy hdue, surfaceCopyBody_clean r hclean hidx hfields haddrs hmode, State.apply_wait]
  case chunk =>
    intro s r d j bs hr hheld hcopy hd hbs hlen
    rw [exec_copyWriteEnd_next hr hheld hcopy hd hbs (by omega), State.copyStep, if_neg (by omega), State.copyBegun]
  case last =>
    intro s r d j bs hr hheld hcopy hd hbs hlen hop
    rw [exec_copyWriteEnd_next hr hheld hcopy hd hbs (by omega), State.copyStep, if_pos hlen, State.copyBegun, State.endCopy]
    dsimp only
    rw [if_neg (by simp [hop]), if_pos rfl]
    rfl
  case frame =>
    intro s t r d j bs hinv hheld hcopy hexec l hl
    rw [exec_copyWriteEnd hheld hcopy, State.inService] at hexec
    injection hexec with hexec
    rw [← hexec]
    split
    · split
      · rfl
      · refine (State.copyStep_spares (P := (· = l)) fun m hm k hk => ?_).cells hinv.2.1 l rfl
        rw [hm]
        exact hl k (Nat.lt_of_lt_of_le hk (List.length_take_le' ..))
    · rfl

end Sys2Proof.Machine
end

section
/-! Shadow settings, and descriptors that wait for host data (R121 to R127, R161 to R168, R187 to R195, R234 to R246, R446). -/

namespace Sys2Proof.Machine

/-- A descriptor command executes the descriptor that is due. -/
theorem exec_due {c : Instr} {s : State} {r op : Nat} {d : Desc} {body : Nat → Desc → State → Res} (h : s.Due r op d)
    (hexec : exec c s = .next (s.descriptor r op body)) : exec c s = .next (s.apply r d (body r d s)) := by
  rw [hexec, State.descriptor_due h]

theorem and_bool {a b : Bool} (ha : a = true) (hb : b = true) : (a && b) = true := Bool.and_eq_true_iff.2 ⟨ha, hb⟩

/-! ### Canvases, layers, regions and scalers -/

/-- What a REGION_SET that R82 passes comes to, where its guarded regions fit. -/
theorem regionSetBody_clean {s : State} {d : Desc} (r : Nat)
    (hclean : s.Clean d [(8, 0, 6), (9, 0, 6), (10, 0, 64), (18, 0, 4), (19, 0, 8), (20, 0, 128)]) (hidx : dIndex d < 8)
    {g : Region} (hg : g = regionOf d ((s.regionShadow (64 * dIndex d + dF d 8 0 6)).stamp + 1)) (hfields : regionFields g = true)
    (hguarded : g.enable = true → g.guarded = false) : regionSetBody r d s =
      if g.enable ∧ ((s.shadowCanvas (dIndex d)).width < g.x + g.w ∨ (s.shadowCanvas (dIndex d)).height < g.y + g.h) then
        .done s cBadField 0x1701
      else .done { s with sig := { s.sig with
        shadow := Tbl.put (fun _ => {}) (64 * dIndex d + dF d 8 0 6) g s.sig.shadow } } cDone 0 := by
  unfold regionSetBody
  dsimp only
  rw [← hg, State.checked_clean hclean (and_bool (decide_eq_true hidx) hfields) rfl rfl]
  split
  · rfl
  · rw [if_neg]
    rintro ⟨henable, hguard, -⟩
    rw [hguarded henable] at hguard
    cases hguard

/-- A REGION_SET of a region past the canvas is refused, guarded or not. -/
theorem regionSetBody_past {s : State} {d : Desc} (r : Nat)
    (hclean : s.Clean d [(8, 0, 6), (9, 0, 6), (10, 0, 64), (18, 0, 4), (19, 0, 8), (20, 0, 128)]) (hidx : dIndex d < 8)
    {g : Region} (hg : g = regionOf d ((s.regionShadow (64 * dIndex d + dF d 8 0 6)).stamp + 1)) (hfields : regionFields g = true)
    (henable : g.enable = true) (hpast : (s.shadowCanvas (dIndex d)).width < g.x + g.w) :
    regionSetBody r d s = .done s cBadField 0x1701 := by
  unfold regionSetBody
  dsimp only
  rw [← hg, State.checked_clean hclean (and_bool (decide_eq_true hidx) hfields) rfl rfl, if_pos ⟨henable, .inl hpast⟩]

/-- Settles O36. -/
theorem shadowSettingsWaitForACommit : Obligations.ShadowSettingsWaitForACommit := by
  unfold Obligations.ShadowSettingsWaitForACommit
  refine ⟨?canvas, ?layer, ?region, ?scaler⟩
  case canvas =>
    intro s r d hdue hclean hidx hfields haddrs t
    rw [exec_due hdue (body := canvasSetBody) rfl, canvasSetBody]
    dsimp only
    rw [State.checked_clean hclean (and_bool (decide_eq_true hidx) hfields) haddrs rfl, State.apply_done]
  case layer =>
    intro s r d hdue hclean hidx hfields t
    rw [exec_due hdue (body := layerSetBody) rfl, layerSetBody]
    dsimp only
    rw [State.checked_clean hclean (and_bool (decide_eq_true hidx) hfields) rfl rfl, State.apply_done]
  case region =>
    intro s r d hdue hclean hidx key g t hfields
    refine ⟨fun hoff => ?_, fun hon hfree hx hy => ?_, fun hon hpast => ?_⟩
    · rw [exec_due hdue (body := regionSetBody) rfl, regionSetBody_clean r hclean hidx (g := g) rfl hfields (by simp [hoff]),
        if_neg (by simp [hoff]), State.apply_done]
    · rw [exec_due hdue (body := regionSetBody) rfl, regionSetBody_clean r hclean hidx (g := g) rfl hfields (fun _ => hfree),
        if_neg (by omega), State.apply_done]
    · rw [exec_due hdue (body := regionSetBody) rfl, regionSetBody_past r hclean hidx (g := g) rfl hfields hon hpast, State.apply_done]
  case scaler =>
    intro s r d hdue hclean hidx hfenced
    rw [exec_due hdue (body := scalerBindBody) rfl, scalerBindBody]
    rw [State.checked_clean hclean (decide_eq_true hidx) rfl hfenced, State.apply_done]

/-! ### Engines -/

/-- The fields of an ENGINE_SET without a loaded dither matrix are in range. -/
theorem engineSetBody_clean {s : State} {d : Desc} (r : Nat)
    (hclean : s.Clean d [(8, 0, 2), (9, 0, 5), (10, 0, 32), (40, 0, 64), (48, 0, 64), (56, 0, 8), (57, 0, 3), (58, 0, 12)])
    (hfields : (decide (dIndex d < 32) && (dIndex d % 2 == 0 || !(engineOf d).split) && decide (1 ≤ (engineOf d).bands) &&
      decide ((engineOf d).bands ≤ 16) && decide (6 ≤ (engineOf d).planes) && decide ((engineOf d).planes ≤ 12) &&
      decide (6 ≤ (engineOf d).depth) && decide ((engineOf d).depth ≤ 14) &&
      ((engineOf d).ditherLoaded || (engineOf d).ditherAddr == 0)) = true)
    (haddrs : ((engineOf d).planeBase % 4096 == 0 && (!(engineOf d).ditherLoaded || (engineOf d).ditherAddr % 64 == 0)) = true)
    (hfenced : s.engFenced (dIndex d) = false) :
    engineSetBody r d s = .done (s.setShadow (dIndex d) fun b => { b with cfg := engineOf d }) cDone 0 := by
  unfold engineSetBody
  dsimp only
  rw [State.checked_clean hclean hfields haddrs hfenced]

/-- What a MESH_LOAD that R82 passes comes to. -/
theorem meshLoadBody_clean {s : State} {d : Desc} (r : Nat)
    (hclean : s.Clean d [(8, 0, 64), (16, 0, 2), (16, 2, 3), (17, 0, 5), (20, 0, 32), (24, 0, 32)]) (hidx : dIndex d < 32)
    (hfields : meshFields d = true) (hhost : hostOk (dF d 8 0 64) (if dF d 16 0 2 = 2 then 19240 else 0) 64 = true)
    (hfenced : s.engFenced (dIndex d) = false) : meshLoadBody r d s =
      if dF d 16 0 2 = 2 then .wait s .hostData
      else .done (s.setShadow (dIndex d) fun b => { b with warp := b.warp.withMesh d [] }) cDone 0 := by
  unfold meshLoadBody
  dsimp only
  rw [State.checked_clean hclean (and_bool (decide_eq_true hidx) hfields) hhost hfenced]

/-- A mode without a mesh has no host address. -/
theorem meshFields_host {d : Desc} (h : meshFields d = true) (hmode : dF d 16 0 2 ≠ 2) :
    hostOk (dF d 8 0 64) (if dF d 16 0 2 = 2 then 19240 else 0) 64 = true := by
  have hzero : dF d 8 0 64 = 0 := by
    simp only [meshFields, Bool.and_eq_true, Bool.or_eq_true, beq_iff_eq] at h
    exact h.1.1.1.resolve_left hmode
  rw [hzero, if_neg hmode]
  rfl

/-- What a SADDLE_LOAD that R82 passes comes to. -/
theorem saddleLoadBody_clean {s : State} {d : Desc} (r : Nat) {loaded : Bool}
    (hclean : s.Clean d [(8, 0, 64), (16, 0, 64), (24, 0, 8), (25, 0, 2), (26, 0, 48), (32, 0, 144)]) (hidx : dIndex d < 32)
    (hloaded : (saddleRamps d).contains 3 = loaded) (hzones : ∀ k, k < 4 → dF d (16 + 2 * k) 0 16 ≤ 2048)
    (hsteps : ∀ k, k < 3 → dF d (26 + 2 * k) 0 16 ≤ 4096) (hnamed : (dF d 8 0 64 != 0) = loaded)
    (hhost : hostOk (dF d 8 0 64) 2048 64 = true) (hfenced : s.engFenced (dIndex d) = false) : saddleLoadBody r d s =
      if loaded then .wait s .hostData
      else .done (s.setShadow (dIndex d) fun b => { b with warp := b.warp.withSaddle d [] }) cDone 0 := by
  have hzone : ((List.range 4).all fun k => decide (dF d (16 + 2 * k) 0 16 ≤ 2048)) = true :=
    List.all_eq_true.2 fun k hk => decide_eq_true (hzones k (List.mem_range.1 hk))
  have hstep : ((List.range 3).all fun k => decide (dF d (26 + 2 * k) 0 16 ≤ 4096)) = true :=
    List.all_eq_true.2 fun k hk => decide_eq_true (hsteps k (List.mem_range.1 hk))
  unfold saddleLoadBody
  dsimp only
  rw [hloaded, hnamed, State.checked_clean hclean
    (and_bool (and_bool (and_bool (decide_eq_true hidx) (beq_self_eq_true _)) hzone) hstep) hhost hfenced]

/-- An engine whose shadow is set to other than its reset value keeps its other bundles. -/
theorem State.setShadow_engine {s : State} {e : Nat} {f : EngBundle → EngBundle} (h : f (s.engine e).shadow ≠ {}) :
    (s.setShadow e f).engine e = { s.engine e with shadow := f (s.engine e).shadow } := by
  refine (Tbl.get_put_ne fun hdefault => h ?_).trans (if_pos rfl)
  exact congrArg (·.shadow) hdefault

/-- Settles O37. -/
theorem engineSettingsWaitForACommit : Obligations.EngineSettingsWaitForACommit := by
  unfold Obligations.EngineSettingsWaitForACommit
  intro meshF saddleF engF saddleGood
  refine ⟨?engine, ?twist, ?mesh, ?saddle, ?frame, ?fenced⟩
  case engine =>
    intro s r d hdue hclean hidx hsplit hb1 hb2 hp1 hp2 hd1 hd2 hbase hload haddr hfenced
    have hsplit' : (dIndex d % 2 == 0 || !dB d 8 1) = true := by
      obtain h | h := hsplit <;> simp [h]
    rw [exec_due hdue (body := engineSetBody) rfl, engineSetBody_clean r hclean _ _ hfenced, State.apply_done]
    · simp only [engineOf, hidx, hsplit', hb1, hb2, hp1, hp2, hd1, hd2, hload, haddr, decide_true, Bool.and_self, beq_self_eq_true,
        Bool.or_true]
    · simp only [engineOf, hbase, hload, beq_self_eq_true, Bool.not_false, Bool.true_or, Bool.and_self]
  case twist =>
    intro s r d hdue hclean hidx hfields hfenced
    rw [exec_due hdue (body := twistSetBody) rfl, twistSetBody]
    rw [State.checked_clean hclean (and_bool (decide_eq_true hidx) hfields) rfl hfenced, State.apply_done]
  case mesh =>
    intro s r d hdue hclean hidx hfields hmode hfenced
    rw [exec_due hdue (body := meshLoadBody) rfl, meshLoadBody_clean r hclean hidx hfields (meshFields_host hfields hmode) hfenced,
      if_neg hmode, State.apply_done]
  case saddle =>
    intro s r d hdue hclean hidx ⟨hloaded, hzones, hsteps⟩ hhost hfenced
    rw [exec_due hdue (body := saddleLoadBody) rfl, saddleLoadBody_clean r hclean hidx hloaded hzones hsteps (by rw [hhost]; rfl)
      (by rw [hhost]; rfl) hfenced, if_neg Bool.false_ne_true, State.apply_done]
  case frame =>
    intro s e f hf
    rw [State.setShadow_engine hf]
    exact ⟨rfl, rfl, rfl, rfl⟩
  case fenced =>
    intro s r d hdue hclean hidx hfields hmode hfenced
    rw [exec_due hdue (body := meshLoadBody) rfl, meshLoadBody]
    rw [hfenced, and_bool (decide_eq_true hidx) hfields, meshFields_host hfields hmode]
    have hr82 : s.r82 d meshF true true true false = some cFenced := by
      simp only [State.r82, hclean.1, hclean.2, Bool.not_true, Bool.or_self, Bool.false_eq_true, if_false, if_true]
    rw [hr82]
    rfl

/-! ### Host data awaited -/

/-- Settles O38. -/
theorem hostDataIsAwaited : Obligations.HostDataIsAwaited := by
  unfold Obligations.HostDataIsAwaited
  intro waits
  refine ⟨?coef, ?objects, ?mesh, ?saddle, ?twist⟩
  case coef =>
    intro s r d hdue hclean hidx hhost hfenced
    rw [exec_due hdue (body := coefLoadBody) rfl, coefLoadBody]
    rw [State.checked_clean hclean (decide_eq_true hidx) hhost hfenced, State.apply_wait]
  case objects =>
    intro s r d hdue hclean hidx hone hmost hend hhost hfenced
    have hfields : (dIndex d == 0 && decide (1 ≤ dF d 20 0 14) &&
        decide (dF d 20 0 14 ≤ if (s.originOf r d).cls = 0 then 16 else 7936) &&
        decide (dF d 16 0 18 + dF d 20 0 14 ≤ 262144)) = true :=
      and_bool (and_bool (and_bool (beq_iff_eq.2 hidx) (decide_eq_true hone)) (decide_eq_true hmost)) (decide_eq_true hend)
    rw [exec_due hdue (body := objWriteBody) rfl, objWriteBody]
    rw [State.checked_clean hclean hfields hhost hfenced]
    refine ⟨fun hroom => ?_, fun hfull => ?_⟩
    · rw [if_neg (Nat.not_lt.2 hroom), State.apply_wait]
    · rw [if_pos hfull, State.apply_done]
  case mesh =>
    intro s r d hdue hclean hidx hfields hmode hhost hfenced
    rw [exec_due hdue (body := meshLoadBody) rfl, meshLoadBody_clean r hclean hidx hfields (by rw [if_pos hmode]; exact hhost) hfenced,
      if_pos hmode, State.apply_wait]
  case saddle =>
    intro s r d hdue hclean hidx hloaded hzones hsteps hnamed hhost hfenced
    rw [exec_due hdue (body := saddleLoadBody) rfl, saddleLoadBody_clean r hclean hidx hloaded hzones hsteps (bne_iff_ne.2 hnamed)
      hhost hfenced, if_pos rfl, State.apply_wait]
  case twist =>
    intro s r d hdue hclean hidx hone hmost hhost
    rw [exec_due hdue (body := twistLoadBody) rfl, twistLoadBody]
    rw [State.checked_clean hclean (and_bool (and_bool (decide_eq_true hidx) (decide_eq_true hone)) (decide_eq_true hmost)) hhost rfl]
    refine ⟨fun hfree => ?_, fun hused => ?_⟩
    · rw [hfree, if_neg Bool.false_ne_true, State.apply_wait]
    · rw [hused, if_pos rfl, State.apply_done, cTwistInUse]

end Sys2Proof.Machine
end

section
/-! Commits, reservations and overlays (R136 to R148, R247), light settings, calibration and flows (R321, R345, R350, R379). -/

namespace Sys2Proof.Machine

/-! ### COMMIT -/

/-- The surface commit of a descriptor before its batches are chosen (R136). -/
def State.commitProbe (s : State) (r : Nat) (d : Desc) : WaitCommit :=
  s.newCommit (s.originOf r d)
    (.canvas (dIndex d) (s.shadowCanvas (dIndex d)) (s.carriedSlots (dIndex d)) [] (s.carriedScalers (dIndex d)))

/-- The batches that a surface commit carries. -/
def State.commitBatches (s : State) (r : Nat) (d : Desc) : List Nat :=
  s.carriable false (dIndex d) ((s.superseded (s.commitProbe r d).body).map (·.id))

/-- The surface commit of a descriptor (R136). -/
def State.commitOf (s : State) (r : Nat) (d : Desc) : WaitCommit :=
  { s.commitProbe r d with
    body := .canvas (dIndex d) (s.shadowCanvas (dIndex d)) (s.carriedSlots (dIndex d)) (s.commitBatches r d)
      (s.carriedScalers (dIndex d)) }

/-- The verdict of R137 on a COMMIT. -/
def State.commitVerdict (s : State) (r : Nat) (d : Desc) : Option (Nat × Nat) :=
  s.commitFails (s.commitOf r d) (dIndex d) (s.shadowCanvas (dIndex d)) (s.carriedSlots (dIndex d))
    (s.carriedScalers (dIndex d)) (dB d 8 0)

theorem commitBody_fails {s : State} {r : Nat} {d : Desc} (hclean : s.Clean d [(8, 0, 1)]) (hidx : dIndex d < 8)
    {x : Nat × Nat} (h : s.commitVerdict r d = some x) : commitBody r d s = s.rejectOn (dIndex d) x.1 x.2 := by
  unfold commitBody
  dsimp only
  rw [State.checked_clean hclean (decide_eq_true hidx) rfl rfl]
  unfold State.commitVerdict State.commitOf State.commitBatches State.commitProbe at h
  rw [h]

theorem commitBody_admitted {s : State} {r : Nat} {d : Desc} (hclean : s.Clean d [(8, 0, 1)]) (hidx : dIndex d < 8)
    (h : s.commitVerdict r d = none) (hledger : s.admits (s.waitingWith (s.commitOf r d)) s.comp.shadowR (dIndex d) = none) :
    commitBody r d s = .admitted (s.enqueueCommit (s.commitOf r d) (s.commitBatches r d)) := by
  unfold commitBody
  dsimp only
  rw [State.checked_clean hclean (decide_eq_true hidx) rfl rfl]
  unfold State.commitVerdict at h
  unfold State.commitOf State.commitBatches State.commitProbe at h hledger ⊢
  rw [h]
  dsimp only
  rw [hledger]

/-! ### GUARD_COMMIT and GUARD_SET -/

/-- A GUARD_COMMIT of a disabled overlay that its reservation holds is admitted (R148). -/
theorem guardCommitBody_admitted {s : State} {r : Nat} {d : Desc} {batches : List Nat} {probe : WaitCommit}
    (hclean : s.Clean d [(8, 0, 2), (9, 0, 8), (10, 0, 3), (12, 0, 12), (16, 0, 96), (28, 0, 16), (30, 0, 48)])
    (hidx : dIndex d < 8) (henable : (overlayOf d).enable = false) (hblend : (overlayOf d).col.blend = 0)
    (hmatrix : (overlayOf d).col.matrix ≠ 3)
    (hprobe : probe = s.newCommit (s.originOf r d) (.guarded (dIndex d) (overlayOf d) (dB d 8 1) []))
    (hbatches : batches = s.carriable true (dIndex d) ((s.superseded probe.body).map (·.id)))
    (hfits : s.fitsReservation (s.reservation (dIndex d)) (overlayOf d) (s.guardedLoad (dIndex d) batches) = true) :
    guardCommitBody r d s = .admitted (s.enqueueCommit { probe with body := .guarded (dIndex d) (overlayOf d) (dB d 8 1) batches }
      batches) := by
  have hfields : (decide (dIndex d < 8) && ((overlayOf d).col.blend == 0 || (overlayOf d).col.blend == 2) &&
      (overlayOf d).col.matrix != 3) = true :=
    and_bool (and_bool (decide_eq_true hidx) (by rw [hblend]; rfl)) (bne_iff_ne.2 hmatrix)
  unfold guardCommitBody
  dsimp only
  rw [State.checked_clean hclean hfields rfl rfl, if_neg (by simp [henable]), if_neg (by simp [henable]), ← hprobe, ← hbatches,
    hfits, if_neg (by decide)]

/-- A GUARD_SET that fits its canvas, that the ledger holds and that conflicts with nothing (R145, R146). -/
theorem guardSetBody_accepted {s : State} {d : Desc} {v : Reservation} (r : Nat)
    (hclean : s.Clean d [(8, 0, 64), (16, 0, 6), (24, 0, 32), (28, 0, 32), (32, 0, 48)]) (hidx : dIndex d < 8)
    (hv : v = reservationOf d) (hformat : v.format < 8) (hfallback : v.fallback ≠ 3)
    (hroom : v.some_ = false ∨ (v.x + v.w ≤ (s.shadowCanvas (dIndex d)).width ∧ v.y + v.h ≤ (s.shadowCanvas (dIndex d)).height))
    (hledger : s.admits s.comp.waiting (s.resWith (dIndex d) v) (dIndex d) = none)
    (hconflict : s.guardConflict (dIndex d) v = false) : guardSetBody r d s =
      .done ({ s with comp := { s.comp with shadowR := s.resWith (dIndex d) v } }.wr (CMP_CV_STATE.RESERVED (dIndex d))
        (b2n v.some_)) cDone 0 := by
  have hfits : ¬(v.some_ = true ∧ ((s.shadowCanvas (dIndex d)).width < v.x + v.w ∨
      (s.shadowCanvas (dIndex d)).height < v.y + v.h)) := by
    rintro ⟨hsome, hpast⟩
    obtain hnone | hin := hroom
    · rw [hnone] at hsome
      cases hsome
    · omega
  unfold guardSetBody
  dsimp only
  rw [← hv, State.checked_clean hclean (and_bool (and_bool (decide_eq_true hidx) (decide_eq_true hformat)) (bne_iff_ne.2 hfallback))
    rfl rfl, if_neg hfits, hledger]
  dsimp only
  rw [hconflict, if_neg Bool.false_ne_true]

/-! ### ENGINE_COMMIT -/

/-- The bundle that an ENGINE_COMMIT takes (R247). -/
def State.commitBundle (s : State) (e : Nat) : EngBundle :=
  { (s.engine e).shadow with plan := none, matrix := none, seedLoad := none }

/-- The engine commit of a descriptor, before its presets are planned. -/
def State.engineProbe (s : State) (r : Nat) (d : Desc) : WaitCommit :=
  s.newCommit (s.originOf r d) (.engine (dIndex d) (s.commitBundle (dIndex d)))

/-- The engine commit of a descriptor. -/
def State.engineCommitOf (s : State) (r : Nat) (d : Desc) : WaitCommit :=
  { s.engineProbe r d with
    body := .engine (dIndex d)
      { s.commitBundle (dIndex d) with
        plan := s.planFor s.costArgs (s.costBundle (s.waitingWith (s.engineProbe r d)) (2 * (dIndex d / 2))).cfg.split
          (s.commitBundle (dIndex d)) } }

theorem engineCommitBody_admitted {s : State} {r : Nat} {d : Desc} (hclean : s.Clean d []) (hidx : dIndex d < 32)
    (hfenced : s.engFenced (dIndex d) = false)
    (hwarp : s.warpFails (s.waitingWith (s.engineProbe r d)) (dIndex d) (s.commitBundle (dIndex d)) = none)
    (hspindle : spindleFails (s.commitBundle (dIndex d)) = none)
    (htwist : s.twistFails (s.waitingWith (s.engineProbe r d)) (dIndex d) (s.commitBundle (dIndex d)) = none)
    (hledger : s.admits (s.waitingWith (s.engineProbe r d)) s.comp.shadowR (dIndex d) = none) :
    engineCommitBody r d s = .admitted (s.enqueueCommit (s.engineCommitOf r d) []) := by
  unfold engineCommitBody
  rw [State.checked_clean hclean (decide_eq_true hidx) rfl hfenced]
  unfold State.engineCommitOf
  unfold State.engineProbe at hwarp htwist hledger ⊢
  unfold State.commitBundle at hwarp hspindle htwist hledger ⊢
  dsimp only at hwarp hspindle htwist hledger ⊢
  rw [hwarp]
  dsimp only
  rw [hspindle]
  dsimp only
  rw [htwist]
  dsimp only
  rw [hledger]

/-! ### Admission -/

/-- An admitted commit waits in place of any other of its canvas or engine (R139, R148, R247). -/
theorem State.enqueueCommit_waiting (s : State) (w : WaitCommit) (batches : List Nat) :
    (s.enqueueCommit w batches).comp.waiting = s.waitingWith w := by
  have hend := (endSuperseded_keeps (F := [.hif, .ic]) (a1 := s.superseded w.body) (a2 := w.id) (fun _ h => h)
    (Keeps.refl ((s.addWaiting w).carry batches w.id))).parts .comp
  exact congrArg (·.waiting) (hend.resolve_left (by decide))

/-- Settles O39. -/
theorem commitsAreAdmittedOrRejected : Obligations.CommitsAreAdmittedOrRejected := by
  unfold Obligations.CommitsAreAdmittedOrRejected
  refine ⟨?commit, ?guardCommit, ?engineCommit, fun s w batches => s.enqueueCommit_waiting w batches, ?guardSet⟩
  case commit =>
    intro s r d hdue hclean hidx c probe batches w fails
    refine ⟨fun hpass hledger => ?_, fun code detail hfail => ?_⟩
    · rw [exec_due hdue (body := commitBody) rfl, commitBody_admitted hclean hidx hpass hledger, State.apply_admitted]
      rfl
    · rw [exec_due hdue (body := commitBody) rfl, commitBody_fails hclean hidx hfail, State.rejectOn, State.apply_done]
  case guardCommit =>
    intro s r d hdue hclean hidx henable hblend hmatrix c probe batches hfits
    rw [exec_due hdue (body := guardCommitBody) rfl,
      guardCommitBody_admitted hclean hidx henable hblend hmatrix (probe := probe) (batches := batches) rfl rfl hfits,
      State.apply_admitted]
  case engineCommit =>
    intro s r d hdue hclean hidx hfenced e b w ws hwarp hspindle htwist hledger
    rw [exec_due hdue (body := engineCommitBody) rfl,
      engineCommitBody_admitted hclean hidx hfenced hwarp hspindle htwist hledger, State.apply_admitted]
    rfl
  case guardSet =>
    intro s r d hdue hclean hidx c v hformat hfallback hroom hledger hconflict t
    rw [exec_due hdue (body := guardSetBody) rfl,
      guardSetBody_accepted r hclean hidx (v := v) rfl hformat hfallback hroom hledger hconflict, State.apply_done]

/-! ### Light settings, calibration and flows -/

/-- What a LIGHT_SET that R82 passes comes to (R321, R322). -/
theorem lightSetBody_clean {s : State} {d : Desc} (hclean : s.Clean d (lightFields (dF d 8 0 2))) (hidx : dIndex d < 32)
    (hranges : lightRanges d = true) (hfenced : s.engFenced (dIndex d) = false) {t : LightSet}
    (ht : t = (s.lightOf (dIndex d)).written.written d) : lightSetBody d s =
      if dF d 8 0 2 = 1 ∧ t.notchEnable ∧ notchCapacity s.gap t.notchW = 0 then .done s 0x44 0
      else if t.gainZero then .done s 0x45 0
      else .done (s.lightStore (dIndex d) d) cDone 0 := by
  unfold lightSetBody
  dsimp only
  rw [State.checked_clean hclean (and_bool (decide_eq_true hidx) hranges) rfl hfenced, ht]

/-- The strings that a RUN of a CAL_REQUEST raises a request for (R345). -/
def calNew (l : LightEng) (d : Desc) : List Nat :=
  (calNamed d).filter fun i => (l.str i).state != stAbsent && !(l.calReqs.any fun r => r.str = i)

theorem calRequestBody_unknown {s : State} {d : Desc} (r : Nat) (hclean : s.Clean d (calFields d)) (hidx : dIndex d < 32)
    (hfenced : s.engFenced (dIndex d) = false) (hload : dF d 8 0 2 ≠ 1) (hact : dF d 8 0 2 ≠ 3)
    (hknown : (s.lightOf (dIndex d)).known = false) : calRequestBody r d s = .done s 0x50 0 := by
  unfold calRequestBody
  dsimp only
  rw [State.checked_clean hclean (by simp [hidx, hload, hact]) (by simp [hload]) hfenced, hknown, if_pos (by decide)]

theorem calRequestBody_run {s : State} {d : Desc} (r : Nat) (hclean : s.Clean d (calFields d)) (hidx : dIndex d < 32)
    (hfenced : s.engFenced (dIndex d) = false) (hact : dF d 8 0 2 = 0) (hknown : (s.lightOf (dIndex d)).known = true) :
    calRequestBody r d s = .done (s.setLight (dIndex d) fun l =>
      (calNew (s.lightOf (dIndex d)) d).foldl (fun l i => l.raiseCal i s.tickNo true) l) cDone
      (calNew (s.lightOf (dIndex d)) d).length := by
  unfold calRequestBody
  dsimp only
  rw [State.checked_clean hclean (by simp [hidx, hact]) (by simp [hact]) hfenced, hknown, if_neg (by decide), hact]
  rfl

theorem calRequestBody_status {s : State} {d : Desc} (r : Nat) (hclean : s.Clean d (calFields d)) (hidx : dIndex d < 32)
    (hfenced : s.engFenced (dIndex d) = false) (hact : dF d 8 0 2 = 2) {l : LightEng} (hl : l = s.lightOf (dIndex d))
    (hknown : l.known = true) :
    calRequestBody r d s = .done s cDone (b2n l.respLoaded + 2 * b2n l.fromStore + 4 * l.calReqs.length) := by
  unfold calRequestBody
  dsimp only
  rw [State.checked_clean hclean (by simp [hidx, hact]) (by simp [hact]) hfenced, ← hl, hknown, if_neg (by decide), hact]
  rfl

/-- A clean descriptor that starts a store while flash writes are allowed (R82, R350). -/
theorem State.r82_store {s : State} {d : Desc} {l : List (Nat × Nat × Nat)} (h : s.Clean d l)
    (hbusy : s.flag DEV_STATUS.BUSY = false) (hwrite : s.flag THM_STATUS.WRITE_OK = true) :
    s.r82 d l true true false true = none := by
  simp only [r82, h.1, h.2, hbusy, hwrite, Bool.not_true, Bool.or_self, Bool.and_false, Bool.false_eq_true, if_false]

theorem State.r82_storeBusy {s : State} {d : Desc} {l : List (Nat × Nat × Nat)} (h : s.Clean d l)
    (hbusy : s.flag DEV_STATUS.BUSY = true) : s.r82 d l true true false true = some cLongOpActive := by
  simp only [r82, h.1, h.2, hbusy, Bool.not_true, Bool.or_self, Bool.and_self, Bool.false_eq_true, if_false, if_true]

/-- What DEV_STATUS shows while a store runs. -/
def storeWrites : List (Fld × Nat) := [(DEV_STATUS.BUSY, 1), (DEV_STATUS.LONG_OP, 2)]

theorem storeWrites_pairwise : storeWrites.Pairwise fun p q => p.1.apart q.1 := by
  simp [storeWrites, Fld.apart, DEV_STATUS.BUSY, DEV_STATUS.LONG_OP]

theorem storeWrites_word {p : Fld × Nat} (hp : p ∈ storeWrites) : p.1.off ∈ [DEV_STATUS.BUSY.off] ∧ p.1.hi < 32 := by
  simp only [storeWrites, List.mem_cons, List.not_mem_nil, or_false] at hp
  obtain rfl | rfl := hp <;> exact ⟨List.mem_singleton.2 rfl, by decide⟩

/-- The state in which the store of a CAL_STORE is planned, before DEV_STATUS shows it (R350). -/
def State.storePlanned (s : State) (r : Nat) : State :=
  { s with
    pwr := { s.pwr with long := some (.store r), refusal := none, stop := if s.pwr.pwrOk then 0 else 2 }
    light := { s.light with cal := { s.light.cal with
      writing := some (s.storePlan.1, withCheck (storeBody s.storePlan.2.1 s.storePlan.2.2)), planned := s.storePlan.2.2,
      changed := false } } }

theorem calStoreBody_clean {s : State} {r : Nat} {d : Desc} (hclean : s.Clean d []) (hidx : dIndex d = 0)
    (hbusy : s.flag DEV_STATUS.BUSY = false) (hwrite : s.flag THM_STATUS.WRITE_OK = true) :
    calStoreBody r d s = .wait ((s.storePlanned r).wrs storeWrites) .store := by
  unfold calStoreBody
  rw [beq_iff_eq.2 hidx, State.r82_store hclean hbusy hwrite]
  rfl

theorem calStoreBody_busy {s : State} {r : Nat} {d : Desc} (hclean : s.Clean d []) (hidx : dIndex d = 0)
    (hbusy : s.flag DEV_STATUS.BUSY = true) : calStoreBody r d s = .done s cLongOpActive 0 := by
  unfold calStoreBody
  rw [beq_iff_eq.2 hidx, State.r82_storeBusy hclean hbusy]
  rfl

/-- A FLOW_WRITE that R82 passes and the rules of flows allow writes its entry (R379). -/
theorem flowWriteBody_written {s : State} {d : Desc} (r : Nat)
    (hclean : s.Clean d [(8, 0, 6), (9, 0, 8), (10, 0, 16), (12, 0, 16), (14, 0, 14), (16, 0, 5), (17, 0, 16), (20, 0, 128),
      (36, 0, 128), (52, 0, 48), (58, 0, 32)])
    (hidx : dIndex d < 4096) (hranges : flowRanges d (flowOf d) = true) (hcode : s.flowCode (dIndex d) (flowOf d) = none) :
    flowWriteBody r d s = .done (s.setFlow (dIndex d) (flowOf d)) cDone 0 := by
  unfold flowWriteBody
  dsimp only
  rw [State.checked_clean hclean (and_bool (decide_eq_true hidx) hranges) rfl rfl, hcode]

theorem flowWriteBody_refused {s : State} {d : Desc} {code : Nat} (r : Nat)
    (hclean : s.Clean d [(8, 0, 6), (9, 0, 8), (10, 0, 16), (12, 0, 16), (14, 0, 14), (16, 0, 5), (17, 0, 16), (20, 0, 128),
      (36, 0, 128), (52, 0, 48), (58, 0, 32)])
    (hidx : dIndex d < 4096) (hranges : flowRanges d (flowOf d) = true) (hcode : s.flowCode (dIndex d) (flowOf d) = some code) :
    flowWriteBody r d s = .done s code 0 := by
  unfold flowWriteBody
  dsimp only
  rw [State.checked_clean hclean (and_bool (decide_eq_true hidx) hranges) rfl rfl, hcode]

/-- Settles O40. -/
theorem lightCalibrationAndFlowDescriptors : Obligations.LightCalibrationAndFlowDescriptors := by
  unfold Obligations.LightCalibrationAndFlowDescriptors
  refine ⟨?light, ?cal, ?store, ?storeBusy, ?flow⟩
  case light =>
    intro s r d hdue hclean hidx hranges hfenced t
    have hexec : exec (.lightSet r) s = .next (s.apply r d (lightSetBody d s)) :=
      exec_due hdue (body := fun _ d s => lightSetBody d s) rfl
    refine ⟨fun hpart hgain => ?_, fun hpart hnotch hcap => ?_⟩
    · rw [hexec, lightSetBody_clean hclean hidx hranges hfenced (t := t) rfl, if_neg (by omega), hgain, if_neg Bool.false_ne_true,
        State.apply_done]
    · rw [hexec, lightSetBody_clean hclean hidx hranges hfenced (t := t) rfl, if_pos ⟨hpart, hnotch, hcap⟩, State.apply_done]
  case cal =>
    intro s r d hdue hclean hidx hfenced hload hact l new
    refine ⟨fun hknown => ?_, fun hknown hrun => ?_, fun hknown hstatus => ?_⟩
    · rw [exec_due hdue (body := calRequestBody) rfl, calRequestBody_unknown r hclean hidx hfenced hload hact hknown,
        State.apply_done]
    · rw [exec_due hdue (body := calRequestBody) rfl, calRequestBody_run r hclean hidx hfenced hrun hknown, State.apply_done]
      rfl
    · rw [exec_due hdue (body := calRequestBody) rfl, calRequestBody_status r hclean hidx hfenced hstatus (l := l) rfl hknown,
        State.apply_done]
  case store =>
    intro s r d hinv hdue hclean hidx hbusy hwrite
    have h : (s.storePlanned r).Canon := hinv.1
    refine ⟨_, exec_due hdue (body := calStoreBody) rfl, ?_⟩
    rw [calStoreBody_clean hclean hidx hbusy hwrite, State.apply_wait]
    refine ⟨?_, ?_, ?_, ?_, ?_, ?_⟩
    · rw [State.setReel_rd]
      exact State.rd_wrs_mem (v := 1) (by decide) storeWrites_pairwise (by simp [storeWrites]) h
    · rw [State.setReel_rd]
      exact State.rd_wrs_mem (v := 2) (by decide) storeWrites_pairwise (by simp [storeWrites]) h
    · rw [State.setReel_pwr, State.wrs_pwr]
      rfl
    · rw [State.setReel_light, State.wrs_light]
      rfl
    · exact (State.wrs_only h fun _ hp => storeWrites_word hp).of_regs (State.setReel_regs ..)
    · rw [State.setReel_light, State.wrs_light]
      rfl
  case storeBusy =>
    intro s r d hdue hclean hidx hbusy
    rw [exec_due hdue (body := calStoreBody) rfl, calStoreBody_busy hclean hidx hbusy, State.apply_done]
  case flow =>
    intro s r d hdue hclean hidx hranges
    refine ⟨fun hcode => ?_, fun hvalid hport0 hport1 => ?_⟩
    · rw [exec_due hdue (body := flowWriteBody) rfl, flowWriteBody_written r hclean hidx hranges hcode, State.apply_done]
    · have hcode : s.flowCode (dIndex d) (flowOf d) = some 0x60 := by
        simp [State.flowCode, hvalid, hport0, hport1]
      rw [exec_due hdue (body := flowWriteBody) rfl, flowWriteBody_refused r hclean hidx hranges hcode, State.apply_done]

end Sys2Proof.Machine
end

section
/-! The control of the tick: enable, disable and APPLY (R42, R43, R45). -/

namespace Sys2Proof.Machine

/-- The fields of TICK_CTRL that a write stores. -/
def tickCtrlWrites (w : Nat) : List (Fld × Nat) :=
  [(TICK_CTRL.SOURCE, bitsOf w 1 2), (TICK_CTRL.GPTP_PORT, bitsOf w 3 1), (TICK_CTRL.PRESET, bitsOf w 4 4),
    (TICK_CTRL.ENABLE, b2n (bitOf w 0))]

theorem tickCtrlWrites_pairwise (w : Nat) : (tickCtrlWrites w).Pairwise fun p q => p.1.apart q.1 := by
  simp [tickCtrlWrites, Fld.apart, TICK_CTRL.SOURCE, TICK_CTRL.GPTP_PORT, TICK_CTRL.PRESET, TICK_CTRL.ENABLE]

theorem tickCtrlWrites_word {w : Nat} {p : Fld × Nat} (hp : p ∈ tickCtrlWrites w) :
    p.1.off = TICK_CTRL.ENABLE.off ∧ p.1.hi < 32 := by
  simp only [tickCtrlWrites, List.mem_cons, List.not_mem_nil, or_false] at hp
  obtain rfl | rfl | rfl | rfl := hp <;> exact ⟨rfl, of_decide_eq_true rfl⟩

/-- The state with a write of TICK_CTRL stored. -/
def State.tickStored (s : State) (w : Nat) : State := s.wrs (tickCtrlWrites w)

theorem State.tickStored_canon {s : State} (h : s.Canon) (w : Nat) : (s.tickStored w).Canon := wrs_canon h

theorem State.tickStored_mem {s : State} (h : s.Canon) {w : Nat} {p : Fld × Nat} (hp : p ∈ tickCtrlWrites w) :
    (s.tickStored w).rd p.1 = p.2 % 2 ^ (p.1.hi + 1 - p.1.lo) :=
  rd_wrs_mem (Nat.lt_trans (tickCtrlWrites_word hp).2 (by decide)) (tickCtrlWrites_pairwise w) hp h

/-- A field of a word apart from TICK_CTRL stands. -/
theorem State.tickStored_rd {s : State} (h : s.Canon) (w : Nat) {f : Fld} (hi : f.hi < 32)
    (ho : f.off + 4 ≤ TICK_CTRL.ENABLE.off ∨ TICK_CTRL.ENABLE.off + 4 ≤ f.off) : (s.tickStored w).rd f = s.rd f :=
  rd_wrs_apart (Nat.lt_trans hi (by decide)) (fun p hp => by
    obtain ⟨hoff, hhi⟩ := tickCtrlWrites_word hp
    exact Fld.apart_word hi hhi (by rw [hoff]; exact ho)) h

/-- The words of TICK_CTRL and TICK_STATUS. -/
def tickOffs : List Nat := [TICK_CTRL.ENABLE.off, TICK_STATUS.LOCK.off]

theorem State.tickStored_only {s : State} (h : s.Canon) (w : Nat) : s.Only tickOffs (s.tickStored w) :=
  wrs_only h fun _ hp => ⟨by rw [(tickCtrlWrites_word hp).1]; exact List.mem_cons_self, (tickCtrlWrites_word hp).2⟩

/-- A write of TICK_STATUS leaves every word but those of the tick's control. -/
theorem State.status_only {s t : State} (h : s.Only tickOffs t) (ht : t.Canon) {f : Fld} (v : Nat) (ho : f.off = TICK_STATUS.LOCK.off)
    (hi : f.hi < 32) : s.Only tickOffs (t.wr f v) :=
  h.trans (wr_only ht v hi) (fun _ ha => ha) fun a ha => by
    rw [List.mem_singleton.1 ha, ho]
    exact List.mem_cons_of_mem _ List.mem_cons_self

theorem bool_not_and (b : Bool) : (!b && b) = false := by cases b <;> rfl

/-! ### Starting -/

/-- Presets are generated again for engines and admitted commits alone (R245). -/
theorem State.replanAll_rest (s : State) : ∃ e c, s.replanAll = { s with eng := e, comp := c } := by
  unfold replanAll
  dsimp only
  obtain ⟨e, he⟩ : ∃ e, ((List.range 32).foldl (fun s e =>
      s.setEngine e fun g => { g with
        lat := s.replan ((s.engine (2 * (e / 2))).lat.cfg.split) g.lat,
        spin := s.replan ((s.engine (2 * (e / 2))).spin.cfg.split) g.spin,
        fly := s.replan ((s.engine (2 * (e / 2))).fly.cfg.split) g.fly }) s) = { s with eng := e } :=
    foldl_keeps (P := fun y : State => ∃ e, y = { s with eng := e }) (fun y k _ ⟨e, hy⟩ => by rw [hy]; exact ⟨_, rfl⟩) ⟨_, rfl⟩
  rw [he]
  exact ⟨_, _, rfl⟩

theorem State.setLock_free (s : State) : s.setLock lockFree = if s.rd TICK_STATUS.LOCK = 0 then s else s.wr TICK_STATUS.LOCK 0 := rfl

theorem State.setLock_free_lock {s : State} (h : s.Canon) : (s.setLock lockFree).rd TICK_STATUS.LOCK = 0 := by
  rw [setLock_free]
  split
  · assumption
  · exact rd_wr h _ _ (by decide)

theorem State.setLock_free_rd {s : State} (h : s.Canon) {f : Fld} (hf : f.apart TICK_STATUS.LOCK) (hi : f.hi < 64) :
    (s.setLock lockFree).rd f = s.rd f := by
  rw [setLock_free]
  split
  · rfl
  · exact rd_wr_apart h _ hf hi

theorem State.setLock_free_eq (s : State) : s.setLock lockFree = { s with regs := (s.setLock lockFree).regs } := by
  rw [setLock_free]
  split
  · rfl
  · exact wr_eq ..

theorem State.setLock_free_only {s t : State} (h : s.Only tickOffs t) (ht : t.Canon) : s.Only tickOffs (t.setLock lockFree) := by
  rw [setLock_free]
  split
  · exact h
  · exact status_only h ht 0 rfl (by decide)

/-- A FREE tick about to start: its settings are taken and no TICK_IN edge is known (R42, R45). -/
def State.tickTaken (s : State) : State :=
  ({ s.wr TICK_STATUS.SOURCE 0 with
    tick := { s.tick with tol := (s.wr TICK_STATUS.SOURCE 0).tolWritten, port := (s.wr TICK_STATUS.SOURCE 0).rd TICK_CTRL.GPTP_PORT } }).noEdges

/-- The first edge of a FREE tick (R42). -/
def State.firstEdge (s : State) : Nat := grid (s.now + 1000 * s.rd TICK_TIMING.LATCH_GUARD_US + 20000)

/-- A FREE tick with no APPLY waiting starts (R42). -/
theorem State.startTick_free {s : State} (happly : s.tick.apply = none) (hsrc : s.sourceWritten = 0) : s.startTick =
    { s.tickTaken.replanAll.setLock lockFree with
      tick := { (s.tickTaken.replanAll.setLock lockFree).tick with
        running := true, nextEdge := (s.tickTaken.replanAll.setLock lockFree).firstEdge,
        e0 := (s.tickTaken.replanAll.setLock lockFree).firstEdge, n := 0, darkNext := true, fresh := true, latched := false,
        lockRun := 0 } } := by
  have htaken : s.takeApplied = s := by rw [takeApplied, happly]
  unfold startTick
  dsimp only
  rw [htaken, hsrc, if_pos rfl, if_neg (fun h => absurd h.1 (by decide)), wr_tick]
  rfl

theorem State.tickTaken_replanned (s : State) : s.tickTaken.replanAll.regs = (s.wr TICK_STATUS.SOURCE 0).regs ∧
    s.tickTaken.replanAll.now = s.now := by
  obtain ⟨e, c, h⟩ := s.tickTaken.replanAll_rest
  rw [h]
  exact ⟨rfl, wr_now ..⟩

/-- What a write of TICK_CTRL does. -/
theorem State.tickCtrl_eq (s : State) (w : Nat) : s.tickCtrl w =
    let t := if !bitOf w 0 && s.flag TICK_CTRL.ENABLE && (s.tickStored w).tick.running then (s.tickStored w).stopTick
      else s.tickStored w
    let u := if bitOf w 8 then t.tryApply else t
    if bitOf w 0 && !s.flag TICK_CTRL.ENABLE && u.mayTick then u.startTick else u := rfl

/-- A write that starts the tick. -/
theorem State.tickCtrl_start {s : State} {w : Nat} (hon : bitOf w 0 = true) (happly : bitOf w 8 = false)
    (hwas : s.flag TICK_CTRL.ENABLE = false) (hmay : (s.tickStored w).mayTick = true) :
    s.tickCtrl w = (s.tickStored w).startTick := by
  rw [tickCtrl_eq, hon, happly, hwas]
  simp only [Bool.not_true, Bool.false_and, Bool.false_eq_true, if_false, Bool.not_false, Bool.and_self, hmay, if_true]

/-- A write that stops the tick. -/
theorem State.tickCtrl_stop {s : State} {w : Nat} (hoff : bitOf w 0 = false) (happly : bitOf w 8 = false)
    (hwas : s.flag TICK_CTRL.ENABLE = true) (hrun : s.tick.running = true) : s.tickCtrl w = (s.tickStored w).stopTick := by
  have hrunning : (s.tickStored w).tick.running = true := by
    rw [tickStored, wrs_tick]
    exact hrun
  rw [tickCtrl_eq, hoff, happly, hwas, hrunning]
  rfl

/-- A write of APPLY that leaves ENABLE as it was. -/
theorem State.tickCtrl_apply {s : State} {w : Nat} (hkept : bitOf w 0 = s.flag TICK_CTRL.ENABLE) (happly : bitOf w 8 = true) :
    s.tickCtrl w = (s.tickStored w).tryApply := by
  rw [tickCtrl_eq, hkept, happly]
  cases s.flag TICK_CTRL.ENABLE <;> rfl

theorem exec_tickEnable {s : State} (h : s.Open) {w : Word} (hw : bitOf w.toNat 0 = true) :
    exec (.tickEnable w) s = .next (s.tickCtrl w.toNat) := by
  change execTickEnable w s = _
  rw [execTickEnable, State.setup_open h, if_pos hw]

theorem exec_tickDisable {s : State} (h : s.Open) {w : Word} (hw : bitOf w.toNat 0 = false) :
    exec (.tickDisable w) s = .next (s.tickCtrl w.toNat) := by
  change execTickDisable w s = _
  rw [execTickDisable, State.setup_open h, if_neg (ne_true_of_eq_false hw)]

theorem exec_tickApply {s : State} (h : s.Open) {w : Word} (hw : bitOf w.toNat 8 = true) :
    exec (.tickApply w) s = .next (s.tickCtrl w.toNat) := by
  change execTickApply w s = _
  rw [execTickApply, State.setup_open h, if_pos hw]

/-- Settles O41. -/
theorem tickStartsStopsAndApplies : Obligations.TickStartsStopsAndApplies := by
  unfold Obligations.TickStartsStopsAndApplies
  intro stored
  refine ⟨?start, ?stop, fun s => ⟨rfl, rfl, rfl⟩, ?refused, ?accepted⟩
  case start =>
    intro s w hinv hopen hon happly hsource hwas hlc hnone
    have h : s.Canon := hinv.1
    have hs := State.tickStored_canon h w.toNat
    have hfree : (s.tickStored w.toNat).sourceWritten = 0 := by
      have hrd : (s.tickStored w.toNat).rd TICK_CTRL.SOURCE = 0 := by
        refine (State.tickStored_mem h (p := (TICK_CTRL.SOURCE, bitsOf w.toNat 1 2)) (by simp [tickCtrlWrites])).trans ?_
        rw [hsource]
        rfl
      rw [State.sourceWritten, hrd]
      rfl
    have hmay : (s.tickStored w.toNat).mayTick = true := by
      rw [State.mayTick, State.tickStored_rd h _ (by decide) (.inl (by decide))]
      exact bne_iff_ne.2 hlc
    have happlied : (s.tickStored w.toNat).tick.apply = none := by
      rw [State.tickStored, State.wrs_tick]
      exact hnone
    have hexec : exec (.tickEnable w) s = .next (s.tickStored w.toNat).startTick := by
      rw [exec_tickEnable hopen hon, State.tickCtrl_start hon happly hwas hmay]
    refine ⟨_, hexec, ?_⟩
    rw [State.startTick_free happlied hfree]
    obtain ⟨hregs, hnow⟩ := (s.tickStored w.toNat).tickTaken_replanned
    generalize (s.tickStored w.toNat).tickTaken.replanAll = u at hregs hnow ⊢
    have hu : u.Canon := by
      unfold State.Canon
      rw [hregs]
      exact State.wr_canon hs _ _
    have hrd : ∀ {f : Fld}, f.apart TICK_STATUS.LOCK → f.hi < 64 →
        (u.setLock lockFree).rd f = ((s.tickStored w.toNat).wr TICK_STATUS.SOURCE 0).rd f := fun hf hi =>
      (State.setLock_free_rd hu hf hi).trans (State.rd_congr hregs _)
    refine ⟨?_, ?_, ?_, rfl, rfl, rfl, ?_, ?_, ?_⟩
    · refine (hrd (f := TICK_CTRL.ENABLE) (.inl (by decide)) (by decide)).trans ?_
      rw [State.rd_wr_apart hs _ (.inl (by decide)) (by decide)]
      refine (State.tickStored_mem h (p := (TICK_CTRL.ENABLE, b2n (bitOf w.toNat 0))) (by simp [tickCtrlWrites])).trans ?_
      rw [hon]
      rfl
    · exact (hrd (f := TICK_STATUS.SOURCE) (.inr (by decide)) (by decide)).trans (State.rd_wr hs _ _ (by decide))
    · exact State.setLock_free_lock hu
    · change (u.setLock lockFree).firstEdge = _
      rw [State.firstEdge, hrd (.inl (by decide)) (by decide), State.rd_wr_apart hs _ (.inl (by decide)) (by decide),
        State.tickStored_rd h _ (by decide) (.inr (by decide)), State.setLock_free_eq]
      dsimp only
      rw [hnow, State.tickStored, State.wrs_now]
    · change (u.setLock lockFree).now = _
      rw [State.setLock_free_eq]
      dsimp only
      rw [hnow, State.tickStored, State.wrs_now]
    · have hstored := State.status_only (State.tickStored_only h w.toNat) hs (f := TICK_STATUS.SOURCE) 0 rfl (by decide)
      exact (State.setLock_free_only (hstored.of_regs hregs) hu).of_regs rfl
  case stop =>
    intro s w hopen hoff happly hwas hrun
    rw [exec_tickDisable hopen hoff, State.tickCtrl_stop hoff happly hwas hrun]
    rfl
  case refused =>
    intro s w hinv hopen happly hkept hranges
    have h : s.Canon := hinv.1
    have hs := State.tickStored_canon h w.toNat
    have htry : (s.tickStored w.toNat).tryApply = (s.tickStored w.toNat).refuseApply cBadField := by
      have hno : (s.tickStored w.toNat).proposed.ranges = false := hranges
      rw [State.tryApply]
      dsimp only
      rw [hno]
      rfl
    refine ⟨_, by rw [exec_tickApply hopen happly, State.tickCtrl_apply hkept happly, htry], ?_⟩
    refine ⟨?_, ?_, ?_, ?_⟩
    · rw [State.refuseApply, State.raise_rd]
      exact State.rd_wr hs _ _ (by decide)
    · rw [State.refuseApply, State.raise, State.raiseWith, State.wr_ic, State.tickStored, State.wrs_ic]
    · rw [State.refuseApply, State.raise_tick, State.wr_tick, State.tickStored, State.wrs_tick]
    · exact (State.status_only (State.tickStored_only h w.toNat) hs (f := TICK_STATUS.APPLY_REASON) cBadField rfl
        (by decide)).of_regs (State.raise_regs ..)
  case accepted =>
    intro s w hinv hopen happly hkept hranges hledger
    have h : s.Canon := hinv.1
    have hs := State.tickStored_canon h w.toNat
    have htry : (s.tickStored w.toNat).tryApply = { (s.tickStored w.toNat).wr TICK_STATUS.APPLY_PENDING 1 with
        tick := { (s.tickStored w.toNat).tick with apply := some (s.tickStored w.toNat).proposed, applyRipe := false } } := by
      have hok : (s.tickStored w.toNat).proposed.ranges = true := hranges
      have hfits : (s.tickStored w.toNat).applyCode (s.tickStored w.toNat).proposed = none := hledger
      rw [State.tryApply]
      dsimp only
      rw [hok, hfits]
      rfl
    refine ⟨_, by rw [exec_tickApply hopen happly, State.tickCtrl_apply hkept happly, htry], ?_⟩
    refine ⟨?_, ?_, ?_, ?_⟩
    · exact State.rd_wr hs _ _ (by decide)
    · refine (State.rd_wr_apart hs (f := TICK_PERIOD.PERIOD_NS) 1 (.inl (by decide)) (by decide)).trans ?_
      exact State.tickStored_rd h _ (by decide) (.inr (by decide))
    · rw [State.tickStored, State.wrs_tick]
      rfl
    · exact (State.status_only (State.tickStored_only h w.toNat) hs (f := TICK_STATUS.APPLY_PENDING) 1 rfl (by decide)).of_regs rfl

end Sys2Proof.Machine
end

section
/-! The Flyer's tick: gap, slots, END, notches, loads, underruns and BAND_BLANK (R233, R235, R252 to R258). -/

namespace Sys2Proof.Machine

/-! ### The table of a tick -/

/-- The engines whose tick gap ends: lit, with the gap still open (R251). -/
def State.gapDue (s : State) : List Nat := (List.range 32).filter fun e => s.litNow e && !(s.engine e).run.gapDone

/-- Slot 0 of the table of engine `e` starts, where it leads its own slots (R251). -/
def State.startFirst (s : State) (e : Nat) : State :=
  match (s.engine e).run.nextSlot with
  | some t => if s.leads e then s.startSlot e 0 t else s
  | none => s

/-- The tick gap of the engines of a list ends, and their first slots start. -/
def State.endGaps (s : State) (due : List Nat) : State :=
  due.foldl State.startFirst (due.foldl (fun (s : State) e => s.setRun e fun r => { r with gapDone := true }) s)

theorem exec_tickGapEnd {s : State} (hr : s.ready = true) (hrun : s.tick.running = true) :
    exec .tickGapEnd s = .next ((s.reach (s.edgeTime + s.gap)).endGaps (s.reach (s.edgeTime + s.gap)).gapDue) := by
  change execTickGapEnd s = _
  rw [execTickGapEnd, State.inService_ready hr, if_pos hrun]
  rfl

/-- With no lit engine no slot starts. -/
theorem exec_tickGapEnd_dark {s : State} (hr : s.ready = true) (hrun : s.tick.running = true)
    (hdark : ∀ e, e < 32 → s.litNow e = false) :
    exec .tickGapEnd s = .next { s with now := max s.now (s.edgeTime + s.gap) } := by
  have hdue : (s.reach (s.edgeTime + s.gap)).gapDue = [] := by
    refine List.filter_eq_nil_iff.2 fun e he => ?_
    have hoff : (s.reach (s.edgeTime + s.gap)).litNow e = false := hdark e (List.mem_range.1 he)
    rw [hoff]
    exact Bool.false_ne_true
  rw [exec_tickGapEnd hr hrun, hdue]
  rfl

theorem FlyRun.applySlot_queues (r : FlyRun) (i : Nat) (t : TwistSlot) {l : LoadRun} (hl : l ∈ (r.applySlot i t).loads)
    (hslot : l.at_.slot = i) : l.queued = true := by
  unfold applySlot at hl
  obtain ⟨k, -, rfl⟩ := List.mem_map.1 hl
  split at hslot
  · next hk => rw [if_pos hk]
  · next hk => exact absurd hslot hk

theorem exec_slotStart {s : State} {e : Nat} {t : TwistSlot} (hr : s.ready = true) (he : e < 32) (hleads : s.leads e = true)
    (hgap : (s.engine e).run.gapDone = true) (hnext : (s.engine e).run.nextSlot = some t) :
    exec (.slotStart e) s = .next ((s.reach (s.slotTime t.start)).startSlot e (s.engine e).run.slot t) := by
  change execSlotStart e s = _
  rw [execSlotStart, State.inService_ready hr]
  dsimp only
  rw [hnext]
  dsimp only
  rw [if_pos ⟨he, hleads, hgap⟩]

theorem exec_tableEnd {s : State} {e : Nat} {t : TwistTable} (hr : s.ready = true) (he : e < 32) (hleads : s.leads e = true)
    (hgap : (s.engine e).run.gapDone = true) (htable : (s.engine e).run.table = some t)
    (hslot : (s.engine e).run.slot = t.slots.length) (hclones : s.clonesOf e = []) :
    exec (.tableEnd e) s = .next ((s.reach (s.slotTime t.end_)).setRun e fun r => { r with shows := r.shows.map fun _ => none }) := by
  have hlit : s.litNow e = true := (Bool.and_eq_true_iff.1 hleads).1
  change execTableEnd e s = _
  rw [execTableEnd, State.inService_ready hr]
  dsimp only
  rw [htable]
  dsimp only
  rw [if_pos ⟨he, hleads, hgap, hslot⟩]
  generalize hz : s.reach (s.slotTime t.end_) = z
  have hlitz : z.litNow e = true := by rw [← hz]; exact hlit
  have hclonesz : z.clonesOf e = [] := by rw [← hz]; exact hclones
  rw [hclonesz, List.foldl_cons, List.foldl_nil, if_pos hlitz]

/-! ### Notches -/

/-- The first notch still to fire is marked fired, in the run and in the tick of the light chapters, at its instant (R252). -/
def State.notchFired (s : State) (e : Nat) (n : NotchRun) : State :=
  let fire (l : List NotchRun) : List NotchRun := l.map fun m => if m.n = n.n then { m with fired := true } else m
  ((s.reach (notchAt s.edgeTime (s.lightOf e).act.notchW n.n)).setRun e fun r => { r with notches := fire r.notches }).setEngine e
    fun g => { g with ticks := g.ticks.modifyHead fun t => { t with notches := fire t.notches } }

theorem State.notchFired_regs (s : State) (e : Nat) (n : NotchRun) : (s.notchFired e n).regs = s.regs := rfl

theorem State.notchFired_now (s : State) (e : Nat) (n : NotchRun) :
    (s.notchFired e n).now = max s.now (notchAt s.edgeTime (s.lightOf e).act.notchW n.n) := rfl

theorem exec_notch {s : State} {e : Nat} {n : NotchRun} (hr : s.ready = true) (he : e < 32) (hlit : s.litNow e = true)
    (hgap : (s.engine e).run.gapDone = false) (hnext : (s.engine e).run.notches.find? (fun n => !n.fired) = some n) :
    exec (.notch e) s = .next (((s.notchFired e n).bump (FLY_ENG_NOTCH.FIRED e) 1).bump
      (LGT_STR_COUNTS.NOTCHES e (9 * n.bank + n.string)) 1) := by
  change execNotch e s = _
  rw [execNotch, State.inService_ready hr]
  dsimp only
  rw [hnext]
  dsimp only
  rw [if_pos ⟨he, hlit, hgap⟩]
  rfl

theorem fired_apart_notches (e k : Nat) : (FLY_ENG_NOTCH.FIRED e).apart (LGT_STR_COUNTS.NOTCHES e k) := by
  simp only [Fld.apart, FLY_ENG_NOTCH.FIRED, LGT_STR_COUNTS.NOTCHES]
  omega

/-- Settles O43. -/
theorem theTableOfATickRuns : Obligations.TheTableOfATickRuns := by
  unfold Obligations.TheTableOfATickRuns
  refine ⟨fun s hr hrun hdark => exec_tickGapEnd_dark hr hrun hdark, fun s hr hrun => (exec_tickGapEnd hr hrun).trans rfl,
    fun s e t hr he hleads hgap hnext => exec_slotStart hr he hleads hgap hnext,
    fun r i t => ⟨rfl, fun l hl hslot => r.applySlot_queues i t hl hslot⟩,
    fun s e t hr he hleads hgap htable hslot hclones => exec_tableEnd hr he hleads hgap htable hslot hclones, ?notch⟩
  case notch =>
    intro s e n hinv hr he hlit hgap hnext hbank hstring
    refine ⟨_, exec_notch hr he hlit hgap hnext, ?_⟩
    have h : (s.notchFired e n).Canon := hinv.1
    have hb : ((s.notchFired e n).bump (FLY_ENG_NOTCH.FIRED e) 1).Canon := State.bump_canon h _ _
    have hapart := fired_apart_notches e (9 * n.bank + n.string)
    refine ⟨?_, ?_, ?_, ?_⟩
    · rw [State.rd_bump_apart hb 1 hapart (of_decide_eq_true rfl)]
      exact State.rd_bump h _ 1 (of_decide_eq_true rfl)
    · refine (State.rd_bump hb _ 1 (of_decide_eq_true rfl)).trans ?_
      rw [State.rd_bump_apart h 1 hapart.symm (of_decide_eq_true rfl)]
      rfl
    · rw [State.bump_now, State.bump_now, State.notchFired_now]
    · have hfirst : s.Only [(FLY_ENG_NOTCH.FIRED e).off] ((s.notchFired e n).bump (FLY_ENG_NOTCH.FIRED e) 1) :=
        State.bump_only h 1 (of_decide_eq_true rfl)
      exact hfirst.trans (State.bump_only hb 1 (of_decide_eq_true rfl)) (by simp) (by simp)

/-! ### Loads -/

theorem exec_loadStart {s : State} {e j : Nat} {l : LoadRun} (hr : s.ready = true) (he : e < 32) (hlit : s.litNow e = true)
    (hnext : s.nextLoad e = some (j, l)) : exec (.loadStart e) s = .next
      (if s.bandReady e l then (s.reach (s.slotTime l.at_.q)).setRun e fun r => { r with
        loads := setAt r.loads j fun l => { l with started := true }, cells := setAt r.cells l.at_.band fun _ => some j }
      else (s.reach (s.slotTime l.at_.q)).abortTick e ((s.engine e).run.slot - 1) 1) := by
  change execLoadStart e s = _
  rw [execLoadStart, State.inService_ready hr]
  dsimp only
  rw [hnext]
  dsimp only
  rw [if_pos ⟨he, hlit⟩]
  rfl

theorem exec_underrun {s : State} {e c : Nat} (hr : s.ready = true) (he : e < 32) (hlit : s.litNow e = true)
    (hcause : s.underrun e = some c) : exec (.underrun e) s = .next (s.abortTick e ((s.engine e).run.slot - 1) c) := by
  change execUnderrun e s = _
  rw [execUnderrun, State.inService_ready hr, if_pos ⟨he, hlit⟩, hcause]
  rfl

theorem exec_underrun_none {s : State} {e : Nat} (hcause : s.underrun e = none) : exec (.underrun e) s = .next s := by
  change execUnderrun e s = _
  refine congrArg _ (State.inService_rest ?_)
  rw [hcause]
  exact ite_self _

/-- The decision of R258 is made at its instant. -/
theorem exec_bandBlank {s : State} {e b : Nat} {t : TwistTable} {n x : TwistSlot} (hr : s.ready = true) (he : e < 32)
    (hlit : s.litNow e = true) (hgap : (s.engine e).run.gapDone = true) (htable : (s.engine e).run.table = some t)
    (hnext : t.slots[(s.engine e).run.slot]? = some n)
    (hreset : (t.slots.drop (s.engine e).run.slot).find? (fun x => bitOf x.reset b) = some x) (hahead : x.start ≤ n.start + 100) :
    exec (.bandBlank e b) s = .next ((s.reach (s.slotTime x.start - 500)).decide_ e b) := by
  have hslot : (s.engine e).run.nextSlot = some n := by
    rw [FlyRun.nextSlot, htable]
    exact hnext
  change execBandBlank e b s = _
  rw [execBandBlank, State.inService_ready hr]
  dsimp only
  rw [hslot, htable]
  simp only [Option.bind_some, hreset]
  rw [if_pos ⟨he, hlit, hgap, hahead⟩]

theorem exec_egressFetch {s : State} {e n j whole : Nat} {l : LoadRun} (hr : s.ready = true) (he : e < 32)
    (hleads : s.leads e = true) (hband : s.bandReady e l = true)
    (hwhole : whole = (s.engine e).fly.cfg.width / 8 * ((s.engine e).fly.cfg.height / (s.engine e).fly.cfg.bands))
    (hfind : ((s.engine e).run.loads.zipIdx).find? (fun p => !p.1.abandoned && !p.1.dead && decide (p.1.data.length < whole)) =
      some (l, j)) : exec (.egressFetch e n) s = .next (s.fetchBlock e j l whole n) := by
  change execEgressFetch e n s = _
  rw [execEgressFetch, State.inService_ready hr]
  dsimp only
  rw [← hwhole, hfind]
  dsimp only
  rw [if_pos ⟨he, hleads, hband⟩]

/-- Settles O44. -/
theorem loadsBeginOrEndTheTick : Obligations.LoadsBeginOrEndTheTick := by
  unfold Obligations.LoadsBeginOrEndTheTick
  refine ⟨?begins, ?ends, fun s e c hr he hlit hcause => exec_underrun hr he hlit hcause,
    fun s e hcause => exec_underrun_none hcause, ?blank, ?fetch⟩
  case begins =>
    intro s e j l hr he hlit hnext hready
    rw [exec_loadStart hr he hlit hnext, if_pos hready]
    rfl
  case ends =>
    intro s e j l hr he hlit hnext hready
    rw [exec_loadStart hr he hlit hnext, if_neg (ne_true_of_eq_false hready)]
    rfl
  case blank =>
    intro s e b j t n x hr he hlit hgap htable hnext hreset hahead z hshown
    have hexec : exec (.bandBlank e b) s = .next (z.decide_ e b) := exec_bandBlank hr he hlit hgap htable hnext hreset hahead
    refine ⟨fun hdone => ?_, fun hopen hclones => ?_⟩
    · rw [hexec, State.decide_, hshown]
      exact congrArg _ (if_pos hdone)
    · rw [hexec, State.decide_, hshown]
      refine congrArg _ ((if_neg (ne_true_of_eq_false hopen)).trans ?_)
      rw [hclones, List.foldl_cons, List.foldl_nil]
  case fetch =>
    intro s e n j l hr he hleads hband c whole hfind hclones k a
    rw [exec_egressFetch hr he hleads hband (whole := whole) rfl hfind, State.fetchBlock,
      hclones, List.foldl_cons, List.foldl_nil]

end Sys2Proof.Machine
end

section
/-! The sub-ports of the Skein link and the laser permit (R296 to R304). -/

namespace Sys2Proof.Machine

/-! ### Link states -/

/-- The fields that a change of a sub-port's state writes. -/
def stateWrites (e st : Nat) : List (Fld × Nat) :=
  [(SKN_ENG_STATUS.STATE e, st), (if e % 2 = 0 then SKN_PORT_STATUS.STATE0 (e / 2) else SKN_PORT_STATUS.STATE1 (e / 2), st)]

theorem State.setLinkState_regs (s : State) (e st : Nat) : (s.setLinkState e st).regs = (s.wrs (stateWrites e st)).regs := rfl

theorem stateWrites_pairwise (e st : Nat) : (stateWrites e st).Pairwise fun p q => p.1.apart q.1 := by
  simp only [stateWrites, List.pairwise_cons, List.forall_mem_cons, List.not_mem_nil, Fld.apart, false_imp_iff, implies_true,
    List.Pairwise.nil, and_true]
  split
  · simp only [SKN_ENG_STATUS.STATE, SKN_PORT_STATUS.STATE0]
    omega
  · simp only [SKN_ENG_STATUS.STATE, SKN_PORT_STATUS.STATE1]
    omega

theorem State.setLinkState_state {s : State} (h : s.Canon) (e : Nat) {st : Nat} (hst : st < 8) :
    (s.setLinkState e st).linkState e = st := by
  have hrd : (s.setLinkState e st).rd (SKN_ENG_STATUS.STATE e) = st % 8 := by
    rw [rd_congr (setLinkState_regs ..)]
    exact rd_wrs_mem (of_decide_eq_true rfl) (stateWrites_pairwise e st) (by simp [stateWrites]) h
  rw [linkState, hrd, Nat.mod_eq_of_lt hst]

/-- A field that a change of state does not write stands. -/
theorem State.setLinkState_rd {s : State} (h : s.Canon) (e st : Nat) {f : Fld} (hi : f.hi < 64)
    (hf : ∀ p ∈ stateWrites e st, f.apart p.1) : (s.setLinkState e st).rd f = s.rd f :=
  (rd_congr (setLinkState_regs ..) f).trans (rd_wrs_apart hi hf h)

theorem reason_apart_state (e st : Nat) : ∀ p ∈ stateWrites e st, (SKN_ENG_STATUS.REASON e).apart p.1 := by
  simp only [stateWrites, List.forall_mem_cons, List.not_mem_nil, false_imp_iff, implies_true, and_true]
  refine ⟨Fld.apart_same rfl (of_decide_eq_true rfl), ?_⟩
  split
  · simp only [Fld.apart, SKN_ENG_STATUS.REASON, SKN_PORT_STATUS.STATE0]
    omega
  · simp only [Fld.apart, SKN_ENG_STATUS.REASON, SKN_PORT_STATUS.STATE1]
    omega

theorem retrains_apart_state (e st : Nat) : ∀ p ∈ stateWrites e st, (SKN_PORT_LINK.RETRAINS (e / 2)).apart p.1 := by
  simp only [stateWrites, List.forall_mem_cons, List.not_mem_nil, false_imp_iff, implies_true, and_true]
  refine ⟨by simp only [Fld.apart, SKN_PORT_LINK.RETRAINS, SKN_ENG_STATUS.STATE]; omega, ?_⟩
  split
  · simp only [Fld.apart, SKN_PORT_LINK.RETRAINS, SKN_PORT_STATUS.STATE0]
    omega
  · simp only [Fld.apart, SKN_PORT_LINK.RETRAINS, SKN_PORT_STATUS.STATE1]
    omega

theorem retrains_apart_reason (e : Nat) : (SKN_PORT_LINK.RETRAINS (e / 2)).apart (SKN_ENG_STATUS.REASON e) := by
  simp only [Fld.apart, SKN_PORT_LINK.RETRAINS, SKN_ENG_STATUS.REASON]
  omega

/-! ### Training -/

/-- The state in which a sub-port's retrain has been counted (R297). -/
def State.retrained (s : State) (e : Nat) : State :=
  if s.linkState e = 0 then s else s.bump (SKN_PORT_LINK.RETRAINS (e / 2)) 1

/-- And in which its cause, where it has one, is shown (R305). -/
def State.reasoned (s : State) (e : Nat) (reason : Option Nat) : State :=
  match reason with
  | some c => s.wr (SKN_ENG_STATUS.REASON e) c
  | none => s

theorem State.retrained_canon {s : State} (h : s.Canon) (e : Nat) : (s.retrained e).Canon := by
  unfold retrained
  split
  · exact h
  · exact bump_canon h _ _

theorem State.reasoned_canon {s : State} (h : s.Canon) (e : Nat) (reason : Option Nat) : (s.reasoned e reason).Canon := by
  cases reason
  · exact h
  · exact wr_canon h _ _

/-- From a state other than RUN no tick ends. -/
theorem State.train_eq {s : State} {e : Nat} (h : s.linkState e ≠ 5) (reason : Option Nat) : s.train e reason =
    (((s.retrained e).reasoned e reason).setLink e fun l =>
      { l.drop with trainAt := ((s.retrained e).reasoned e reason).now, configEdges := 0, offered := none }).setLinkState e 1 := by
  have hleave : s.leaveRun e = s := if_neg h
  unfold train
  dsimp only
  rw [hleave]
  rfl

theorem State.train_regs {s : State} {e : Nat} (h : s.linkState e ≠ 5) (reason : Option Nat) :
    (s.train e reason).regs = (((s.retrained e).reasoned e reason).setLinkState e 1).regs := by
  rw [train_eq h, setLinkState_regs, setLinkState_regs]
  exact wrs_congr _ rfl

theorem State.train_shows {s : State} (h : s.Canon) {e : Nat} (hrun : s.linkState e ≠ 5) (reason : Option Nat) :
    (s.train e reason).linkState e = 1 ∧
      (∀ k, reason = some k → k < 256 → (s.train e reason).rd (SKN_ENG_STATUS.REASON e) = k) ∧
      (s.train e reason).rd (SKN_PORT_LINK.RETRAINS (e / 2)) = (if s.linkState e = 0 then s.rd (SKN_PORT_LINK.RETRAINS (e / 2))
        else min (s.rd (SKN_PORT_LINK.RETRAINS (e / 2)) + 1) 65535) := by
  have hc := retrained_canon h e
  have hr := reasoned_canon hc e reason
  have hregs := train_regs hrun reason
  refine ⟨(rd_congr hregs _).trans (setLinkState_state hr e (by decide)), ?_, ?_⟩
  · rintro k rfl hk
    rw [rd_congr hregs, setLinkState_rd hr e 1 (of_decide_eq_true rfl) (reason_apart_state e 1)]
    exact (rd_wr hc _ k (of_decide_eq_true rfl)).trans (Nat.mod_eq_of_lt hk)
  · rw [rd_congr hregs, setLinkState_rd hr e 1 (of_decide_eq_true rfl) (retrains_apart_state e 1)]
    have hreason : ((s.retrained e).reasoned e reason).rd (SKN_PORT_LINK.RETRAINS (e / 2)) =
        (s.retrained e).rd (SKN_PORT_LINK.RETRAINS (e / 2)) := by
      cases reason
      · rfl
      · exact rd_wr_apart hc _ (retrains_apart_reason e) (of_decide_eq_true rfl)
    rw [hreason, retrained]
    split
    · rfl
    · exact rd_bump h _ 1 (of_decide_eq_true rfl)

/-! ### Messages and set-up writes -/

/-- What a message shows of an EVENT (R290). -/
def eventWrites (e code arg : Nat) : List (Fld × Nat) := [(SKN_ENG_LAST_EVENT.CODE e, code), (SKN_ENG_LAST_EVENT.ARG e, arg)]

/-- The state in which an EVENT message of engine `e` is acted on. -/
def State.told (s : State) (e code arg : Nat) : State := (s.heard e).wrs (eventWrites e code arg)

theorem State.event_hears {s : State} {e : Nat} (h : s.Hears e) (code arg : Nat) (f : State → State) :
    s.event e code arg f = f (s.told e code arg) := message_hears h _

theorem eventWrites_off {e code arg : Nat} {p : Fld × Nat} (hp : p ∈ eventWrites e code arg) :
    p.1.off = (SKN_ENG_LAST_EVENT.CODE e).off ∧ p.1.hi < 32 := by
  simp only [eventWrites, List.mem_cons, List.not_mem_nil, or_false] at hp
  obtain rfl | rfl := hp <;> exact ⟨rfl, of_decide_eq_true rfl⟩

/-- A field of another word stands while an EVENT is shown. -/
theorem State.told_rd {s : State} (h : s.Canon) (e code arg : Nat) {f : Fld} (hi : f.hi < 32)
    (ho : f.off + 4 ≤ (SKN_ENG_LAST_EVENT.CODE e).off ∨ (SKN_ENG_LAST_EVENT.CODE e).off + 4 ≤ f.off) :
    (s.told e code arg).rd f = s.rd f :=
  rd_wrs_apart (s := s.heard e) (Nat.lt_trans hi (by decide)) (fun p hp => by
    obtain ⟨hoff, hhi⟩ := eventWrites_off hp
    exact Fld.apart_word hi hhi (by rw [hoff]; exact ho)) h

theorem State.told_linkState {s : State} (h : s.Canon) (e code arg : Nat) : (s.told e code arg).linkState e = s.linkState e :=
  told_rd h e code arg (of_decide_eq_true rfl) (by
    simp only [SKN_ENG_STATUS.STATE, SKN_ENG_LAST_EVENT.CODE]
    omega)

theorem exec_darkTimer {s : State} {e : Nat} (hinv : s.Inv) (h : s.Hears e) (k : Nat) :
    exec (.darkTimer e k) s = .next (if 2 ≤ s.linkState e then (s.told e 6 k).train e none else s.told e 6 k) := by
  change execDarkTimer e k s = _
  rw [execDarkTimer, State.event_hears h, State.told_linkState hinv.1]

theorem exec_sknPortEnable {s : State} (h : s.Open) {p : Nat} (hp : p < 16) (w : Word) : exec (.sknPortEnable p w) s = .next
    (let z := s.wrs [(SKN_PORT_CFG.ENABLE p, bitsOf w.toNat 0 1), (SKN_PORT_CFG.REPLAY_MAX p, bitsOf w.toNat 1 3),
      (SKN_PORT_CFG.ID_LOCK p, bitsOf w.toNat 4 1), (SKN_PORT_CFG.RS_INVERT p, bitsOf w.toNat 5 1),
      (SKN_PORT_CFG.MSG_ENABLE p, bitsOf w.toNat 6 1), (SKN_PORT_CFG.TX_INVERT p, bitsOf w.toNat 7 4)]
    if bitOf w.toNat 0 then (z.enginesOf p).foldl (fun s e => if s.linkState e = 0 ∧ s.portMayTrain p then s.train e none else s) z
    else (z.enginesOf p).foldl (fun s e => s.linkOff e) z) := by
  change execSknPortEnable p w s = _
  rw [execSknPortEnable, State.setup_open h, if_neg (Nat.not_le.2 hp)]

theorem exec_retrain {s : State} (h : s.Open) (e : Nat) :
    exec (.retrain e) s = .next (if s.exists_ e ∧ 2 ≤ s.linkState e then s.train e none else s) := by
  change execRetrain e s = _
  rw [execRetrain, State.setup_open h]

theorem exec_accept {s : State} (h : s.Open) {e x : Nat} (hoff : (s.engine e).link.offered = some x) : exec (.accept e) s = .next
    (if s.linkState e = 6 ∧ s.rd (SKN_ENG_STATUS.REASON e) = 0x40 then (s.acceptIdent e x).enterConfig e else s) := by
  change execAccept e s = _
  rw [execAccept, State.setup_open h]
  simp only [hoff]

/-- ACCEPT does nothing but in a HOLD with REASON 0x40. -/
theorem exec_accept_rest {s : State} (h : s.Open) {e : Nat} (hst : s.linkState e ≠ 6 ∨ s.rd (SKN_ENG_STATUS.REASON e) ≠ 0x40) :
    exec (.accept e) s = .next s := by
  have hno : ¬(s.linkState e = 6 ∧ s.rd (SKN_ENG_STATUS.REASON e) = 0x40) := fun ⟨h6, h40⟩ => by
    obtain h | h := hst
    · exact h h6
    · exact h h40
  cases hoff : (s.engine e).link.offered with
  | none =>
    change execAccept e s = _
    rw [execAccept, State.setup_open h]
    simp only [hoff]
  | some x => rw [exec_accept h hoff, if_neg hno]

/-- Settles O45. -/
theorem subPortsFollowTheLinkTable : Obligations.SubPortsFollowTheLinkTable := by
  unfold Obligations.SubPortsFollowTheLinkTable
  refine ⟨?enable, ?retrain, ?retrainRest, ?accept, ?dark, ?darkTrain, fun s e hopen hst => exec_accept_rest hopen hst, ?silent,
    ?lost, ?lock, fun s e c hinv _ hrun => State.train_shows hinv.1 hrun c⟩
  case enable =>
    intro s p w hopen hp x z
    refine ⟨fun hoff => ?_, fun hon => ?_⟩
    · exact (exec_sknPortEnable hopen hp w).trans (congrArg _ (if_neg (ne_true_of_eq_false hoff)))
    · exact (exec_sknPortEnable hopen hp w).trans (congrArg _ (if_pos hon))
  case retrain =>
    intro s e hopen hex hst
    rw [exec_retrain hopen, if_pos ⟨hex, hst⟩]
  case retrainRest =>
    intro s e hopen hst
    rw [exec_retrain hopen, if_neg (by omega)]
  case accept =>
    intro s e x hopen hoff hst hreason
    rw [exec_accept hopen hoff, if_pos ⟨hst, hreason⟩]
  case dark =>
    intro s e k hears hst hinv
    rw [exec_darkTimer hinv hears, if_pos hst]
    rfl
  case darkTrain =>
    intro s e k hears hst hinv
    rw [exec_darkTimer hinv hears, if_neg (by omega)]
    rfl
  case silent =>
    intro s e hr hex hdue
    change execSkeinNoAnswer e s = _
    rw [execSkeinNoAnswer, State.inService_ready hr, if_pos ⟨hex, hdue⟩]
  case lost =>
    intro s p hr hp hlost hold live hlive
    change execReturnStrandLost p s = _
    rw [execReturnStrandLost, State.inService_ready hr, if_pos ⟨hp, hlive, hlost, hold⟩]
  case lock =>
    intro s p lock hr hp
    change execReturnStrandLock p lock s = _
    rw [execReturnStrandLock, State.inService_ready hr, if_pos hp]

/-! ### The laser permit -/

/-- A field of the interlock registers (chapter 10). -/
def Fld.OfLsafe (f : Fld) : Prop := 0x200F00 ≤ f.off ∧ f.off ≤ 0x200F0C ∧ f.hi < 32

/-- The interlock as it stood: its registers, RELEASE and the instant of LSAFE_IN_L, and LSAFE_OUT. -/
structure State.SameLsafe (s t : State) : Prop where
  canon : s.Canon → t.Canon
  rd : s.Canon → ∀ f : Fld, f.OfLsafe → t.rd f = s.rd f
  released : t.eng.released = s.eng.released
  lowAt : t.eng.lsafeLowAt = s.eng.lsafeLowAt
  pwr : t.pwr = s.pwr

theorem State.SameLsafe.refl (s : State) : s.SameLsafe s := ⟨id, fun _ _ _ => rfl, rfl, rfl, rfl⟩

theorem State.SameLsafe.trans {s t u : State} (h : s.SameLsafe t) (k : t.SameLsafe u) : s.SameLsafe u where
  canon hs := k.canon (h.canon hs)
  rd hs f hf := (k.rd (h.canon hs) f hf).trans (h.rd hs f hf)
  released := k.released.trans h.released
  lowAt := k.lowAt.trans h.lowAt
  pwr := k.pwr.trans h.pwr

theorem State.SameLsafe.foldl {α : Type} {f : State → α → State} {l : List α} {s : State}
    (hf : ∀ (t : State) (a : α), a ∈ l → t.SameLsafe (f t a)) : s.SameLsafe (l.foldl f s) :=
  foldl_keeps (P := fun t => s.SameLsafe t) (fun t a ha ht => ht.trans (hf t a ha)) (.refl s)

theorem State.SameLsafe.of_regs {s t : State} (hregs : t.regs = s.regs) (hreleased : t.eng.released = s.eng.released)
    (hlow : t.eng.lsafeLowAt = s.eng.lsafeLowAt) (hpwr : t.pwr = s.pwr) : s.SameLsafe t where
  canon hs := by unfold Canon; rw [hregs]; exact hs
  rd _ f _ := rd_congr hregs f
  released := hreleased
  lowAt := hlow
  pwr := hpwr

theorem State.wr_sameLsafe (s : State) {g : Fld} (v : Nat) (hg : ∀ f : Fld, f.OfLsafe → f.apart g) : s.SameLsafe (s.wr g v) where
  canon hs := wr_canon hs _ _
  rd hs f hf := rd_wr_apart hs v (hg f hf) (Nat.lt_trans hf.2.2 (by decide))
  released := by rw [wr_eng]
  lowAt := by rw [wr_eng]
  pwr := wr_pwr ..

theorem State.raiseLink_sameLsafe (s : State) (e : Nat) : s.SameLsafe (s.raiseLink e) := .of_regs rfl rfl rfl rfl

theorem State.showLit_sameLsafe (s : State) {e : Nat} (he : e < 32) : s.SameLsafe (s.showLit e) :=
  wr_sameLsafe s _ fun f hf => by
    obtain ⟨hlo, -, -⟩ := hf
    split
    · simp only [Fld.apart, FLY_PORT_STATUS.LIT0]
      omega
    · simp only [Fld.apart, FLY_PORT_STATUS.LIT1]
      omega

theorem State.setEngine_sameLsafe (s : State) (e : Nat) (f : EngState → EngState) : s.SameLsafe (s.setEngine e f) :=
  .of_regs rfl rfl rfl rfl

theorem State.queueAbort_sameLsafe (s : State) (e : Nat) : s.SameLsafe (s.queueAbort e) := by
  unfold queueAbort bumpSeq setLink
  dsimp only
  exact SameLsafe.trans (setEngine_sameLsafe s e _) (setEngine_sameLsafe _ e _)

/-- The end of an engine's tick leaves the interlock. -/
theorem State.endOne_sameLsafe (s : State) {e : Nat} (he : e < 32) : s.SameLsafe (s.endOne e) := by
  unfold endOne
  split
  · refine SameLsafe.trans ?_ (showLit_sameLsafe _ he)
    refine SameLsafe.trans ?_ (queueAbort_sameLsafe _ e)
    exact (setEngine_sameLsafe s e _).trans (setEngine_sameLsafe _ e _)
  · exact .refl s

/-- What a port shows of the permit, with source 16 + 4p where it is enabled (R304). -/
def State.portPermit (s : State) (on : Bool) (p : Nat) : State :=
  let s := s.wr (SKN_PORT_STATUS.PERMIT p) (b2n on)
  if s.flag (SKN_PORT_CFG.ENABLE p) then s.raiseLink (2 * p) else s

theorem State.portPermit_sameLsafe (s : State) (on : Bool) (p : Nat) : s.SameLsafe (s.portPermit on p) := by
  have hwr : s.SameLsafe (s.wr (SKN_PORT_STATUS.PERMIT p) (b2n on)) := wr_sameLsafe s _ fun f ⟨hlo, hhi, h32⟩ => by
    simp only [Fld.apart, SKN_PORT_STATUS.PERMIT]
    omega
  unfold portPermit
  dsimp only
  split
  · exact hwr.trans (raiseLink_sameLsafe ..)
  · exact hwr

/-- The interlock as the withdrawal of the permit leaves it: PERMIT 0 and LSAFE_OUT low (R303). -/
def State.permitGone (s : State) : State := (s.wr SKN_LSAFE_STATUS.PERMIT 0).driveLsafe

theorem State.withdrawPermit_sameLsafe {s : State} (hp : s.permit = true) : s.permitGone.SameLsafe s.withdrawPermit := by
  have hset : s.setPermit false = (List.range 16).foldl (fun t p => t.portPermit false p) s.permitGone := by
    rw [setPermit, if_neg (by simp [hp])]
    rfl
  rw [withdrawPermit, if_pos hp, hset]
  refine (SameLsafe.foldl fun t p _ => portPermit_sameLsafe t false p).trans (SameLsafe.foldl fun t e he => ?_)
  exact endOne_sameLsafe t (List.mem_range.1 (List.mem_filter.1 he).1)

/-- An opening writes IN_OPEN, and with the permit granted PERMIT and OUT. -/
def openingWrites : List (Fld × Nat) :=
  [(SKN_LSAFE_STATUS.IN_OPEN, 1), (SKN_LSAFE_STATUS.PERMIT, 0), (SKN_LSAFE_STATUS.OUT, 0)]

theorem openingWrites_pairwise : openingWrites.Pairwise fun p q => p.1.apart q.1 := by
  simp [openingWrites, Fld.apart, SKN_LSAFE_STATUS.IN_OPEN, SKN_LSAFE_STATUS.PERMIT, SKN_LSAFE_STATUS.OUT]

theorem openingWrites_apart {f : Fld} (ho : f.off ≠ SKN_LSAFE_STATUS.OUT.off) (ha : f.off % 4 = 0) (hi : f.hi < 32) :
    ∀ p ∈ openingWrites, f.apart p.1 := by
  simp only [openingWrites, List.forall_mem_cons, List.not_mem_nil, false_imp_iff, implies_true, and_true, Fld.apart,
    SKN_LSAFE_STATUS.IN_OPEN, SKN_LSAFE_STATUS.PERMIT, SKN_LSAFE_STATUS.OUT] at ho ⊢
  omega

/-- The part as LSAFE_IN_L rises (R303). -/
def State.lsafeRisen (s : State) : State :=
  { ({ s with pwr := { s.pwr with lsafeHigh := true } } : State).wr SKN_LSAFE_STATUS.IN_OPEN 1 with
    eng := { s.eng with lsafeLowAt := none } }

theorem State.lsafeRisen_regs (s : State) : s.lsafeRisen.regs = (s.wr SKN_LSAFE_STATUS.IN_OPEN 1).regs := wr_congr rfl _ _

theorem State.lsafeRisen_canon {s : State} (h : s.Canon) : s.lsafeRisen.Canon := by
  unfold Canon
  rw [lsafeRisen_regs]
  exact wr_canon h _ _

theorem State.lsafeRisen_permit {s : State} (h : s.Canon) : s.lsafeRisen.permit = s.permit := by
  unfold permit flag
  rw [rd_congr (lsafeRisen_regs s), rd_wr_apart h 1 (.inr (by decide)) (by decide)]

theorem State.permitGone_regs {s : State} (h : s.Canon) : s.permitGone.regs =
    ((s.wr SKN_LSAFE_STATUS.PERMIT 0).wr SKN_LSAFE_STATUS.OUT 0).regs ∧ s.permitGone.pwr.lsafeOut = false := by
  have hoff : (s.wr SKN_LSAFE_STATUS.PERMIT 0).permit = false := by
    have hrd : (s.wr SKN_LSAFE_STATUS.PERMIT 0).rd SKN_LSAFE_STATUS.PERMIT = 0 := rd_wr h _ _ (by decide)
    rw [permit, flag, hrd]
    rfl
  unfold permitGone driveLsafe
  rw [hoff]
  exact ⟨rfl, rfl⟩

/-- The registers of the interlock after an opening that withdraws the permit, but for its counter and AWAIT_RELEASE. -/
theorem State.lsafeRisen_gone {s : State} (h : s.Canon) : s.lsafeRisen.permitGone.regs = (s.wrs openingWrites).regs := by
  rw [(permitGone_regs (lsafeRisen_canon h)).1]
  exact wr_congr (wr_congr (lsafeRisen_regs s) _ _) _ _

/-- The opening while the permit is granted (R303). -/
theorem exec_lsafeOpen {s : State} (h : s.Canon) (hporst : s.pwr.porst = true) (hp : s.permit = true) :
    exec .lsafeOpen s = .next ({ s.lsafeRisen.withdrawPermit.bump SKN_LSAFE_COUNT.OPENINGS 1 with
      eng := { (s.lsafeRisen.withdrawPermit.bump SKN_LSAFE_COUNT.OPENINGS 1).eng with released := false } }).showAwait := by
  have hpermit : s.lsafeRisen.permit = true := (State.lsafeRisen_permit h).trans hp
  change execLsafeOpen s = _
  rw [execLsafeOpen]
  dsimp only
  rw [if_pos hporst]
  refine congrArg _ ((if_pos hpermit).trans ?_)
  rfl

/-- An interlock whose RELEASE is to be written anew shows it where LATCH is 1 (R304). -/
theorem State.showAwait_unreleased {s : State} (hrel : s.eng.released = false) :
    s.showAwait = s.wr SKN_LSAFE_STATUS.AWAIT_RELEASE (s.rd SKN_LSAFE_CFG.LATCH) := by
  have hlatch : b2n (s.flag SKN_LSAFE_CFG.LATCH && !s.eng.released) = s.rd SKN_LSAFE_CFG.LATCH := by
    rw [hrel, Bool.not_false, Bool.and_true]
    cases hf : s.flag SKN_LSAFE_CFG.LATCH
    · exact (rd_eq_zero rfl hf).symm
    · exact (flag_iff.1 hf).symm
  rw [showAwait, hlatch]

/-- Settles O46. -/
theorem permitFollowsTheInterlock : Obligations.PermitFollowsTheInterlock := by
  unfold Obligations.PermitFollowsTheInterlock
  refine ⟨?opens, ?closes, ?ignored, ?released⟩
  case opens =>
    intro s hinv hporst hp
    have h : s.Canon := hinv.1
    refine ⟨_, exec_lsafeOpen h hporst hp, ?_⟩
    have hsame := State.withdrawPermit_sameLsafe ((State.lsafeRisen_permit h).trans hp)
    have hout := (State.permitGone_regs (State.lsafeRisen_canon h)).2
    have hgone : s.lsafeRisen.permitGone.Canon := by
      unfold State.Canon
      rw [State.lsafeRisen_gone h]
      exact State.wrs_canon h
    have hrd : ∀ f : Fld, f.OfLsafe → s.lsafeRisen.withdrawPermit.rd f = (s.wrs openingWrites).rd f := fun f hf =>
      (hsame.rd hgone f hf).trans (State.rd_congr (State.lsafeRisen_gone h) f)
    have hw : s.lsafeRisen.withdrawPermit.Canon := hsame.canon hgone
    have hlow : s.lsafeRisen.withdrawPermit.eng.lsafeLowAt = none := hsame.lowAt.trans (by
      rw [State.permitGone, State.driveLsafe, State.wr_eng, State.wr_eng]
      rfl)
    have hdark : s.lsafeRisen.withdrawPermit.pwr.lsafeOut = false := (congrArg (·.lsafeOut) hsame.pwr).trans hout
    generalize s.lsafeRisen.withdrawPermit = u at hrd hw hlow hdark ⊢
    have hb : ({ u.bump SKN_LSAFE_COUNT.OPENINGS 1 with
        eng := { (u.bump SKN_LSAFE_COUNT.OPENINGS 1).eng with released := false } } : State).Canon := State.bump_canon hw _ _
    rw [State.showAwait_unreleased rfl]
    have hread : ∀ f : Fld, f.OfLsafe → f.apart SKN_LSAFE_STATUS.AWAIT_RELEASE → f.apart SKN_LSAFE_COUNT.OPENINGS →
        ∀ v, (({ u.bump SKN_LSAFE_COUNT.OPENINGS 1 with
          eng := { (u.bump SKN_LSAFE_COUNT.OPENINGS 1).eng with released := false } } : State).wr
            SKN_LSAFE_STATUS.AWAIT_RELEASE v).rd f = (s.wrs openingWrites).rd f := fun f hf hawait hcount v => by
      rw [State.rd_wr_apart hb v hawait (Nat.lt_trans hf.2.2 (by decide))]
      exact (State.rd_bump_apart hw 1 hcount (Nat.lt_trans hf.2.2 (by decide))).trans (hrd f hf)
    refine ⟨?_, ?_, ?_, ?_, ?_, ?_, ?_, ?_⟩
    · rw [State.permit, State.flag, hread SKN_LSAFE_STATUS.PERMIT ⟨by decide, by decide, by decide⟩ (.inl (by decide)) (.inl (by decide)),
        State.rd_wrs_mem (v := 0) (by decide) openingWrites_pairwise (by simp [openingWrites]) h]
      rfl
    · rw [hread SKN_LSAFE_STATUS.IN_OPEN ⟨by decide, by decide, by decide⟩ (.inl (by decide)) (.inl (by decide))]
      exact State.rd_wrs_mem (v := 1) (by decide) openingWrites_pairwise (by simp [openingWrites]) h
    · rw [hread SKN_LSAFE_STATUS.OUT ⟨by decide, by decide, by decide⟩ (.inl (by decide)) (.inl (by decide))]
      exact State.rd_wrs_mem (v := 0) (by decide) openingWrites_pairwise (by simp [openingWrites]) h
    · rw [State.wr_pwr]
      exact (congrArg (·.lsafeOut) (State.bump_pwr ..)).trans hdark
    · rw [State.wr_eng]
    · rw [State.wr_eng]
      exact (congrArg (·.lsafeLowAt) (State.bump_eng ..)).trans hlow
    · rw [State.rd_wr_apart hb _ (.inr (by decide)) (by decide)]
      refine (State.rd_bump hw _ 1 (by decide)).trans ?_
      rw [hrd _ ⟨by decide, by decide, by decide⟩,
        State.rd_wrs_apart (by decide) (openingWrites_apart (by decide) (by decide) (by decide)) h]
      rfl
    · have hlatch : (u.bump SKN_LSAFE_COUNT.OPENINGS 1).rd SKN_LSAFE_CFG.LATCH = s.rd SKN_LSAFE_CFG.LATCH := by
        rw [State.rd_bump_apart hw 1 (.inl (by decide)) (by decide), hrd _ ⟨by decide, by decide, by decide⟩,
          State.rd_wrs_apart (by decide) (openingWrites_apart (by decide) (by decide) (by decide)) h]
      refine (State.rd_wr hb _ _ (by decide)).trans ?_
      exact (congrArg (· % 2) hlatch).trans (Nat.mod_eq_of_lt (s.rd_lt SKN_LSAFE_CFG.LATCH))
  case closes =>
    intro s hporst hlow
    change execLsafeClose s = _
    rw [execLsafeClose]
    dsimp only
    rw [if_pos ⟨hporst, hlow⟩]
    refine congrArg _ ?_
    apply State.eq_of <;> simp
    exact State.wr_congr rfl _ _
  case ignored =>
    intro s hopen hhigh
    change execLsafeRelease s = _
    rw [execLsafeRelease, State.setup_open hopen, if_pos hhigh]
  case released =>
    intro s hopen hlow
    change execLsafeRelease s = _
    rw [execLsafeRelease, State.setup_open hopen, if_neg (ne_true_of_eq_false hlow), State.showAwait, Bool.not_true, Bool.and_false]
    refine congrArg _ ?_
    apply State.eq_of <;> simp
    exact State.wr_congr rfl _ _

end Sys2Proof.Machine
end

section
/-! Plies, acknowledgement and replay, identification and configuration (R271, R281, R284, R289 to R292, R297, R298). -/

namespace Sys2Proof.Machine

/-! ### Plies on a strand -/

theorem exec_plyTransmit {s : State} {p k : Nat} (hr : s.ready = true) (hp : p < 16) (hk : k < 4)
    (hlink : s.linkState (s.engineOfStrand p k) ≠ 0) (hclk : bitOf s.pwr.sknClk (p / 4) = true) :
    exec (.plyTransmit p k) s = .next (s.transmit (s.engineOfStrand p k) p k) := by
  change execPlyTransmit p k s = _
  rw [execPlyTransmit, State.inService_ready hr, if_pos ⟨hp, hk, hlink, hclk⟩]

theorem State.transmit_abort {s : State} {e : Nat} {a : Ply} {r : List Ply} (h : (s.engine e).link.aborts = a :: r) (p k : Nat) :
    s.transmit e p k = s.sendAbort e p k a r := by
  unfold transmit
  dsimp only
  rw [h]

theorem State.transmit_blank {s : State} {e : Nat} {b : Ply} {r : List Ply} (ha : (s.engine e).link.aborts = [])
    (hb : (s.engine e).link.blanks = b :: r) (p k : Nat) : s.transmit e p k =
      ((s.setLink e fun l => { l with blanks := r }).storePly e b).putPly p k kBlank b.seq b.payload false := by
  unfold transmit
  dsimp only
  rw [ha, hb]

theorem State.transmit_replay {s : State} {e k : Nat} {v : Ply} {r : List Ply} (ha : (s.engine e).link.aborts = [])
    (hb : (s.engine e).link.blanks = []) (hk : (s.strands e).head? = some k) (hv : (s.engine e).link.evReplays = v :: r) (p : Nat) :
    s.transmit e p k = (s.setLink e fun l => { l with evReplays := r }).putPly p k v.kind v.seq
      (if v.kind = kEvent then eventPayload s.now v.recs else v.payload) true := by
  unfold transmit
  dsimp only
  rw [ha, hb, hk, beq_self_eq_true, if_pos rfl, hv]

/-- On a strand that is not the timing strand. -/
theorem State.transmit_other {s : State} {e k : Nat} (ha : (s.engine e).link.aborts = []) (hb : (s.engine e).link.blanks = [])
    (hk : (s.strands e).head? ≠ some k) (p : Nat) : s.transmit e p k = s.transmitDue e p k false := by
  unfold transmit
  dsimp only
  rw [ha, hb, beq_eq_false_iff_ne.2 hk, if_neg Bool.false_ne_true]

/-! ### NAK -/

theorem exec_nak {s : State} {e : Nat} (h : s.Hears e) (q : Nat) :
    exec (.nak e q) s = .next (((s.heard e).bump (SKN_ENG_ERRORS.NAKS e) 1).nak e (q % 16384)) :=
  congrArg Host.Outcome.next (State.message_hears h _)

/-- A NAK of a ply that the store holds (R292). -/
theorem State.nak_stored {s : State} {e q : Nat} {x : Stored}
    (h : (s.engine e).link.store.find? (fun x => x.ply.seq == q) = some x) : s.nak e q =
      (if x.ply.kind = kAbort ∨ x.ply.kind = kBlank then s
      else if x.ply.kind = kData ∧ s.loadOver e x.ply then s.bump (SKN_ENG_ERRORS.LATE_NAKS e) 1
      else if max 1 (s.rd (SKN_PORT_CFG.REPLAY_MAX (e / 2))) ≤ x.replays then
        (if x.ply.kind = kData then s.loseData e x.ply else s).exhaust e (some x.ply.kind)
      else if x.ply.kind = kEvent ∧ !replayInTime s.now x.ply.recs then s.exhaust e (some kEvent)
      else s.replay e x).error eSkeinParity e := by
  unfold nak
  dsimp only
  rw [h]

theorem kData_ne : ¬(kData = kAbort ∨ kData = kBlank) := by decide

theorem kEvent_ne : ¬(kEvent = kAbort ∨ kEvent = kBlank) := by decide

theorem kData_ne_kEvent : kData ≠ kEvent := by decide

/-- The plies before NEXT_SEQ, up to half of the number range back, leave the store (R291). -/
theorem ack_drops (k : Nat) : (!(decide (0 < k) && decide (k ≤ 8192))) = (k == 0 || decide (8192 < k)) := by
  rw [Bool.eq_iff_iff]
  simp only [Bool.not_eq_true', Bool.and_eq_false_iff, decide_eq_false_iff_not, Bool.or_eq_true, beq_iff_eq, decide_eq_true_eq]
  omega

theorem exec_ack {s : State} {e : Nat} (h : s.Hears e) (n : Nat) : exec (.ack e n) s = .next ((s.heard e).setLink e fun l =>
    { l with store := l.store.filter fun q => let k := (n + 16384 - q.ply.seq) % 16384; k == 0 || decide (8192 < k) }) := by
  change execAck e n s = _
  rw [execAck, State.message_hears h]
  simp only [ack_drops]

/-- Settles O47. -/
theorem pliesGoOutAndAreAcknowledged : Obligations.PliesGoOutAndAreAcknowledged := by
  unfold Obligations.PliesGoOutAndAreAcknowledged
  refine ⟨?transmit, ?keepalive, ?hello, fun s e n h => exec_ack h n, fun s e q h => exec_nak h q, ?nak⟩
  case transmit =>
    intro s p k hr hp hk hlink hclk e l
    have hexec := exec_plyTransmit hr hp hk hlink hclk
    refine ⟨fun a r ha => ?_, fun b r ha hb => ?_, fun v r ha hb hhead hv => ?_, fun ha hb hhead => ?_⟩
    · rw [hexec, State.transmit_abort ha]
    · rw [hexec, State.transmit_blank ha hb]
    · rw [hexec, State.transmit_replay ha hb hhead hv]
    · rw [hexec, State.transmit_other ha hb hhead]
  case keepalive =>
    intro s p k hr hp hk hst hdue
    change execKeepalive p k s = _
    rw [execKeepalive, State.inService_ready hr, if_pos ⟨hp, hk, hst, hdue⟩]
  case hello =>
    intro s p k hr hp hk hst hdue
    change execHello p k s = _
    rw [execHello, State.inService_ready hr, if_pos ⟨hp, hk, hst, hdue⟩]
  case nak =>
    intro s e q x hfind
    have hnak := State.nak_stored hfind
    refine ⟨fun hkind => ?_, fun hkind hover => ?_, fun hkind hover htries => ?_, fun hkind hover htries => ?_,
      fun hkind htries hlate => ?_⟩
    · rw [hnak, if_pos hkind]
    · rw [hnak, hkind, if_neg kData_ne, if_pos ⟨rfl, hover⟩]
    · rw [hnak, hkind, if_neg kData_ne, if_neg (by simp [hover]), if_pos htries, if_pos rfl]
    · rw [hnak, hkind, if_neg kData_ne, if_neg (by simp [hover]), if_neg (Nat.not_le.2 htries),
        if_neg fun h => kData_ne_kEvent h.1]
    · rw [hnak, hkind, if_neg kEvent_ne, if_neg fun h => kData_ne_kEvent h.1.symm, if_neg (Nat.not_le.2 htries),
        if_pos ⟨rfl, by rw [hlate]; rfl⟩]

/-! ### STATUS -/

/-- What a STATUS shows (R286). -/
def statusWrites (e estate lock : Nat) : List (Fld × Nat) := [(SKN_ENG_STATUS.LOCK e, lock), (SKN_ENG_STATUS.ESTATE e, estate)]

theorem statusWrites_pairwise (e estate lock : Nat) : (statusWrites e estate lock).Pairwise fun p q => p.1.apart q.1 := by
  simp [statusWrites, Fld.apart, SKN_ENG_STATUS.LOCK, SKN_ENG_STATUS.ESTATE]

/-- The state in which a STATUS has been shown, with its sensor fault (R286, R317). -/
def State.statusShown (s : State) (e estate lock flags : Nat) : State :=
  let y := ((s.heard e).wrs (statusWrites e estate lock)).setLink e fun l => { l with sensorFault := bitOf flags 2 }
  if bitOf flags 2 then y.setEngine e fun g => { g with ticks := g.ticks.modifyHead fun t => { t with fault := true } } else y

theorem State.statusShown_regs (s : State) (e estate lock flags : Nat) :
    (s.statusShown e estate lock flags).regs = ((s.heard e).wrs (statusWrites e estate lock)).regs := by
  unfold statusShown
  dsimp only
  split
  · rw [setEngine_regs, setLink_regs]
  · rw [setLink_regs]

theorem State.statusShown_mem {s : State} (h : s.Canon) {e estate lock : Nat} (flags : Nat) {p : Fld × Nat}
    (hp : p ∈ statusWrites e estate lock) (hi : p.1.hi < 64) :
    (s.statusShown e estate lock flags).rd p.1 = p.2 % 2 ^ (p.1.hi + 1 - p.1.lo) :=
  (rd_congr (statusShown_regs ..) p.1).trans (rd_wrs_mem (s := s.heard e) hi (statusWrites_pairwise e estate lock) hp h)

theorem State.statusShown_linkState {s : State} (h : s.Canon) (e estate lock flags : Nat) :
    (s.statusShown e estate lock flags).linkState e = s.linkState e := by
  have hapart : ∀ p ∈ statusWrites e estate lock, (SKN_ENG_STATUS.STATE e).apart p.1 := by
    simp [statusWrites, Fld.apart, SKN_ENG_STATUS.LOCK, SKN_ENG_STATUS.ESTATE, SKN_ENG_STATUS.STATE]
  exact (rd_congr (statusShown_regs ..) _).trans (rd_wrs_apart (s := s.heard e) (of_decide_eq_true rfl) hapart h)

theorem State.statusShown_allLocked {s : State} (h : s.Canon) (e estate lock flags : Nat) :
    (s.statusShown e estate lock flags).allLocked e lock = s.allLocked e lock := by
  have hapart : ∀ p ∈ statusWrites e estate lock, (SKN_PORT_STATUS.SPLIT (e / 2)).apart p.1 := by
    simp only [statusWrites, List.forall_mem_cons, List.not_mem_nil, false_imp_iff, implies_true, and_true, Fld.apart,
      SKN_ENG_STATUS.LOCK, SKN_ENG_STATUS.ESTATE, SKN_PORT_STATUS.SPLIT]
    omega
  have hsplit : (s.statusShown e estate lock flags).split (e / 2) = s.split (e / 2) :=
    congrArg (· == 1) ((rd_congr (statusShown_regs ..) _).trans (rd_wrs_apart (s := s.heard e) (of_decide_eq_true rfl) hapart h))
  unfold allLocked strands
  rw [hsplit]

theorem exec_rsStatus {s : State} (hinv : s.Inv) {e : Nat} (h : s.Hears e) (estate lock flags : Nat) :
    exec (.rsStatus e estate lock flags) s = .next
      (if s.linkState e = 1 then
        (if s.allLocked e lock then (s.statusShown e estate lock flags).setLinkState e 2 else s.statusShown e estate lock flags)
      else if s.allLocked e lock then s.statusShown e estate lock flags
      else (s.statusShown e estate lock flags).train e none) := by
  rw [← State.statusShown_linkState hinv.1 e estate lock flags, ← State.statusShown_allLocked hinv.1 e estate lock flags]
  exact congrArg Host.Outcome.next (State.message_hears h _)

/-! ### IDENT, CONFIG_OK and CONFIG_REJECT -/

/-- The sub-port's identity is another than that of an IDENT (R298). -/
def State.otherIdent (s : State) (e x : Nat) : Bool :=
  match (s.engine e).link.held with
  | some h => h != identSerial x
  | none => false

theorem exec_ident {s : State} {e : Nat} (h : s.Hears e) (hst : s.linkState e = 2) (x : Nat) : exec (.ident e x) s = .next
    (if identStrands x ≠ (s.strands e).length then (s.heard e).holdLink e 0x41
    else if s.flag (SKN_PORT_CFG.ID_LOCK (e / 2)) && s.otherIdent e x then
      ((s.heard e).setLink e fun l => { l with offered := some x }).holdLink e 0x40
    else ((s.heard e).acceptIdent e x).setLinkState e 3) := by
  have hst' : (s.heard e).linkState e = 2 := hst
  change execIdent e x s = _
  rw [execIdent, State.message_hears h, if_neg (not_not_intro hst')]
  rfl

theorem exec_configOk {s : State} (hinv : s.Inv) {e : Nat} (h : s.Hears e) (hst : s.linkState e = 4) (id : Nat) :
    exec (.configOk e id) s = .next
      (if (s.engine e).link.asked = some id then
        ((s.told e 2 id).setLink e fun l => { l with configEdges := 0 }).setLinkState e 5
      else s.told e 2 id) := by
  have hasked : ((s.told e 2 id).engine e).link.asked = (s.engine e).link.asked := by
    unfold State.told State.engine
    rw [State.wrs_eng]
    rfl
  change execConfigOk e id s = _
  rw [execConfigOk, State.event_hears h, State.told_linkState hinv.1, hst, hasked]
  simp only [true_and]

theorem exec_configReject {s : State} (hinv : s.Inv) {e : Nat} (h : s.Hears e) (hst : s.linkState e = 4) (id cause : Nat) :
    exec (.configReject e id cause) s = .next
      (if (s.engine e).link.asked = some id then (s.told e 3 (id + 2 ^ 16 * cause)).holdLink e 0x42
      else s.told e 3 (id + 2 ^ 16 * cause)) := by
  have hasked : ((s.told e 3 (id + 2 ^ 16 * cause)).engine e).link.asked = (s.engine e).link.asked := by
    unfold State.told State.engine
    rw [State.wrs_eng]
    rfl
  change execConfigReject e id cause s = _
  rw [execConfigReject, State.event_hears h, State.told_linkState hinv.1, hst, hasked]
  simp only [true_and]

/-- Settles O48. -/
theorem identificationAndConfiguration : Obligations.IdentificationAndConfiguration := by
  unfold Obligations.IdentificationAndConfiguration
  refine ⟨?status, ?ident, ?ok, ?reject⟩
  case status =>
    intro s e estate lock flags hinv hears hestate hlock y z
    refine ⟨?_, ?_, fun hst hall => ?_, fun hst hall => ?_, fun hst hall => ?_, fun hst hall => ?_⟩
    · exact (State.statusShown_mem hinv.1 flags (p := (SKN_ENG_STATUS.LOCK e, lock)) (estate := estate) (by simp [statusWrites])
        (of_decide_eq_true rfl)).trans (Nat.mod_eq_of_lt hlock)
    · exact (State.statusShown_mem hinv.1 flags (p := (SKN_ENG_STATUS.ESTATE e, estate)) (lock := lock) (by simp [statusWrites])
        (of_decide_eq_true rfl)).trans (Nat.mod_eq_of_lt hestate)
    · rw [exec_rsStatus hinv hears, if_pos hst, if_pos hall]
      rfl
    · rw [exec_rsStatus hinv hears, if_pos hst, if_neg (ne_true_of_eq_false hall)]
      rfl
    · rw [exec_rsStatus hinv hears, if_neg hst, if_pos hall]
      rfl
    · rw [exec_rsStatus hinv hears, if_neg hst, if_neg (ne_true_of_eq_false hall)]
      rfl
  case ident =>
    intro s e x hears hst z
    refine ⟨fun hstrands => ?_, fun h hstrands hlock hheld hne => ?_, fun hstrands hfree => ?_⟩
    · rw [exec_ident hears hst, if_pos hstrands]
    · rw [exec_ident hears hst, if_neg (not_not_intro hstrands), hlock, State.otherIdent, hheld]
      exact congrArg _ (if_pos (bne_iff_ne.2 hne))
    · rw [exec_ident hears hst, if_neg (not_not_intro hstrands), if_neg]
      intro hlocked
      rw [Bool.and_eq_true, State.otherIdent] at hlocked
      obtain ⟨hlock, hother⟩ := hlocked
      obtain hno | hnone | hsame := hfree
      · rw [hno] at hlock
        cases hlock
      · rw [hnone] at hother
        cases hother
      · rw [hsame] at hother
        exact bne_iff_ne.1 hother rfl
  case ok =>
    intro s e id hinv hears hst z
    refine ⟨fun hasked => ?_, fun hasked => ?_⟩
    · rw [exec_configOk hinv hears hst, if_pos hasked]
      rfl
    · rw [exec_configOk hinv hears hst, if_neg hasked]
      rfl
  case reject =>
    intro s e id cause hinv hears hst z
    refine ⟨fun hasked => ?_, fun hasked => ?_⟩
    · rw [exec_configReject hinv hears hst, if_pos hasked]
      rfl
    · rw [exec_configReject hinv hears hst, if_neg hasked]
      rfl

end Sys2Proof.Machine
end

section
/-! Messages of the engines: temperatures, EVENTs, bad messages and the plane CRC (R285, R286, R290, R451). -/

namespace Sys2Proof.Machine

/-! ### TEMP -/

/-- What a TEMP shows (R286). -/
def tempWrites (e a l d x : Nat) : List (Fld × Nat) :=
  [(SKN_ENG_TEMP_A.ARRAY e, a), (SKN_ENG_TEMP_A.LASER e, l), (SKN_ENG_TEMP_B.DRIVER e, d), (SKN_ENG_TEMP_B.SENSOR e, x)]

theorem tempWrites_pairwise (e a l d x : Nat) : (tempWrites e a l d x).Pairwise fun p q => p.1.apart q.1 := by
  simp only [tempWrites, List.pairwise_cons, List.forall_mem_cons, List.not_mem_nil, Fld.apart, SKN_ENG_TEMP_A.ARRAY,
    SKN_ENG_TEMP_A.LASER, SKN_ENG_TEMP_B.DRIVER, SKN_ENG_TEMP_B.SENSOR, false_imp_iff, implies_true, List.Pairwise.nil, and_true]
  omega

theorem State.tempMsg_regs (s : State) (e a l d x : Nat) : (s.tempMsg e a l d x).regs = (s.wrs (tempWrites e a l d x)).regs := rfl

theorem exec_temp {s : State} {e : Nat} (h : s.Hears e) (a l d x : Nat) :
    exec (.temp e a l d x) s = .next ((s.heard e).tempMsg e a l d x) := congrArg Host.Outcome.next (State.message_hears h _)

/-! ### EVENT messages -/

theorem told_source (e code arg : Nat) : ∀ p ∈ eventWrites e code arg, (SKN_PORT_CFG.MSG_ENABLE (e / 2)).apart p.1 := fun p hp => by
  obtain ⟨hoff, hi⟩ := eventWrites_off hp
  refine Fld.apart_word (of_decide_eq_true rfl) hi ?_
  rw [hoff]
  simp only [SKN_PORT_CFG.MSG_ENABLE, SKN_ENG_LAST_EVENT.CODE]
  omega

theorem exec_engineMsg {s : State} (hinv : s.Inv) {e : Nat} (h : s.Hears e) (n : Nat) : exec (.engineMsg e n) s = .next
    (if s.flag (SKN_PORT_CFG.MSG_ENABLE (e / 2)) ∧ 320 ≤ n ∧ n ≤ 383 then (s.told e 4 n).msgDoorbell n
    else (s.told e 4 n).bump (SKN_PORT_DROPS.MSG_DROPPED (e / 2)) 1) := by
  have hflag : (s.told e 4 n).flag (SKN_PORT_CFG.MSG_ENABLE (e / 2)) = s.flag (SKN_PORT_CFG.MSG_ENABLE (e / 2)) :=
    congrArg (· == 1) (State.rd_wrs_apart (s := s.heard e) (of_decide_eq_true rfl) (told_source e 4 n) hinv.1)
  change execEngineMsg e n s = _
  rw [execEngineMsg, State.event_hears h, hflag]

theorem exec_late {s : State} {e : Nat} (h : s.Hears e) (q : Nat) :
    exec (.late e q) s = .next ((s.told e 5 q).bump (SKN_ENG_EVENTS.LATE e) 1) :=
  congrArg Host.Outcome.next (State.event_hears h ..)

theorem exec_badRecord {s : State} {e : Nat} (h : s.Hears e) {c : Nat} (hc : c = 0 ∨ 6 < c) (x : Nat) :
    exec (.badRecord e c x) s = .next ((s.told e c x).bump (SKN_PORT_DROPS.UNKNOWN (e / 2)) 1) := by
  change execBadRecord e c x s = _
  rw [execBadRecord, State.event_hears h, if_neg (by omega)]

/-- The counter of a bad message (R285, R286). -/
theorem exec_rsBadMessage {s : State} {p : Nat} (hr : s.ready = true) (hp : p < 16) (k : Nat) :
    exec (.rsBadMessage p k) s = .next (s.bump (if k = 0 then SKN_PORT_RS_ERR.CODE_ERRORS p else if k = 1 then
      SKN_PORT_RS_ERR.CRC_ERRORS p else SKN_PORT_DROPS.UNKNOWN p) 1) := by
  change execRsBadMessage p k s = _
  rw [execRsBadMessage, State.inService_ready hr, if_neg (Nat.not_le.2 hp)]
  match k with
  | 0 => rfl
  | 1 => rfl
  | k + 2 => rfl

/-! ### BAND_PARKED -/

/-- The state in which the engine's own parking of a band has been counted (R259, R260). -/
def State.parkCounted (s : State) (e b t16 : Nat) : State :=
  ((s.told e 1 (b + 2 ^ 8 * t16)).countBlank e b).bump (FLY_ENG_BLANKS.ENGINE_SIDE e) 1

theorem State.parkCounted_engine (s : State) (e b t16 k : Nat) : (s.parkCounted e b t16).engine k = s.engine k := by
  have heng : (s.parkCounted e b t16).eng = (s.heard e).eng := by
    unfold parkCounted countBlank told
    rw [bump_eng, raise_eng, wr_eng, bump_eng, wrs_eng]
  unfold engine
  rw [heng]
  rfl

/-- The tick counter is apart from what an engine's words hold. -/
theorem count_apart {f : Fld} (h : 0x1C0000 ≤ f.off) : TICK_COUNT.COUNT.apart f := by
  simp only [Fld.apart, TICK_COUNT.COUNT]
  omega

theorem State.parkCounted_tickNo {s : State} (h : s.Canon) (e b t16 : Nat) : (s.parkCounted e b t16).tickNo = s.tickNo := by
  have htold : (s.told e 1 (b + 2 ^ 8 * t16)).Canon := wrs_canon (s := s.heard e) h
  have hshown : (s.told e 1 (b + 2 ^ 8 * t16)).tickNo = s.tickNo :=
    rd_wrs_apart (s := s.heard e) (by decide) (fun p hp => count_apart (by
      rw [(eventWrites_off hp).1]
      simp only [SKN_ENG_LAST_EVENT.CODE]
      omega)) h
  unfold parkCounted countBlank tickNo
  generalize s.told e 1 (b + 2 ^ 8 * t16) = u at htold hshown
  have hblank : (u.bump (FLY_ENG_STATS.BLANKS e) 1).Canon := bump_canon htold _ _
  rw [rd_bump_apart (by rw [raise_canon]; exact wr_canon hblank _ _) 1 (count_apart (by simp only [FLY_ENG_BLANKS.ENGINE_SIDE]; omega))
    (by decide), raise_rd, rd_wr_apart hblank _ (count_apart (by simp only [FLY_ENG_BLANKS.BANDS]; omega)) (by decide),
    rd_bump_apart htold 1 (count_apart (by simp only [FLY_ENG_STATS.BLANKS]; omega)) (by decide)]
  exact hshown

theorem exec_bandParked {s : State} (hinv : s.Inv) {e : Nat} (h : s.Hears e) (b t16 : Nat) : exec (.bandParked e b t16) s = .next
    (if (s.engine e).fly.warp.mode = 3 then s.parkCounted e b t16
    else if t16 = s.tickNo % 65536 then (s.parkCounted e b t16).setRun e fun r => r.markParked b
    else if (t16 + 1) % 65536 = s.tickNo % 65536 then (s.parkCounted e b t16).parkLast e b
    else s.parkCounted e b t16) := by
  rw [← State.parkCounted_engine s e b t16 e, ← State.parkCounted_tickNo hinv.1 e b t16]
  exact congrArg Host.Outcome.next (State.event_hears h ..)

/-! ### The plane CRC -/

/-- A CRC history with entry `c` settled as `st` by an echo (R451). -/
def State.crcSettled (s : State) (e : Nat) (c : CrcEntry) (st crc : Nat) : State :=
  s.setCrcs e fun h => h.map fun x => if x.tick = c.tick then { x with status := st, echo := crc } else x

theorem exec_crcEcho {s : State} {e t16 crc : Nat} {c : CrcEntry} (h : s.Hears e)
    (hfind : (s.crcs e).find? (fun c => c.tick % 65536 == t16 && c.status == 4 && decide (s.now ≤ c.endAt + 200000)) = some c) :
    exec (.crcEcho e t16 crc) s = .next
      (if crc = c.crc then (s.heard e).crcSettled e c 0 crc
      else (((((s.heard e).crcSettled e c 1 crc).bump (SIG_ENG_CRC.MISMATCH e) 1).postPlaneCrc e 1 c.tick c.crc crc).raise
        (19 + 4 * (e / 2))).error ePlaneCrc e) := by
  have hfind' : ((s.heard e).crcs e).find? (fun c => c.tick % 65536 == t16 && c.status == 4 &&
      decide ((s.heard e).now ≤ c.endAt + 200000)) = some c := hfind
  change execCrcEcho e t16 crc s = _
  rw [execCrcEcho, State.message_hears h, hfind']
  by_cases hcrc : crc = c.crc
  · simp only [hcrc, if_true]
    rfl
  · simp only [hcrc, if_false, Nat.one_ne_zero]
    rfl

theorem exec_crcEchoMissing {s : State} {e : Nat} {c : CrcEntry} (hr : s.ready = true)
    (hlast : ((s.crcs e).filter fun c => c.status == 4 && decide (c.endAt + 200000 ≤ s.now)).getLast? = some c) :
    exec (.crcEchoMissing e) s =
      .next ((((s.setCrcs e fun h => h.map fun x => if x.tick = c.tick then { x with status := 2 } else x).bump
        (SIG_ENG_CRC.MISSING e) 1).postPlaneCrc e 2 c.tick c.crc 0).error ePlaneCrc e) := by
  change execCrcEchoMissing e s = _
  rw [execCrcEchoMissing, State.inService_ready hr, hlast]

/-- Settles O49. -/
theorem engineMessagesAreTaken : Obligations.EngineMessagesAreTaken := by
  unfold Obligations.EngineMessagesAreTaken
  refine ⟨?temp, ?sensor, ?string, ?msg, fun s e q h => exec_late h q, fun s e c x h hc => exec_badRecord h hc x,
    fun s p k hr hp => exec_rsBadMessage hr hp k, ?parkedNow, ?parkedLast, ?echo, fun s e c hr hlast => exec_crcEchoMissing hr hlast⟩
  case temp =>
    intro s e a l d x hinv hears ha hl hd hx
    have hreads : ∀ p ∈ tempWrites e a l d x, p.1.hi < 64 →
        ((s.heard e).tempMsg e a l d x).rd p.1 = p.2 % 2 ^ (p.1.hi + 1 - p.1.lo) := fun p hp hi =>
      (State.rd_congr (State.tempMsg_regs ..) p.1).trans
        (State.rd_wrs_mem (s := s.heard e) hi (tempWrites_pairwise e a l d x) hp hinv.1)
    refine ⟨_, exec_temp hears a l d x, ?_, ?_, ?_, ?_⟩
    · exact (hreads (SKN_ENG_TEMP_A.ARRAY e, a) (by simp [tempWrites]) (of_decide_eq_true rfl)).trans (Nat.mod_eq_of_lt ha)
    · exact (hreads (SKN_ENG_TEMP_A.LASER e, l) (by simp [tempWrites]) (of_decide_eq_true rfl)).trans (Nat.mod_eq_of_lt hl)
    · exact (hreads (SKN_ENG_TEMP_B.DRIVER e, d) (by simp [tempWrites]) (of_decide_eq_true rfl)).trans (Nat.mod_eq_of_lt hd)
    · exact (hreads (SKN_ENG_TEMP_B.SENSOR e, x) (by simp [tempWrites]) (of_decide_eq_true rfl)).trans (Nat.mod_eq_of_lt hx)
  case sensor =>
    exact fun s e tag j v t16 hears => congrArg Host.Outcome.next (State.message_hears hears _)
  case string =>
    exact fun s e b k v c f t16 hears => congrArg Host.Outcome.next (State.message_hears hears _)
  case msg =>
    intro s e n hinv hears z
    refine ⟨fun hon hlo hhi => ?_, fun hdrop => ?_⟩
    · rw [exec_engineMsg hinv hears, if_pos ⟨hon, hlo, hhi⟩, State.msgDoorbell, if_pos ⟨hlo, hhi⟩]
      rfl
    · rw [exec_engineMsg hinv hears, if_neg]
      · rfl
      · rintro ⟨hon, hlo, hhi⟩
        obtain hoff | hlow | hhigh := hdrop
        · rw [hon] at hoff
          cases hoff
        · omega
        · omega
  case parkedNow =>
    intro s e b t16 hinv hears hmode ht z
    rw [exec_bandParked hinv hears, if_neg hmode, if_pos ht]
    rfl
  case parkedLast =>
    intro s e b t16 hinv hears z y
    refine ⟨fun hmode => ?_, fun hmode ht => ?_⟩
    · rw [exec_bandParked hinv hears, if_pos hmode]
      rfl
    · rw [exec_bandParked hinv hears, if_neg hmode, if_neg (by omega), if_pos ht]
      rfl
  case echo =>
    intro s e t16 crc c hears hfind settled
    refine ⟨fun hcrc => ?_, fun hcrc => ?_⟩
    · rw [exec_crcEcho hears hfind, if_pos hcrc]
      rfl
    · rw [exec_crcEcho hears hfind, if_neg hcrc]
      rfl

end Sys2Proof.Machine
end

section
/-! Composition, the warp stages, the bands of a frame and the signatures of regions (R54, R178, R203, R221, R448). -/

namespace Sys2Proof.Machine

/-! ### The compositor and the warp stages -/

theorem exec_composeUnit {s : State} (hr : s.ready = true) {c u : Nat} {l : List (Nat × Nat)} (htodo : s.comp.todo = (c, u) :: l) :
    exec .composeUnit s = .next (s.composeUnit c u) := by
  change execComposeUnit s = _
  rw [execComposeUnit, State.inService_ready hr]
  rw [htodo]

theorem exec_composeUnit_rest {s : State} (htodo : s.comp.todo = []) : exec .composeUnit s = .next s := by
  refine congrArg _ (State.inService_rest ?_)
  rw [htodo]

/-- The state in which a warp stage has worked row `y` of engine `e`. -/
def State.rowWorked (s : State) (p w e y : Nat) : State :=
  let z := ((s.workRow e y).bump (CNV_PORT_STATS.STALL_US p) w).fencedReads
  { z with stk := { z.stk with lost := z.stk.lost.filter fun q => q.1 != 16 + p } }

theorem exec_warpRow {s : State} (hr : s.ready = true) {p e y : Nat} (hp : p < 16) (hnext : s.nextRow p = some (e, y)) (w : Nat) :
    exec (.warpRow p w) s = .next (if s.rowReady e y then s.rowWorked p w e y else s) := by
  change execWarpRow p w s = _
  rw [execWarpRow, State.inService_ready hr, if_pos hp, hnext]
  rfl

theorem exec_warpRow_rest {s : State} {p : Nat} (hnext : s.nextRow p = none) (w : Nat) : exec (.warpRow p w) s = .next s := by
  refine congrArg _ (State.inService_rest ?_)
  rw [hnext, ite_self]

/-! ### Bands and the object window -/

theorem exec_bandComplete {s : State} {e b n y : Nat} (hr : s.ready = true) (he : e < 32) (hb : b < (s.engine e).spin.cfg.bands)
    (hrow : (s.engine e).row = some y)
    (hy : (b + 1) * ((s.engine e).spin.cfg.height / (s.engine e).spin.cfg.bands) ≤ y)
    (hacked : (s.engine e).acked.contains b = false) (hlost : (s.engine e).lostBands.contains b = false) :
    let z := (s.setEngine e fun g => { g with acked := b :: g.acked }).bump (SPN_PORT_STATS.WRITE_STALL_US (e / 2)) n
    exec (.bandComplete e b n) s =
      .next (if (z.engine e).acked.length = (s.engine e).spin.cfg.bands then z.frameComplete e else z) := by
  change execBandComplete e b n s = _
  rw [execBandComplete, State.inService_ready hr]
  dsimp only
  rw [hrow, if_pos ⟨he, hb, decide_eq_true hy, by rw [hacked]; rfl, by rw [hlost]; rfl⟩]

theorem exec_objApplyWindow (s : State) :
    exec .objApplyWindow s = .next (s.inService fun s => if s.tick.latched && s.comp.todo.isEmpty then s.applyWindow else s) := rfl

/-! ### Region signatures -/

theorem exec_regionSignature {s : State} {c r : Nat} (hr : s.ready = true) (hc : c < 8) (hr64 : r < 64) :
    let key := 64 * c + r
    let g := Tbl.get (fun _ => ({} : Region)) s.sig.force key
    let cv := s.comp.composing.canvas c
    let q := g.clip cv
    g.enable = true → cv.enable = true → q.area ≠ 0 → s.sig.checked.contains key = false →
    s.comp.done.contains (c, (q.y1 - 1) / 8) = true →
    let crc := signatureOf (s.regionWords c cv.width q)
    let z := ({ s with sig := { s.sig with checked := key :: s.sig.checked } } : State).wr (SIG_RGN_CRC.CRC key) crc
    exec (.regionSignature c r) s = .next ((z.compareRegion c r g crc).watchRegion c r g crc) := by
  intro key g cv q hg hcv hq hchecked hdone crc z
  change execRegionSignature c r s = _
  rw [execRegionSignature, State.inService_ready hr]
  exact congrArg _ (if_pos ⟨hc, hr64, hg, hcv, hq, by rw [hchecked]; rfl, hdone⟩)

/-- What a signature that matches shows: the region's mismatch bit clear and RUN 0 (R448). -/
def matchWrites (s : State) (c r : Nat) : List (Fld × Nat) :=
  [(SIG_CV_MISMATCH.MISMATCH c, setBit (s.rd (SIG_CV_MISMATCH.MISMATCH c)) r 0), (SIG_RGN_STATE.RUN (64 * c + r), 0)]

theorem matchWrites_pairwise (s : State) (c r : Nat) :
    (matchWrites s c r).Pairwise fun p q => p.1.apart q.1 := by
  simp only [matchWrites, List.pairwise_cons, List.forall_mem_cons, List.not_mem_nil, Fld.apart, SIG_CV_MISMATCH.MISMATCH,
    SIG_RGN_STATE.RUN, false_imp_iff, implies_true, List.Pairwise.nil, and_true]
  omega

theorem State.compareRegion_match (s : State) (c r : Nat) {g : Region} {crc : Nat}
    (hmatch : g.nexp = 0 ∨ (g.expect.take g.nexp).contains crc = true) :
    s.compareRegion c r g crc = s.wrs (matchWrites s c r) := by
  refine if_neg ?_
  rintro ⟨hn, hno⟩
  obtain h0 | hin := hmatch
  · omega
  · rw [hin] at hno
    cases hno

theorem State.compareRegion_mismatch (s : State) (c r : Nat) {g : Region} {crc : Nat} (hn : 0 < g.nexp)
    (hno : (g.expect.take g.nexp).contains crc = false) (hplain : g.guarded = false) :
    s.compareRegion c r g crc =
      ((((s.wrs [(SIG_CV_MISMATCH.MISMATCH c, setBit (s.rd (SIG_CV_MISMATCH.MISMATCH c)) r 1),
        (SIG_RGN_STATE.RUN (64 * c + r), min 15 (s.rd (SIG_RGN_STATE.RUN (64 * c + r)) + 1))]).countMismatch c).postSignature
          1 c r 0 crc).raiseMismatch c) := by
  unfold compareRegion
  dsimp only
  rw [if_pos ⟨hn, by rw [hno]; rfl⟩, hplain, if_neg (fun h => Bool.false_ne_true h.1)]
  rfl

theorem bitOf_setBit_zero (x n : Nat) : bitOf (setBit x n 0) n = false := by
  have htest : (setBit x n 0).testBit n = false := by
    rw [setBit, insertBits_testBit, if_pos ⟨Nat.le_refl n, Nat.lt_succ_self n⟩, Nat.zero_testBit]
  rw [bitOf, Nat.shiftRight_eq_div_pow]
  rw [Nat.testBit_eq_decide_div_mod_eq] at htest
  exact beq_false_of_ne (of_decide_eq_false htest)

theorem bitOf_mod_two_pow (x : Nat) {n w : Nat} (hn : n < w) : bitOf (x % 2 ^ w) n = bitOf x n := by
  have htest := Nat.testBit_mod_two_pow x w n
  rw [decide_eq_true hn, Bool.true_and, Nat.testBit_eq_decide_div_mod_eq, Nat.testBit_eq_decide_div_mod_eq,
    ← Nat.shiftRight_eq_div_pow, ← Nat.shiftRight_eq_div_pow] at htest
  rw [Bool.eq_iff_iff, bitOf, bitOf, beq_iff_eq, beq_iff_eq]
  exact decide_eq_decide.1 htest

/-- Settles O50. -/
theorem framesAreComposedAndChecked : Obligations.FramesAreComposedAndChecked := by
  unfold Obligations.FramesAreComposedAndChecked
  refine ⟨fun s c u l hr htodo => exec_composeUnit hr htodo, fun s htodo => exec_composeUnit_rest htodo, ?row,
    fun s p w hnext => exec_warpRow_rest hnext w,
    fun s e b n y hr he hb hrow hy hacked hlost => exec_bandComplete hr he hb hrow hy hacked hlost, ?window, ?windowRest,
    fun s c r hr hc hr64 => exec_regionSignature hr hc hr64, ?clear,
    fun s c r crc g hn hno hplain => s.compareRegion_mismatch c r hn hno hplain⟩
  case row =>
    intro s p w e y hr hp hnext
    refine ⟨fun hwait => ?_, fun hstand => ⟨s.rowWorked p w e y, ?_, rfl⟩⟩
    · rw [exec_warpRow hr hp hnext, if_neg (ne_true_of_eq_false hwait)]
    · rw [exec_warpRow hr hp hnext, if_pos hstand]
  case window =>
    intro s hr hlatched htodo
    rw [exec_objApplyWindow, State.inService_ready hr, if_pos (by rw [hlatched, htodo]; rfl)]
  case windowRest =>
    intro s hrest
    refine congrArg _ (State.inService_rest ?_)
    obtain htodo | hlatched := hrest
    · rw [if_neg]
      intro h
      exact htodo (List.isEmpty_iff.1 (Bool.and_eq_true_iff.1 h).2)
    · rw [hlatched]
      rfl
  case clear =>
    intro s c r crc g hinv hc hr64 hmatch
    dsimp only
    rw [s.compareRegion_match c r hmatch]
    refine ⟨?_, ?_, ?_⟩
    · exact State.rd_wrs_mem (v := 0) (of_decide_eq_true rfl) (matchWrites_pairwise s c r) (by simp [matchWrites]) hinv.1
    · rw [State.rd_wrs_mem (f := SIG_CV_MISMATCH.MISMATCH c) (of_decide_eq_true rfl) (matchWrites_pairwise s c r)
        (v := setBit (s.rd (SIG_CV_MISMATCH.MISMATCH c)) r 0) (by simp [matchWrites]) hinv.1]
      exact (bitOf_mod_two_pow (w := 64) _ hr64).trans (bitOf_setBit_zero _ r)
    · refine State.rd_wrs_apart (of_decide_eq_true rfl) ?_ hinv.1
      simp only [matchWrites, List.forall_mem_cons, List.not_mem_nil, Fld.apart, SIG_CV_MISMATCH.MISMATCH, SIG_RGN_STATE.RUN,
        SIG_CV_COUNTS.MISMATCHES, false_imp_iff, implies_true, and_true]
      omega

end Sys2Proof.Machine
end

section
/-! Light timers, escalation windows, errors and die words (R318 to R320, R329, R342, R439 to R441, R443). -/

namespace Sys2Proof.Machine

/-! ### The colour loop, late calibrations and heat holds -/

/-- The state in which every engine has taken its loop settings at a loop edge (R319). -/
def State.loopTaken (s : State) : State :=
  s.engines.foldl (fun (s : State) e => (s.setLight e fun l => l.takeLoop).showLight e)
    { s with light := { s.light with loopDue := false } }

/-- The state in which the groups' limits `sg` are shown (R320). -/
def State.showSigmas (s : State) (sg : List (Nat × Option Nat)) : State :=
  (sg.zipIdx).foldl (fun (s : State) (p : (Nat × Option Nat) × Nat) => s.wrs [(LGT_GROUP.SIGMA p.2, p.1.1),
      (LGT_GROUP.LIMITER p.2, p.1.2.getD 0), (LGT_GROUP.LIMITED p.2, b2n (decide (p.1.1 < 65536)))])
    { s with light := { s.light with sigma := sg.map Prod.fst } }

/-- The state after a loop edge that is due (R318 to R320). -/
def State.looped (s : State) : State :=
  let period := max 2 (bitsOf s.light.loopCfg 0 8)
  let z := s.loopTaken.showSigmas (s.loopTaken.groupSigmas s.tickNo period)
  (z.engines.filter z.loops).foldl (fun x e => x.loopEngine e s.tickNo period) z

theorem exec_loopEdge {s : State} (hr : s.ready = true) (hdue : s.light.loopDue = true) : exec .loopEdge s = .next s.looped := by
  change execLoopEdge s = _
  rw [execLoopEdge, State.inService_ready hr, if_pos hdue]
  rfl

theorem exec_loopEdge_rest {s : State} (hdue : s.light.loopDue = false) : exec .loopEdge s = .next s :=
  congrArg _ (State.inService_rest (if_neg (ne_true_of_eq_false hdue)))

theorem exec_calibrationTimeout {s : State} {e b : Nat} {c : CalRun} (hr : s.ready = true) (hcal : (s.lightOf e).cal b = some c) :
    exec (.calibrationTimeout e b) s =
      .next (if c.fit.isNone ∧ c.start + 16 * s.calTimeout ≤ s.tickNo then s.abandonCal e b false else s) := by
  change execCalibrationTimeout e b s = _
  rw [execCalibrationTimeout, State.inService_ready hr, hcal]

theorem exec_heatHoldExpiry {s : State} {e i : Nat} (hr : s.ready = true) (hi : i < 27)
    (hoff : ((s.lightOf e).str i).state = stHeatOff) :
    let x := (s.reach (Tbl.get (fun _ => 0) (s.lightOf e).heatAt i + 100000000 * (s.lightOf e).act.heatHold)).setLight e fun l =>
      if i % 9 = 8 then l.setStr i fun p => { p with state := stIdle, spareFor := 15 } else l.giveBack i
    exec (.heatHoldExpiry e i) s =
      .next (((x.wr (LGT_STR_STATUS.STATE e i) ((x.lightOf e).str i).state).restage e (i / 9)).showVerified e i) := by
  change execHeatHoldExpiry e i s = _
  rw [execHeatHoldExpiry, State.inService_ready hr]
  exact congrArg _ (if_pos ⟨hi, hoff⟩)

/-! ### Errors -/

theorem exec_escalationWindow {s : State} {k : Nat} (hr : s.ready = true) (hdue : s.sig.windowDue.contains k = true) :
    exec (.escalationWindow k) s = .next
      (({ s with sig := { s.sig with windowDue := s.sig.windowDue.filter (· ≠ k) } } : State).windowStart k) := by
  change execEscalationWindow k s = _
  rw [execEscalationWindow, State.inService_ready hr, if_pos hdue]

theorem State.error_fenced {s : State} {k i : Nat} (hfenced : s.resFenced k i = true) : s.error k i = s := if_pos hfenced

theorem State.error_counted {s : State} {k i : Nat} (hfree : s.resFenced k i = false) :
    let z := s.setErr k i fun x => { x with count := satAdd 16 x.count 1, total := satAdd 32 x.total 1, hit := true }
    s.error k i = if max 1 (s.rd (SIG_KIND_CFG.THRESHOLD k)) ≤ (z.err k i).count then z.rise k i else z :=
  if_neg (ne_true_of_eq_false hfree)

/-- A failing die word is an error of its kind, and the third failure zeroes it (R443). -/
theorem exec_dieParityFail {s : State} (hr : s.ready = true) (w : DieWord) (third : Bool) :
    let z := s.error (dieKind w).1 (dieKind w).2
    let y := if (dieKind w).1 = eObject then z.bump OBJ_ERRORS.PARITY 1 else z
    exec (.dieParityFail w third) s = .next (if third then y.zeroDie w else y) := by
  change execDieParityFail w third s = _
  rw [execDieParityFail, State.inService_ready hr]

/-- Settles O51. -/
theorem lightTimersAndErrorsRun : Obligations.LightTimersAndErrorsRun := by
  unfold Obligations.LightTimersAndErrorsRun
  refine ⟨fun s hr hdue => exec_loopEdge hr hdue, fun s hdue => exec_loopEdge_rest hdue, ?calibration,
    fun s e i hr hi hoff => exec_heatHoldExpiry hr hi hoff, fun s k hr hdue => exec_escalationWindow hr hdue,
    fun s k i hfenced => State.error_fenced hfenced, fun s k i hfree => State.error_counted hfree,
    fun s w third hr => exec_dieParityFail hr w third⟩
  case calibration =>
    intro s e b c hr hcal
    refine ⟨fun hnone hlate => ?_, fun hkeep => ?_⟩
    · rw [exec_calibrationTimeout hr hcal, if_pos ⟨hnone, hlate⟩]
    · rw [exec_calibrationTimeout hr hcal, if_neg]
      rintro ⟨hnone, hlate⟩
      obtain hfit | hearly := hkeep
      · rw [Option.isNone_iff_eq_none.1 hnone] at hfit
        cases hfit
      · omega

end Sys2Proof.Machine
end

section
/-! The coach bus: its enable, its allow-list and the frames that it admits (R356 to R358, R363 to R366, R370). -/

namespace Sys2Proof.Machine

/-! ### The enable -/

/-- What a write of CBUS_CFG stores (R358). -/
def cbusCfgWrites (w : Word) : List (Fld × Nat) :=
  [(CBUS_CFG.ENABLE, bitsOf w.toNat 0 1), (CBUS_CFG.NODE_ID, bitsOf w.toNat 1 5)]

theorem cbusCfgWrites_pairwise (w : Word) : (cbusCfgWrites w).Pairwise fun p q => p.1.apart q.1 := by
  simp only [cbusCfgWrites, List.pairwise_cons, List.forall_mem_cons, List.not_mem_nil, Fld.apart, CBUS_CFG.ENABLE,
    CBUS_CFG.NODE_ID, false_imp_iff, implies_true, List.Pairwise.nil, and_true]
  omega

/-- A field of another word stands. -/
theorem cbusCfgWrites_apart {f : Fld} (hf : CBUS_CFG.ENABLE.off + 4 ≤ f.off) (w : Word) : ∀ p ∈ cbusCfgWrites w, f.apart p.1 := by
  simp only [CBUS_CFG.ENABLE] at hf
  simp only [cbusCfgWrites, List.forall_mem_cons, List.not_mem_nil, Fld.apart, CBUS_CFG.ENABLE, CBUS_CFG.NODE_ID, false_imp_iff,
    implies_true, and_true]
  omega

/-- The state with CBUS_CFG as written. -/
def State.cbusCfg (s : State) (w : Word) : State := s.wrs (cbusCfgWrites w)

theorem State.cbusCfg_canon {s : State} (h : s.Canon) (w : Word) : (s.cbusCfg w).Canon := wrs_canon h

theorem State.cbusCfg_enable {s : State} (h : s.Canon) (w : Word) : (s.cbusCfg w).rd CBUS_CFG.ENABLE = (bitOf w.toNat 0).toNat := by
  rw [← bitsOf_one]
  exact (rd_wrs_mem (v := bitsOf w.toNat 0 1) (by decide) (cbusCfgWrites_pairwise w) (by simp [cbusCfgWrites]) h).trans
    (bitsOf_mod _ _ _)

theorem State.cbusCfg_rd {s : State} (h : s.Canon) (w : Word) {f : Fld} (hoff : CBUS_CFG.ENABLE.off + 4 ≤ f.off) (hi : f.hi < 64) :
    (s.cbusCfg w).rd f = s.rd f := rd_wrs_apart hi (cbusCfgWrites_apart hoff w) h

/-- The state after an enable (R358). -/
def State.cbusEnabled (s : State) (w : Word) : State :=
  ({ s.cbusCfg w with light := { (s.cbusCfg w).light with
      nodeId := bitsOf w.toNat 1 5
      mac := (s.cbusCfg w).rd CBUS_MAC_LO.MAC + 2 ^ 32 * (s.cbusCfg w).rd CBUS_MAC_HI.MAC } }).wr CBUS_STATUS.COORDINATOR
    (b2n (bitsOf w.toNat 1 5 == 0))

/-- The state after a disable (R356, R358). -/
def State.cbusDisabled (s : State) (w : Word) : State := ((s.cbusCfg w).wr CBUS_STATUS.COORDINATOR 0).plca false

theorem exec_cbusEnable {s : State} (h : s.Open) (w : Word) : exec (.cbusEnable w) s =
    .next (if bitOf w.toNat 0 && !s.cbusOn then s.cbusEnabled w
      else if !bitOf w.toNat 0 && s.cbusOn then s.cbusDisabled w else s.cbusCfg w) := by
  change execCbusEnable w s = _
  rw [execCbusEnable, State.setup_open h]
  rfl

theorem State.flag_eq_false {s : State} {f : Fld} (h : s.rd f = 0) : s.flag f = false := by
  rw [flag, h]
  rfl

/-- A write of COORDINATOR leaves ENABLE. -/
theorem State.enable_wr_coordinator {s : State} (h : s.Canon) (v : Nat) :
    (s.wr CBUS_STATUS.COORDINATOR v).rd CBUS_CFG.ENABLE = s.rd CBUS_CFG.ENABLE := rd_wr_apart h v (.inl (by decide)) (by decide)

theorem State.cbusEnabled_on {s : State} (h : s.Canon) {w : Word} (hon : bitOf w.toNat 0 = true) : (s.cbusEnabled w).cbusOn = true := by
  refine flag_iff.2 ((enable_wr_coordinator (cbusCfg_canon h w) _).trans ((cbusCfg_enable h w).trans ?_))
  rw [hon]
  rfl

theorem State.cbusEnabled_mac {s : State} (h : s.Canon) (w : Word) :
    (s.cbusEnabled w).light.mac = s.rd CBUS_MAC_LO.MAC + 2 ^ 32 * s.rd CBUS_MAC_HI.MAC := by
  unfold cbusEnabled
  rw [wr_light, cbusCfg_rd h w (by decide) (by decide), cbusCfg_rd h w (by decide) (by decide)]

theorem State.cbusEnabled_coordinator {s : State} (h : s.Canon) (w : Word) :
    (s.cbusEnabled w).rd CBUS_STATUS.COORDINATOR = b2n (bitsOf w.toNat 1 5 == 0) := by
  refine (rd_wr (cbusCfg_canon h w) CBUS_STATUS.COORDINATOR _ (by decide)).trans (Nat.mod_eq_of_lt ?_)
  cases (bitsOf w.toNat 1 5 == 0) <;> decide

/-- PLCA left: PLCA_ACTIVE reads 0, and a field apart from it stands (R356). -/
theorem State.plca_false_active {s : State} (h : s.Canon) : (s.plca false).rd CBUS_STATUS.PLCA_ACTIVE = 0 := by
  unfold plca
  by_cases hoff : s.flag CBUS_STATUS.PLCA_ACTIVE = false
  · rw [if_pos hoff]
    exact rd_eq_zero rfl hoff
  · rw [if_neg hoff, raise_rd]
    exact rd_wr h CBUS_STATUS.PLCA_ACTIVE 0 (by decide)

theorem State.plca_rd {s : State} (h : s.Canon) (a : Bool) {f : Fld} (hf : f.apart CBUS_STATUS.PLCA_ACTIVE) (hi : f.hi < 64) :
    (s.plca a).rd f = s.rd f := by
  unfold plca
  split
  · rfl
  · rw [raise_rd]
    exact rd_wr_apart h _ hf hi

theorem State.cbusDisabled_off {s : State} (h : s.Canon) {w : Word} (hoff : bitOf w.toNat 0 = false) :
    (s.cbusDisabled w).cbusOn = false := by
  refine flag_eq_false ?_
  unfold cbusDisabled
  rw [plca_rd (wr_canon (cbusCfg_canon h w) _ _) false (.inl (by decide)) (by decide), enable_wr_coordinator (cbusCfg_canon h w),
    cbusCfg_enable h w, hoff]
  rfl

theorem State.cbusDisabled_coordinator {s : State} (h : s.Canon) (w : Word) :
    (s.cbusDisabled w).rd CBUS_STATUS.COORDINATOR = 0 := by
  unfold cbusDisabled
  rw [plca_rd (wr_canon (cbusCfg_canon h w) _ _) false (.inr (by decide)) (by decide)]
  exact rd_wr (cbusCfg_canon h w) CBUS_STATUS.COORDINATOR 0 (by decide)

/-! ### The stranger log and the allow-list -/

/-- The fields of another entry of the log are apart from those that entry `k` writes. -/
theorem logWrites_apart {i k : Nat} (hk : i ≠ k) {f : Fld} {v : Nat} (hf : (f, v) ∈ logWrites i v v v v) :
    ∀ p ∈ logWrites k 0 0 0 0, f.apart p.1 := by
  simp only [logWrites, List.mem_cons, Prod.mk.injEq, and_true, List.not_mem_nil, or_false] at hf
  simp only [logWrites, List.forall_mem_cons, List.not_mem_nil, Fld.apart, CBUS_LOG_MAC_LO.MAC, CBUS_LOG_MAC_HI.MAC,
    CBUS_LOG_MAC_HI.COUNT, CBUS_LOG_TICK.TICK, false_imp_iff, implies_true, and_true]
  obtain rfl | rfl | rfl | rfl := hf <;>
    simp only [CBUS_LOG_MAC_LO.MAC, CBUS_LOG_MAC_HI.MAC, CBUS_LOG_MAC_HI.COUNT, CBUS_LOG_TICK.TICK] <;> omega

/-- A cleared log reads 0 in every field of its entries (R365). -/
theorem State.clearLog_rd {s : State} (h : s.Canon) {i n : Nat} (hi : i < n) {f : Fld} (hhi : f.hi < 64)
    (hf : (f, 0) ∈ logWrites i 0 0 0 0) : (s.clearLog n).rd f = 0 := by
  induction n with
  | zero => omega
  | succ n ih =>
    rw [clearLog_succ]
    by_cases hin : i = n
    · subst hin
      rw [rd_wrs_mem hhi (logWrites_pairwise ..) hf (clearLog_canon h i), Nat.zero_mod]
    · rw [rd_wrs_apart hhi (logWrites_apart hin hf) (clearLog_canon h n)]
      exact ih (by omega)

theorem exec_allowValid {s : State} (h : s.Open) {n : Nat} (hn : n < 32) (w : Word) :
    let x := w.toNat
    let z := s.wrs [(CBUS_ALLOW_CFG.VALID n, 0), (CBUS_ALLOW_CFG.ROLE n, bitsOf x 1 2), (CBUS_ALLOW_CFG.NODE_ID n, bitsOf x 3 5),
      (CBUS_ALLOW_CFG.ENGINE n, bitsOf x 8 5), (CBUS_ALLOW_CFG.PAIR n, bitsOf x 13 1), (CBUS_ALLOW_CFG.MSG_OK n, bitsOf x 14 1)]
    exec (.allowValid n w) s = .next (if bitOf x 0 then (z.wrs [(CBUS_STATUS.CFG_CODE, z.allowCode n),
      (CBUS_ALLOW_CFG.VALID n, b2n (z.allowCode n == 0))]).trySwitch else z.trySwitch) := by
  change execAllowValid n w s = _
  rw [execAllowValid, State.setup_open h, if_neg (Nat.not_le.2 hn)]

/-- A stranger is counted, whatever the log does with its address (R364, R365). -/
theorem State.stranger_counts {s : State} (h : s.Canon) (mac : Nat) :
    (s.stranger mac).rd CBUS_DROPS.STRANGER = min (s.rd CBUS_DROPS.STRANGER + 1) 65535 := by
  refine Eq.trans (b := s.dropped.rd CBUS_DROPS.STRANGER) ?_ (rd_bump h CBUS_DROPS.STRANGER 1 (by decide))
  unfold stranger
  dsimp only
  split
  · refine rd_bump_apart (dropped_canon h) 1 ?_ (by decide)
    simp only [Fld.apart, CBUS_DROPS.STRANGER, CBUS_LOG_MAC_HI.COUNT]
    omega
  · split
    · rw [raise_rd]
      refine rd_wrs_apart (by decide) ?_ (dropped_canon h)
      simp only [List.forall_mem_cons, List.not_mem_nil, Fld.apart, CBUS_DROPS.STRANGER, CBUS_LOG_MAC_LO.MAC, CBUS_LOG_MAC_HI.MAC,
        CBUS_LOG_MAC_HI.COUNT, CBUS_LOG_TICK.TICK, false_imp_iff, implies_true, and_true]
      omega
    · exact rd_bump_apart (dropped_canon h) 1 (.inl (by decide)) (by decide)

/-! ### Received frames -/

theorem State.frameRx_off {s : State} (hoff : s.cbusOn = false) (mac : Nat) (ok : Bool) (role : State → Nat → Bool)
    (act : Nat → State → State) : s.frameRx mac ok role act = s := by
  rw [frameRx, hoff]
  rfl

theorem State.frameRx_listed {s : State} (hon : s.cbusOn = true) {mac n : Nat} (hl : s.listed mac = some n) (ok : Bool)
    (role : State → Nat → Bool) (act : Nat → State → State) :
    s.frameRx mac ok role act = if ok && role s n then act n s else s.bump CBUS_DROPS.REFUSED 1 := by
  rw [frameRx, hon, hl]
  rfl

/-- A driver board's frame about an engine that its entry covers acts (R362, R364). -/
theorem State.frameRx_driver {s : State} (hon : s.cbusOn = true) {mac n e : Nat} (hl : s.listed mac = some n)
    (hcov : (s.covered n).contains e = true) (act : Nat → State → State) : s.frameRx mac true (driverOf e) act = act n s := by
  rw [frameRx_listed hon hl]
  exact if_pos hcov

/-- While the bus is off nothing is received (R358). -/
theorem State.inService_frameRx_off {s : State} (hoff : s.cbusOn = false) (mac : Nat) (ok : Bool) (role : State → Nat → Bool)
    (act : Nat → State → State) : s.inService (fun s => s.frameRx mac ok role act) = s :=
  inService_rest (frameRx_off hoff mac ok role act)

theorem exec_ambient {s : State} (hr : s.ready = true) (hon : s.cbusOn = true) {mac n : Nat} (hl : s.listed mac = some n)
    (ok : Bool) (lux : Nat) : exec (.ambient mac ok lux) s = .next (if ok = true ∧ s.rd (CBUS_ALLOW_CFG.ROLE n) = 1 then
      s.wrs [(CBUS_ALLOW_DATA.VALUE n, bitsOf lux 8 16), (CBUS_ALLOW_DATA.TICK n, s.tickNo % 65536)]
      else s.bump CBUS_DROPS.REFUSED 1) := by
  change execAmbient mac ok lux s = _
  rw [execAmbient, State.inService_ready hr, State.frameRx_listed hon hl]
  simp only [Bool.and_eq_true, beq_iff_eq]

theorem exec_cbusMsg {s : State} (hr : s.ready = true) (hon : s.cbusOn = true) {mac n : Nat} (hl : s.listed mac = some n)
    (ok : Bool) (x : Nat) : exec (.cbusMsg mac ok x) s =
      .next (if ok = true ∧ 320 ≤ x ∧ x ≤ 383 ∧ s.flag (CBUS_ALLOW_CFG.MSG_OK n) = true then
        (s.bump IC_STATS.MSG_COUNT 1).arrive x else s.bump CBUS_DROPS.REFUSED 1) := by
  change execCbusMsg mac ok x s = _
  rw [execCbusMsg, State.inService_ready hr, State.frameRx_listed hon hl]
  by_cases hok : ok = true ∧ 320 ≤ x ∧ x ≤ 383 ∧ s.flag (CBUS_ALLOW_CFG.MSG_OK n) = true
  · obtain ⟨htrue, hlo, hhi, hmsg⟩ := hok
    rw [if_pos (by simp [htrue, hlo, hhi, hmsg]), if_pos ⟨htrue, hlo, hhi, hmsg⟩, State.msgDoorbell, if_pos ⟨hlo, hhi⟩]
  · rw [if_neg (by simpa [and_assoc] using hok), if_neg hok]

/-! ### STATUS frames -/

/-- The state in which a STATUS frame is shown with its tick (R370). -/
def State.boardShown (s : State) (n f : Nat) : State :=
  s.wrs [(CBUS_ALLOW_DATA.VALUE n, bitsOf f 1 1), (CBUS_ALLOW_DATA.TICK n, s.tickNo % 65536)]

@[simp] theorem State.boardShown_light (s : State) (n f : Nat) : (s.boardShown n f).light = s.light := wrs_light ..

/-- A STATUS of an engine whose table is staged is shown and no more (R370). -/
theorem exec_cbusStatus_staged {s : State} (hr : s.ready = true) (hon : s.cbusOn = true) {mac n e : Nat} (hl : s.listed mac = some n)
    (hcov : (s.covered n).contains e = true) (hstaged : (s.lightOf e).staged.isSome = true) (f id : Nat) :
    exec (.cbusStatus mac true e f id) s = .next (s.boardShown n f) := by
  have hsome : ((s.boardShown n f).lightOf e).staged.isNone = false := by
    rw [← Option.not_isSome, State.lightOf, State.boardShown_light]
    exact congrArg not hstaged
  change execCbusStatus mac true e f id s = _
  rw [execCbusStatus, State.inService_ready hr, State.frameRx_driver hon hl hcov]
  dsimp only
  rw [← State.boardShown, hsome, Bool.and_false]
  split
  · rfl
  · rw [Bool.and_false]
    rfl

/-- The state in which a board that lost the engine's table `t` is sent it again (R370). -/
def State.resynced (s : State) (e : Nat) (t : BoardTable) : State :=
  let z := s.setLight e fun l =>
    { l with staged := some { table := { t with id := l.nextId % 65536, models := [] }, order := s.light.nextOrder },
             nextId := l.nextId + 1 }
  (({ z with light := { z.light with nextOrder := z.light.nextOrder + 1 } } : State).bump CBUS_DELIVERY.RESYNCS 1).notePending e

/-- A STATUS of a board without the table in force has it staged anew (R370). -/
theorem exec_cbusStatus_resync {s : State} (hr : s.ready = true) (hon : s.cbusOn = true) {mac n e : Nat} (hl : s.listed mac = some n)
    (hcov : (s.covered n).contains e = true) (hstaged : (s.lightOf e).staged = none) (hswitch : s.light.switch = none)
    {t : BoardTable} (hforce : (s.lightOf e).force = some t) {f id : Nat} (hlost : bitOf f 0 = true ∨ id ≠ t.id) :
    exec (.cbusStatus mac true e f id) s = .next ((s.boardShown n f).resynced e t) := by
  have hlight : (s.boardShown n f).lightOf e = s.lightOf e := by rw [State.lightOf, State.boardShown_light, ← State.lightOf]
  have hdiffers : (bitOf f 0 || id != t.id) = true := by rwa [Bool.or_eq_true, bne_iff_ne]
  change execCbusStatus mac true e f id s = _
  rw [execCbusStatus, State.inService_ready hr, State.frameRx_driver hon hl hcov]
  dsimp only
  rw [← State.boardShown, hlight, hforce, State.boardShown_light, hswitch, hstaged]
  dsimp only
  rw [hdiffers]
  rfl

/-! ### Receive faults -/

theorem exec_cbusRxFault {s : State} (hr : s.ready = true) (hon : s.cbusOn = true) (k : Nat) :
    exec (.cbusRxFault k) s = .next (match k with
    | 0 => s.bump CBUS_ERRORS.FCS 1
    | 1 => if s.flag CBUS_STATUS.PLCA_ACTIVE then (s.bump CBUS_ERRORS.COLLISIONS 1).raise 288 else s.bump CBUS_ERRORS.CSMA_COLL 1
    | 2 => if s.flag CBUS_STATUS.COORDINATOR then (s.bump CBUS_ERRORS.DUP_COORD 1).raise 288 else s
    | _ => s) := by
  change execCbusRxFault k s = _
  rw [execCbusRxFault, State.inService_ready hr, hon]
  rfl

theorem exec_plcaActiveChange {s : State} (hr : s.ready = true) (hon : s.cbusOn = true) {a : Bool}
    (hne : s.flag CBUS_STATUS.PLCA_ACTIVE ≠ a) :
    exec (.plcaActiveChange a) s = .next ((s.wr CBUS_STATUS.PLCA_ACTIVE (b2n a)).raise 290) := by
  change execPlcaActiveChange a s = _
  rw [execPlcaActiveChange, State.inService_ready hr, if_pos hon, State.plca, if_neg hne]

/-- Settles O52. -/
theorem coachBusAdmitsListedFrames : Obligations.CoachBusAdmitsListedFrames := by
  unfold Obligations.CoachBusAdmitsListedFrames
  refine ⟨?enable, ?disable, ?clear, fun s n w h hn => exec_allowValid h hn w, fun s mac hr hon hl => exec_stranger hr hon hl,
    fun s mac hinv => State.stranger_counts hinv.1 mac, fun s mac lux n ok hr hon hl => exec_ambient hr hon hl ok lux,
    fun s mac x n ok hr hon hl => exec_cbusMsg hr hon hl ok x,
    fun s mac e f id n _ hr hon hl hcov hstaged => exec_cbusStatus_staged hr hon hl hcov hstaged f id,
    fun s mac e f id n t hr hon hl hcov hstaged hswitch hforce hlost =>
      exec_cbusStatus_resync hr hon hl hcov hstaged hswitch hforce hlost,
    fun s k hr hon => exec_cbusRxFault hr hon k, fun s a hr hon hne => exec_plcaActiveChange hr hon hne, ?off⟩
  case enable =>
    intro s w hinv hopen hon hwas
    refine ⟨s.cbusEnabled w, ?_, State.cbusEnabled_on hinv.1 hon, ?_, State.cbusEnabled_mac hinv.1 w,
      State.cbusEnabled_coordinator hinv.1 w⟩
    · rw [exec_cbusEnable hopen, hon, hwas]
      rfl
    · rw [State.cbusEnabled, State.wr_light]
  case disable =>
    intro s w hinv hopen hoff
    by_cases hwas : s.cbusOn = true
    · refine ⟨s.cbusDisabled w, ?_, State.cbusDisabled_off hinv.1 hoff, fun _ => ⟨State.cbusDisabled_coordinator hinv.1 w,
        State.plca_false_active (State.wr_canon (State.cbusCfg_canon hinv.1 w) _ _)⟩⟩
      rw [exec_cbusEnable hopen, hoff, hwas]
      rfl
    · refine ⟨s.cbusCfg w, ?_, State.flag_eq_false ?_, fun h => absurd h hwas⟩
      · rw [exec_cbusEnable hopen, hoff, Bool.eq_false_iff.2 hwas]
        rfl
      · rw [State.cbusCfg_enable hinv.1, hoff]
        rfl
  case clear =>
    intro s hopen hinv
    refine ⟨_, exec_logClear hopen, fun i hi => ⟨?_, ?_, ?_, ?_⟩⟩
    · exact State.clearLog_count hinv.1 hi
    · exact State.clearLog_rd (f := CBUS_LOG_MAC_LO.MAC i) hinv.1 hi (of_decide_eq_true rfl) (by simp [logWrites])
    · exact State.clearLog_rd (f := CBUS_LOG_MAC_HI.MAC i) hinv.1 hi (of_decide_eq_true rfl) (by simp [logWrites])
    · exact State.clearLog_rd (f := CBUS_LOG_TICK.TICK i) hinv.1 hi (of_decide_eq_true rfl) (by simp [logWrites])
  case off =>
    intro s mac x e id r ok hoff
    refine ⟨?_, ?_, ?_, ?_, ?_, ?_, congrArg _ (State.inService_rest ?_)⟩
    · exact congrArg _ (State.inService_frameRx_off hoff ..)
    · exact congrArg _ (State.inService_frameRx_off hoff ..)
    · exact congrArg _ (State.inService_frameRx_off hoff ..)
    · exact congrArg _ (State.inService_frameRx_off hoff ..)
    · exact congrArg _ (State.inService_frameRx_off hoff ..)
    · exact congrArg _ (State.inService_frameRx_off hoff ..)
    · rw [hoff]
      rfl

end Sys2Proof.Machine
end

section
/-! The delivery of board tables and SWITCH frames over the coach bus (R367 to R369, R371). -/

namespace Sys2Proof.Machine

/-! ### Answers -/

theorem exec_tableAck {s : State} (hr : s.ready = true) (hon : s.cbusOn = true) {mac n e : Nat} (hl : s.listed mac = some n)
    (hcov : (s.covered n).contains e = true) {g : Staged} (hstaged : (s.lightOf e).staged = some g) (hfailed : g.failed = false)
    (hacked : g.acked = false) (r : Nat) : exec (.tableAck mac true e r g.table.id) s = .next
      (if r = 0 then (s.setLight e fun l => { l with staged := some { g with acked := true, due := false } }).trySwitch
      else if r = 1 then s.withdraw e else s) := by
  change execTableAck mac true e r g.table.id s = _
  rw [execTableAck, State.inService_ready hr, State.frameRx_driver hon hl hcov, hstaged]
  exact congrArg _ (if_pos ⟨rfl, hfailed, hacked⟩)

theorem exec_switchAck {s : State} (hr : s.ready = true) (hon : s.cbusOn = true) {mac n e r : Nat} (hl : s.listed mac = some n)
    (hcov : (s.covered n).contains e = true) {w : Switch} (hswitch : s.light.switch = some w) (hresult : r ≤ 2) :
    exec (.switchAck mac true e r w.id) s = .next { s with light := { s.light with switch := some { w with
      entries := w.entries.map fun x => if x.engine = e ∧ x.answer = none then { x with answer := some r } else x } } } := by
  change execSwitchAck mac true e r w.id s = _
  rw [execSwitchAck, State.inService_ready hr, State.frameRx_driver hon hl hcov]
  dsimp only
  rw [hswitch]
  simp only [Option.isNone_iff_eq_none, hresult, and_self, if_true]

/-! ### Retries -/

theorem exec_tableRetry {s : State} (hr : s.ready = true) (hon : s.cbusOn = true) {e : Nat} (hboard : (s.boardOf e).isSome = true)
    {g : Staged} (hstaged : (s.lightOf e).staged = some g) (hacked : g.acked = false) (hfailed : g.failed = false)
    (hdue : g.due = false) (hsends : 0 < g.sends) (htime : g.lastSend + s.retryNs ≤ s.now) :
    exec (.tableRetry e) s = .next (if g.sends < max 1 (s.rd CBUS_TIMING.TABLE_TRIES) then
      s.setLight e fun l => { l with staged := some { g with due := true } } else s.withdraw e) := by
  change execTableRetry e s = _
  rw [execTableRetry, State.inService_ready hr, hstaged]
  dsimp only
  rw [hon, hboard, hacked, hfailed, hdue, decide_eq_true hsends, decide_eq_true htime]
  rfl

theorem exec_switchRetry {s : State} (hr : s.ready = true) (hon : s.cbusOn = true) {w : Switch} (hswitch : s.light.switch = some w)
    (hdue : w.due = false) (hleft : ∃ x ∈ w.entries, x.answer = none) (htime : w.lastSend + s.retryNs ≤ s.now)
    (hticks : 1 < (w.tick + 2 ^ 32 - s.tickNo % 2 ^ 32) % 2 ^ 32)
    (hahead : (w.tick + 2 ^ 32 - s.tickNo % 2 ^ 32) % 2 ^ 32 < 2 ^ 31) :
    exec .switchRetry s = .next { s with light := { s.light with switch := some { w with due := true } } } := by
  have hany : (w.entries.any fun x => x.answer.isNone) = true := by
    obtain ⟨x, hx, hnone⟩ := hleft
    exact List.any_eq_true.2 ⟨x, hx, by rw [hnone]; rfl⟩
  change execSwitchRetry s = _
  rw [execSwitchRetry, State.inService_ready hr, hswitch]
  dsimp only
  rw [if_pos]
  rw [hon, hdue, hany, decide_eq_true htime, decide_eq_true ⟨hticks, hahead⟩]
  rfl

/-! ### The transmit opportunity -/

theorem exec_cbusTransmit_switch {s : State} (hr : s.ready = true) (hon : s.cbusOn = true) {w : Switch}
    (hswitch : s.light.switch = some w) (hdue : w.due = true) :
    exec .cbusTransmit s = .next { s.sendFrame (2 ^ 48 - 1) 3 (switchBody w) with light :=
      { (s.sendFrame (2 ^ 48 - 1) 3 (switchBody w)).light with switch := some { w with due := false, lastSend := s.now } } } := by
  have hfilter : s.light.switch.filter (·.due) = some w := by
    rw [hswitch]
    exact if_pos hdue
  change execCbusTransmit s = _
  rw [execCbusTransmit, State.inService_ready hr, hon]
  dsimp only
  rw [hfilter]
  rfl

theorem exec_cbusTransmit_table {s : State} (hr : s.ready = true) (hon : s.cbusOn = true)
    (hnone : s.light.switch.filter (·.due) = none) {a : Bool} {o e n : Nat} (hbest : bestTable s.tablesDue = some (a, o, e))
    {g : Staged} (hstaged : (s.lightOf e).staged = some g) (hboard : s.boardOf e = some n) :
    exec .cbusTransmit s = .next ((s.sendFrame (s.allowMac n) 1 (tableBody e g.table)).setLight e fun l =>
      { l with staged := some { g with due := false, sends := g.sends + 1, lastSend := s.now } }) := by
  change execCbusTransmit s = _
  rw [execCbusTransmit, State.inService_ready hr, hon]
  dsimp only
  rw [hnone, hbest]
  dsimp only
  rw [hstaged, hboard]
  rfl

/-- Settles O53. -/
theorem tablesAndSwitchesAreDelivered : Obligations.TablesAndSwitchesAreDelivered := by
  unfold Obligations.TablesAndSwitchesAreDelivered
  refine ⟨?ack, fun s e => rfl,
    fun s e g hr hon hboard hstaged hacked hfailed hdue hsends htime =>
      exec_tableRetry hr hon hboard hstaged hacked hfailed hdue hsends htime,
    fun s mac e r n w hr hon hl hcov hswitch hresult => exec_switchAck hr hon hl hcov hswitch hresult,
    fun s w hr hon hswitch hdue hleft htime hticks hahead => exec_switchRetry hr hon hswitch hdue hleft htime hticks hahead,
    fun s w hr hon hswitch hdue => exec_cbusTransmit_switch hr hon hswitch hdue,
    fun s a o e n g hr hon hnone hbest hstaged hboard => exec_cbusTransmit_table hr hon hnone hbest hstaged hboard⟩
  case ack =>
    intro s mac e id n g hr hon hl hcov hstaged hid hfailed hacked
    subst hid
    exact ⟨exec_tableAck hr hon hl hcov hstaged hfailed hacked 0, exec_tableAck hr hon hl hcov hstaged hfailed hacked 1⟩

end Sys2Proof.Machine
end

section
/-! Backbone links and 802.1AS time (R374, R375, R391 to R394). -/

namespace Sys2Proof.Machine

/-! ### Links -/

theorem exec_bbnLinkChange {s : State} {p : Nat} (hr : s.ready = true) (hp : p < 2) (hon : s.bbnOn p = true)
    (hclk : s.pwr.bbnClk = true) (block fec : Bool) : exec (.bbnLinkChange p block fec) s = .next (s.bbnLock p block fec) := by
  change execBbnLinkChange p block fec s = _
  rw [execBbnLinkChange, State.inService_ready hr, if_pos ⟨hp, hon, .inl hclk⟩]

theorem State.setBbnLink_same {s : State} {p : Nat} {on : Bool} (h : s.flag (BBN_PORT_STATUS.LINK p) = on) :
    s.setBbnLink p on = s := if_pos h

/-- LINK that rises shows, with source 292. -/
theorem State.setBbnLink_up {s : State} {p : Nat} (h : s.flag (BBN_PORT_STATUS.LINK p) = false) :
    s.setBbnLink p true = (s.wr (BBN_PORT_STATUS.LINK p) 1).raise 292 := by
  rw [setBbnLink, h, if_neg Bool.false_ne_true]
  rfl

/-- LINK that falls loses the frames of the port, asCapable and the 802.1AS lock. -/
theorem State.setBbnLink_down {s : State} {p : Nat} (h : s.flag (BBN_PORT_STATUS.LINK p) = true) : s.setBbnLink p false =
    (((((s.wr (BBN_PORT_STATUS.LINK p) 0).raise 292).loseFrames p).wr (BBN_PORT_STATUS.AS_CAPABLE p) 0).loseGptp p) := by
  rw [setBbnLink, h, if_neg (by decide)]
  rfl

theorem exec_bbnPortConfig {s : State} {p : Nat} (h : s.Open) (hp : p < 2) (w : Word) :
    let x := w.toNat
    let z := s.wrs [(BBN_PORT_CFG.ENABLE p, bitsOf x 0 1), (BBN_PORT_CFG.FEC p, bitsOf x 1 2),
      (BBN_PORT_CFG.GPTP_ENABLE p, bitsOf x 3 1), (BBN_PORT_CFG.RX_INVERT p, bitsOf x 4 1),
      (BBN_PORT_CFG.TX_INVERT p, bitsOf x 5 1), (BBN_PORT_CFG.MAX_FRAME p, bitsOf x 16 14)]
    let drops := s.rd (BBN_PORT_CFG.FEC p) != bitsOf x 1 2 || s.rd (BBN_PORT_CFG.RX_INVERT p) != bitsOf x 4 1 ||
      s.rd (BBN_PORT_CFG.TX_INVERT p) != bitsOf x 5 1
    let y := if s.flag (BBN_PORT_CFG.ENABLE p) && (!bitOf x 0 || drops) then z.bbnLock p false false else z
    exec (.bbnPortConfig p w) s = .next (if y.gptpOn p = true then (if y.gptpState p = 0 then y.setGptpState p 1 else y)
      else (y.setGptp p fun g => { g with heard := false, good := 0 }).setGptpState p 0) := by
  intro x z drops y
  change execBbnPortConfig p w s = _
  rw [execBbnPortConfig, State.setup_open h, if_neg (Nat.not_le.2 hp)]
  change Host.Outcome.next (if (!y.gptpOn p) = true then _ else _) = _
  cases y.gptpOn p
  · rfl
  · rfl

/-! ### 802.1AS time -/

/-- What a message does on a port whose function runs and whose link is up (R391 to R393). -/
def State.gptpActs (s : State) (p : Nat) : GptpMsg → State
  | .announce clock => s.announceMsg p clock
  | .sync offset residual rate logSync => if (s.gptp p).heard = true then s.syncMsg p offset residual rate logSync else s
  | .delay ns valid => s.delayMsg p ns valid
  | .pdelayReq seq => (s.sendPeer p 1 seq).sendPeer p 2 seq

theorem exec_gptpMessage {s : State} {p : Nat} (hr : s.ready = true) (hp : p < 2) (hon : s.gptpOn p = true)
    (hlink : s.flag (BBN_PORT_STATUS.LINK p) = true) (m : GptpMsg) : exec (.gptpMessage p m) s = .next (s.gptpActs p m) := by
  change execGptpMessage p m s = _
  rw [execGptpMessage, State.inService_ready hr, if_pos ⟨hp, hon, hlink⟩]
  cases m <;> rfl

/-- A port whose function does not run, or whose link is down, takes no part. -/
theorem gptp_out {s : State} {p : Nat} (hout : s.gptpOn p = false ∨ s.flag (BBN_PORT_STATUS.LINK p) = false) :
    ¬ (p < 2 ∧ s.gptpOn p = true ∧ s.flag (BBN_PORT_STATUS.LINK p) = true) := by
  rintro ⟨-, hon, hlink⟩
  rw [hon, hlink] at hout
  obtain h | h := hout <;> cases h

theorem exec_pdelayReq {s : State} {p : Nat} (hr : s.ready = true) (hp : p < 2) (hon : s.gptpOn p = true)
    (hlink : s.flag (BBN_PORT_STATUS.LINK p) = true) : exec (.pdelayReq p) s =
      .next ((s.sendPeer p 0 (s.gptp p).pdelaySeq).setGptp p fun g => { g with pdelaySeq := (g.pdelaySeq + 1) % 65536 }) := by
  change execPdelayReq p s = _
  rw [execPdelayReq, State.inService_ready hr, if_pos ⟨hp, hon, hlink⟩]

theorem exec_gptpLost {s : State} {p : Nat} (hr : s.ready = true) (hp : p < 2) (hst : s.gptpState p = 2 ∨ s.gptpState p = 3) :
    exec (.gptpLost p) s = .next ((s.setGptp p fun g => { g with heard := false }).setGptpState p 4) := by
  change execGptpLost p s = _
  rw [execGptpLost, State.inService_ready hr, if_pos hp, State.loseGptp, if_pos hst]
  rfl

theorem State.loseGptp_rest {s : State} {p : Nat} (h2 : s.gptpState p ≠ 2) (h3 : s.gptpState p ≠ 3) : s.loseGptp p = s :=
  if_neg fun h => h.elim h2 h3

theorem exec_gptpLost_rest {s : State} {p : Nat} (h2 : s.gptpState p ≠ 2) (h3 : s.gptpState p ≠ 3) :
    exec (.gptpLost p) s = .next s := by
  refine congrArg _ (State.inService_rest ?_)
  rw [State.loseGptp_rest h2 h3, ite_self]

/-- What a valid delay within the bound shows (R391). -/
def delayWrites (p ns : Nat) : List (Fld × Nat) := [(BBN_GPTP_DELAY.LINK_DELAY_NS p, min ns 65535), (BBN_PORT_STATUS.AS_CAPABLE p, 1)]

theorem delayWrites_pairwise (p ns : Nat) : (delayWrites p ns).Pairwise fun p q => p.1.apart q.1 := by
  simp only [delayWrites, List.pairwise_cons, List.forall_mem_cons, List.not_mem_nil, Fld.apart, BBN_GPTP_DELAY.LINK_DELAY_NS,
    BBN_PORT_STATUS.AS_CAPABLE, false_imp_iff, implies_true, List.Pairwise.nil, and_true]
  omega

theorem State.delayMsg_good (s : State) (p : Nat) {ns : Nat} (hns : ns ≤ 800) : s.delayMsg p ns true = s.wrs (delayWrites p ns) := by
  unfold delayMsg
  rw [decide_eq_true hns]
  rfl

/-- Settles O54. -/
theorem linkAndTimeStatesFollow : Obligations.LinkAndTimeStatesFollow := by
  unfold Obligations.LinkAndTimeStatesFollow
  refine ⟨fun s p block fec _ hr hp hon hclk => exec_bbnLinkChange hr hp hon hclk block fec, fun s p h => State.setBbnLink_same h,
    fun s p h => ⟨State.setBbnLink_same h, State.setBbnLink_up h⟩, fun s p h => State.setBbnLink_down h,
    fun s p w h hp => exec_bbnPortConfig h hp w, ?message, ?out, fun s p hr hp hst => exec_gptpLost hr hp hst,
    fun s p h2 h3 => exec_gptpLost_rest h2 h3, fun s p hr hp hon hlink => exec_pdelayReq hr hp hon hlink, ?delay⟩
  case message =>
    intro s p m hr hp hon hlink
    rw [exec_gptpMessage hr hp hon hlink]
    cases m <;> rfl
  case out =>
    intro s p m hr hout
    exact ⟨congrArg _ (State.inService_rest (if_neg (gptp_out hout))), congrArg _ (State.inService_rest (if_neg (gptp_out hout)))⟩
  case delay =>
    intro s p ns hinv _ hns
    rw [State.delayMsg_good s p hns]
    refine ⟨?_, State.rd_wrs_mem (v := 1) (of_decide_eq_true rfl) (delayWrites_pairwise p ns) (by simp [delayWrites]) hinv.1⟩
    refine (State.rd_wrs_mem (v := min ns 65535) (of_decide_eq_true rfl) (delayWrites_pairwise p ns) (by simp [delayWrites])
      hinv.1).trans ?_
    simp only [BBN_GPTP_DELAY.LINK_DELAY_NS]
    omega

end Sys2Proof.Machine
end

section
/-! The ingest of backbone streams: received frames and stream contexts (R376, R378, R381 to R385, R389). -/

namespace Sys2Proof.Machine

/-! ### Received frames -/

/-- The state in which a received frame has been counted by its FEC and those before it have left the buffer (R376, R381). -/
def State.frameCame (s : State) (x : Frame) : State :=
  let y := (s.bump (BBN_PORT_FEC.CORRECTED x.port) x.fecCorrected).bump (BBN_PORT_FEC.UNCORRECTED x.port) x.fecUncorrected
  { y with bbn := { y.bbn with buffered := leave x.left y.bbn.buffered } }

/-- A frame is damaged, or out of the sizes that its port takes (R376). -/
def State.damages (s : State) (x : Frame) : Prop :=
  x.bad = true ∨ 0 < x.fecUncorrected ∨ x.len < 64 ∨ clampN (s.rd (BBN_PORT_CFG.MAX_FRAME x.port)) 1518 9600 < x.len

section
variable {s : State} {x : Frame} (hr : s.ready = true) (hp : x.port < 2) (hlink : s.flag (BBN_PORT_STATUS.LINK x.port) = true)
include hr hp hlink

theorem exec_bbnFrameRx_damaged (hbad : (s.frameCame x).damages x) :
    exec (.bbnFrameRx x) s = .next ((s.frameCame x).bump (BBN_PORT_DROPS.ERRORS x.port) 1) := by
  change execBbnFrameRx x s = _
  rw [execBbnFrameRx, State.inService_ready hr, if_pos ⟨hp, hlink⟩]
  exact congrArg _ (if_pos hbad)

theorem exec_bbnFrameRx_gptp (hgood : ¬ (s.frameCame x).damages x) (hgptp : x.gptp = true) :
    exec (.bbnFrameRx x) s = .next (s.frameCame x) := by
  change execBbnFrameRx x s = _
  rw [execBbnFrameRx, State.inService_ready hr, if_pos ⟨hp, hlink⟩]
  exact congrArg _ ((if_neg hgood).trans (if_pos hgptp))

theorem exec_bbnFrameRx_stranger (hgood : ¬ (s.frameCame x).damages x) (hgptp : x.gptp = false)
    (hnone : (s.frameCame x).accepts x = false ∨ (s.frameCame x).flowFor x = none) :
    exec (.bbnFrameRx x) s = .next ((s.frameCame x).bump (BBN_PORT_DROPS.STRANGER x.port) 1) := by
  have hmatch : (if (s.frameCame x).accepts x then (s.frameCame x).flowFor x else none) = none := by
    obtain haccepts | hflow := hnone
    · rw [haccepts, if_neg Bool.false_ne_true]
    · rw [hflow, ite_self]
  change execBbnFrameRx x s = _
  rw [execBbnFrameRx, State.inService_ready hr, if_pos ⟨hp, hlink⟩]
  refine congrArg _ ((if_neg hgood).trans ((if_neg (ne_true_of_eq_false hgptp)).trans ?_))
  unfold State.frameCame at hmatch ⊢
  rw [hmatch]

theorem exec_bbnFrameRx_flow (hgood : ¬ (s.frameCame x).damages x) (hgptp : x.gptp = false)
    (haccepts : (s.frameCame x).accepts x = true) {n : Nat} {f : Flow} (hflow : (s.frameCame x).flowFor x = some (n, f)) :
    exec (.bbnFrameRx x) s = .next ((s.frameCame x).flowFrame n f x) := by
  have hmatch : (if (s.frameCame x).accepts x then (s.frameCame x).flowFor x else none) = some (n, f) := by
    rw [if_pos haccepts, hflow]
  change execBbnFrameRx x s = _
  rw [execBbnFrameRx, State.inService_ready hr, if_pos ⟨hp, hlink⟩]
  refine congrArg _ ((if_neg hgood).trans ((if_neg (ne_true_of_eq_false hgptp)).trans ?_))
  unfold State.frameCame at hmatch ⊢
  rw [hmatch]

end

/-! ### Enabling a context -/

/-- What a write of BBN_SC_CFG stores of its settings (R383). -/
def streamCfgWrites (c x : Nat) : List (Fld × Nat) :=
  [(BBN_SC_CFG.TYPE c, bitsOf x 1 2), (BBN_SC_CFG.ALT c, bitsOf x 3 1), (BBN_SC_CFG.EOF_IRQ c, bitsOf x 4 1),
    (BBN_SC_CFG.PT_CHECK c, bitsOf x 5 1), (BBN_SC_CFG.PT c, bitsOf x 6 7), (BBN_SC_CFG.SAMPLING c, bitsOf x 16 3),
    (BBN_SC_CFG.DEPTH10 c, bitsOf x 19 1)]

/-- A field of another word of the context stands. -/
theorem streamCfgWrites_apart {c : Nat} {f : Fld} (hf : (BBN_SC_CFG.TYPE c).off + 4 ≤ f.off) (x : Nat) :
    ∀ p ∈ streamCfgWrites c x, f.apart p.1 := by
  simp only [BBN_SC_CFG.TYPE] at hf
  simp only [streamCfgWrites, List.forall_mem_cons, List.not_mem_nil, Fld.apart, BBN_SC_CFG.TYPE, BBN_SC_CFG.ALT,
    BBN_SC_CFG.EOF_IRQ, BBN_SC_CFG.PT_CHECK, BBN_SC_CFG.PT, BBN_SC_CFG.SAMPLING, BBN_SC_CFG.DEPTH10, false_imp_iff, implies_true,
    and_true]
  omega

/-- The state with the settings of context `c` stored. -/
def State.streamCfg (s : State) (c : Nat) (w : Word) : State := s.wrs (streamCfgWrites c w.toNat)

theorem State.streamCfg_canon {s : State} (h : s.Canon) (c : Nat) (w : Word) : (s.streamCfg c w).Canon := wrs_canon h

theorem State.streamCfg_rd {s : State} (h : s.Canon) {c : Nat} (w : Word) {f : Fld} (hf : (BBN_SC_CFG.TYPE c).off + 4 ≤ f.off)
    (hi : f.hi < 64) : (s.streamCfg c w).rd f = s.rd f := rd_wrs_apart hi (streamCfgWrites_apart hf w.toNat) h

theorem State.streamCfg_active {s : State} (h : s.Canon) (c : Nat) (w : Word) :
    (s.streamCfg c w).rd (BBN_SC_STATUS.ACTIVE c) = s.rd (BBN_SC_STATUS.ACTIVE c) :=
  streamCfg_rd h w (by simp only [BBN_SC_CFG.TYPE, BBN_SC_STATUS.ACTIVE]; omega) (of_decide_eq_true rfl)

/-- The two surfaces of context `c` as SC_SURF holds them. -/
def State.streamSurf (s : State) (c : Nat) : Nat := s.rd (BBN_SC_SURF.SURFACE_A c) + 2 ^ 16 * s.rd (BBN_SC_SURF.SURFACE_B c)

theorem State.streamCfg_surf {s : State} (h : s.Canon) (c : Nat) (w : Word) : (s.streamCfg c w).streamSurf c = s.streamSurf c := by
  unfold streamSurf
  rw [streamCfg_rd h w (by simp only [BBN_SC_CFG.TYPE, BBN_SC_SURF.SURFACE_A]; omega) (of_decide_eq_true rfl),
    streamCfg_rd h w (by simp only [BBN_SC_CFG.TYPE, BBN_SC_SURF.SURFACE_B]; omega) (of_decide_eq_true rfl)]

theorem State.streamCfg_check (s : State) (c : Nat) (w : Word) (x y : Nat) : (s.streamCfg c w).streamCheck x y = s.streamCheck x y := by
  unfold streamCheck surface streamCfg
  rw [wrs_surf]

/-- The codes of R383 fit CFG_CODE. -/
theorem State.streamCheck_lt (s : State) (x y : Nat) : s.streamCheck x y < 2 ^ 8 := by
  unfold streamCheck streamCode
  dsimp only
  repeat' split
  all_goals decide

/-- What a refused enable shows (R383). -/
def streamRefusal (c code : Nat) : List (Fld × Nat) := [(BBN_SC_CFG.ENABLE c, 0), (BBN_SC_STATUS.CFG_CODE c, code)]

/-- What a passing enable shows (R383). -/
def streamStart (c x : Nat) : List (Fld × Nat) :=
  [(BBN_SC_CFG.ENABLE c, 1), (BBN_SC_STATUS.ACTIVE c, 1), (BBN_SC_STATUS.IN_FRAME c, 0), (BBN_SC_STATUS.HAVE_FRAME c, 0),
    (BBN_SC_STATUS.AWAIT_KEY c, b2n (bitsOf x 1 2 == 1)), (BBN_SC_STATUS.CFG_CODE c, 0)]

theorem streamRefusal_pairwise (c code : Nat) : (streamRefusal c code).Pairwise fun p q => p.1.apart q.1 := by
  simp only [streamRefusal, List.pairwise_cons, List.forall_mem_cons, List.not_mem_nil, Fld.apart, BBN_SC_CFG.ENABLE,
    BBN_SC_STATUS.CFG_CODE, false_imp_iff, implies_true, List.Pairwise.nil, and_true]
  omega

theorem streamRefusal_active (c code : Nat) : ∀ p ∈ streamRefusal c code, (BBN_SC_STATUS.ACTIVE c).apart p.1 := by
  simp only [streamRefusal, List.forall_mem_cons, List.not_mem_nil, Fld.apart, BBN_SC_CFG.ENABLE, BBN_SC_STATUS.CFG_CODE,
    BBN_SC_STATUS.ACTIVE, false_imp_iff, implies_true, and_true]
  omega

theorem streamStart_pairwise (c x : Nat) : (streamStart c x).Pairwise fun p q => p.1.apart q.1 := by
  simp only [streamStart, List.pairwise_cons, List.forall_mem_cons, List.not_mem_nil, Fld.apart, BBN_SC_CFG.ENABLE,
    BBN_SC_STATUS.ACTIVE, BBN_SC_STATUS.IN_FRAME, BBN_SC_STATUS.HAVE_FRAME, BBN_SC_STATUS.AWAIT_KEY, BBN_SC_STATUS.CFG_CODE,
    false_imp_iff, implies_true, List.Pairwise.nil, and_true]
  omega

/-- The state in which context `c` has started with the settings `x` (R383). -/
def State.streamStarted (s : State) (c x : Nat) : State :=
  (s.setStream c fun _ => { cfg := x, surf := s.streamSurf c, timeout := max 1 (s.rd (BBN_SC_TIMING.FRAME_TIMEOUT_MS c)) }).wrs
    (streamStart c x)

theorem exec_streamEnable_on {s : State} (hinv : s.Inv) (h : s.Open) {c : Nat} (hc : c < 256) {w : Word}
    (hon : bitOf w.toNat 0 = true) (hactive : s.flag (BBN_SC_STATUS.ACTIVE c) = false) : exec (.streamEnable c w) s =
      .next (if s.streamCheck w.toNat (s.streamSurf c) ≠ 0 then
        (s.streamCfg c w).wrs (streamRefusal c (s.streamCheck w.toNat (s.streamSurf c)))
      else (s.streamCfg c w).streamStarted c w.toNat) := by
  have hidle : (bitOf w.toNat 0 && !(s.streamCfg c w).flag (BBN_SC_STATUS.ACTIVE c)) = true := by
    rw [hon, State.flag, State.streamCfg_active hinv.1, ← State.flag, hactive]
    rfl
  rw [← State.streamCfg_surf hinv.1 c w, ← State.streamCfg_check s c w]
  change execStreamEnable c w s = _
  rw [execStreamEnable, State.setup_open h, if_neg (Nat.not_le.2 hc)]
  exact congrArg _ (if_pos hidle)

theorem exec_streamEnable_off {s : State} (h : s.Open) {c : Nat} (hc : c < 256) {w : Word} (hoff : bitOf w.toNat 0 = false) :
    exec (.streamEnable c w) s = .next (((s.streamCfg c w).loseFrame c 6).wrs
      [(BBN_SC_CFG.ENABLE c, 0), (BBN_SC_STATUS.ACTIVE c, 0), (BBN_SC_STATUS.AWAIT_KEY c, 0)]) := by
  change execStreamEnable c w s = _
  rw [execStreamEnable, State.setup_open h, if_neg (Nat.not_le.2 hc)]
  dsimp only
  rw [hoff]
  rfl

/-! ### A completed frame -/

/-- What the completion of an open frame shows in SC_STATUS (R384). -/
def frameEnd (c side : Nat) : List (Fld × Nat) :=
  [(BBN_SC_STATUS.IN_FRAME c, 0), (BBN_SC_STATUS.LAST c, side), (BBN_SC_STATUS.HAVE_FRAME c, 1)]

theorem frameEnd_pairwise (c side : Nat) : (frameEnd c side).Pairwise fun p q => p.1.apart q.1 := by
  simp only [frameEnd, List.pairwise_cons, List.forall_mem_cons, List.not_mem_nil, Fld.apart, BBN_SC_STATUS.IN_FRAME,
    BBN_SC_STATUS.LAST, BBN_SC_STATUS.HAVE_FRAME, false_imp_iff, implies_true, List.Pairwise.nil, and_true]
  omega

/-- A field of another word stands. -/
theorem frameEnd_apart {c : Nat} {f : Fld} (hf : f.hi < 32)
    (hoff : f.off + 4 ≤ (BBN_SC_STATUS.LAST c).off ∨ (BBN_SC_STATUS.LAST c).off + 4 ≤ f.off) (side : Nat) :
    ∀ p ∈ frameEnd c side, f.apart p.1 := by
  simp only [BBN_SC_STATUS.LAST] at hoff
  simp only [frameEnd, List.forall_mem_cons, List.not_mem_nil, Fld.apart, BBN_SC_STATUS.IN_FRAME, BBN_SC_STATUS.LAST,
    BBN_SC_STATUS.HAVE_FRAME, false_imp_iff, implies_true, and_true]
  omega

/-- The state in which the open frame's write has ended in its surface. -/
def State.frameClosed (s : State) (c : Nat) : State :=
  (s.endWrite (s.stream c).target true).setStream c fun x => { x with lastSeen := false }

theorem State.frameClosed_regs (s : State) (c : Nat) : (s.frameClosed c).regs = s.regs := rfl

/-- The state in which the open frame of context `c` has ended and is counted (R384). -/
def State.frameEnded (s : State) (c : Nat) : State :=
  ((s.frameClosed c).wrs (frameEnd c (s.stream c).side)).bump (BBN_SC_FRAMES.COMPLETE c) 1

/-- A KEY frame of a context that does not alternate is awaited no longer (R389). -/
def State.keyHeld (s : State) (c : Nat) (x : StreamCtx) : State :=
  if x.key && !bitOf x.cfg 3 then s.wr (BBN_SC_STATUS.AWAIT_KEY c) 0 else s

/-- The latency of a Class A frame is shown (R390). -/
def State.latencyShown (s : State) (cls ns : Nat) : State :=
  if cls = 0 then
    let s := s.wr BBN_CLASS_A.WORST_NS (max (s.rd BBN_CLASS_A.WORST_NS) (min ns 65535))
    if 30000 < ns then s.bump BBN_CLASS_A.OVER 1 else s
  else s

/-- Source 295 where the context asks for it (R384). -/
def State.endRaised (s : State) (c : Nat) : State := if s.flag (BBN_SC_CFG.EOF_IRQ c) then s.raise 295 else s

theorem exec_streamFrameComplete {s : State} (hr : s.ready = true) {c : Nat} (hc : c < 256) (hopen : s.inFrame c = true)
    (hlast : (s.stream c).lastSeen = true) (ns : Nat) : exec (.streamFrameComplete c ns) s =
      .next ((((s.frameEnded c).keyHeld c (s.stream c)).latencyShown (s.stream c).cls ns).endRaised c) := by
  change execStreamFrameComplete c ns s = _
  rw [execStreamFrameComplete, State.inService_ready hr]
  exact congrArg _ (if_pos ⟨hc, hopen, hlast⟩)

theorem State.endRaised_rd (s : State) (c : Nat) (f : Fld) : (s.endRaised c).rd f = s.rd f := by
  unfold endRaised
  split
  · exact raise_rd ..
  · rfl

theorem State.latencyShown_rd {s : State} (h : s.Canon) (cls ns : Nat) {f : Fld} (hw : f.apart BBN_CLASS_A.WORST_NS)
    (ho : f.apart BBN_CLASS_A.OVER) (hi : f.hi < 64) : (s.latencyShown cls ns).rd f = s.rd f := by
  unfold latencyShown
  split
  · dsimp only
    split
    · rw [rd_bump_apart (wr_canon h _ _) 1 ho hi, rd_wr_apart h _ hw hi]
    · exact rd_wr_apart h _ hw hi
  · rfl

/-- The worst latency takes that of a Class A frame (R390). -/
theorem State.latencyShown_worst {s : State} (h : s.Canon) (ns : Nat) :
    (s.latencyShown 0 ns).rd BBN_CLASS_A.WORST_NS = max (s.rd BBN_CLASS_A.WORST_NS) (min ns 65535) := by
  have hlt := s.rd_lt BBN_CLASS_A.WORST_NS
  have hworst : (s.wr BBN_CLASS_A.WORST_NS (max (s.rd BBN_CLASS_A.WORST_NS) (min ns 65535))).rd BBN_CLASS_A.WORST_NS =
      max (s.rd BBN_CLASS_A.WORST_NS) (min ns 65535) := by
    refine (rd_wr h _ _ (by decide)).trans ?_
    simp only [BBN_CLASS_A.WORST_NS] at hlt ⊢
    omega
  unfold latencyShown
  rw [if_pos rfl]
  dsimp only
  split
  · rw [rd_bump_apart (wr_canon h _ _) 1 (.inl (by decide)) (by decide)]
    exact hworst
  · exact hworst

theorem State.keyHeld_canon {s : State} (h : s.Canon) (c : Nat) (x : StreamCtx) : (s.keyHeld c x).Canon := by
  unfold keyHeld
  split
  · exact wr_canon h _ _
  · exact h

theorem State.keyHeld_rd {s : State} (h : s.Canon) {c : Nat} (x : StreamCtx) {f : Fld} (hf : f.apart (BBN_SC_STATUS.AWAIT_KEY c))
    (hi : f.hi < 64) : (s.keyHeld c x).rd f = s.rd f := by
  unfold keyHeld
  split
  · exact rd_wr_apart h _ hf hi
  · rfl

theorem State.keyHeld_await {s : State} (h : s.Canon) (c : Nat) {x : StreamCtx} (hkey : x.key = true) (halt : bitOf x.cfg 3 = false) :
    (s.keyHeld c x).rd (BBN_SC_STATUS.AWAIT_KEY c) = 0 := by
  rw [keyHeld, hkey, halt, if_pos (by rfl)]
  exact rd_wr h (BBN_SC_STATUS.AWAIT_KEY c) 0 (of_decide_eq_true rfl)

theorem State.frameEnded_canon {s : State} (h : s.Canon) (c : Nat) : (s.frameEnded c).Canon :=
  bump_canon (wrs_canon (s := s.frameClosed c) h) _ _

/-- A completed frame is counted. -/
theorem State.frameEnded_complete {s : State} (h : s.Canon) (c : Nat) :
    (s.frameEnded c).rd (BBN_SC_FRAMES.COMPLETE c) = min (s.rd (BBN_SC_FRAMES.COMPLETE c) + 1) 65535 := by
  have hcount : ((s.frameClosed c).wrs (frameEnd c (s.stream c).side)).rd (BBN_SC_FRAMES.COMPLETE c) =
      s.rd (BBN_SC_FRAMES.COMPLETE c) :=
    (rd_wrs_apart (of_decide_eq_true rfl) (frameEnd_apart (of_decide_eq_true rfl)
      (by simp only [BBN_SC_FRAMES.COMPLETE, BBN_SC_STATUS.LAST]; omega) _) h).trans (rd_congr (s.frameClosed_regs c) _)
  rw [← hcount]
  exact rd_bump (wrs_canon (s := s.frameClosed c) h) (BBN_SC_FRAMES.COMPLETE c) 1 (of_decide_eq_true rfl)

/-- What a completed frame shows in SC_STATUS. -/
theorem State.frameEnded_status {s : State} (h : s.Canon) {c : Nat} {f : Fld} {v : Nat} (hm : (f, v) ∈ frameEnd c (s.stream c).side)
    (hf : f.apart (BBN_SC_FRAMES.COMPLETE c)) (hi : f.hi < 64) : (s.frameEnded c).rd f = v % 2 ^ (f.hi + 1 - f.lo) :=
  (rd_bump_apart (wrs_canon (s := s.frameClosed c) h) 1 hf hi).trans
    (rd_wrs_mem (s := s.frameClosed c) hi (frameEnd_pairwise c _) hm h)

/-- The state in which an open frame has completed, `ns` after its last packet (R384, R389, R390). -/
def State.frameCompleted (s : State) (c ns : Nat) : State :=
  (((s.frameEnded c).keyHeld c (s.stream c)).latencyShown (s.stream c).cls ns).endRaised c

/-- The fields of a context that its key and its latency leave stand as its end has them. -/
theorem State.frameCompleted_rd {s : State} (h : s.Canon) {c : Nat} (ns : Nat) {f : Fld}
    (hkey : f.apart (BBN_SC_STATUS.AWAIT_KEY c)) (hlow : (BBN_SC_CFG.ENABLE 0).off ≤ f.off) (hi : f.hi < 64) :
    (s.frameCompleted c ns).rd f = (s.frameEnded c).rd f := by
  simp only [BBN_SC_CFG.ENABLE] at hlow
  unfold frameCompleted
  rw [endRaised_rd, latencyShown_rd (keyHeld_canon (frameEnded_canon h c) c _) _ _
    (by simp only [Fld.apart, BBN_CLASS_A.WORST_NS]; omega) (by simp only [Fld.apart, BBN_CLASS_A.OVER]; omega) hi]
  exact keyHeld_rd (frameEnded_canon h c) _ hkey hi

theorem State.frameCompleted_await {s : State} (h : s.Canon) {c : Nat} (ns : Nat) (hkey : (s.stream c).key = true)
    (halt : bitOf (s.stream c).cfg 3 = false) : (s.frameCompleted c ns).rd (BBN_SC_STATUS.AWAIT_KEY c) = 0 := by
  unfold frameCompleted
  rw [endRaised_rd, latencyShown_rd (keyHeld_canon (frameEnded_canon h c) c _) _ _
    (by simp only [Fld.apart, BBN_CLASS_A.WORST_NS, BBN_SC_STATUS.AWAIT_KEY]; omega)
    (by simp only [Fld.apart, BBN_CLASS_A.OVER, BBN_SC_STATUS.AWAIT_KEY]; omega) (of_decide_eq_true rfl)]
  exact keyHeld_await (frameEnded_canon h c) c hkey halt

theorem State.frameEnded_worst {s : State} (h : s.Canon) (c : Nat) :
    (s.frameEnded c).rd BBN_CLASS_A.WORST_NS = s.rd BBN_CLASS_A.WORST_NS := by
  refine (rd_bump_apart (wrs_canon (s := s.frameClosed c) h) 1 ?_ (by decide)).trans ?_
  · simp only [Fld.apart, BBN_CLASS_A.WORST_NS, BBN_SC_FRAMES.COMPLETE]
    omega
  · exact (rd_wrs_apart (by decide) (frameEnd_apart (by decide)
      (by simp only [BBN_CLASS_A.WORST_NS, BBN_SC_STATUS.LAST]; omega) _) h).trans (rd_congr (s.frameClosed_regs c) _)

theorem State.frameCompleted_worst {s : State} (h : s.Canon) {c : Nat} (ns : Nat) (hcls : (s.stream c).cls = 0) :
    (s.frameCompleted c ns).rd BBN_CLASS_A.WORST_NS = max (s.rd BBN_CLASS_A.WORST_NS) (min ns 65535) := by
  unfold frameCompleted
  rw [endRaised_rd, hcls, latencyShown_worst (keyHeld_canon (frameEnded_canon h c) c _), keyHeld_rd (frameEnded_canon h c) _
    (by simp only [Fld.apart, BBN_CLASS_A.WORST_NS, BBN_SC_STATUS.AWAIT_KEY]; omega) (by decide), frameEnded_worst h c]

/-! ### Lost frames -/

theorem exec_streamFrameTimeout {s : State} (hr : s.ready = true) {c : Nat} (hc : c < 256) (hopen : s.inFrame c = true) :
    exec (.streamFrameTimeout c) s =
      .next ((s.reach ((s.stream c).began + 1000000 * (s.stream c).timeout)).loseFrame c 3) := by
  change execStreamFrameTimeout c s = _
  rw [execStreamFrameTimeout, State.inService_ready hr, if_pos ⟨hc, hopen⟩]

theorem State.loseFrame_closed {s : State} {c : Nat} (h : s.inFrame c = false) (k : Nat) : s.loseFrame c k = s :=
  if_neg (ne_true_of_eq_false h)

/-- The state in which the loss of a frame is counted with its cause (R385). -/
def State.lossShown (s : State) (c k : Nat) : State :=
  ((s.bump (BBN_SC_FRAMES.LOST c) 1).wr (BBN_SC_STATUS.LOST_CAUSE c) k).raise 294

theorem State.countLost_eq (s : State) (c k : Nat) : s.countLost c k =
    if bitsOf (s.stream c).cfg 1 2 == 1 then (s.lossShown c k).wr (BBN_SC_STATUS.AWAIT_KEY c) 1 else s.lossShown c k := rfl

theorem State.lossShown_canon {s : State} (h : s.Canon) (c k : Nat) : (s.lossShown c k).Canon := by
  unfold lossShown
  rw [raise_canon]
  exact wr_canon (bump_canon h _ _) _ _

/-- KEY awaited or not, a field apart from AWAIT_KEY reads as the loss left it. -/
theorem State.countLost_rd {s : State} (h : s.Canon) {c : Nat} (k : Nat) {f : Fld} (hf : f.apart (BBN_SC_STATUS.AWAIT_KEY c))
    (hi : f.hi < 64) : (s.countLost c k).rd f = (s.lossShown c k).rd f := by
  rw [countLost_eq]
  split
  · exact rd_wr_apart (lossShown_canon h c k) _ hf hi
  · rfl

theorem State.countLost_cause {s : State} (h : s.Canon) {c k : Nat} (hk : k < 16) :
    (s.countLost c k).rd (BBN_SC_STATUS.LOST_CAUSE c) = k := by
  rw [countLost_rd h k (by simp only [Fld.apart, BBN_SC_STATUS.LOST_CAUSE, BBN_SC_STATUS.AWAIT_KEY]; omega)
    (of_decide_eq_true rfl), lossShown, raise_rd]
  refine (rd_wr (bump_canon h _ _) (BBN_SC_STATUS.LOST_CAUSE c) k (of_decide_eq_true rfl)).trans (Nat.mod_eq_of_lt ?_)
  simp only [BBN_SC_STATUS.LOST_CAUSE]
  omega

theorem State.countLost_count {s : State} (h : s.Canon) (c k : Nat) :
    (s.countLost c k).rd (BBN_SC_FRAMES.LOST c) = min (s.rd (BBN_SC_FRAMES.LOST c) + 1) 65535 := by
  rw [countLost_rd h k (by simp only [Fld.apart, BBN_SC_FRAMES.LOST, BBN_SC_STATUS.AWAIT_KEY]; omega)
    (of_decide_eq_true rfl), lossShown, raise_rd, rd_wr_apart (bump_canon h _ _) _
    (by simp only [Fld.apart, BBN_SC_FRAMES.LOST, BBN_SC_STATUS.LOST_CAUSE]; omega) (of_decide_eq_true rfl)]
  exact rd_bump h (BBN_SC_FRAMES.LOST c) 1 (of_decide_eq_true rfl)

theorem State.countLost_await {s : State} (h : s.Canon) {c : Nat} (k : Nat) (htile : bitsOf (s.stream c).cfg 1 2 = 1) :
    (s.countLost c k).rd (BBN_SC_STATUS.AWAIT_KEY c) = 1 := by
  rw [countLost_eq, if_pos (beq_iff_eq.2 htile)]
  exact rd_wr (lossShown_canon h c k) (BBN_SC_STATUS.AWAIT_KEY c) 1 (of_decide_eq_true rfl)

/-- Settles O55. -/
theorem streamsAreIngested : Obligations.StreamsAreIngested := by
  unfold Obligations.StreamsAreIngested
  refine ⟨?frame, ?enable, fun s c w h hc hoff => exec_streamEnable_off h hc hoff, ?complete,
    fun s c hr hc hopen => exec_streamFrameTimeout hr hc hopen,
    fun s c k hinv hc hk => ⟨State.countLost_cause hinv.1 hk, State.countLost_count hinv.1 c k, State.countLost_await hinv.1 k⟩,
    fun s c k h => State.loseFrame_closed h k⟩
  case frame =>
    intro s x hr hp hlink y z damaged
    exact ⟨exec_bbnFrameRx_damaged hr hp hlink, exec_bbnFrameRx_gptp hr hp hlink, exec_bbnFrameRx_stranger hr hp hlink,
      fun n f hgood hgptp haccepts hflow => exec_bbnFrameRx_flow hr hp hlink hgood hgptp haccepts hflow⟩
  case enable =>
    intro s c w hinv hopen hc hon hactive surf
    have hcanon : (s.streamCfg c w).Canon := State.streamCfg_canon hinv.1 c w
    refine ⟨fun hcode => ?_, fun hcode => ?_⟩
    · refine ⟨_, (exec_streamEnable_on hinv hopen hc hon hactive).trans (congrArg _ (if_pos hcode)), ?_, ?_, ?_⟩
      · exact State.rd_wrs_mem (v := 0) (of_decide_eq_true rfl) (streamRefusal_pairwise c _) (by simp [streamRefusal]) hcanon
      · rw [State.rd_wrs_apart (of_decide_eq_true rfl) (streamRefusal_active c _) hcanon, State.streamCfg_active hinv.1]
        exact State.rd_eq_zero rfl hactive
      · exact (State.rd_wrs_mem (v := s.streamCheck w.toNat (s.streamSurf c)) (of_decide_eq_true rfl)
          (streamRefusal_pairwise c _) (by simp [streamRefusal]) hcanon).trans (Nat.mod_eq_of_lt (s.streamCheck_lt _ _))
    · have hreads : ∀ p ∈ streamStart c w.toNat, p.1.hi < 64 →
          ((s.streamCfg c w).streamStarted c w.toNat).rd p.1 = p.2 % 2 ^ (p.1.hi + 1 - p.1.lo) := fun p hp hi =>
        State.rd_wrs_mem hi (streamStart_pairwise c w.toNat) hp (by rw [State.setStream_canon]; exact hcanon)
      refine ⟨_, (exec_streamEnable_on hinv hopen hc hon hactive).trans (congrArg _ (if_neg (not_not_intro hcode))), ?_, ?_, ?_, ?_,
        ?_, ?_⟩
      · exact hreads (BBN_SC_CFG.ENABLE c, 1) (by simp [streamStart]) (of_decide_eq_true rfl)
      · exact hreads (BBN_SC_STATUS.ACTIVE c, 1) (by simp [streamStart]) (of_decide_eq_true rfl)
      · exact hreads (BBN_SC_STATUS.CFG_CODE c, 0) (by simp [streamStart]) (of_decide_eq_true rfl)
      · exact hreads (BBN_SC_STATUS.IN_FRAME c, 0) (by simp [streamStart]) (of_decide_eq_true rfl)
      · exact hreads (BBN_SC_STATUS.HAVE_FRAME c, 0) (by simp [streamStart]) (of_decide_eq_true rfl)
      · refine (hreads (BBN_SC_STATUS.AWAIT_KEY c, b2n (bitsOf w.toNat 1 2 == 1)) (by simp [streamStart])
          (of_decide_eq_true rfl)).trans ?_
        cases (bitsOf w.toNat 1 2 == 1) <;> rfl
  case complete =>
    intro s c ns hinv hr hc hopen hlast
    have hside : (s.stream c).side % 2 ^ ((BBN_SC_STATUS.LAST c).hi + 1 - (BBN_SC_STATUS.LAST c).lo) = (s.stream c).side % 2 := rfl
    have hstatus : ∀ p ∈ frameEnd c (s.stream c).side, p.1.off = (BBN_SC_STATUS.LAST c).off → p.1.hi < 4 →
        (s.frameCompleted c ns).rd p.1 = p.2 % 2 ^ (p.1.hi + 1 - p.1.lo) := by
      intro p hp hoff hi
      simp only [BBN_SC_STATUS.LAST] at hoff
      rw [State.frameCompleted_rd hinv.1 ns (by simp only [Fld.apart, BBN_SC_STATUS.AWAIT_KEY]; omega)
        (by simp only [BBN_SC_CFG.ENABLE]; omega) (by omega)]
      exact State.frameEnded_status hinv.1 hp (by simp only [Fld.apart, BBN_SC_FRAMES.COMPLETE]; omega) (by omega)
    refine ⟨s.frameCompleted c ns, exec_streamFrameComplete hr hc hopen hlast ns, ?_, ?_, ?_, ?_,
      fun hkey halt => State.frameCompleted_await hinv.1 ns hkey halt, fun hcls => State.frameCompleted_worst hinv.1 ns hcls⟩
    · exact hstatus (BBN_SC_STATUS.IN_FRAME c, 0) (by simp [frameEnd]) rfl (of_decide_eq_true rfl)
    · exact (hstatus (BBN_SC_STATUS.LAST c, (s.stream c).side) (by simp [frameEnd]) rfl (of_decide_eq_true rfl)).trans hside
    · exact hstatus (BBN_SC_STATUS.HAVE_FRAME c, 1) (by simp [frameEnd]) rfl (of_decide_eq_true rfl)
    · rw [State.frameCompleted_rd hinv.1 ns (by simp only [Fld.apart, BBN_SC_FRAMES.COMPLETE, BBN_SC_STATUS.AWAIT_KEY]; omega)
        (by simp only [BBN_SC_CFG.ENABLE, BBN_SC_FRAMES.COMPLETE]; omega) (of_decide_eq_true rfl)]
      exact State.frameEnded_complete hinv.1 c

end Sys2Proof.Machine
end

section
/-! The commands of the memory stack (R397 to R399, R402 to R407, R409 to R412, R414). -/

namespace Sys2Proof.Machine

/-! ### The address map -/

theorem exec_mapApply {s : State} (h : s.Open) : exec .mapApply s = .next s.mapApply := by
  change execMapApply s = _
  rw [execMapApply, State.setup_open h]

theorem State.mapApply_invalid {s : State} (hbad : masksOk s.masksWritten = false) :
    s.mapApply = (s.wr STK_STATUS.MAP_CODE 0x71).raise 279 := by
  rw [mapApply, hbad]
  rfl

theorem State.mapApply_busy {s : State} (hok : masksOk s.masksWritten = true) (hbusy : s.stackBusy = true) :
    s.mapApply = (s.wr STK_STATUS.MAP_CODE 0x72).raise 279 := by
  rw [mapApply, hok, hbusy]
  rfl

/-- The state in which the masks written are in force and show (R399). -/
def State.mapped (s : State) : State :=
  ({ s with stk := { s.stk with masks := s.masksWritten } } : State).wrs
    ((s.masksWritten.zipIdx).map fun p => (STK_MAP_INFORCE.MASK p.2, p.1))

theorem State.mapped_canon {s : State} (h : s.Canon) : s.mapped.Canon := wrs_canon h

theorem State.mapped_masks (s : State) : s.mapped.stk.masks = s.masksWritten := by rw [mapped, wrs_stk]

theorem State.mapApply_valid {s : State} (hok : masksOk s.masksWritten = true) (hfree : s.stackBusy = false) :
    s.mapApply = (s.mapped.wr STK_STATUS.MAP_CODE 0).raise 279 := by
  rw [mapApply, hok, hfree]
  rfl

/-! ### Arbitration and refresh -/

theorem exec_agedTierJoin {s : State} {pc req at_ : Nat} {a : Bool} (hr : s.ready = true) (hpc : pc < 32) (hreq : req < 90)
    (hcls : 2 ≤ requesterClass req) (harrived : at_ ≤ s.now)
    (hjoins : at_ + s.ageLimit (requesterClass req) ≤ s.now ∨ (requesterClass req = 3 ∧ s.c3Moved pc < s.c3Floor) ∨
      a = true ∧ req = 87) (issued : Nat) :
    exec (.agedTierJoin pc req at_ issued a) s = .next { s with stk := { s.stk with
      aged := joinAged (pc, req, at_) (dropAged pc issued s.stk.aged) } } := by
  change execAgedTierJoin pc req at_ issued a s = _
  rw [execAgedTierJoin, State.inService_ready hr]
  refine congrArg _ (if_pos ⟨hpc, hreq, hcls, harrived, ?_⟩)
  simpa only [Bool.and_eq_true, beq_iff_eq, decide_eq_true_eq] using hjoins

theorem exec_c3Window {s : State} {pc : Nat} (hr : s.ready = true) (hpc : pc < 32) (issued : Nat) :
    exec (.c3Window pc issued) s = .next { s with stk := { s.stk with
      c3 := Tbl.put (fun _ => 0) pc 0 s.stk.c3, aged := dropAged pc issued s.stk.aged } } := by
  change execC3Window pc issued s = _
  rw [execC3Window, State.inService_ready hr, if_pos hpc]

theorem exec_refreshBoundary {s : State} {pc : Nat} (hr : s.ready = true) (hpc : pc < 32) (n : Nat) (c0 : Bool) :
    exec (.refreshBoundary pc n c0) s = .next (s.refreshBoundary pc n c0) := by
  change execRefreshBoundary pc n c0 s = _
  rw [execRefreshBoundary, State.inService_ready hr, if_pos hpc]

theorem exec_stackTempRead_good {s : State} (hr : s.ready = true) (t : Int) :
    let z := s.wrs [(STK_TEMP.READING, toField t 8), (STK_TEMP.VALID, 1)]
    exec (.stackTempRead true t) s = .next (if 86 ≤ t then z.setHot true else if t ≤ 82 then z.setHot false else z) := by
  change execStackTempRead true t s = _
  rw [execStackTempRead, State.inService_ready hr, if_pos rfl]

theorem exec_stackTempRead_failed {s : State} (hr : s.ready = true) (t : Int) :
    exec (.stackTempRead false t) s = .next (((s.bump STK_TEMP.FAILS 1).raise 277).setHot true) := by
  change execStackTempRead false t s = _
  rw [execStackTempRead, State.inService_ready hr, if_neg Bool.false_ne_true]

/-! ### Tracking -/

/-- The step of a lane's tracking. -/
def trackStep (up : Bool) : Int := if up then 1 else -1

/-- The drift to which a lane would come (R409). -/
def State.driftNext (s : State) (lane : Nat) (up : Bool) : Int := signedOf (s.rd (STK_LANE.DRIFT lane)) 3 + trackStep up

/-- A delay of a lane after its step, within the range of the delays. -/
def State.delayNext (s : State) (f : Fld) (up : Bool) : Nat := (clampI ((s.rd f : Int) + trackStep up) 0 127).toNat

/-- The fields that a lane's step writes (R409). -/
def trackWrites (lane rd wr drift : Nat) : List (Fld × Nat) :=
  [(STK_LANE.RD_DELAY lane, rd), (STK_LANE.WR_DELAY lane, wr), (STK_LANE.DRIFT lane, drift)]

/-- The state after a lane's step (R409). -/
def State.tracked (s : State) (lane : Nat) (up : Bool) : State :=
  s.wrs (trackWrites lane (s.delayNext (STK_LANE.RD_DELAY lane) up) (s.delayNext (STK_LANE.WR_DELAY lane) up)
    (toField (s.driftNext lane up) 3))

theorem trackWrites_pairwise (lane rd wr drift : Nat) : (trackWrites lane rd wr drift).Pairwise fun p q => p.1.apart q.1 := by
  simp only [trackWrites, List.pairwise_cons, List.forall_mem_cons, List.not_mem_nil, Fld.apart, STK_LANE.RD_DELAY,
    STK_LANE.WR_DELAY, STK_LANE.DRIFT, false_imp_iff, implies_true, List.Pairwise.nil, and_true]
  omega

theorem exec_laneTrack {s : State} {lane : Nat} (hr : s.ready = true) (hlane : lane < 128) (hon : s.flag STK_CFG.TRACK = true)
    (up : Bool) : exec (.laneTrack lane up) s = .next
      (if s.driftNext lane up < -2 ∨ 2 < s.driftNext lane up then
        if s.flag (STK_LANE.AT_LIMIT lane) then s else (s.wr (STK_LANE.AT_LIMIT lane) 1).raise 276
      else s.tracked lane up) := by
  change execLaneTrack lane up s = _
  rw [execLaneTrack, State.inService_ready hr]
  refine congrArg _ (if_neg ?_)
  rintro (hpast | hoff)
  · omega
  · rw [hon] at hoff
    cases hoff

theorem State.delayNext_lt (s : State) (f : Fld) (up : Bool) : s.delayNext f up < 2 ^ 7 := by
  unfold delayNext clampI
  split
  · omega
  · split <;> omega

/-- A drift within the limits reads back from its three bits. -/
theorem signedOf_toField_drift {x : Int} (hlo : -2 ≤ x) (hhi : x ≤ 2) : signedOf (toField x 3 % 2 ^ 3) 3 = x := by
  have hx : x = -2 ∨ x = -1 ∨ x = 0 ∨ x = 1 ∨ x = 2 := by omega
  obtain rfl | rfl | rfl | rfl | rfl := hx <;> rfl

/-! ### Parity and training -/

/-- The state in which a failing burst has been counted, is an error of its pseudo-channel, and is logged (R410, R412). -/
def State.burstFailed (s : State) (a : Nat) : State :=
  let l := locate s.stk.masks a
  ((s.bump (STK_PC_ERR.REPLAYS (pcOfLoc l)) 1).error eStack (pcOfLoc l)).logRow (pcOfLoc l) (bankOfLoc l) (rowOfLoc l) 1

theorem exec_stackParityFail {s : State} {a n : Nat} (hr : s.ready = true) (ha : a < stackBytes) (hn : 1 ≤ n)
    (hmax : n ≤ s.replayMax + 1) (hserves : s.pcFenced (s.pcOf a) = false) (v : StackVictim) :
    exec (.stackParityFail v a n) s = .next (if n = (s.burstFailed a).replayMax + 1 then
      (((s.burstFailed a).bump STK_REPLAY.EXHAUSTED 1).raise 272).exhausted v a else s.burstFailed a) := by
  change execStackParityFail v a n s = _
  rw [execStackParityFail, State.inService_ready hr, if_pos ⟨ha, hn, hmax, by rw [hserves]; rfl⟩]
  rfl

theorem exec_pcRetrainEnd {s : State} {pc : Nat} (hr : s.ready = true) (htrains : s.stk.retraining.contains pc = true)
    (ws : List LaneSweep) :
    let x : State := { s with stk := { s.stk with retraining := s.stk.retraining.filter (· ≠ pc) } }
    let z := x.trainPc pc ws
    exec (.pcRetrainEnd pc ws) s =
      .next (if z.pcTrained pc then (z.setPcFenced pc false).returned 0 pc else z.endUnfences 0 pc cFenced 1) := by
  change execPcRetrainEnd pc ws s = _
  rw [execPcRetrainEnd, State.inService_ready hr, if_pos htrains]

/-! ### UNFENCE -/

/-- What an UNFENCE of a unit in range comes to (R414, R445). -/
def State.unfences (s : State) (r t i : Nat) : Res :=
  if !s.unitFenced t i then .done s cDone 0
  else if s.selfFenced t i then .done s cFenced 2
  else .wait (s.awaitReturn r t i) .unfence

theorem exec_unfence {s : State} {r : Nat} {d : Desc} (hdue : s.Due r 0x04 d) (hclean : s.Clean d [(8, 0, 3), (9, 0, 3), (10, 0, 16)])
    (hidx : dIndex d = 0) (htype : dF d 8 0 3 < 4) (hkind : dF d 9 0 3 = 0)
    (hrange : unfenceRange (dF d 8 0 3) 0 (dF d 10 0 16) = true) :
    exec (.unfence r) s = .next (s.apply r d (s.unfences r (dF d 8 0 3) (dF d 10 0 16))) := by
  rw [exec_due hdue (body := unfenceBody) rfl]
  unfold unfenceBody
  dsimp only
  rw [State.checked_clean hclean _ rfl rfl, if_neg (by omega)]
  · rfl
  · rw [hidx, hkind, hrange, decide_eq_true (Nat.le_of_lt htype)]
    simp

/-- Settles O56. -/
theorem theStackIsKept : Obligations.TheStackIsKept := by
  unfold Obligations.TheStackIsKept
  refine ⟨fun s h hbad => (exec_mapApply h).trans (congrArg _ (State.mapApply_invalid hbad)),
    fun s h hok hbusy => (exec_mapApply h).trans (congrArg _ (State.mapApply_busy hok hbusy)), ?map,
    fun s pc req at_ issued a hr hpc hreq hcls harrived hjoins => exec_agedTierJoin hr hpc hreq hcls harrived hjoins issued,
    fun s pc issued hr hpc => exec_c3Window hr hpc issued, fun s pc n c0 hr hpc => exec_refreshBoundary hr hpc n c0, ?temperature,
    ?track, fun s v a n hr ha hn hmax hserves => exec_stackParityFail hr ha hn hmax hserves v,
    fun s pc ws hr htrains => exec_pcRetrainEnd hr htrains ws, ?unfence⟩
  case map =>
    intro s hinv hopen hok hfree
    refine ⟨_, (exec_mapApply hopen).trans (congrArg _ (State.mapApply_valid hok hfree)), ?_, ?_⟩
    · rw [State.raise_stk, State.wr_stk]
      exact s.mapped_masks
    · rw [State.raise_rd]
      exact State.rd_wr (State.mapped_canon hinv.1) STK_STATUS.MAP_CODE 0 (by decide)
  case temperature =>
    intro s t hr z
    refine ⟨fun hhot => ?_, fun hnormal => ?_, fun hlo hhi => ?_, exec_stackTempRead_failed hr t⟩
    · rw [exec_stackTempRead_good hr, if_pos hhot]
    · rw [exec_stackTempRead_good hr, if_neg (by omega), if_pos hnormal]
    · rw [exec_stackTempRead_good hr, if_neg (by omega), if_neg (by omega)]
  case track =>
    intro s lane up hinv hr hlane hon d drift
    refine ⟨fun hlo hhi => ?_, fun hpast hfree => ?_, fun hpast hheld => ?_⟩
    · have hreads : ∀ p ∈ trackWrites lane (s.delayNext (STK_LANE.RD_DELAY lane) up) (s.delayNext (STK_LANE.WR_DELAY lane) up)
          (toField (s.driftNext lane up) 3), p.1.hi < 64 → (s.tracked lane up).rd p.1 = p.2 % 2 ^ (p.1.hi + 1 - p.1.lo) :=
        fun p hp hi => State.rd_wrs_mem hi (trackWrites_pairwise ..) hp hinv.1
      refine ⟨s.tracked lane up, ?_, ?_, ?_, ?_⟩
      · have hin : ¬ (s.driftNext lane up < -2 ∨ 2 < s.driftNext lane up) := by
          rintro (hlt | hlt)
          · exact absurd hlo (Int.not_le.2 hlt)
          · exact absurd hhi (Int.not_le.2 hlt)
        rw [exec_laneTrack hr hlane hon, if_neg hin]
      · exact (hreads (STK_LANE.RD_DELAY lane, s.delayNext (STK_LANE.RD_DELAY lane) up) (by simp [trackWrites])
          (of_decide_eq_true rfl)).trans
          (Nat.mod_eq_of_lt (s.delayNext_lt _ _))
      · exact (hreads (STK_LANE.WR_DELAY lane, s.delayNext (STK_LANE.WR_DELAY lane) up) (by simp [trackWrites])
          (of_decide_eq_true rfl)).trans
          (Nat.mod_eq_of_lt (s.delayNext_lt _ _))
      · rw [hreads (STK_LANE.DRIFT lane, toField (s.driftNext lane up) 3) (by simp [trackWrites]) (of_decide_eq_true rfl)]
        exact signedOf_toField_drift hlo hhi
    · have hout : s.driftNext lane up < -2 ∨ 2 < s.driftNext lane up := hpast
      rw [exec_laneTrack hr hlane hon, if_pos hout, if_neg (ne_true_of_eq_false hfree)]
    · have hout : s.driftNext lane up < -2 ∨ 2 < s.driftNext lane up := hpast
      rw [exec_laneTrack hr hlane hon, if_pos hout, if_pos hheld]
  case unfence =>
    intro s r d hdue hclean hidx htype hkind hrange
    refine ⟨fun hfree => ?_, fun hfenced hself => ?_, fun hfenced hself => ?_⟩
    · rw [exec_unfence hdue hclean hidx htype hkind hrange, State.unfences, hfree]
      rfl
    · rw [exec_unfence hdue hclean hidx htype hkind hrange, State.unfences, hfenced, hself]
      rfl
    · rw [exec_unfence hdue hclean hidx htype hkind hrange, State.unfences, hfenced, hself]
      rfl

end Sys2Proof.Machine
end

section
/-! Rail power, the case sensor and the ceiling (R464, R465, R467, R469, R473). -/

namespace Sys2Proof.Machine

/-! ### The model's update -/

/-- The state in which the rails of a millisecond are read and their sum shows (R462, R463). -/
def State.railsRead (s : State) (l : List RailMs) : State :=
  let y := (List.range 10).foldl (fun (s : State) r => s.railRead r (l.getD r none)) s
  y.wr THM_POWER.TOTAL_MW (min 131071 y.totalMw)

theorem exec_thermalModelUpdate {s : State} (hp : s.powered = true) (l : List RailMs) :
    exec (.thermalModelUpdate l) s = .next (s.thermalUpdate l) := congrArg _ (if_pos hp)

/-- Without a case reading only the mean power goes on (R467). -/
theorem State.thermalUpdate_noCase {s : State} {l : List RailMs} (hnone : (s.railsRead l).thm.caseAt = none) :
    s.thermalUpdate l = { s.railsRead l with thm := { (s.railsRead l).thm with
      powerSum := (s.railsRead l).thm.powerSum + (s.railsRead l).totalMw, powerN := (s.railsRead l).thm.powerN + 1 } } := by
  have hcase : (s.railsRead l).thm.caseAt.isNone = true := by
    rw [hnone]
    rfl
  exact if_pos hcase

/-! ### The case sensor -/

/-- A case reading that stands (R465). -/
def goodCase (ok : Bool) (v : Int) : Bool := ok && decide (-55 * 256 ≤ v) && decide (v ≤ 150 * 256)

theorem goodCase_iff (ok : Bool) (v : Int) : goodCase ok v = true ↔ ok = true ∧ -14080 ≤ v ∧ v ≤ 38400 := by
  change (ok && decide (-14080 ≤ v) && decide (v ≤ 38400)) = true ↔ _
  simp only [Bool.and_eq_true, decide_eq_true_eq, and_assoc]

/-- The state with a case reading taken, good or bad (R464, R465). -/
def State.caseTaken (s : State) (ok : Bool) (v : Int) : State :=
  { s with thm := { s.thm with
    case := if goodCase ok v then v else 105 * 256, caseAt := some s.now, caseOk := goodCase ok v
    caseFails := min 3 (if goodCase ok v then 0 else s.thm.caseFails + 1) } }

/-- What a case reading shows leaves what it took. -/
theorem State.caseRead_thm (s : State) (ok : Bool) (v : Int) : (s.caseRead ok v).thm = (s.caseTaken ok v).thm := by
  have hshown : Keeps [.ic, .pwr] (s.caseTaken ok v) (s.caseRead ok v) := by
    have htemp : Keeps [.ic, .pwr] (s.caseTaken ok v) ((s.caseTaken ok v).showTemp THM_CASE.CASE (s.caseTaken ok v).thm.case 256) :=
      State.showTemp_keeps (Keeps.refl _)
    refine Keeps.ite (State.raise_keeps (by decide) ?_) ?_
    · exact State.showWindow_keeps (by decide) (Keeps.ite htemp (State.bump_keeps htemp))
    · exact State.showWindow_keeps (by decide) (Keeps.ite htemp (State.bump_keeps htemp))
  exact (hshown.parts .thm).resolve_left (by decide)

theorem exec_caseSensorRead {s : State} (hp : s.powered = true) (hon : s.ready = true ∨ 3 ≤ s.pwr.step) (ok : Bool) (v : Int) :
    exec (.caseSensorRead ok v) s = .next (s.caseRead ok v) := congrArg _ (if_pos ⟨hp, hon⟩)

/-! ### The ceiling -/

/-- The bits of THM_STATUS that show the ceiling (R469). -/
def ceilWrites (s : State) (c : Nat) : List (Fld × Nat) :=
  [(THM_STATUS.CEIL_NOW, c), (THM_STATUS.THROTTLED, b2n (decide (c < s.ceilHost))), (THM_STATUS.AT_FLOOR, b2n (c == 40))]

theorem ceilWrites_pairwise (s : State) (c : Nat) : (ceilWrites s c).Pairwise fun p q => p.1.apart q.1 := by
  simp only [ceilWrites, List.pairwise_cons, List.forall_mem_cons, List.not_mem_nil, Fld.apart, THM_STATUS.CEIL_NOW,
    THM_STATUS.THROTTLED, THM_STATUS.AT_FLOOR, false_imp_iff, implies_true, List.Pairwise.nil, and_true]
  omega

/-- The counters of the ceiling's changes stand apart from its bits. -/
theorem ceilWrites_counts (s : State) (c : Nat) {f : Fld} (hf : f.off = THM_COUNTS.LOWERED.off) :
    ∀ p ∈ ceilWrites s c, f.apart p.1 := by
  simp only [THM_COUNTS.LOWERED] at hf
  simp only [ceilWrites, List.forall_mem_cons, List.not_mem_nil, Fld.apart, THM_STATUS.CEIL_NOW, THM_STATUS.THROTTLED,
    THM_STATUS.AT_FLOOR, false_imp_iff, implies_true, and_true]
  omega

theorem State.showCeil_canon {s : State} (h : s.Canon) (c : Nat) : (s.showCeil c).Canon := wrs_canon h

theorem State.showCeil_ceilNow {s : State} (h : s.Canon) {c : Nat} (hc : c < 64) : (s.showCeil c).ceilNow = c :=
  (rd_wrs_mem (v := c) (by decide) (ceilWrites_pairwise s c) (by simp [ceilWrites]) h).trans (Nat.mod_eq_of_lt hc)

theorem State.showCeil_count {s : State} (h : s.Canon) (c : Nat) {f : Fld} (hf : f.off = THM_COUNTS.LOWERED.off) (hi : f.hi < 64) :
    (s.showCeil c).rd f = s.rd f := rd_wrs_apart hi (ceilWrites_counts s c hf) h

/-- The ceiling shows `c`, a change counted by `f`, and source 300 is raised (R469). -/
def State.ceilMoved (s : State) (c : Nat) (f : Fld) : State := ((s.showCeil c).bump f 1).raise 300

theorem State.ceilMoved_ceilNow {s : State} (h : s.Canon) {c : Nat} (hc : c < 64) {f : Fld} (hf : f.off = THM_COUNTS.LOWERED.off) :
    (s.ceilMoved c f).ceilNow = c := by
  refine (raise_rd ..).trans ((rd_bump_apart (showCeil_canon h c) 1 ?_ (by decide)).trans (showCeil_ceilNow h hc))
  simp only [THM_COUNTS.LOWERED] at hf
  simp only [Fld.apart, THM_STATUS.CEIL_NOW]
  omega

theorem State.ceilMoved_count {s : State} (h : s.Canon) (c : Nat) {f : Fld} (hf : f.off = THM_COUNTS.LOWERED.off) (hi : f.hi < 64) :
    (s.ceilMoved c f).rd f = min (s.rd f + 1) (2 ^ (f.hi + 1 - f.lo) - 1) := by
  rw [ceilMoved, raise_rd, rd_bump (showCeil_canon h c) f 1 hi, showCeil_count h c hf hi]

theorem State.ceilMoved_thm (s : State) (c : Nat) (f : Fld) : (s.ceilMoved c f).thm = s.thm := by
  rw [ceilMoved, raise_thm, bump_thm, showCeil, wrs_thm]

theorem State.ceilNow_lt (s : State) : s.ceilNow < 64 := s.rd_lt THM_STATUS.CEIL_NOW

theorem State.ceilHost_lt (s : State) : s.ceilHost < 64 := by
  unfold ceilHost nearer clampN
  split
  · omega
  · split <;> omega

/-- The state in which the mean power starts again (R469). -/
def State.meanCleared (s : State) : State := { s with thm := { s.thm with powerSum := 0, powerN := 0 } }

/-- The state in which it is also noted that the ceiling was lowered. -/
def State.lowering (s : State) : State := { s.meanCleared with thm := { s.meanCleared.thm with loweredAt := some s.now } }

theorem exec_ceilingDecision {s : State} (hr : s.ready = true) : exec .ceilingDecision s = .next s.ceilingDecision := by
  change execCeilingDecision s = _
  rw [execCeilingDecision, State.inService_ready hr]

theorem State.ceilingDecision_lowers {s : State} (hhot : s.onHot s.tHigh ≤ s.hotMax ∨ 1000 * s.ceilNow * s.thm.powerN < s.thm.powerSum)
    (habove : 40 < s.ceilNow) :
    s.ceilingDecision = s.lowering.ceilMoved (max 40 (s.ceilNow - s.ceilStep)) THM_COUNTS.LOWERED := if_pos ⟨hhot, habove⟩

theorem State.ceilingDecision_raises {s : State} (hcool : s.hotMax < s.onHot s.tHigh)
    (hfits : s.thm.powerSum ≤ 1000 * s.ceilNow * s.thm.powerN) (hhyst : s.hotMax ≤ s.onHot (s.tHigh - s.tHyst : Nat))
    (hstep : s.thm.powerSum ≤ 1000 * (s.ceilNow - s.ceilStep) * s.thm.powerN) (hbelow : s.ceilNow < s.ceilHost) :
    s.ceilingDecision = s.meanCleared.ceilMoved (min s.ceilHost (s.ceilNow + s.ceilStep)) THM_COUNTS.RAISED := by
  refine (if_neg ?_).trans (if_pos ⟨hhyst, hstep, hbelow⟩)
  rintro ⟨hhot | hmean, -⟩
  · exact absurd hcool (Int.not_lt.2 hhot)
  · exact absurd hfits (Nat.not_le.2 hmean)

/-! ### A written ceiling -/

/-- What a write of THM_CFG stores. -/
def ceilCfgWrites (x : Nat) : List (Fld × Nat) :=
  [(THM_CFG.CEILING, bitsOf x 0 6), (THM_CFG.STEP_W, bitsOf x 6 3), (THM_CFG.INTERVAL, bitsOf x 16 5), (THM_CFG.EXPERT, bitsOf x 31 1)]

theorem ceilCfgWrites_apart {f : Fld} (hf : THM_CFG.CEILING.off + 4 ≤ f.off) (x : Nat) : ∀ p ∈ ceilCfgWrites x, f.apart p.1 := by
  simp only [THM_CFG.CEILING] at hf
  simp only [ceilCfgWrites, List.forall_mem_cons, List.not_mem_nil, Fld.apart, THM_CFG.CEILING, THM_CFG.STEP_W, THM_CFG.INTERVAL,
    THM_CFG.EXPERT, false_imp_iff, implies_true, and_true]
  omega

/-- The state with THM_CFG as written. -/
def State.ceilCfg (s : State) (x : Nat) : State := s.wrs (ceilCfgWrites x)

theorem State.ceilCfg_canon {s : State} (h : s.Canon) (x : Nat) : (s.ceilCfg x).Canon := wrs_canon h

theorem State.ceilCfg_rd {s : State} (h : s.Canon) (x : Nat) {f : Fld} (hf : THM_CFG.CEILING.off + 4 ≤ f.off) (hi : f.hi < 64) :
    (s.ceilCfg x).rd f = s.rd f := rd_wrs_apart hi (ceilCfgWrites_apart hf x) h

theorem exec_ceilingWrite {s : State} (h : s.Open) (w : Word) : exec (.ceilingWrite w) s = .next
    (if (s.ceilCfg w.toNat).ceilHost < (s.ceilCfg w.toNat).ceilNow then
      (s.ceilCfg w.toNat).ceilMoved (s.ceilCfg w.toNat).ceilHost THM_COUNTS.LOWERED
    else (s.ceilCfg w.toNat).showCeil (s.ceilCfg w.toNat).ceilNow) := by
  change execCeilingWrite w s = _
  rw [execCeilingWrite, State.setup_open h]
  rfl

/-- Settles O57. -/
theorem theCeilingFollowsTheHeat : Obligations.TheCeilingFollowsTheHeat := by
  unfold Obligations.TheCeilingFollowsTheHeat
  refine ⟨?model, ?case, ?lower, ?raise, ?write⟩
  case model =>
    intro s l hp y z
    exact ⟨fun hnone => (exec_thermalModelUpdate hp l).trans (congrArg _ (State.thermalUpdate_noCase hnone)),
      exec_thermalModelUpdate hp l⟩
  case case =>
    intro s ok v hp hon
    refine ⟨s.caseRead ok v, exec_caseSensorRead hp hon ok v, ?_, fun hgood => ?_, fun hbad => ?_⟩
    · rw [State.caseRead_thm]
      rfl
    · rw [State.caseRead_thm, State.caseTaken, (goodCase_iff ok v).2 hgood]
      exact ⟨rfl, rfl, rfl⟩
    · rw [State.caseRead_thm, State.caseTaken, Bool.eq_false_iff.2 (mt (goodCase_iff ok v).1 hbad)]
      exact ⟨rfl, rfl, rfl⟩
  case lower =>
    intro s hinv hr habove hhot
    have hlt := s.ceilNow_lt
    refine ⟨_, (exec_ceilingDecision hr).trans (congrArg _ (State.ceilingDecision_lowers hhot habove)), ?_, ?_, ?_, ?_, ?_⟩
    · exact State.ceilMoved_ceilNow (s := s.lowering) hinv.1 (by omega) rfl
    · exact State.ceilMoved_count (s := s.lowering) hinv.1 _ rfl (by decide)
    · rw [State.ceilMoved_thm]
      rfl
    · rw [State.ceilMoved_thm]
      rfl
    · rw [State.ceilMoved_thm]
      rfl
  case raise =>
    intro s hinv hr hcool hfits hhyst hstep hbelow
    have hlt := s.ceilHost_lt
    refine ⟨_, (exec_ceilingDecision hr).trans (congrArg _ (State.ceilingDecision_raises hcool hfits hhyst hstep hbelow)),
      ?_, ?_, ?_, ?_⟩
    · exact State.ceilMoved_ceilNow (s := s.meanCleared) hinv.1 (by omega) rfl
    · exact State.ceilMoved_count (s := s.meanCleared) hinv.1 _ rfl (by decide)
    · rw [State.ceilMoved_thm]
      rfl
    · rw [State.ceilMoved_thm]
      rfl
  case write =>
    intro s w hinv hopen z
    have hcanon : (s.ceilCfg w.toNat).Canon := State.ceilCfg_canon hinv.1 w.toNat
    have hlowered : (s.ceilCfg w.toNat).rd THM_COUNTS.LOWERED = s.rd THM_COUNTS.LOWERED :=
      State.ceilCfg_rd hinv.1 _ (by decide) (by decide)
    refine ⟨fun hbelow => ?_, fun hfits => ?_⟩
    · refine ⟨_, (exec_ceilingWrite hopen w).trans (congrArg _ (if_pos hbelow)), ?_, ?_⟩
      · exact State.ceilMoved_ceilNow hcanon (State.ceilHost_lt _) rfl
      · rw [State.ceilMoved_count hcanon _ rfl (by decide), hlowered]
        rfl
    · refine ⟨_, (exec_ceilingWrite hopen w).trans (congrArg _ (if_neg (Nat.not_lt.2 hfits))), ?_, ?_⟩
      · exact (State.showCeil_ceilNow hcanon (State.ceilNow_lt _)).trans (State.ceilCfg_rd hinv.1 _ (by decide) (by decide))
      · exact (State.showCeil_count hcanon _ rfl (by decide)).trans hlowered

end Sys2Proof.Machine
end

section
/-! Long operations: life-cycle transitions, fuse repair and user self-test (R474, R488 to R494). -/

namespace Sys2Proof.Machine

/-! ### The beginning and the end of a long operation -/

/-- What the beginning of a long operation shows (R98, R489). -/
def beginWrites (kind op : Nat) : List (Fld × Nat) := [(DEV_STATUS.BUSY, 1), (DEV_STATUS.LONG_OP, kind), (SELF_OP_STATUS.OP, op)]

theorem beginWrites_pairwise (kind op : Nat) : (beginWrites kind op).Pairwise fun p q => p.1.apart q.1 := by
  simp only [beginWrites, List.pairwise_cons, List.forall_mem_cons, List.not_mem_nil, Fld.apart, DEV_STATUS.BUSY,
    DEV_STATUS.LONG_OP, SELF_OP_STATUS.OP, false_imp_iff, implies_true, List.Pairwise.nil, and_true]
  omega

section
variable {s : State} (h : s.Canon) (l : LongOp) (kind op : Nat) (refusal : Option Nat)
include h

theorem State.beginLong_busy : (s.beginLong l kind op refusal).rd DEV_STATUS.BUSY = 1 :=
  rd_wrs_mem (v := 1) (by decide) (beginWrites_pairwise kind op) (by simp [beginWrites]) h

theorem State.beginLong_kind {kind : Nat} (hk : kind < 8) : (s.beginLong l kind op refusal).rd DEV_STATUS.LONG_OP = kind :=
  (rd_wrs_mem (v := kind) (by decide) (beginWrites_pairwise kind op) (by simp [beginWrites]) h).trans (Nat.mod_eq_of_lt hk)

theorem State.beginLong_op {op : Nat} (ho : op < 8) : (s.beginLong l kind op refusal).rd SELF_OP_STATUS.OP = op :=
  (rd_wrs_mem (v := op) (by decide) (beginWrites_pairwise kind op) (by simp [beginWrites]) h).trans (Nat.mod_eq_of_lt ho)

end

theorem State.beginLong_pwr (s : State) (l : LongOp) (kind op : Nat) (refusal : Option Nat) : (s.beginLong l kind op refusal).pwr =
    { s.pwr with long := some l, refusal := refusal, stop := if s.pwr.pwrOk then 0 else 2 } := by rw [beginLong, wrs_pwr]

/-- What the end of a long operation clears (R98). -/
def clearWrites : List (Fld × Nat) := [(DEV_STATUS.BUSY, 0), (DEV_STATUS.LONG_OP, 0)]

theorem clearWrites_pairwise : clearWrites.Pairwise fun p q => p.1.apart q.1 := by
  simp [clearWrites, Fld.apart, DEV_STATUS.BUSY, DEV_STATUS.LONG_OP]

theorem State.clearLong_canon {s : State} (h : s.Canon) : s.clearLong.Canon := wrs_canon h

theorem State.clearLong_busy {s : State} (h : s.Canon) : s.clearLong.rd DEV_STATUS.BUSY = 0 :=
  rd_wrs_mem (v := 0) (by decide) clearWrites_pairwise (by simp [clearWrites]) h

theorem State.endLong_canon {s : State} (h : s.Canon) (r : Nat) : (s.endLong r).Canon := wr_canon (clearLong_canon h) _ _

theorem State.endLong_busy {s : State} (h : s.Canon) (r : Nat) : (s.endLong r).rd DEV_STATUS.BUSY = 0 :=
  (rd_wr_apart (clearLong_canon h) r (.inl (by decide)) (by decide)).trans (clearLong_busy h)

theorem State.endLong_result {s : State} (h : s.Canon) {r : Nat} (hr : r < 8) : (s.endLong r).rd SELF_OP_STATUS.RESULT = r :=
  (rd_wr (clearLong_canon h) SELF_OP_STATUS.RESULT r (by decide)).trans (Nat.mod_eq_of_lt hr)

theorem State.endLong_pwr (s : State) (r : Nat) : (s.endLong r).pwr = { s.pwr with long := none, refusal := none, stop := 0 } := by
  rw [endLong, wr_pwr, clearLong, wrs_pwr]

/-! ### Life-cycle transitions -/

theorem exec_toTest {s : State} (h : s.Open) {w : Nat} (hw : bitOf w 0 = true) : exec (.toTest w) s = .next (s.lcWrite w false) := by
  change execToTest w s = _
  rw [execToTest, State.setup_open h, if_pos hw]

theorem exec_toField {s : State} (h : s.Open) {w : Nat} (hw : bitOf w 1 = true) : exec (.toField w) s = .next (s.lcWrite w false) := by
  change execToField w s = _
  rw [execToField, State.setup_open h, if_pos hw]

theorem exec_toReturn {s : State} (h : s.Open) {w : Nat} (hw : bitOf w 2 = true) (sig : Bool) :
    exec (.toReturn w sig) s = .next (s.lcWrite w sig) := by
  change execToReturn w sig s = _
  rw [execToReturn, State.setup_open h, if_pos hw]

/-- The bit that a write of SELF_LC_CTRL asks for (R489). -/
def lcTop (w : Nat) : Nat := if 4 ≤ w then 2 else if 2 ≤ w then 1 else 0

theorem State.lcWrite_eq (s : State) {w : Nat} (hw : w < 8) (sig : Bool) :
    s.lcWrite w sig = s.beginLong (.lifeCycle (lcTop w)) 1 (lcTop w + 1) (s.lcRefusal w sig) := by
  rw [lcWrite, Nat.mod_eq_of_lt hw]
  rfl

theorem lcTop_op (w : Nat) : lcTop w + 1 = if w < 2 then 1 else if w < 4 then 2 else 3 := by
  unfold lcTop
  by_cases h4 : 4 ≤ w
  · rw [if_pos h4, if_neg (by omega), if_neg (by omega)]
  · rw [if_neg h4]
    by_cases h2 : 2 ≤ w
    · rw [if_pos h2, if_neg (by omega), if_pos (by omega)]
    · rw [if_neg h2, if_pos (by omega)]

theorem State.lcRefusal_eq (s : State) (w : Nat) (sig : Bool) : s.lcRefusal w sig =
    if s.lcAllowed ≠ some w then some rRefusedState else if s.flag THM_STATUS.WRITE_OK = false then some rRefusedTemp
    else if w = 4 ∧ s.tokenOk sig = false then some rTokenBad else none := by
  unfold lcRefusal
  simp only [Bool.not_eq_true']

/-- SELF_CHALLENGE drawn afresh where the transition was the one to RETURN (R490). -/
def State.redrawn (s : State) (bit : Nat) : State := if bit = 2 then s.drawChallenge else s

theorem State.redrawn_canon {s : State} (h : s.Canon) (bit : Nat) : (s.redrawn bit).Canon := by
  unfold redrawn
  split
  · exact wr_canon (s := { s with freeCtr := s.freeCtr + 1 }) h _ _
  · exact h

theorem State.redrawn_rd {s : State} (h : s.Canon) (bit : Nat) {f : Fld} (hf : f.apart SELF_CHALLENGE.CHALLENGE) (hi : f.hi < 64) :
    (s.redrawn bit).rd f = s.rd f := by
  unfold redrawn
  split
  · exact rd_wr_apart (s := { s with freeCtr := s.freeCtr + 1 }) h _ hf hi
  · rfl

theorem State.redrawn_pwr (s : State) (bit : Nat) : (s.redrawn bit).pwr = s.pwr := by
  unfold redrawn
  split
  · rw [drawChallenge, wr_pwr]
  · rfl

/-- The state in which a transition has ended with a result (R489, R490). -/
def State.transitioned (s : State) (bit r : Nat) : State :=
  if r = rDone then (((s.endLong r).redrawn bit).wr SELF_LC.PENDING 1).raise 2 else ((s.endLong r).redrawn bit).raise 1

theorem State.transitioned_rd {s : State} (h : s.Canon) (bit r : Nat) {f : Fld} (hc : f.apart SELF_CHALLENGE.CHALLENGE)
    (hp : f.apart SELF_LC.PENDING) (hi : f.hi < 64) : (s.transitioned bit r).rd f = (s.endLong r).rd f := by
  unfold transitioned
  split
  · rw [raise_rd, rd_wr_apart (redrawn_canon (endLong_canon h r) bit) _ hp hi, redrawn_rd (endLong_canon h r) bit hc hi]
  · rw [raise_rd, redrawn_rd (endLong_canon h r) bit hc hi]

theorem State.transitioned_pwr (s : State) (bit r : Nat) :
    (s.transitioned bit r).pwr = { s.pwr with long := none, refusal := none, stop := 0 } := by
  unfold transitioned
  split
  · rw [raise_pwr, wr_pwr, redrawn_pwr, endLong_pwr]
  · rw [raise_pwr, redrawn_pwr, endLong_pwr]

theorem State.transitioned_busy {s : State} (h : s.Canon) (bit r : Nat) : (s.transitioned bit r).rd DEV_STATUS.BUSY = 0 :=
  (transitioned_rd h bit r (.inl (by decide)) (.inl (by decide)) (by decide)).trans (endLong_busy h r)

theorem State.transitioned_result {s : State} (h : s.Canon) (bit : Nat) {r : Nat} (hr : r < 8) :
    (s.transitioned bit r).rd SELF_OP_STATUS.RESULT = r :=
  (transitioned_rd h bit r (.inr (by decide)) (.inr (by decide)) (by decide)).trans (endLong_result h hr)

theorem State.transitioned_pending {s : State} (h : s.Canon) (bit : Nat) : (s.transitioned bit rDone).rd SELF_LC.PENDING = 1 := by
  rw [transitioned, if_pos rfl, raise_rd]
  exact rd_wr (redrawn_canon (endLong_canon h rDone) bit) SELF_LC.PENDING 1 (by decide)

/-- The state in which the three cells of a bit are good (R488). -/
def State.cellsGood (s : State) (bit : Nat) : State :=
  { s with pwr := { s.pwr with fuses := { s.pwr.fuses with cells := setAt s.pwr.fuses.cells bit fun c => c ||| 7 } } }

theorem State.endTransition_refused {s : State} {r : Nat} (h : s.pwr.refusal = some r) (bit n : Nat) (ok : Bool) :
    s.endTransition bit n ok = s.transitioned bit r := by
  rw [endTransition, h]
  rfl

theorem State.endTransition_good {s : State} (h : s.pwr.refusal = none) (bit : Nat) {n : Nat} (hn : 3 ≤ n) :
    s.endTransition bit n true = (s.cellsGood bit).transitioned bit rDone := by
  have hresult : s.fuseResult n 3 true = some rDone := by
    rw [fuseResult, if_neg (by decide), if_pos hn]
  rw [endTransition, h]
  dsimp only
  rw [hresult, if_pos rfl, Nat.min_eq_left hn]
  rfl

theorem exec_longOperationEnd {s : State} (hr : s.ready = true) (x : LongEnd) : exec (.longOperationEnd x) s = .next (s.longEnd x) := by
  change execLongOperationEnd x s = _
  rw [execLongOperationEnd, State.inService_ready hr]

theorem State.longEnd_lifeCycle {s : State} {b : Nat} (h : s.pwr.long = some (.lifeCycle b)) (n : Nat) (ok : Bool) :
    s.longEnd (.fuses n ok) = s.endTransition b n ok := by
  unfold longEnd
  rw [h]

/-! ### Fuse repair and user self-test -/

theorem exec_programRepair {s : State} (h : s.Open) : exec .programRepair s = .next (s.beginLong .repair 1 4
    (if s.rd DEV_STATUS.LC ≠ 1 then some rRefusedState else if s.flag THM_STATUS.WRITE_OK = false then some rRefusedTemp
      else if 8 ≤ s.pwr.fuses.repairs.length then some rFuseFull else none)) := by
  change execProgramRepair s = _
  rw [execProgramRepair, State.setup_open h]
  simp only [Bool.not_eq_true']

/-- The state with the groups of a self-test stored (R494). -/
def State.groupsStored (s : State) (w : Nat) : State := s.wr SELF_BIST_CTRL.GROUPS (w % 4096)

theorem State.groupsStored_rd {s : State} (h : s.Canon) (w : Nat) {f : Fld} (hf : f.off + 4 ≤ SELF_BIST_CTRL.GROUPS.off)
    (hi : f.hi < 32) : (s.groupsStored w).rd f = s.rd f := by
  refine rd_wr_apart h _ (.inl ?_) (by omega)
  simp only [SELF_BIST_CTRL.GROUPS] at hf ⊢
  omega

/-- What a refused self-test shows (R494). -/
def bistRefusal : List (Fld × Nat) := [(SELF_OP_STATUS.OP, 5), (SELF_OP_STATUS.RESULT, rRefusedState)]

theorem bistRefusal_pairwise : bistRefusal.Pairwise fun p q => p.1.apart q.1 := by
  simp [bistRefusal, Fld.apart, SELF_OP_STATUS.OP, SELF_OP_STATUS.RESULT]

/-- A refused self-test leaves BUSY. -/
theorem bistRefusal_busy : ∀ p ∈ bistRefusal, DEV_STATUS.BUSY.apart p.1 := by
  simp only [bistRefusal, List.forall_mem_cons, List.not_mem_nil, Fld.apart, DEV_STATUS.BUSY, SELF_OP_STATUS.OP,
    SELF_OP_STATUS.RESULT, false_imp_iff, implies_true, and_true]
  omega

theorem exec_bistStart {s : State} (hinv : s.Inv) (h : s.Open) {w : Nat} (hw : bitOf w 16 = true) :
    exec (.bistStart w) s = .next
      (if (s.rd DEV_STATUS.LC ≠ 1 ∧ s.rd DEV_STATUS.LC ≠ 3) ∨ w % 4096 = 0 ∨ w % 4096 % 4 ≠ 0 then (s.groupsStored w).wrs bistRefusal
      else
        let l := (List.range 12).filter fun g => bitOf (w % 4096) g
        ((s.groupsStored w).beginLong (.bist l) 3 5 none).beginGroup (l.headD 0)) := by
  rw [← State.groupsStored_rd hinv.1 w (f := DEV_STATUS.LC) (by decide) (by decide)]
  change execBistStart w s = _
  rw [execBistStart, State.setup_open h]
  dsimp only
  rw [hw]
  rfl

theorem State.longEnd_bist {s : State} {g : Nat} {l : List Nat} (h : s.pwr.long = some (.bist (g :: l))) (x : GroupRun) :
    s.longEnd (.group x) = s.endBist (g :: l) x := by
  unfold longEnd
  rw [h]

theorem State.longEnd_idle {s : State} (h : s.pwr.long = none) (x : LongEnd) : s.longEnd x = s := by
  unfold longEnd
  rw [h]

/-- Settles O58. -/
theorem longOperationsRun : Obligations.LongOperationsRun := by
  unfold Obligations.LongOperationsRun
  refine ⟨fun s w sig h => ⟨exec_toTest h, exec_toField h, fun hw => exec_toReturn h hw sig⟩, ?lifeCycle, ?refused, ?good, ?repair,
    ?bistRefused, ?bist, ?group, fun s x h => congrArg _ (State.inService_rest (State.longEnd_idle h x))⟩
  case lifeCycle =>
    intro s w sig hinv hpos hw t
    have ht : t = s.beginLong (.lifeCycle (lcTop w)) 1 (lcTop w + 1) (s.lcRefusal w sig) := s.lcWrite_eq hw sig
    have hop : lcTop w + 1 < 8 := by
      unfold lcTop
      split
      · decide
      · split <;> decide
    rw [ht]
    refine ⟨State.beginLong_busy hinv.1 .., State.beginLong_kind hinv.1 _ _ _ (by decide), ?_, ?_, ?_⟩
    · exact (State.beginLong_op hinv.1 _ _ _ hop).trans (lcTop_op w)
    · rw [State.beginLong_pwr]
      exact s.lcRefusal_eq w sig
    · rw [State.beginLong_pwr]
  case refused =>
    intro s b n r ok hinv hr hlong hrefused hne hlt
    refine ⟨s.transitioned b r, ?_, State.transitioned_busy hinv.1 b r, State.transitioned_result hinv.1 b hlt, ?_, ?_⟩
    · rw [exec_longOperationEnd hr, State.longEnd_lifeCycle hlong, State.endTransition_refused hrefused]
    · rw [State.transitioned_pwr]
    · rw [State.transitioned_pwr]
  case good =>
    intro s b n hinv hr hlong hallowed hn
    have hcanon : (s.cellsGood b).Canon := hinv.1
    refine ⟨(s.cellsGood b).transitioned b rDone, ?_, State.transitioned_busy hcanon b rDone,
      State.transitioned_result hcanon b (by decide), State.transitioned_pending hcanon b, ?_, ?_⟩
    · rw [exec_longOperationEnd hr, State.longEnd_lifeCycle hlong, State.endTransition_good hallowed b hn]
    · rw [State.transitioned_pwr]
    · rw [State.transitioned_pwr]
      rfl
  case repair =>
    intro s hinv hopen
    refine ⟨_, exec_programRepair hopen, State.beginLong_busy hinv.1 .., State.beginLong_op hinv.1 _ _ _ (by decide), ?_, ?_⟩
    · rw [State.beginLong_pwr]
    · rw [State.beginLong_pwr]
  case bistRefused =>
    intro s w hinv hopen hw hbad
    have hcanon : (s.groupsStored w).Canon := State.wr_canon hinv.1 _ _
    have hbusy : s.rd DEV_STATUS.BUSY = 0 := State.rd_eq_zero rfl hopen.2
    refine ⟨_, (exec_bistStart hinv hopen hw).trans (congrArg _ (if_pos ?_)), ?_, ?_, ?_, ?_⟩
    · obtain hlc | hnone | hcore := hbad
      · exact .inl hlc
      · exact .inr (.inl hnone)
      · exact .inr (.inr (by omega))
    · exact State.rd_wrs_mem (v := 5) (by decide) bistRefusal_pairwise (by simp [bistRefusal]) hcanon
    · exact State.rd_wrs_mem (v := rRefusedState) (by decide) bistRefusal_pairwise (by simp [bistRefusal]) hcanon
    · rw [State.rd_wrs_apart (by decide) bistRefusal_busy hcanon, State.groupsStored_rd hinv.1 w (by decide) (by decide), hbusy]
    · rw [State.wrs_pwr, State.groupsStored, State.wr_pwr]
  case bist =>
    intro s w hinv hopen hw hlc hsome hcore l
    refine (exec_bistStart hinv hopen hw).trans (congrArg _ (if_neg ?_))
    omega
  case group =>
    intro s g h l x hr
    refine ⟨fun hlong => ?_, fun hlong => ?_⟩
    · rw [exec_longOperationEnd hr, State.longEnd_bist hlong]
      rfl
    · rw [exec_longOperationEnd hr, State.longEnd_bist hlong]
      rfl

end Sys2Proof.Machine
end
